-- ==== Sys2Proof/Word.lean ====
section
/-! DEFINITION. The word types of the block: bytes, 32-bit registers, byte strings and the sparse map every
bank of state is kept in. Plain types and the plainest arithmetic on them; nothing here is a rule of the spec. -/

namespace Sys2Proof

/-- One byte of the granary, of a message or of a frame. -/
abbrev Byte := BitVec 8

/-- One register (R41: registers are 32 bits wide). -/
abbrev Word := BitVec 32

/-- A byte string, lowest address first. -/
abbrev Bytes := List Byte

/-- A sparse map from a number to a value: keys strictly rising, no entry equal to what an unlisted key reads
as (the default is given at each use). -/
abbrev Map (α : Type) := List (Nat × α)

/-- Bits hi..lo of n, as a number. -/
def fld (n hi lo : Nat) : Nat := (n >>> lo) % 2 ^ (hi + 1 - lo)

/-- Bit i of n. -/
def bit (n i : Nat) : Bool := n.testBit i

/-- n with bits hi..lo replaced by the low bits of v. -/
def putFld (n hi lo v : Nat) : Nat :=
  n - (fld n hi lo) * 2 ^ lo + (v % 2 ^ (hi + 1 - lo)) * 2 ^ lo

/-- A Boolean as one bit. -/
def b2n (b : Bool) : Nat := if b then 1 else 0

/-- The number a little-endian byte string spells (R1: little-endian throughout). -/
def leNat : Bytes → Nat
  | [] => 0
  | b :: bs => b.toNat + 256 * leNat bs

/-- n as len little-endian bytes. -/
def toLE : Nat → Nat → Bytes
  | 0, _ => []
  | len + 1, n => BitVec.ofNat 8 n :: toLE len (n / 256)

/-- len bytes of a string from an offset, zeros beyond its end. -/
def sub (bs : Bytes) (off len : Nat) : Bytes :=
  let t := (bs.drop off).take len
  t ++ List.replicate (len - t.length) 0

/-- The little-endian number in len bytes from an offset. -/
def num (bs : Bytes) (off len : Nat) : Nat := leNat (sub bs off len)

/-- Rounded-up division. -/
def cdiv (a b : Nat) : Nat := (a + b - 1) / b

end Sys2Proof
end

