-- ==== Sys2Proof/Syntax.lean ====
section
/-! DEFINITION. The commands of the block: one constructor per row of spec/opcode_table.json, with the operands that
say which register access, ring, bay, link or unit it concerns and, where the step brings data from outside (a read
completion, a frame, a sensor value), that data. -/

namespace Sys2Proof

/-- Where a register access comes from and what it names: the port, the function (0 MF, 1-8 T0-T7) and the byte offset in
that function's BAR0 (R40, R55). -/
structure Access where
  port : Nat
  func : Nat
  off : Nat
deriving DecidableEq, Repr

/-- A field of a port's configuration space that acts on the module (R291, R294, R297): NumVFs of SR-IOV, Max Payload Size
and Max Read Request Size in bytes, the BAR2 sizes of MF and of the VFs in GiB, and a function's MSI-X Enable and Function
Mask (bits 1 and 0). -/
inductive CfgField where
  | numVfs
  | maxPayload
  | maxRead
  | bar2
  | vfBar2
  | msix (func : Nat)
deriving DecidableEq, Repr

/-- What a PTP message brings (R331): an Announce's data set, or an offset measured with the chosen master (signed
nanoseconds), or the PTP time itself for the step of R36. -/
inductive PtpMsg where
  | announce (priority1 clockClass accuracy variance priority2 identity steps domain : Nat)
  | offset (ns : Int) (domain : Nat)
  | time (ns : Nat) (domain : Nat)
deriving DecidableEq, Repr

/-- The rows of one sequence in a gleaner group (R236): the index of its table entry and, for the root and then each
candidate in breadth-first order, the granary addresses of the main logits and of each head's logits. -/
structure GlnRow where
  seq : Nat
  nodes : List (Nat × List Nat)
deriving DecidableEq, Repr

/-- The commands (spec/opcode_table.json, spec/95_what_each_step_holds.md). -/
inductive Instr where
  /-- REGISTER_WRITE (R49). A write to a register that has no row of its own stores the value (staged for RWS fields, cleared for W1C counters) or is discarded per its access type. -/
  | registerWrite (a : Access) (wide : Bool) (v : Nat)
  /-- UNALIGNED_ACCESS (R41). An access other than a naturally aligned 4- or 8-byte access completes with Completer Abort and records REG_ALIGN. -/
  | unalignedAccess (a : Access)
  /-- UNMAPPED_ACCESS (R42). An access to an unoccupied MF BAR0 offset reads zero or is discarded and counts in SYS_UNMAPPED. -/
  | unmappedAccess (a : Access) (read : Bool) (wide : Bool)
  /-- LATCHED_READ (R24). A read of a low word of a 64-bit value latches its high word for a later read. -/
  | latchedRead (a : Access) (wide : Bool) (bar4 : Bool)
  /-- BLK_EXPERT (R46). A write of 0x4C51 unlocks the page's expert range for the writing function if allowed, any other value relocks it. -/
  | blkExpert (a : Access) (v : Nat)
  /-- SRESET (R45). A block soft reset returns the page to reset values, clears errors, relocks expert ranges, increments BLK_PAGEVER and acts on work in flight per R476. -/
  | sreset (a : Access) (v : Nat)
  /-- BLK_ERR_CLEAR (R43). Writing 1 to BLK_ERR.VALID clears CODE, COUNT, VALID and BLK_ERR_INFO. -/
  | blkErrClear (a : Access) (v : Nat)
  /-- PAGE_COMMIT (R50). BLK_COMMIT with GO checks the version and validity, then makes all staged values active in one MESH cycle or records the failure. -/
  | pageCommit (a : Access) (v : Nat)
  /-- PAGE_DISCARD (R50). BLK_COMMIT with DISCARD copies every active value back to its staged value. -/
  | pageDiscard (a : Access) (v : Nat)
  /-- GRANARY_ROUND (R20). Each channel controller starts a round of 100 grants with weights, lending and grant limits in force. -/
  | granaryRound (chan : Nat) (q0 : List Bool) (q1 : List Bool) (q2 : List Bool) (q3 : List Bool)
  /-- GRANARY_WRITE_ACK (R26). A channel controller acknowledges a line write, making it visible and releasing held SEND, TALLY or completion actions. -/
  | granaryWriteAck (unit : Nat) (chan : Nat)
  /-- GRANARY_READ_RETURN (R486). Granary read data returns to its requester, corrected, or marked poisoned on an uncorrectable error. -/
  | granaryReadReturn (unit : Nat) (addr : Nat) (ecc : Nat) (lat : Nat) (weights : Bool)
  /-- PLL_RELOCK_DONE (R34). A field PLL finishes relocking and the field's sequencers resume issue at the new clock. -/
  | pllRelockDone (f : Nat)
  /-- TOKEN_ARRIVAL (R124). A token message arrives at a bay or the gleaner and adds its increment to a counter, saturating at 4,095. -/
  | tokenArrival (src : Nat) (dst : Nat)
  /-- CREDIT_ARRIVAL (R126). A credit message arrives and adds its increment to a credit pool, saturating at 4,095. -/
  | creditArrival (src : Nat) (dst : Nat)
  /-- TALLY_ADD_ARRIVAL (R496). A tally add from a bay reaches the tally unit and counts in the counter's COUNT. -/
  | tallyAddArrival (src : Nat)
  /-- PTP_MESSAGE (R331). A PTP message received on a management link feeds the BMCA and the servo that disciplines MTIME. -/
  | ptpMessage (link : Nat) (m : PtpMsg)
  /-- PTP_ANNOUNCE_TIMEOUT (R331). When the chosen master misses 3 Announce intervals the module moves to the other link's master. -/
  | ptpAnnounceTimeout (link : Nat)
  /-- TXN_OPEN (R82). Reading TXN_OPEN allocates and selects the lowest free host slot within quota and claim check, or returns OK = 0. -/
  | txnOpen (a : Access)
  /-- TXN_LIST_CMD (R82). TXN_LIST_CMD with GO starts fetching COUNT staging records into the selected slot. -/
  | txnListCmd (a : Access) (v : Nat)
  /-- TXN_LIST_LINE_RETURN (R68). A 64-byte line of a staging list returns and its records are checked and appended to the slot. -/
  | txnListLineReturn (slot : Nat) (ok : Bool) (data : Bytes)
  /-- TXN_LIST_READ_TIMEOUT (R68). A staging-list host read without completion for 50 µs stops the fetch and strikes the bent with TXN_INVALID. -/
  | txnListReadTimeout (slot : Nat)
  /-- RAISE (R79). TXN_ACTION RAISE arms the selected bent in its commit mode. -/
  | raise (a : Access) (v : Nat)
  /-- STRIKE (R79). TXN_ACTION STRIKE abandons an open, fetching or armed bent with code 0. -/
  | strike (a : Access) (v : Nat)
  /-- RELEASE (R79). TXN_ACTION RELEASE returns a RAISED or STRUCK slot to FREE. -/
  | release (a : Access) (v : Nat)
  /-- BENT_TAKE_EFFECT (R70). An IMMEDIATE bent's time arrives and its versions are checked and its actions applied in one MESH cycle, or it is struck. -/
  | bentTakeEffect (slot : Nat)
  /-- RETIRED_STORAGE_FREE (R78). When TXN_OLDEST reaches a bent's epoch, storage it dropped and retained lines return to their allocator, scrubbed where required. -/
  | retiredStorageFree
  /-- RETIRE_STALL (R78). Each millisecond the stall time of TXN_OLDEST is compared with TXN_RETIRE_WARN and RETIRE_STALL is set when exceeded. -/
  | retireStall
  /-- PROGRAM_FETCH_RETURN (R128). A line of a bay program returns to the prefetch buffer and its words enter the work-word queue. -/
  | programFetchReturn (b : Nat)
  /-- REFUSED_WORD_AT_HEAD (R121). A refused word reaches the head of the queue and the bay enters ERROR with its code. -/
  | refusedWordAtHead (b : Nat)
  /-- WORD_COMPLETE (R131). An issued work word's engine finishes it, releasing hazards, queue room and its epoch. -/
  | wordComplete (b : Nat) (e : Nat)
  /-- HALT_COMPLETE (R132). After BAY_RUN.HALT or a disable, the bay reaches HALTED once issued words complete or composites reach a tile boundary. -/
  | haltComplete (b : Nat)
  /-- LOAD (R122). A plain LOAD copies rows of granary lines into the bay store or vector file. -/
  | load (b : Nat)
  /-- LOAD_ZRC (R172). LOAD OP 1 reads a ZRC-compressed tensor and expands it. -/
  | loadZrc (b : Nat)
  /-- STORE (R122). A plain STORE copies bay-store rows to granary lines. -/
  | store (b : Nat) (ecc : Nat)
  /-- STORE_ZRC (R172). STORE OP 1 writes rows ZRC-compressed. -/
  | storeZrc (b : Nat) (ecc : Nat)
  /-- PRESS (R134). A PRESS word accumulates C = W·Xᵀ over its K elements and writes RUN or FINAL output at END. -/
  | press (b : Nat) (ecc : Nat)
  /-- WINNOW (R137). A WINNOW word streams weight rows from the granary and forms dot products with up to 64 vectors. -/
  | winnow (b : Nat) (ecc : Nat)
  /-- CVT (R497). VEC CVT converts A from FIN to FOUT using the block quantisers. -/
  | cvt (b : Nat) (ecc : Nat)
  /-- ADD (R141). VEC ADD writes A + B. -/
  | add (b : Nat) (ecc : Nat)
  /-- SUB (R141). VEC SUB writes A − B. -/
  | sub (b : Nat) (ecc : Nat)
  /-- MUL (R141). VEC MUL writes A × B. -/
  | mul (b : Nat) (ecc : Nat)
  /-- FMA (R140). VEC FMA writes fma32(A, B, D) over D. -/
  | fma (b : Nat) (ecc : Nat)
  /-- MAX (R141). VEC MAX writes the elementwise maximum. -/
  | max (b : Nat) (ecc : Nat)
  /-- MIN (R141). VEC MIN writes the elementwise minimum. -/
  | min (b : Nat) (ecc : Nat)
  /-- MULS (R141). VEC MULS multiplies A by scalar B. -/
  | muls (b : Nat) (ecc : Nat)
  /-- ADDS (R141). VEC ADDS adds scalar B to A. -/
  | adds (b : Nat) (ecc : Nat)
  /-- EXP2 (R142). VEC EXP2 writes the rounded base-2 exponential. -/
  | exp2 (b : Nat) (ecc : Nat)
  /-- LOG2 (R142). VEC LOG2 writes the rounded base-2 logarithm. -/
  | log2 (b : Nat) (ecc : Nat)
  /-- RECIP (R142). VEC RECIP writes the rounded reciprocal. -/
  | recip (b : Nat) (ecc : Nat)
  /-- RSQRT (R142). VEC RSQRT writes the rounded reciprocal square root. -/
  | rsqrt (b : Nat) (ecc : Nat)
  /-- TANH (R142). VEC TANH writes the rounded hyperbolic tangent. -/
  | tanh (b : Nat) (ecc : Nat)
  /-- GELU (R142). VEC GELU writes the rounded GELU. -/
  | gelu (b : Nat) (ecc : Nat)
  /-- SILU (R142). VEC SILU writes the rounded SiLU. -/
  | silu (b : Nat) (ecc : Nat)
  /-- RELU (R141). VEC RELU writes A if positive, else +0. -/
  | relu (b : Nat) (ecc : Nat)
  /-- RSUM (R141). VEC RSUM sums each row by the fixed tree of R106. -/
  | rsum (b : Nat) (ecc : Nat)
  /-- RMAX (R141). VEC RMAX writes each row's maximum. -/
  | rmax (b : Nat) (ecc : Nat)
  /-- ARGMAX (R143). VEC ARGMAX writes each row's lowest maximum index and value. -/
  | argmax (b : Nat) (ecc : Nat)
  /-- TREE (R141). VEC TREE combines run planes elementwise by the shape of R106. -/
  | tree (b : Nat) (ecc : Nat)
  /-- SEND_TOKEN (R123). SEND OP 0 sends a token increment to each bay of a range or to a unit once earlier STOREs are acknowledged. -/
  | sendToken (b : Nat)
  /-- SEND_CREDIT (R126). SEND OP 1 adds credits to a pool of each destination bay. -/
  | sendCredit (b : Nat)
  /-- WAIT (R125). A WAIT word issues and completes once its token conditions and DRAIN hold, consuming marked thresholds. -/
  | wait (b : Nat)
  /-- TALLY (R127). A TALLY word adds AMOUNT to a tally counter once earlier STOREs are acknowledged. -/
  | tally (b : Nat)
  /-- HALT (R132). A HALT word issues after every earlier word completes and the bay becomes HALTED with its code. -/
  | halt (b : Nat)
  /-- CONVOLUTION (R162). CONV OP 0 computes a convolution from its composite descriptor, with scarf exchange and epilogue. -/
  | convolution (b : Nat) (n : Nat)
  /-- DEPTHWISE_CONVOLUTION (R168). CONV OP 1 convolves each channel with its own filter row. -/
  | depthwiseConvolution (b : Nat) (n : Nat)
  /-- MAX_POOLING (R169). CONV OP 2 takes the maximum over each window. -/
  | maxPooling (b : Nat) (n : Nat)
  /-- AVERAGE_POOLING (R169). CONV OP 3 averages each window by the fixed tree. -/
  | averagePooling (b : Nat) (n : Nat)
  /-- SCARF_RESUME (R174). A consuming CONV waiting for a halo token finds its counter at 1, consumes it and fetches the halo rows. -/
  | scarfResume (b : Nat) (n : Nat)
  /-- PREFILL (R207). ATTN OP 0 computes attention of NQ queries per row with the integer-max online softmax. -/
  | prefill (b : Nat) (n : Nat)
  /-- DECODE (R211). ATTN OP 1 computes attention of one query per row. -/
  | decode (b : Nat) (n : Nat)
  /-- APPEND (R213). ATTN OP 2 converts and writes K and V of new positions into pages or node records. -/
  | append (b : Nat) (n : Nat)
  /-- BACKWARD (R214). ATTN OP 3 computes dQ, dK and dV from saved statistics. -/
  | backward (b : Nat) (n : Nat)
  /-- COMBINE (R208). ATTN OP 4 merges run partials by the pairwise tree and writes the output. -/
  | combine (b : Nat) (n : Nat)
  /-- BAY_RUN_GO (R132). BAY_RUN.GO starts the program at BAY_PROG, loading credit pools, or records BAY_BUSY or BAY_DISABLED. -/
  | bayRunGo (a : Access) (v : Nat)
  /-- BAY_RUN_HALT (R132). BAY_RUN.HALT stops issue and halts the bay once issued words complete. -/
  | bayRunHalt (a : Access) (v : Nat)
  /-- BAY_RUN_CLEAR (R151). BAY_RUN.CLEAR clears the written bits of a bay that is not RUNNING. -/
  | bayRunClear (a : Access) (v : Nat)
  /-- BAY_TOKEN_SET (R151). BAY_TOKEN_SET with GO sets a token counter after the cycle's checks. -/
  | bayTokenSet (a : Access) (v : Nat)
  /-- PERF_CLR (R148). Writing PERF_CLR clears every BAY_PERF counter. -/
  | perfClr (a : Access) (v : Nat)
  /-- RAMP_TICK (R145). Each 125 ns limiter tick admits and releases presses within the die and field allowances. -/
  | rampTick
  /-- REBUILD (R191). KVM_CMD.REBUILD pauses serving and rebuilds refcounts, flags and merges from the prefix tree. -/
  | rebuild (a : Access) (v : Nat)
  /-- REBUILD_DONE (R191). The rebuild ends, REBUILD_DONE is set and steps resume. -/
  | rebuildDone
  /-- SWAP_OUT_DONE (R193). A victim's page copies to swap complete and its entries are marked SWAPPED in a bent, or it takes recompute on failure. -/
  | swapOutDone (seq : Nat)
  /-- SWAP_IN_DONE (R194). A readmitted sequence's pages are copied back and SWAPPED is cleared in a bent. -/
  | swapInDone (seq : Nat)
  /-- ADMIT (R229). ADMIT copies the request block into a new sequence table entry, QUEUED, and returns its handle. -/
  | admitSeq (src : Nat)
  /-- FORK (R229). FORK creates a QUEUED child sequence to be forked from a parent at position f. -/
  | fork (src : Nat)
  /-- CANCEL (R252). CANCEL makes a sequence CANCELLED at fetch and suppresses its later batch entries. -/
  | cancel (src : Nat)
  /-- SET_MASK (R238). SET_MASK posts the constrained-decoding mask for a sequence's next sampled position. -/
  | setMask (src : Nat)
  /-- TOKEN_AREA (R248). TOKEN_AREA gives a function a host ring for batch records and names its event ring. -/
  | tokenArea (src : Nat)
  /-- STEP_BOUNDARY (R233). When a step ends the sequencer fixes results, applies cancels and deadlines, chooses admissions and victims, raises bents and starts the next step. -/
  | stepBoundary
  /-- EMPTY_BOUNDARY (R235). With no active sequence but pending bents, admissions or deadlines, an empty boundary is made every 1 ms. -/
  | emptyBoundary
  /-- HELD_BATCH_POST (R251). A held batch record is posted once area and ring room are freed, and its function rejoins steps. -/
  | heldBatchPost (func : Nat)
  /-- PAUSE (R235). Writing 1 to SRV PAUSE stops steps at the next boundary. -/
  | pause (a : Access) (v : Nat)
  /-- PAUSE_CLEAR (R235). Writing 0 to SRV PAUSE resumes steps. -/
  | pauseClear (a : Access) (v : Nat)
  /-- GLEANER_GROUP (R237). When the named gleaner counter reaches its target the gleaner reads logits and samples a group of rows. -/
  | gleanerGroup (ctr : Nat) (target : Nat) (rows : List GlnRow)
  /-- STREAM_OPEN (R268). STREAM_OPEN copies a stream block into a free video context and returns it. -/
  | streamOpen (src : Nat)
  /-- DEC_SUBMIT (R270). DEC_SUBMIT hands a compressed access unit to a decode stream. -/
  | decSubmit (src : Nat)
  /-- PIC_RELEASE (R272). PIC_RELEASE returns a picture slot after its FRAME_DONE. -/
  | picRelease (src : Nat)
  /-- ENC_FRAME (R270). ENC_FRAME submits a picture for encoding with rows ready. -/
  | encFrame (src : Nat)
  /-- ENC_ROWS (R270). ENC_ROWS raises the count of rows ready of the frame being encoded. -/
  | encRows (src : Nat)
  /-- TAP_SET (R280). TAP_SET installs or removes a frame tap on a decode stream. -/
  | tapSet (src : Nat)
  /-- STREAM_FLUSH (R271). STREAM_FLUSH moves a stream to FLUSHING to finish all submitted units. -/
  | streamFlush (src : Nat)
  /-- STREAM_CLOSE (R271). STREAM_CLOSE moves a context to CLOSING. -/
  | streamClose (src : Nat)
  /-- BS_RELEASE (R270). BS_RELEASE frees encode output ring space up to an offset. -/
  | bsRelease (src : Nat)
  /-- HEADER_PARSE_DONE (R264). Firmware finishes parsing parameter sets and a slice header and writes the slice descriptor. -/
  | headerParseDone (ctx : Nat)
  /-- CORE_CHOOSE (R274). An idle core or one at a pre-emption point chooses the next runnable unit by priority and deadline. -/
  | coreChoose (core : Nat)
  /-- UNIT_DECODED (R276). A decode core finishes a slice or tile, raises FINAL_ROWS and sends slice-done tokens. -/
  | unitDecoded (core : Nat)
  /-- SLICE_OUT (R277). An encode core finishes a slice, writes its bytes to the ring and posts SLICE_OUT. -/
  | sliceOut (core : Nat)
  /-- TAP_ROW (R282). A tap computes an output row once its source rows are final and sends band tokens. -/
  | tapRow (ctx : Nat) (tap : Nat)
  /-- CLOSED (R271). A closing context's cores and taps stop, it becomes FREE and CLOSED is posted. -/
  | closed (ctx : Nat)
  /-- NOP (R302). NOP completes at fetch. -/
  | nop (src : Nat)
  /-- FUNC_ENABLE (R311). FUNC_ENABLE validates a tenant's resources and starts ENABLING. -/
  | funcEnable (src : Nat)
  /-- FUNC_DISABLE_DRAIN (R312). FUNC_DISABLE in DRAIN mode moves a tenant to DRAINING. -/
  | funcDisableDrain (src : Nat)
  /-- FUNC_DISABLE_KILL (R313). FUNC_DISABLE in KILL mode moves a tenant to KILLING and stops its work. -/
  | funcDisableKill (src : Nat)
  /-- FLR (R311). A function-level reset disables the function's rings and kills a tenant, re-enabling it afterwards. -/
  | flr (port : Nat) (func : Nat)
  /-- FUNC_DRAIN_COMPLETE (R312). A draining function meets the drain conditions and moves to KILLING. -/
  | funcDrainComplete (func : Nat)
  /-- FUNC_DRAIN_TIMEOUT (R311). FUNC_DRAIN_TIMEOUT passes and the draining function moves to KILLING. -/
  | funcDrainTimeout (func : Nat)
  /-- FUNC_KILL_DONE (R313). Steps 2–5 of a disable complete, video contexts closed, and the function enters SCRUBBING. -/
  | funcKillDone (func : Nat)
  /-- SCRUB_DONE (R377). A scrub of a range finishes, moving its owner's enable, disable or bundle unload on. -/
  | scrubDone (owner : Nat) (bad : Nat)
  /-- SQ_DOORBELL (R304). A submission doorbell sets a ring's TAIL and wakes command fetching. -/
  | sqDoorbell (a : Access) (v : Nat)
  /-- EQ_HEAD_DOORBELL (R297). An event ring head doorbell frees entries and with ARM sets ARMED, sending MSI-X if a message is unread. -/
  | eqHeadDoorbell (a : Access) (v : Nat)
  /-- SQ_CFG_WRITE (R303). A write to SQ_CFG enables, disables or reconfigures a submission ring. -/
  | sqCfgWrite (a : Access) (v : Nat)
  /-- EQ_CFG_WRITE (R308). A write to EQ_CFG enables or disables an event ring, discarding waiting messages on disable. -/
  | eqCfgWrite (a : Access) (v : Nat)
  /-- COMMAND_FETCH_RETURN (R305). A command record read returns and the command is checked and started in fetch order. -/
  | commandFetchReturn (func : Nat) (ring : Nat) (data : Bytes)
  /-- CMD_FETCH (R305). A command read fails or gets no completion in 50 µs, so the entry is not fetched and CMD_FETCH is recorded. -/
  | cmdFetch (func : Nat) (ring : Nat)
  /-- CONFIG_REQUEST (R292). A PCIe configuration request is answered, or with Retry Status before the port is ready. -/
  | configRequest (port : Nat) (field : Option CfgField) (v : Option Nat)
  /-- BAR2_ACCESS (R295). An MF or tenant BAR2 request is filtered by the fence table and reaches the granary in the HOST class. -/
  | bar2Access (port : Nat) (func : Nat) (rid : Nat) (off : Nat) (wr : Bool) (data : Bytes)
  /-- PERST (R293). PERST# assertion, hot reset or link disable resets only that port. -/
  | perst (port : Nat)
  /-- PERST_RELEASE (R471). Release of PERST# lets the port train once LINKS has begun. -/
  | perstRelease (port : Nat)
  /-- LINK_DOWN (R306). A port's link goes down and rings, reads and wain bursts move to the other port with resends. -/
  | linkDown (port : Nat)
  /-- DL_UP (R310). A port reaches DL_Up, sends its identity message, runs the wiring check and may make the module READY. -/
  | dlUp (port : Nat) (link : Nat)
  /-- IDENT_SEND (R310). PORT_CTRL.IDENT_SEND sends the identity Vendor-Defined Message. -/
  | identSend (a : Access) (v : Nat)
  /-- HEARTBEAT (R324). A management HEARTBEAT frame from a host updates liveness and may request a claim. -/
  | heartbeat (link : Nat) (mac : Nat) (frame : Bytes)
  /-- HB_HI (R320). A write of a record's HB_HI completes a PCIe heartbeat carrying the host's claim. -/
  | hbHi (a : Access) (wide : Bool) (v : Nat)
  /-- HEARTBEAT_TIMER (R320). Every INTERVAL the module sends heartbeat frames and writes heartbeat records. -/
  | heartbeatTimer
  /-- LIVENESS_TICK (R322). Every 1 ms path liveness is evaluated against 3·INTERVAL. -/
  | livenessTick
  /-- REQUEST (R329). A management REQUEST frame carries a command record that is checked and answered by a RESPONSE frame. -/
  | request (link : Nat) (mac : Nat) (frame : Bytes)
  /-- RELEARN (R333). MGMT_CTRL.RELEARN clears both learned host ids if the claim check passes. -/
  | relearn (a : Access) (v : Nat)
  /-- MGMT_LINK_CHANGE (R328). A 100BASE-T1 management link comes up or goes down. -/
  | mgmtLinkChange (link : Nat) (up : Bool) (pol : Bool)
  /-- WAIN_POST (R337). A write to WAIN_POST_HI posts a descriptor chain to the channel's post queue. -/
  | wainPost (a : Access) (wide : Bool) (v : Nat)
  /-- ABORT (R351). WAIN_CTRL.ABORT stops a channel from issuing bursts and moves it to ABORTING. -/
  | abort (a : Access) (v : Nat)
  /-- RESUME (R350). WAIN_CTRL.RESUME drops the rest of a failed chain and restarts a STOPPED channel. -/
  | resume (a : Access) (v : Nat)
  /-- ABORT_DONE (R351). Bursts in flight finish, the abort record and message are written and the channel is IDLE. -/
  | abortDone (c : Nat)
  /-- DESCRIPTOR_FETCH_RETURN (R340). A descriptor is fetched and checked before any byte moves. -/
  | descriptorFetchReturn (c : Nat) (ok : Bool) (data : Bytes)
  /-- BURST_DONE (R343). A wain burst completes, with CRYPT verification and funnel writes. -/
  | burstDone (c : Nat) (k : Nat) (idx : Bytes) (data : Bytes)
  /-- WAIN_HOST_ERR (R345). A wain host read gets an error or no completion within 50 µs and the descriptor fails. -/
  | wainHostErr (c : Nat) (k : Nat)
  /-- DESCRIPTOR_COMPLETE (R347). All data writes of a descriptor complete, after DURABLE read-back, and its completion record is written. -/
  | descriptorComplete (c : Nat) (readOk : Bool)
  /-- WAIN_CQ_HEAD (R348). A write to WAIN_CQ_HEAD frees completion entries and lets a waiting channel start its next descriptor. -/
  | wainCqHead (a : Access) (v : Nat)
  /-- FW_WRITE (R361). FW_WRITE writes and verifies an image into the inactive flash slot. -/
  | fwWrite (src : Nat)
  /-- FW_WRITE_DONE (R361). The image write and verification finish and FW_WRITE completes. -/
  | fwWriteDone
  /-- FW_ACTIVATE (R361). FW_ACTIVATE sets NEXT so the other image boots on trial. -/
  | fwActivate (src : Nat)
  /-- FW_SVN_COMMIT (R362). FW_SVN_COMMIT blows fuses to raise F to the running image's SVN. -/
  | fwSvnCommit (src : Nat)
  /-- SET_INSTALL (R370). SET_INSTALL unwraps and stores a device-set key. -/
  | setInstall (src : Nat)
  /-- SET_REMOVE (R369). SET_REMOVE deletes a device set. -/
  | setRemove (src : Nat)
  /-- MGMT_KEY_INSTALL (R371). MGMT_KEY_INSTALL unwraps and installs the cabinet management key. -/
  | mgmtKeyInstall (src : Nat)
  /-- DEBUG_UNLOCK (R376). DEBUG_UNLOCK verifies a token and opens debug scopes after killing confidential tenants and zeroising keys. -/
  | debugUnlock (src : Nat)
  /-- BUNDLE_LOAD (R374). BUNDLE_LOAD checks a bundle header and starts decrypting its body into the destination. -/
  | bundleLoad (src : Nat)
  /-- BUNDLE_LOADED (R374). Every frame has verified and the bundle becomes LOADED. -/
  | bundleLoaded
  /-- BUNDLE_UNLOAD (R375). BUNDLE_UNLOAD scrubs a bundle's destination when nothing uses it. -/
  | bundleUnload (src : Nat)
  /-- JOB_RUN (R373). JOB_RUN starts a bundle entry's programs with an argument block. -/
  | jobRun (src : Nat)
  /-- GET_VERSION (R363). SPDM GET_VERSION is answered. -/
  | getVersion (port : Nat)
  /-- GET_CAPABILITIES (R363). SPDM GET_CAPABILITIES is answered. -/
  | getCapabilities (port : Nat)
  /-- NEGOTIATE_ALGORITHMS (R363). SPDM NEGOTIATE_ALGORITHMS is answered. -/
  | negotiateAlgorithms (port : Nat) (offered : Bool)
  /-- GET_DIGESTS (R364). SPDM GET_DIGESTS returns certificate slot digests. -/
  | getDigests (port : Nat) (sess : Nat)
  /-- GET_CERTIFICATE (R364). SPDM GET_CERTIFICATE returns a certificate chain. -/
  | getCertificate (port : Nat) (sess : Nat) (slot : Nat) (off : Nat) (len : Nat)
  /-- CHALLENGE (R363). SPDM CHALLENGE is answered with a signed response. -/
  | challenge (port : Nat) (slot : Nat) (nonce : Bytes)
  /-- GET_MEASUREMENTS (R365). SPDM GET_MEASUREMENTS returns the measurement digests. -/
  | getMeasurements (port : Nat) (sess : Nat) (index : Nat) (signed : Bool) (nonce : Bytes)
  /-- KEY_EXCHANGE (R366). SPDM KEY_EXCHANGE opens a session, Busy beyond the session limit. -/
  | keyExchange (port : Nat) (slot : Nat) (wantsMutual : Bool) (share : Bytes)
  /-- FINISH (R366). SPDM FINISH completes a session and binds it to a tenant when the requester key matches. -/
  | finish (port : Nat) (sess : Nat) (leaf : Bytes) (sig : Bytes) (mac : Bytes)
  /-- KEY_UPDATE (R363). SPDM KEY_UPDATE updates session keys. -/
  | keyUpdate (port : Nat) (sess : Nat) (op : Nat)
  /-- SPDM_HEARTBEAT (R363). SPDM HEARTBEAT keeps a session alive. -/
  | spdmHeartbeat (port : Nat) (sess : Nat)
  /-- END_SESSION (R363). SPDM END_SESSION ends a session. -/
  | endSession (port : Nat) (sess : Nat)
  /-- KEY_PUT (R367). KEY_PUT stores a key with its usage in a tenant key slot. -/
  | keyPut (port : Nat) (sess : Nat) (slot : Nat) (usage : Nat) (key : Bytes)
  /-- KEY_CLEAR (R367). KEY_CLEAR empties a tenant key slot. -/
  | keyClear (port : Nat) (sess : Nat) (slot : Nat)
  /-- KEY_LIST (R367). KEY_LIST returns the bitmap of full key slots. -/
  | keyList (port : Nat) (sess : Nat)
  /-- PWR_SET_CAP (R382). PWR_SET_CAP sets the power cap within its bounds. -/
  | pwrSetCap (src : Nat)
  /-- PWR_POOL (R401). PWR_POOL joins or leaves a group power pool. -/
  | pwrPool (src : Nat)
  /-- FAST_LOOP (R386). The fast loop compares P_c with T_i and moves field gate levels one step per tick. -/
  | fastLoop (raw : Nat) (add : Nat)
  /-- CAP_MET (R389). P_c has stayed at or below T for 100 µs and CAP_MET is posted. -/
  | capMet
  /-- POWER_SAMPLE (R387). A 100 µs power measurement updates T_i by the outer loop and is checked for plausibility. -/
  | powerSample (vin : Nat) (ma : Int) (code : Nat) (atEnd : Bool)
  /-- SENSOR_OK (R385). After 1 s of plausible samples SENSOR_FAULT ends. -/
  | sensorOk
  /-- ESTIMATE_WINDOW (R384). Each 1 ms the means of M and E′ are compared. -/
  | estimateWindow
  /-- MISMATCH_ON (R384). Ten consecutive windows differ by over 15 % and ESTIMATOR_MISMATCH begins. -/
  | mismatchOn
  /-- MISMATCH_OFF (R384). One hundred consecutive windows agree and ESTIMATOR_MISMATCH ends. -/
  | mismatchOff
  /-- LEARNER_PERIOD (R394). Every 100 µs the learner allocates the target among fields, granary and video and updates its table. -/
  | learnerPeriod (pfix : Nat) (dg : Nat) (dv : Nat) (fields : List Nat)
  /-- BRAKE_ON (R398). PWR_BRAKE# held low for 0.5 µs sets the 180 W target and gates every field. -/
  | brakeOn
  /-- BRAKE_CLOCK_DROP (R398). 20 µs into a brake every field is set to 0.4 GHz and relocked. -/
  | brakeClockDrop
  /-- BRAKE_OFF (R398). PWR_BRAKE# high for 0.5 µs ends the brake and restores the target. -/
  | brakeOff
  /-- DROOP (R396). A rail falling 25 mV below its setting stretches the field clock until it recovers. -/
  | droop (f : Nat)
  /-- POOL_ROUND (R401). At each 10 ms MTIME multiple members broadcast pool records and compute shares. -/
  | poolRound
  /-- POOL_RECORD_TIMEOUT (R402). A round missing a member's record 2 ms after its boundary keeps the shares. -/
  | poolRecordTimeout
  /-- POOL_STALE (R402). Three missing rounds in a row post POOL_STALE. -/
  | poolStale
  /-- POOL_SHARE_RISE (R402). A share that rises is applied 1 ms after the round's fire. -/
  | poolShareRise
  /-- JUNCTION_SAMPLE (R403). Every 10 µs junction sensors are sampled and throttling begins or ends. -/
  | junctionSample (raw : List Int)
  /-- THERMAL_THROTTLE_STEP (R403). Each 1 ms at or above 100 °C lowers the field ceiling, each 10 ms at or below 97 °C raises it. -/
  | thermalThrottleStep
  /-- HBM_TEMP_SAMPLE (R404). Each 1 ms a stack temperature adjusts its grant limit. -/
  | hbmTempSample (raw : List Int)
  /-- THERMAL_SHUTDOWN (R405). Two junction samples at 115 °C or 10 s of a stack at 95 °C quench the die rails and enter FAULT. -/
  | thermalShutdown
  /-- THERMAL_RESTART (R405). Once sensors are at or below 70 °C and 60 s have passed, the reeve makes a cold reset, at most three per 24 h. -/
  | thermalRestart (temps : List Int)
  /-- OPERATING_TIME_SAVE (R405). Every 10 s the reeve saves its operating time to flash. -/
  | operatingTimeSave
  /-- COOLANT_SAMPLE (R406). Every 100 ms coolant temperatures are read, the coolant ceiling and flow estimate updated. -/
  | coolantSample (tin : Int) (tout : Int) (finn : Bool) (fout : Bool)
  /-- FLOW_LOW (R406). A valid flow estimate below 1.5 L/min for 1 s posts FLOW_LOW. -/
  | flowLow
  /-- LEAK_SAMPLE (R407). Every 10 ms the leak sensor is sampled. -/
  | leakSample (wet : Bool) (lead : Bool)
  /-- LEAK (R407). Three consecutive wet samples post LEAK and set the 180 W leak ceiling. -/
  | leak
  /-- THM_LEAK_CLR (R413). THM_LEAK_CLR clears the leak ceiling if the sensor reads dry. -/
  | thmLeakClr (a : Access) (v : Nat)
  /-- LEARN_RESET (R412). PWR_LEARN_CTRL.RESET returns every learner entry to the factory model. -/
  | learnReset (a : Access) (v : Nat)
  /-- INPUT_HIGH (R453). Input between 60 and 64 V posts INPUT_FAULT and service continues. -/
  | inputHigh (mv : Nat)
  /-- INPUT_HIGH_TIMEOUT (R453). Input above 60 V for 1 s opens the hot-swap switch and quenches the die. -/
  | inputHighTimeout
  /-- INPUT_FAULT (R453). Input above 64 V for 10 µs or below 38 V for 100 µs quenches the die and records INPUT_LOSS. -/
  | inputFault (mv : Nat)
  /-- INPUT_RETURN (R453). Input back within 40–60 V for 1 s makes a module cold reset. -/
  | inputReturn (mv : Nat)
  /-- PART_SETUP (R417). PART_SETUP installs a partition record and keys in flash. -/
  | partSetup (src : Nat)
  /-- PART_LEAVE (R419). PART_LEAVE erases the partition, keys, fence table and fence state. -/
  | partLeave (src : Nat)
  /-- FENCE_CERT (R421). FENCE_CERT checks a quorum certificate and starts fencing or unfences. -/
  | fenceCert (src : Nat)
  /-- FENCED (R423). After fencing steps and the flash write, the module is FENCED and FENCE_CERT completes. -/
  | fenced
  /-- SHADOW_ELDER (R425). SHADOW_ELDER starts mirroring a function into a shadow's ring. -/
  | shadowElder (src : Nat) (peer : Option Nat)
  /-- SHADOW_JOIN (R425). SHADOW_JOIN makes a local function the shadow of an elder's function. -/
  | shadowJoin (src : Nat) (peerOk : Bool)
  /-- SHADOW_END (R429). SHADOW_END ends the relation at the elder's next boundary. -/
  | shadowEnd (src : Nat)
  /-- SHADOW_APPLY (R426). The shadow applies mirror records in ring order and compares step digests. -/
  | shadowApply
  /-- MIRROR_ACK_TIMER (R426). Every 1 ms the shadow reports its consumed ring offset to the elder. -/
  | mirrorAckTimer
  /-- SHADOW_LOST (R429). No mirror record for 1 s while the elder runs makes the shadow LOST. -/
  | shadowLost
  /-- SNAPSHOT (R437). SNAPSHOT pauses at a step, writes regions and sequence entries out and joins two barriers. -/
  | snapshot (src : Nat)
  /-- GLOBAL_RESET (R437). GLOBAL_RESET arms a die warm reset at the counter's local fire. -/
  | globalReset (src : Nat)
  /-- WIRING_PLAN (R439). WIRING_PLAN delivers the planned slot and runs the wiring check. -/
  | wiringPlan (src : Nat)
  /-- TALLY_ADD (R432). A TALLY_ADD write adds AMOUNT to the selected counter. -/
  | tallyAdd (a : Access) (v : Nat)
  /-- TALLY_FIRE (R433). A counter fires, raising armed bents, starting bays, sending subscription tokens and resuming firmware. -/
  | tallyFire (c : Nat)
  /-- UP (R434). A TALLY_IN UP message records a child's report and may send UP or fire the root. -/
  | up (port : Nat) (rid : Nat) (off : Nat) (data : Bytes)
  /-- DOWN (R434). A TALLY_IN DOWN message fires a non-root counter and forwards DOWN to children. -/
  | down (port : Nat) (rid : Nat) (off : Nat) (data : Bytes)
  /-- DATA (R434). A TALLY_IN DATA message is forwarded up the tree and broadcast down. -/
  | data (port : Nat) (rid : Nat) (off : Nat) (data : Bytes)
  /-- MIRROR_ACK (R435). A TALLY_IN MIRROR_ACK gives the elder the shadow's consumed ring offset. -/
  | mirrorAck (port : Nat) (rid : Nat) (off : Nat) (data : Bytes)
  /-- TALLY_STALL (R436). A TREE counter waiting longer than TALLY_STALL_MS posts TALLY_STALL. -/
  | tallyStall (c : Nat)
  /-- PRSNT_EARLY_MADE (R461). PRSNT_EARLY# made for 100 ms with valid input and lever closed starts start-up. -/
  | prsntEarlyMade (cold : Bool)
  /-- PRSNT_EARLY_BREAK (R464). PRSNT_EARLY# high for 2 µs with the die powered starts the unclean-removal quench and record. -/
  | prsntEarlyBreak
  /-- QUENCH_DONE (R461). Rails are down and the record committed, and the tray returns to STANDBY or UNPOWERED. -/
  | quenchDone (input : Bool)
  /-- EJECT_REQ (R458). The lever microswitch closure recognised after 20 ms starts a drain or ends start-up. -/
  | ejectReq (closed : Bool)
  /-- LEVER_OPEN (R461). EJECT_REQ open for 2 s after DRAINED restarts the module. -/
  | leverOpen (cold : Bool)
  /-- TRAY_CFG (R459). TRAY_CFG sets the drain timeout and LOCATE. -/
  | trayCfg (src : Nat)
  /-- TRAY_REMOVE (R459). TRAY_REMOVE starts a drain as if the lever had opened. -/
  | trayRemove (src : Nat)
  /-- TRAY_RESUME (R459). TRAY_RESUME returns a draining tray to service. -/
  | trayResume (src : Nat)
  /-- DRAINED (R462). The tray drain completes and the module shuts down in order, lighting the blue LED. -/
  | drained
  /-- DRAIN_TIMEOUT (R463). The drain deadline passes, remaining work is ended and the module shuts down. -/
  | drainTimeout
  /-- LED_LINE (R467). An LED output reading other than driven for 10 ms turns its driver off. -/
  | ledLine (line : Nat)
  /-- LED_RETRY (R467). After 1 s off the LED line driver is retried. -/
  | ledRetry (line : Nat)
  /-- STANDBY_POWER (R461). Input or hold-up reaching 18 V boots the reeve into STANDBY. -/
  | standbyPower
  /-- STANDBY_LOSS (R461). Input and hold-up are gone and the tray becomes UNPOWERED. -/
  | standbyLoss
  /-- REEVE_BOOT_DONE (R470). The reeve boot ends, reading calibration and slot EEPROM and bringing up the management links. -/
  | reeveBootDone (pins : Nat) (eeprom : Bytes) (links : Nat) (cold : Bool)
  /-- PREHEAT_DONE (R472). All HBM thermistors read 0 °C or more and the rails stage starts. -/
  | preheatDone
  /-- PREHEAT_FAIL (R472). Pre-heat still running after 300 s enters FAULT. -/
  | preheatFail
  /-- RAILS_DONE (R470). All rails are in regulation and PLLs locked, and BOOT starts. -/
  | railsDone
  /-- RAIL_FAIL (R473). A rail not in regulation within 50 ms quenches the rails and enters FAULT. -/
  | railFail
  /-- BOOT_DONE (R470). Service firmware runs and all stacks are trained, and BIST starts. -/
  | bootDone (trained : Bool)
  /-- BOOT_TIMEOUT (R360). An image not reaching READY within 30 s of BOOT is abandoned by watchdog reset and the other image tried. -/
  | bootTimeout (bad : Bool)
  /-- BIST_DONE (R470). BIST ends, disabling failing bays, and LINKS starts or FAULT on too many failures. -/
  | bistDone (bad : List Nat)
  /-- LINKS_TIMEOUT (R470). 500 ms after LINKS began without DL_Up the module becomes READY or FENCED. -/
  | linksTimeout
  /-- START_RETRY (R473). 10 s after a start-up FAULT the reeve makes one module cold reset. -/
  | startRetry
  /-- MODULE_RESET_WARM (R478). MODULE_RESET level 0 schedules a die warm reset 10 ms after its completion. -/
  | moduleResetWarm (src : Nat)
  /-- MODULE_RESET_COLD (R478). MODULE_RESET level 1 schedules a module cold reset 10 ms after its completion. -/
  | moduleResetCold (src : Nat)
  /-- RESET_START (R478). 10 ms after MODULE_RESET completes the selected reset starts. -/
  | resetStart
  /-- DIE_WARM_RESET (R477). A die warm reset halts work, resets die logic, restarts firmware and returns to READY or FENCED. -/
  | dieWarmReset (links : List Nat)
  /-- CAL_SAVE_DONE (R482). The reeve finishes writing the user calibration set to flash and clears SAVING. -/
  | calSaveDone
  /-- FAULT_READ (R495). FAULT_READ returns 16 bytes of a fault record. -/
  | faultRead (src : Nat)
  /-- FAULT_ACK (R495). FAULT_ACK sets ACKED on a fault record. -/
  | faultAck (src : Nat)
  /-- RAIL_RAMP_DONE (R392). A field core rail finishes ramping at 10 mV/µs to its new voltage; on a clock raise the PLL relock then starts. -/
  | railRampDone (f : Nat)
  /-- DROOP_RECOVERED (R396). The rail recovers to 10 mV below its set voltage and the field clock stops stretching. -/
  | droopRecovered (f : Nat) (cycles : Nat)
  /-- FENCE_CERT_CHECKED (R421). Certificate verification ends at F, up to 1 ms + 2 ms per signature after FENCE_CERT, and the certificate is accepted (FENCING, FENCE_SEQ incremented) or refused. -/
  | fenceCertChecked
  /-- MSIX_TABLE_WRITE (R297). A host write to a function's MSI-X table or mask in BAR4 masks or unmasks a vector, and unmasking sends any pending interrupt. -/
  | msixTableWrite (port : Nat) (func : Nat) (off : Nat) (v : Nat)
deriving DecidableEq, Repr

end Sys2Proof
end

