-- ==== Sys2Proof/Decode.lean ====
section
/-! DEFINITION. Commands by the bits of spec/opcode_table.json: the table gives no row any bits, so no word spells a
command. -/

namespace Sys2Proof

/-- The command a word of the table spells: none, as no row has bits. -/
def decodeTableWord (_nbits _w : Nat) : Option Instr := none

end Sys2Proof
end

