-- ==== Sys2Proof/Codec.lean ====
section
/-! DEFINITION. What the outside codec standards of R9 say of a video stream: the facts of a header and of a coded unit; and what a
firmware image and the sections of a bundle say. The model takes them from uninterpreted functions of the bytes (Config;
notes/assumptions/25, /186, /191). -/

namespace Sys2Proof

/-- A boot stage of a firmware image (R358): its header and body, the public key that its header carries, and its signature. -/
structure ImageStage where
  text : Bytes
  key : Bytes
  sig : Bytes
deriving DecidableEq, Repr, Inhabited

/-- A firmware image (R358, R359): its stages, security version number and version. -/
structure Image where
  stages : List ImageStage
  svn : Nat
  ver : Nat
deriving DecidableEq, Repr, Inhabited

/-- A row list of a bundle that the serving sequencer fills (R198, R212): its kind (0-10 sheaf, 11 prefill rows, 12 tree
rows of a layer), that layer, its granary line, the address of its row count, and the lines of the first query's Q, output, statistics, tree nodes
and tree masks with the lines from one query to the next. -/
structure RowList where
  kind : Nat
  layer : Nat
  line : Nat
  count : Nat
  q : Nat
  out : Nat
  stats : Nat
  aux : Nat
  mask : Nat
  qStep : Nat
  outStep : Nat
  statStep : Nat
  auxStep : Nat
  maskStep : Nat
deriving DecidableEq, Repr, Inhabited

/-- An entry that JOB_RUN names (R373): its programs as bay and granary address, how many arguments its argument block
holds, and the granary address that each argument is written to. -/
structure JobEntry where
  programs : List (Nat × Nat)
  args : Nat
  patches : List (Nat × Nat)
deriving DecidableEq, Repr, Inhabited

/-- What the PROGRAM, TABLES and METADATA sections of a bundle say, whose content is Porwa's (R372): the vocabulary size,
the KV geometry (L, Hkv, G, D and whether the pool is FP8), the extra heads (R242), the job entries, the row lists and the
digested tensors as first line and lines (R427). -/
structure BundleInfo where
  vocab : Nat
  layers : Nat
  kvHeads : Nat
  group : Nat
  headDim : Nat
  fp8 : Bool
  heads : Nat
  entries : List JobEntry
  lists : List RowList
  digested : List (Nat × Nat)
deriving DecidableEq, Repr, Inhabited

/-- The profiles of R261, and any other one. -/
inductive VidProfile where
  | constrainedBaseline
  | main
  | high
  | main10
  | mainStill
  | baselineSequential
  | other
deriving DecidableEq, Repr, Inhabited

/-- What R262 names beside profiles. -/
inductive VidFeature where
  /-- H.264. -/
  | fmo
  | aso
  | redundantSlices
  | fieldPicture
  | mbaff
  /-- HEVC: an extension, a NAL unit with nuh_layer_id above 0, an SEI message. -/
  | extension
  | upperLayer
  | sei
  /-- AV1: large-scale tile, an operating point other than 0, an OBU outside operating point 0, film grain. -/
  | largeScaleTile
  | operatingPoint
  | outsidePoint
  | filmGrain
  /-- JPEG. -/
  | progressive
  | arithmetic
  | lossless
  | hierarchical
  | twelveBit
  | components
  | sampling
deriving DecidableEq, Repr, Inhabited

/-- What a slice, tile or image header says (R264): whether it begins a new picture, the picture's size, its place in output order
and the place below which pictures may be output, whether other pictures refer to it and whether it is shown, the pictures (by place)
no longer referred to and those it refers to, its profile, depth and chroma format (0 luma only, 1 4:2:0, 2 4:2:2, 3 4:4:4), the
features of R262, its colour description (matrix 0 BT.601, 1 BT.709, 2 BT.2020 non-constant, else another; full range), and whether
it is the picture's last unit. -/
structure UnitHead where
  first : Bool
  width : Nat
  height : Nat
  order : Nat
  bump : Nat
  isRef : Bool
  shown : Bool
  drop : List Nat
  refs : List Nat
  profile : VidProfile
  depth : Nat
  chroma : Nat
  features : List VidFeature
  colour : Option (Nat × Bool)
  last : Bool
deriving DecidableEq, Repr, Inhabited

/-- What stands at a place of the submitted bytes (R264, R284): a unit, the end of the submission, or a syntax error. -/
inductive ParseOut where
  | unit (h : UnitHead)
  | ended
  | syntaxError
deriving DecidableEq, Repr, Inhabited

/-- A 16 x 16 luma block of a unit: its place in blocks and, if it is inter-predicted, the integer part of its vector and the place
in output order of its reference. -/
structure UnitBlock where
  x : Nat
  y : Nat
  vector : Option (Int × Int × Nat)
deriving DecidableEq, Repr, Inhabited

/-- What decoding a unit meets (R273, R284, R285): its blocks in raster order, a syntax error, and its bins. -/
structure UnitFacts where
  blocks : List UnitBlock
  bad : Bool
  bins : Nat
deriving DecidableEq, Repr, Inhabited

/-- A prediction block of the encoder (R278): first sample and size. -/
structure PredBlock where
  x : Nat
  y : Nat
  w : Nat
  h : Nat
deriving DecidableEq, Repr, Inhabited

/-- A prediction block's final vector in quarter-pels, and the place in output order of its reference. -/
structure BlockVec where
  at' : PredBlock
  mv : Int × Int
  ref : Nat
deriving DecidableEq, Repr, Inhabited

end Sys2Proof
end

