-- ==== Sys2Proof/Config.lean ====
section
/-! DEFINITION. What an implementation or an outside standard fixes, and the free values: constants without a body, so
that no proof can see a value (notes/assumptions/5, /7). -/

namespace Sys2Proof

namespace Config

/-- A free value: draw n, for a use named by the caller (notes/assumptions/5). -/
opaque freeValue : Nat → Nat

/-- A value that no rule states, of a result that R109 makes a function of its inputs alone: the input data and the place of
the value among those they give (notes/assumptions/21, /22). -/
opaque dataValue : List Nat → Nat → Nat

/-- How far an MTIME sample lags MTIME, in ns; used up to 60 (R37). -/
opaque mtimeLag : Nat → Nat

/-- SHA-384 of a byte string, as 48 bytes (R330, R365, R420). -/
opaque sha384 : Bytes → Bytes

/-- HMAC-SHA-384 of a message under a key, as 48 bytes (R330). -/
opaque hmac384 : Bytes → Bytes → Bytes

/-- ECDSA P-384 verification: public key, digest, signature (R358, R361, R376, R420). -/
opaque ecdsaVerify : Bytes → Bytes → Bytes → Bool

/-- ECDSA P-384 signature by a module key over a digest (R363, R366). -/
opaque ecdsaSign : Nat → Bytes → Bytes

/-- Whether 97 bytes are a point of P-384 (R417). -/
opaque onCurve : Bytes → Bool

/-- AES-256-GCM: key, IV and plaintext to ciphertext and 16-byte tag (R352). -/
opaque gcmEnc : Bytes → Bytes → Bytes → Bytes × Bytes

/-- AES-256-GCM: key, IV, additional data, ciphertext and tag to the plaintext, if the tag verifies (R352, R370, R374). -/
opaque gcmDec : Bytes → Bytes → Bytes → Bytes → Bytes → Option Bytes

/-- ECDH with the identity key: the peer's public key to the x-coordinate, 48 bytes (R370). -/
opaque ecdh : Bytes → Bytes

/-- An ephemeral P-384 key of the module, by the value its private key is drawn from: its public point, and the x-coordinate of ECDH
with a peer's point (R363). -/
opaque ephemeral : Nat → Bytes
opaque ephemeralDh : Nat → Bytes → Bytes

/-- HKDF-SHA-384: salt, input, info and length (R370). -/
opaque hkdf : Bytes → Bytes → Bytes → Nat → Bytes

/-- The Selnutin debug public key, whose digest is fused (R376). -/
opaque debugKey : Bytes

/-- A firmware image's parts, whose layout the spec does not give, and the fused digest of the signing key (R358, R359;
notes/assumptions/191). -/
opaque image : Bytes → Image
opaque signingKey : Bytes

/-- What the sections of a bundle's body say, by its header and its plaintext (R372, R373; notes/assumptions/25). -/
opaque bundleInfo : Bytes → Bytes → BundleInfo

/-- The certificate chain of slot 0, or of slot 1 with the digest its alias certificate carries (R364). -/
opaque certChain : Nat → Bytes → Bytes

/-- Measurements 1 to 3 of an image: index, slot, and the digest of what FW_WRITE put there or nothing (R365). -/
opaque stageDigest : Nat → Nat → Bytes → Bytes

/-- Where in the reserved range the sequence table lies, which R225 does not say (notes/assumptions/179). -/
opaque seqTab : Nat

/-- Element size that a LOAD or STORE of a ZRC tensor takes, which its word does not give (R120, R171): 0 one byte,
1 two bytes, anything else four (notes/assumptions/24). -/
opaque zrcBytes : Nat → Nat

/-- How far an HBM throttle lowers a FIXED field's clock, which R63 does not say: field and FFIX to a number that picks a
lower step (notes/assumptions/169). -/
opaque hbmFixedStep : Nat → Nat → Nat

/-- The 4 KiB page that the host translates a function's page to through ATS (R342; notes/assumptions/190). -/
opaque translated : Nat → Nat → Nat

/-- The factory power model: phase, field and clock step to power in 10 mW (R395; notes/assumptions/7). -/
opaque factoryW : Nat → Nat → Nat → Nat

/-! The codec standards of R9, as functions of the stream block, the bytes of the submissions up to the current one and a place in
the last of these (R261, R265; notes/assumptions/186). -/

/-- What stands at a place. -/
opaque parse : Bytes → List Bytes → Nat → ParseOut

/-- The place after what stands at a place. -/
opaque parseNext : Bytes → List Bytes → Nat → Nat

/-- What decoding the unit at a place meets. -/
opaque unitFacts : Bytes → List Bytes → Nat → UnitFacts

/-- A sample after the unit at a place has been decoded into a picture, given the picture's slot before it and then the slots of its
references: component, x and y. -/
opaque sample : Bytes → List Bytes → Nat → List Bytes → Nat × Nat × Nat → Nat

/-! The encoder's decisions and syntax, which R263 leaves to the standards and the module: stream block, source picture, reference
slots and the rest of what a slice is coded from (R109, R263, R265). -/

/-- The prediction blocks of a slice, in coding order: QP, first luma row and rows. -/
opaque predBlocks : Bytes → Bytes → Nat → Nat → Nat → List PredBlock

/-- The reference that the mode decision takes for a block, by its place among those searched; none or a place beyond them is
intra: the block, its search results, and the vectors before it. -/
opaque modeChoice : Bytes → Bytes → PredBlock → List (Int × Int) → List BlockVec → Option Nat

/-- R of R279: codec, candidates and vector to bits. -/
opaque vectorBits : Nat → List (Int × Int) → Int × Int → Nat

/-- A luma sample of a reference at a quarter-pel place, by the codec's interpolation (R279): stream block, reference slot, place. -/
opaque interpolated : Bytes → Bytes → Int → Int → Nat

/-- λ of a QP, 16.16 fixed point (R279, R288). -/
opaque lambda : Nat → Nat

/-- The QP that rate control asks for, from the picture type (0 I, 1 P, 2 B) and the bytes of the slices so far (R264, R265). -/
opaque rateQp : Bytes → Nat → List Nat → Nat

/-- The coded bytes of a slice or tile after its start code or temporal delimiter: picture type, QP, slice number, source picture,
reference slots and vectors. -/
opaque sliceBits : Bytes → Nat → Nat → Nat → Bytes → List Bytes → List BlockVec → Bytes

/-- A reconstructed sample after a slice, given the source picture, the slot before it and then the reference slots, the vectors and
the QP: component, x and y. -/
opaque recon : Bytes → List Bytes → List BlockVec → Nat → Nat × Nat × Nat → Nat

end Config

end Sys2Proof
end

