-- ==== Sys2Proof/Machine/Map.lean ====
section
/-! DEFINITION. Reading and writing the sparse maps the state is made of: one canonical form, so that equal
banks are equal data. -/

namespace Sys2Proof.Machine

/-- What key k holds; an unlisted key holds d k. -/
def mget {α : Type} (d : Nat → α) : Map α → Nat → α
  | [], k => d k
  | (j, v) :: m, k => if j = k then v else mget d m k

/-- Insert or replace the entry of k, keeping the keys rising. -/
def minsert {α : Type} (k : Nat) (v : α) : Map α → Map α
  | [] => [(k, v)]
  | (j, w) :: m =>
    if k < j then (k, v) :: (j, w) :: m
    else if k = j then (k, v) :: m
    else (j, w) :: minsert k v m

/-- Drop the entry of k. -/
def mdel {α : Type} (k : Nat) (m : Map α) : Map α := m.filter (fun e => e.1 != k)

/-- Write v at k; writing what an unlisted key reads as removes the entry. -/
def mset {α : Type} [DecidableEq α] (d : Nat → α) (m : Map α) (k : Nat) (v : α) : Map α :=
  if v = d k then mdel k m else minsert k v m

/-- Keys strictly rising above a bound and no entry equal to the default. -/
def mwfFrom {α : Type} [DecidableEq α] (d : Nat → α) : Option Nat → Map α → Bool
  | _, [] => true
  | lo, (k, v) :: m =>
    (match lo with
      | none => true
      | some l => decide (l < k)) && decide (v ≠ d k) && mwfFrom d (some k) m

/-- The canonical form of a map. -/
def mwf {α : Type} [DecidableEq α] (d : Nat → α) (m : Map α) : Bool := mwfFrom d none m

/-- Write a run of values from key k on. -/
def msetMany {α : Type} [DecidableEq α] (d : Nat → α) (m : Map α) (k : Nat) : List α → Map α
  | [] => m
  | v :: vs => msetMany d (mset d m k v) (k + 1) vs

/-- Read n values from key k on. -/
def mgetMany {α : Type} (d : Nat → α) (m : Map α) (k : Nat) : Nat → List α
  | 0 => []
  | n + 1 => mget d m k :: mgetMany d m (k + 1) n

/-- Replace element i of a list. -/
def lset {α : Type} (l : List α) (i : Nat) (v : α) : List α := l.set i v

/-- Update the first element that satisfies p. -/
def updFirst {α : Type} (p : α → Bool) (f : α → α) : List α → List α
  | [] => []
  | x :: xs => if p x then f x :: xs else x :: updFirst p f xs

/-- Drop the first element that satisfies p. -/
def dropFirst {α : Type} (p : α → Bool) : List α → List α
  | [] => []
  | x :: xs => if p x then xs else x :: dropFirst p xs

/-- Split a list into pieces of n (n positive; the fuel is the list's length). -/
def chunksOf {α : Type} (n : Nat) : Nat → List α → List (List α)
  | 0, _ => []
  | _, [] => []
  | fuel + 1, l => l.take n :: chunksOf n fuel (l.drop n)

end Sys2Proof.Machine
end

