-- ==== Sys2Proof/Machine/Regs.lean ====
section
/-! DEFINITION. The register pages as the spec's tables give them: for each page type (R40) its registers with
their offsets, strides, access masks and reset values, and a name for the place of each register. The rows are
those of the register tables of the chapters. RWU fields are staged as RWS fields are. -/

namespace Sys2Proof.Machine

/-- One row of a register table: offset, up to two strides with their counts, the RW, RWS and W1C bits, whether it is
a count that writing 1 to bit 0 clears, and the reset value. -/
structure RegDef where
  off : Nat
  s1 : Nat
  n1 : Nat
  s2 : Nat
  n2 : Nat
  rw : Nat
  rws : Nat
  w1c : Nat
  cnt : Bool
  reset : Nat
deriving DecidableEq, Repr

/-- Registers of page type 0x0001, SYS. -/
def regsSYS : List RegDef := [
  ⟨0x40, 0, 1, 0, 1, 0x0, 0x0, 0x0, false, 0x0⟩,  -- SYS_STATE
  ⟨0x44, 0, 1, 0, 1, 0x0, 0x0, 0x0, false, 0x0⟩,  -- SYS_PART
  ⟨0x48, 0, 1, 0, 1, 0x0, 0x0, 0x0, false, 0x0⟩,  -- SYS_SERIAL_LO
  ⟨0x4C, 0, 1, 0, 1, 0x0, 0x0, 0x0, false, 0x0⟩,  -- SYS_SERIAL_HI
  ⟨0x50, 0, 1, 0, 1, 0x0, 0x0, 0x0, false, 0x0⟩,  -- SYS_FWVER
  ⟨0x54, 0, 1, 0, 1, 0x0, 0x0, 0x0, false, 0x0⟩,  -- SYS_RESET_CAUSE
  ⟨0x58, 0, 1, 0, 1, 0x0, 0x0, 0x0, false, 0x0⟩,  -- SYS_SLOT
  ⟨0x5C, 0, 1, 0, 1, 0x0, 0x0, 0x0, true, 0x0⟩,  -- SYS_UNMAPPED
  ⟨0x60, 0, 1, 0, 1, 0xFFFFFFFF, 0x0, 0x0, false, 0x0⟩  -- SYS_SCRATCH
  ]

/-- Registers of page type 0x0002, CLK. -/
def regsCLK : List RegDef := [
  ⟨0x40, 0, 1, 0, 1, 0x0, 0x0, 0x0, false, 0x0⟩,  -- CLK_LOCK
  ⟨0x48, 0, 1, 0, 1, 0x0, 0x0, 0x0, false, 0x0⟩,  -- CLK_MTIME_LO
  ⟨0x4C, 0, 1, 0, 1, 0x0, 0x0, 0x0, false, 0x0⟩,  -- CLK_MTIME_HI
  ⟨0x50, 0, 1, 0, 1, 0x0, 0x0, 0x0, false, 0x0⟩,  -- CLK_MTIME_INC_F
  ⟨0x54, 0, 1, 0, 1, 0x0, 0x0, 0x0, false, 0xA⟩,  -- CLK_MTIME_INC_I
  ⟨0x58, 0, 1, 0, 1, 0x0, 0x0, 0x0, false, 0x0⟩  -- CLK_PTP
  ]

/-- Registers of page type 0x0003, PWR. -/
def regsPWR : List RegDef := [
  ⟨0x40, 0, 1, 0, 1, 0x0, 0x3FF, 0x0, false, 0x384⟩,  -- PWR_CAP
  ⟨0x44, 0, 1, 0, 1, 0x0, 0x3FF03FF, 0x0, false, 0x38400FA⟩,  -- PWR_BOUNDS
  ⟨0x48, 0, 1, 0, 1, 0x0, 0x7F, 0x0, false, 0x8⟩,  -- PWR_SLOPE
  ⟨0x4C, 0, 1, 0, 1, 0x0, 0x0, 0x0, false, 0x384⟩,  -- PWR_TARGET
  ⟨0x50, 0, 1, 0, 1, 0x0, 0x0, 0x0, false, 0x384⟩,  -- PWR_INNER
  ⟨0x54, 0, 1, 0, 1, 0x0, 0x0, 0x0, false, 0x0⟩,  -- PWR_MEAS
  ⟨0x58, 0, 1, 0, 1, 0x0, 0x0, 0x0, false, 0x0⟩,  -- PWR_VIN
  ⟨0x5C, 0, 1, 0, 1, 0x0, 0x0, 0x0, false, 0x0⟩,  -- PWR_EST
  ⟨0x60, 0, 1, 0, 1, 0x0, 0x0, 0x0, false, 0x0⟩,  -- PWR_STATE
  ⟨0x64, 0, 1, 0, 1, 0x0, 0x0, 0x0, false, 0x0⟩,  -- PWR_CPI
  ⟨0x68, 0, 1, 0, 1, 0x0, 0x0, 0x0, false, 0x0⟩,  -- PWR_POOL
  ⟨0x6C, 0, 1, 0, 1, 0x0, 0x0, 0x0, false, 0x0⟩,  -- PWR_SHARE
  ⟨0x70, 0, 1, 0, 1, 0x0, 0x0, 0x0, false, 0x0⟩,  -- PWR_ENERGY_LO
  ⟨0x74, 0, 1, 0, 1, 0x0, 0x0, 0x0, false, 0x0⟩,  -- PWR_ENERGY_HI
  ⟨0x78, 0, 1, 0, 1, 0x0, 0x0, 0x0, true, 0x0⟩,  -- PWR_LAG_US
  ⟨0x7C, 0, 1, 0, 1, 0x0, 0x0, 0x0, true, 0x0⟩,  -- PWR_BRAKES
  ⟨0x80, 4, 16, 0, 1, 0x0, 0x7F, 0x0, false, 0x0⟩,  -- PWR_PHASE_OPP
  ⟨0xC0, 0, 1, 0, 1, 0x0, 0x0, 0x0, false, 0x0⟩,  -- PWR_EST_GAIN
  ⟨0xC4, 0, 1, 0, 1, 0x0, 0x0, 0x0, false, 0x0⟩,  -- PWR_EST_OFS
  ⟨0x400, 0, 1, 0, 1, 0x7F7F, 0x0, 0x0, false, 0x1000⟩,  -- PWR_LEARN_SEL
  ⟨0x404, 0, 1, 0, 1, 0x0, 0x0, 0x0, false, 0x0⟩,  -- PWR_LEARN_DATA
  ⟨0x408, 0, 1, 0, 1, 0x1, 0x0, 0x0, false, 0x0⟩  -- PWR_LEARN_CTRL
  ]

/-- Registers of page type 0x0004, THM. -/
def regsTHM : List RegDef := [
  ⟨0x40, 4, 8, 0, 1, 0x0, 0x0, 0x0, false, 0x0⟩,  -- THM_TJ
  ⟨0x60, 4, 4, 0, 1, 0x0, 0x0, 0x0, false, 0x640000⟩,  -- THM_HBM
  ⟨0x70, 0, 1, 0, 1, 0x0, 0x0, 0x0, false, 0x0⟩,  -- THM_COOL_IN
  ⟨0x74, 0, 1, 0, 1, 0x0, 0x0, 0x0, false, 0x0⟩,  -- THM_COOL_OUT
  ⟨0x78, 0, 1, 0, 1, 0x0, 0x0, 0x0, false, 0x0⟩,  -- THM_FLOW
  ⟨0x7C, 0, 1, 0, 1, 0x0, 0x0, 0x0, false, 0x0⟩,  -- THM_LEAK
  ⟨0x80, 0, 1, 0, 1, 0x0, 0xFFFF, 0x0, false, 0xF3C⟩,  -- THM_CPVOL
  ⟨0x84, 0, 1, 0, 1, 0x0, 0x0, 0x0, false, 0x0⟩,  -- THM_LEAK_CLR
  ⟨0x88, 0, 1, 0, 1, 0x0, 0x0, 0x0, true, 0x0⟩  -- THM_THROTTLE_US
  ]

/-- Registers of page type 0x0005, CAL. -/
def regsCAL : List RegDef := [
  ⟨0x40, 0, 1, 0, 1, 0x0, 0x0, 0x0, false, 0x0⟩,  -- CAL_STATE
  ⟨0x44, 0, 1, 0, 1, 0x0, 0xFFFFFF, 0x0, false, 0x0⟩,  -- CAL_USR_TOFS
  ⟨0x48, 0, 1, 0, 1, 0x0, 0x3FF, 0x0, false, 0x0⟩,  -- CAL_USR_PGAIN
  ⟨0x4C, 0, 1, 0, 1, 0x0, 0x3F, 0x0, false, 0x0⟩,  -- CAL_USR_GUARD
  ⟨0x50, 0, 1, 0, 1, 0x0, 0x0, 0x0, false, 0x0⟩,  -- CAL_FAC_PGAIN
  ⟨0x54, 0, 1, 0, 1, 0x0, 0x0, 0x0, false, 0x0⟩,  -- CAL_FAC_POFS
  ⟨0x58, 0, 1, 0, 1, 0x0, 0x0, 0x0, false, 0x0⟩,  -- CAL_FAC_COOL
  ⟨0x60, 4, 8, 0, 1, 0x0, 0x0, 0x0, false, 0x0⟩,  -- CAL_FAC_TJ
  ⟨0x80, 4, 4, 0, 1, 0x0, 0x0, 0x0, false, 0x0⟩,  -- CAL_FAC_HBM
  ⟨0xA0, 0, 1, 0, 1, 0x0, 0x0, 0x0, false, 0x0⟩,  -- CAL_START_PREHEAT
  ⟨0xA4, 0, 1, 0, 1, 0x0, 0x0, 0x0, false, 0x0⟩,  -- CAL_START_BOOT
  ⟨0xA8, 0, 1, 0, 1, 0x0, 0x0, 0x0, false, 0x0⟩,  -- CAL_START_BIST
  ⟨0xAC, 0, 1, 0, 1, 0x0, 0x0, 0x0, false, 0x0⟩,  -- CAL_START_READY
  ⟨0xB0, 0, 1, 0, 1, 0x0, 0x0, 0x0, false, 0x0⟩  -- CAL_BIST_BAYS
  ]

/-- Registers of page type 0x0006, SEC. -/
def regsSEC : List RegDef := [
  ⟨0x40, 0, 1, 0, 1, 0x0, 0x0, 0x0, false, 0x18⟩,  -- SEC_STATE
  ⟨0x44, 0, 1, 0, 1, 0x0, 0x0, 0x0, false, 0x0⟩,  -- SEC_SVN
  ⟨0x48, 0, 1, 0, 1, 0x0, 0x0, 0x0, false, 0x0⟩,  -- SEC_VER_A
  ⟨0x4C, 0, 1, 0, 1, 0x0, 0x0, 0x0, false, 0x0⟩,  -- SEC_VER_B
  ⟨0x50, 0, 1, 0, 1, 0x0, 0x0, 0x0, false, 0x0⟩,  -- SEC_SETS
  ⟨0x54, 0, 1, 0, 1, 0x0, 0x0, 0x0, false, 0x0⟩,  -- SEC_SESSIONS
  ⟨0x58, 0, 1, 0, 1, 0x0, 0x0, 0x0, false, 0x0⟩,  -- SEC_KEYS_LO
  ⟨0x5C, 0, 1, 0, 1, 0x0, 0x0, 0x0, false, 0x0⟩,  -- SEC_KEYS_HI
  ⟨0x60, 0, 1, 0, 1, 0x0, 0x0, 0x0, false, 0x0⟩,  -- SEC_SCRUB_LO
  ⟨0x64, 0, 1, 0, 1, 0x0, 0x0, 0x0, false, 0x0⟩,  -- SEC_SCRUB_HI
  ⟨0x68, 0, 1, 0, 1, 0x0, 0x0, 0x0, false, 0x0⟩,  -- SEC_MGMT
  ⟨0x70, 4, 8, 0, 1, 0x0, 0x0, 0x0, false, 0x0⟩,  -- SEC_DBG_CHAL
  ⟨0x100, 64, 8, 4, 12, 0x0, 0xFFFFFFFF, 0x0, false, 0x0⟩  -- SEC_TID
  ]

/-- Registers of page type 0x0007, PORT. -/
def regsPORT : List RegDef := [
  ⟨0x40, 0, 1, 0, 1, 0x0, 0x0, 0x0, false, 0x0⟩,  -- PORT_LINK
  ⟨0x44, 0, 1, 0, 1, 0x2, 0x0, 0x0, false, 0x2⟩,  -- PORT_CTRL
  ⟨0x48, 0, 1, 0, 1, 0xFF, 0x0, 0x0, false, 0x0⟩,  -- PORT_WIN_BASE
  ⟨0x4C, 0, 1, 0, 1, 0x0, 0x0, 0x0, false, 0x0⟩,  -- PORT_DOWNS
  ⟨0x50, 0, 1, 0, 1, 0x0, 0x0, 0x0, false, 0x0⟩,  -- PORT_TX_LO
  ⟨0x54, 0, 1, 0, 1, 0x0, 0x0, 0x0, false, 0x0⟩,  -- PORT_TX_HI
  ⟨0x58, 0, 1, 0, 1, 0x0, 0x0, 0x0, false, 0x0⟩,  -- PORT_RX_LO
  ⟨0x5C, 0, 1, 0, 1, 0x0, 0x0, 0x0, false, 0x0⟩  -- PORT_RX_HI
  ]

/-- Registers of page type 0x0008, MSG. -/
def regsMSG : List RegDef := [
  ⟨0x40, 0, 1, 0, 1, 0xFFF, 0x0, 0x0, false, 0x0⟩,  -- RING_ROUTE
  ⟨0x44, 0, 1, 0, 1, 0x0, 0x0, 0x1F, false, 0x0⟩,  -- STICKY
  ⟨0x48, 0, 1, 0, 1, 0x0, 0x0, 0x0, false, 0x0⟩,  -- STICKY_T_LO
  ⟨0x4C, 0, 1, 0, 1, 0x0, 0x0, 0x0, false, 0x0⟩,  -- STICKY_T_HI
  ⟨0x50, 4, 16, 0, 1, 0x0, 0x0, 0x0, true, 0x0⟩,  -- EQ_LOST
  ⟨0x90, 0, 1, 0, 1, 0x0, 0x0, 0x0, false, 0x0⟩,  -- FN_STATE
  ⟨0x100, 16, 16, 0, 1, 0xFFFFFFC0, 0x0, 0x0, false, 0x0⟩,  -- SQ_BASE_LO
  ⟨0x104, 16, 16, 0, 1, 0xFFFFFFFF, 0x0, 0x0, false, 0x0⟩,  -- SQ_BASE_HI
  ⟨0x108, 16, 16, 0, 1, 0x10F0F, 0x0, 0x0, false, 0x4⟩,  -- SQ_CFG
  ⟨0x10C, 16, 16, 0, 1, 0x0, 0x0, 0x0, false, 0x0⟩,  -- SQ_HEAD
  ⟨0x200, 16, 16, 0, 1, 0xFFFFFFC0, 0x0, 0x0, false, 0x0⟩,  -- EQ_BASE_LO
  ⟨0x204, 16, 16, 0, 1, 0xFFFFFFFF, 0x0, 0x0, false, 0x0⟩,  -- EQ_BASE_HI
  ⟨0x208, 16, 16, 0, 1, 0x103FF1F, 0x0, 0x0, false, 0x20006⟩,  -- EQ_CFG
  ⟨0x20C, 16, 16, 0, 1, 0x0, 0x0, 0x0, false, 0x0⟩,  -- EQ_TAIL
  ⟨0x300, 4, 16, 0, 1, 0x0, 0x0, 0x0, false, 0x0⟩,  -- MSG_SQ_DOORBELL
  ⟨0x340, 4, 16, 0, 1, 0x0, 0x0, 0x0, false, 0x0⟩,  -- MSG_EQ_DOORBELL
  ⟨0x380, 4, 18, 0, 1, 0x0, 0xFFFFFFFF, 0x0, false, 0x0⟩  -- MSG_BAYMAP
  ]

/-- Registers of page type 0x0009, CLAIM. -/
def regsCLAIM : List RegDef := [
  ⟨0x40, 0, 1, 0, 1, 0x0, 0x0, 0x0, false, 0x0⟩,  -- CLAIM_CUR_LO
  ⟨0x44, 0, 1, 0, 1, 0x0, 0x0, 0x0, false, 0x0⟩,  -- CLAIM_CUR_HI
  ⟨0x48, 0, 1, 0, 1, 0x0, 0x0, 0x0, false, 0x0⟩,  -- CLAIM_STATE
  ⟨0x4C, 0, 1, 0, 1, 0x0, 0xFFFF03FF, 0x0, false, 0x1F4000A⟩,  -- CLAIM_CFG
  ⟨0x50, 0, 1, 0, 1, 0x0, 0x0, 0x0, false, 0x0⟩,  -- CLAIM_CHANGES
  ⟨0x54, 0, 1, 0, 1, 0x0, 0x0, 0x0, true, 0x0⟩,  -- CLAIM_REJECTS
  ⟨0x58, 0, 1, 0, 1, 0x0, 0x0, 0x0, false, 0x0⟩,  -- CLAIM_KEY_LO
  ⟨0x5C, 0, 1, 0, 1, 0x0, 0x0, 0x0, false, 0x0⟩,  -- CLAIM_KEY_HI
  ⟨0x80, 64, 2, 0, 1, 0x0, 0x0, 0x0, false, 0x0⟩,  -- HB_LO
  ⟨0x84, 64, 2, 0, 1, 0x0, 0x0, 0x0, false, 0x0⟩,  -- HB_HI
  ⟨0x88, 64, 2, 0, 1, 0x0, 0x0, 0x0, false, 0x0⟩,  -- HOST
  ⟨0x90, 64, 2, 0, 1, 0x0, 0x0, 0x0, false, 0x0⟩,  -- PCIE_CLAIM_LO
  ⟨0x94, 64, 2, 0, 1, 0x0, 0x0, 0x0, false, 0x0⟩,  -- PCIE_CLAIM_HI
  ⟨0x98, 64, 2, 0, 1, 0x0, 0x0, 0x0, false, 0x0⟩,  -- MGMT_CLAIM_LO
  ⟨0x9C, 64, 2, 0, 1, 0x0, 0x0, 0x0, false, 0x0⟩,  -- MGMT_CLAIM_HI
  ⟨0xA0, 64, 2, 0, 1, 0xFFFFFFE0, 0x0, 0x0, false, 0x0⟩,  -- HBADDR_LO
  ⟨0xA4, 64, 2, 0, 1, 0xFFFFFFFF, 0x0, 0x0, false, 0x0⟩,  -- HBADDR_HI
  ⟨0xA8, 64, 2, 0, 1, 0x1F, 0x0, 0x0, false, 0x0⟩,  -- RING
  ⟨0xAC, 64, 2, 0, 1, 0x0, 0x0, 0x0, false, 0x0⟩  -- EARLY
  ]

/-- Registers of page type 0x000A, TXN. -/
def regsTXN : List RegDef := [
  ⟨0x40, 0, 1, 0, 1, 0x0, 0x0, 0x0, false, 0x0⟩,  -- TXN_EPOCH
  ⟨0x44, 0, 1, 0, 1, 0x0, 0x0, 0x0, false, 0x0⟩,  -- TXN_OLDEST
  ⟨0x48, 0, 1, 0, 1, 0x0, 0x0, 0x0, false, 0x0⟩,  -- TXN_SLOTS
  ⟨0x4C, 0, 1, 0, 1, 0x0, 0xFFFFFFFF, 0x0, false, 0x22222228⟩,  -- TXN_QUOTA_LO
  ⟨0x50, 0, 1, 0, 1, 0x0, 0xF, 0x0, false, 0x2⟩,  -- TXN_QUOTA_HI
  ⟨0x54, 0, 1, 0, 1, 0x0, 0x0, 0x0, false, 0x0⟩,  -- TXN_RETAIN
  ⟨0x58, 0, 1, 0, 1, 0x0, 0x0, 0x0, false, 0x0⟩,  -- TXN_RAISED
  ⟨0x5C, 0, 1, 0, 1, 0x0, 0x0, 0x0, false, 0x0⟩,  -- TXN_STRUCK
  ⟨0x60, 0, 1, 0, 1, 0xFFFF, 0x0, 0x0, false, 0x64⟩,  -- TXN_RETIRE_WARN
  ⟨0x400, 0, 1, 0, 1, 0x0, 0x0, 0x0, false, 0x0⟩,  -- TXN_OPEN
  ⟨0x404, 0, 1, 0, 1, 0x1F, 0x0, 0x0, false, 0x0⟩,  -- TXN_SEL
  ⟨0x408, 0, 1, 0, 1, 0x1FF03, 0x0, 0x0, false, 0x0⟩,  -- TXN_MODE
  ⟨0x410, 0, 1, 0, 1, 0xFFFFFFE0, 0x0, 0x0, false, 0x0⟩,  -- TXN_LIST_LO
  ⟨0x414, 0, 1, 0, 1, 0xFFFFFFFF, 0x0, 0x0, false, 0x0⟩,  -- TXN_LIST_HI
  ⟨0x418, 0, 1, 0, 1, 0x0, 0x0, 0x0, false, 0x0⟩,  -- TXN_LIST_CMD
  ⟨0x41C, 0, 1, 0, 1, 0x0, 0x0, 0x0, false, 0x0⟩,  -- TXN_ACTION
  ⟨0x420, 0, 1, 0, 1, 0x0, 0x0, 0x0, false, 0x0⟩,  -- TXN_STATUS
  ⟨0x424, 0, 1, 0, 1, 0x0, 0x0, 0x0, false, 0x0⟩,  -- TXN_FAIL
  ⟨0x428, 0, 1, 0, 1, 0x0, 0x0, 0x0, false, 0x0⟩,  -- TXN_EPOCH_AT
  ⟨0x42C, 0, 1, 0, 1, 0x0, 0x0, 0x0, false, 0x0⟩,  -- TXN_DONE_LO
  ⟨0x430, 0, 1, 0, 1, 0x0, 0x0, 0x0, false, 0x0⟩,  -- TXN_DONE_HI
  ⟨0x440, 0, 1, 0, 1, 0xFFFFFFC0, 0x0, 0x0, false, 0x0⟩,  -- TXN_VERQ_LO
  ⟨0x444, 0, 1, 0, 1, 0x3F, 0x0, 0x0, false, 0x0⟩,  -- TXN_VERQ_HI
  ⟨0x448, 0, 1, 0, 1, 0x0, 0x0, 0x0, false, 0x0⟩  -- TXN_VERQ_DATA
  ]

/-- Registers of page type 0x000B, FENCE. -/
def regsFENCE : List RegDef := [
  ⟨0x40, 0, 1, 0, 1, 0x0, 0x0, 0x0, false, 0x0⟩,  -- FENCE_STATE
  ⟨0x44, 0, 1, 0, 1, 0x0, 0x0, 0x0, false, 0x0⟩,  -- FENCE_SEQ
  ⟨0x48, 0, 1, 0, 1, 0x0, 0x0, 0x0, true, 0x0⟩,  -- FENCE_DROPS
  ⟨0x4C, 0, 1, 0, 1, 0x0, 0x0, 0x0, false, 0x0⟩,  -- FENCE_LAST
  ⟨0x50, 0, 1, 0, 1, 0x0, 0x0, 0x0, false, 0x0⟩,  -- SHADOW_STATE
  ⟨0x54, 0, 1, 0, 1, 0x0, 0xFFFF, 0x0, false, 0x3E8⟩,  -- SHADOW_PROOF
  ⟨0x58, 0, 1, 0, 1, 0x0, 0x0, 0x0, false, 0x0⟩,  -- SHADOW_RUN
  ⟨0x5C, 0, 1, 0, 1, 0x0, 0x0, 0x0, false, 0x0⟩,  -- SHADOW_BAD_LO
  ⟨0x60, 0, 1, 0, 1, 0x0, 0x0, 0x0, false, 0x0⟩,  -- SHADOW_BAD_HI
  ⟨0x64, 0, 1, 0, 1, 0x0, 0x0, 0x0, false, 0x0⟩,  -- SHADOW_BAD_T
  ⟨0x68, 0, 1, 0, 1, 0x0, 0x0, 0x0, false, 0x0⟩,  -- WIRING_STATE
  ⟨0x100, 4, 64, 0, 1, 0x0, 0x3FFFF, 0x0, false, 0x0⟩  -- FENCE_RID
  ]

/-- Registers of page type 0x000C, TALLY. -/
def regsTALLY : List RegDef := [
  ⟨0x40, 0, 1, 0, 1, 0xFF, 0x0, 0x0, false, 0x0⟩,  -- TALLY_SEL
  ⟨0x44, 0, 1, 0, 1, 0x0, 0xF, 0x0, false, 0x0⟩,  -- TALLY_OWNER
  ⟨0x48, 0, 1, 0, 1, 0x0, 0x0, 0x0, false, 0x0⟩,  -- TALLY_COUNT
  ⟨0x4C, 0, 1, 0, 1, 0x0, 0xFFFFFFFF, 0x0, false, 0x0⟩,  -- TALLY_TARGET
  ⟨0x50, 0, 1, 0, 1, 0x0, 0xFF, 0x0, false, 0x0⟩,  -- TALLY_MODE
  ⟨0x54, 0, 1, 0, 1, 0x0, 0xFFFFFFC0, 0x0, false, 0x0⟩,  -- TALLY_PARENT_LO
  ⟨0x58, 0, 1, 0, 1, 0x0, 0xFFFFFFFF, 0x0, false, 0x0⟩,  -- TALLY_PARENT_HI
  ⟨0x5C, 0, 1, 0, 1, 0x0, 0x3FFF, 0x0, false, 0x0⟩,  -- TALLY_LINK
  ⟨0x60, 0, 1, 0, 1, 0x0, 0x0, 0x0, false, 0x0⟩,  -- TALLY_ROUND
  ⟨0x64, 0, 1, 0, 1, 0x0, 0xFFFFFFFF, 0x0, false, 0x10FFFFF⟩,  -- TALLY_SUB
  ⟨0x68, 0, 1, 0, 1, 0x0, 0x0, 0x0, false, 0x0⟩,  -- TALLY_UP
  ⟨0x6C, 0, 1, 0, 1, 0x0, 0x0, 0x0, false, 0x0⟩,  -- TALLY_ADD
  ⟨0x70, 0, 1, 0, 1, 0x0, 0x0, 0x0, false, 0x0⟩,  -- TALLY_FIRE_LO
  ⟨0x74, 0, 1, 0, 1, 0x0, 0x0, 0x0, false, 0x0⟩,  -- TALLY_FIRE_HI
  ⟨0x80, 8, 16, 0, 1, 0x0, 0xFFFFFFC0, 0x0, false, 0x0⟩,  -- TALLY_CHILD_LO
  ⟨0x84, 8, 16, 0, 1, 0x0, 0xFFFFFFFF, 0x0, false, 0x0⟩,  -- TALLY_CHILD_HI
  ⟨0x100, 4, 16, 0, 1, 0x0, 0x103FF, 0x0, false, 0x0⟩,  -- TALLY_CHILD_CFG
  ⟨0x200, 0, 1, 0, 1, 0xFFFF, 0x0, 0x0, false, 0x3E8⟩,  -- TALLY_STALL_MS
  ⟨0x204, 0, 1, 0, 1, 0x0, 0x0, 0x0, true, 0x0⟩  -- TALLY_BAD
  ]

/-- Registers of page type 0x000D, MGMT. -/
def regsMGMT : List RegDef := [
  ⟨0x40, 4, 2, 0, 1, 0x0, 0x0, 0x0, false, 0x0⟩,  -- MGMT_LINK
  ⟨0x48, 0, 1, 0, 1, 0x0, 0x1, 0x0, false, 0x0⟩,  -- MGMT_CTRL
  ⟨0x4C, 0, 1, 0, 1, 0x0, 0xFF, 0x0, false, 0x0⟩,  -- MGMT_PTP
  ⟨0x50, 0, 1, 0, 1, 0x0, 0x0, 0x0, false, 0x0⟩,  -- MGMT_PTP_OFS
  ⟨0x58, 0, 1, 0, 1, 0x0, 0x0, 0x0, false, 0x0⟩,  -- MGMT_MAC0_LO
  ⟨0x5C, 0, 1, 0, 1, 0x0, 0x0, 0x0, false, 0x0⟩,  -- MGMT_MAC0_HI
  ⟨0x60, 0, 1, 0, 1, 0x0, 0x0, 0x0, false, 0x0⟩,  -- MGMT_MAC1_LO
  ⟨0x64, 0, 1, 0, 1, 0x0, 0x0, 0x0, false, 0x0⟩,  -- MGMT_MAC1_HI
  ⟨0x68, 4, 2, 0, 1, 0x0, 0x0, 0x0, true, 0x0⟩,  -- MGMT_RX
  ⟨0x70, 4, 2, 0, 1, 0x0, 0x0, 0x0, true, 0x0⟩  -- MGMT_DROP
  ]

/-- Registers of page type 0x0010, FUNC. -/
def regsFUNC : List RegDef := [
  ⟨0x40, 0, 1, 0, 1, 0x0, 0x0, 0x0, false, 0x0⟩,  -- FUNC_STATE
  ⟨0x44, 0, 1, 0, 1, 0x0, 0x1, 0x0, false, 0x0⟩,  -- FUNC_EXPERT_ALLOW
  ⟨0x48, 0, 1, 0, 1, 0x0, 0x1, 0x0, false, 0x0⟩,  -- FUNC_CFG
  ⟨0x4C, 0, 1, 0, 1, 0x0, 0xFFFF, 0x0, false, 0x7D0⟩,  -- FUNC_DRAIN_TIMEOUT
  ⟨0x50, 4, 8, 0, 1, 0x0, 0x80001FFF, 0x0, false, 0x0⟩,  -- FUNC_APERTURE
  ⟨0x70, 4, 18, 0, 1, 0x0, 0xFFFFFFFF, 0x0, false, 0x0⟩,  -- FUNC_BAYMAP
  ⟨0xC0, 0, 1, 0, 1, 0x0, 0xFFFFFFFF, 0x0, false, 0x0⟩,  -- FUNC_WAINS
  ⟨0x100, 8, 16, 0, 1, 0x0, 0x1FFFF, 0x0, false, 0x0⟩,  -- FUNC_REGION_BASE
  ⟨0x104, 8, 16, 0, 1, 0x0, 0x1FFFF, 0x0, false, 0x0⟩  -- FUNC_REGION_SIZE
  ]

/-- Registers of page type 0x0011, WAIN. -/
def regsWAIN : List RegDef := [
  ⟨0x40, 0, 1, 0, 1, 0x0, 0x0, 0x0, false, 0x0⟩,  -- WAIN_STATE
  ⟨0x44, 0, 1, 0, 1, 0x0, 0x0, 0x0, false, 0x0⟩,  -- WAIN_OWNER
  ⟨0x48, 0, 1, 0, 1, 0xFFFFFFC1, 0x0, 0x0, false, 0x0⟩,  -- WAIN_POST_LO
  ⟨0x4C, 0, 1, 0, 1, 0x0, 0x0, 0x0, false, 0x0⟩,  -- WAIN_POST_HI
  ⟨0x50, 0, 1, 0, 1, 0x0, 0x0, 0x0, false, 0x0⟩,  -- WAIN_CTRL
  ⟨0x54, 0, 1, 0, 1, 0x10F, 0x0, 0x0, false, 0x0⟩,  -- WAIN_CFG
  ⟨0x58, 0, 1, 0, 1, 0x0, 0x0, 0x0, false, 0x0⟩,  -- WAIN_CUR_LO
  ⟨0x5C, 0, 1, 0, 1, 0x0, 0x0, 0x0, false, 0x0⟩,  -- WAIN_CUR_HI
  ⟨0x60, 0, 1, 0, 1, 0xFFFFFFE1, 0x0, 0x0, false, 0x0⟩,  -- WAIN_CQ_LO
  ⟨0x64, 0, 1, 0, 1, 0xFFFFFFFF, 0x0, 0x0, false, 0x0⟩,  -- WAIN_CQ_HI
  ⟨0x68, 0, 1, 0, 1, 0x10F, 0x0, 0x0, false, 0x4⟩,  -- WAIN_CQ_CFG
  ⟨0x6C, 0, 1, 0, 1, 0x0, 0x0, 0x0, false, 0x0⟩,  -- WAIN_CQ_TAIL
  ⟨0x70, 0, 1, 0, 1, 0xFFFF, 0x0, 0x0, false, 0x0⟩,  -- WAIN_CQ_HEAD
  ⟨0x78, 0, 1, 0, 1, 0x0, 0x0, 0x0, false, 0x0⟩,  -- WAIN_BYTES_LO
  ⟨0x7C, 0, 1, 0, 1, 0x0, 0x0, 0x0, false, 0x0⟩,  -- WAIN_BYTES_HI
  ⟨0x80, 0, 1, 0, 1, 0x0, 0x0, 0x0, true, 0x0⟩,  -- WAIN_DESCS
  ⟨0x84, 0, 1, 0, 1, 0x0, 0x0, 0x0, true, 0x0⟩  -- WAIN_AUTHFAIL
  ]

/-- Registers of page type 0x0012, GRN. -/
def regsGRN : List RegDef := [
  ⟨0x40, 0, 1, 0, 1, 0x0, 0xFFFFFFFF, 0x0, false, 0xA0A2828⟩,  -- GRN_WEIGHT
  ⟨0x60, 8, 4, 0, 1, 0x0, 0x0, 0x0, false, 0x0⟩,  -- GRN_GRANT_LO
  ⟨0x64, 8, 4, 0, 1, 0x0, 0x0, 0x0, false, 0x0⟩,  -- GRN_GRANT_HI
  ⟨0x80, 4, 4, 0, 1, 0x0, 0x0, 0x0, true, 0x0⟩,  -- GRN_STALL
  ⟨0xA0, 0, 1, 0, 1, 0x0, 0x0, 0x0, true, 0x0⟩,  -- GRN_ECC_CE
  ⟨0xA4, 0, 1, 0, 1, 0x0, 0x0, 0x0, true, 0x0⟩,  -- GRN_ECC_UE
  ⟨0xA8, 0, 1, 0, 1, 0x0, 0x0, 0x0, false, 0x0⟩,  -- GRN_POISON_LAST_LO
  ⟨0xAC, 0, 1, 0, 1, 0x0, 0x0, 0x0, false, 0x0⟩,  -- GRN_POISON_LAST_HI
  ⟨0xB0, 0, 1, 0, 1, 0x0, 0x0, 0x0, false, 0x0⟩  -- GRN_RETIRED
  ]

/-- Registers of page type 0x0013, KVM. -/
def regsKVM : List RegDef := [
  ⟨0x40, 0, 1, 0, 1, 0x0, 0x0, 0x0, false, 0x0⟩,  -- KVM_STATE
  ⟨0x44, 0, 1, 0, 1, 0x0, 0x0, 0x0, false, 0x0⟩,  -- KVM_CMD
  ⟨0x48, 0, 1, 0, 1, 0x0, 0x0, 0x0, false, 0x0⟩,  -- KVM_PREEMPT
  ⟨0x4C, 0, 1, 0, 1, 0x0, 0x0, 0x0, false, 0x0⟩,  -- KVM_SWAPOUT
  ⟨0x50, 0, 1, 0, 1, 0x0, 0x0, 0x0, false, 0x0⟩,  -- KVM_SWAPIN
  ⟨0x54, 0, 1, 0, 1, 0x0, 0x0, 0x0, false, 0x0⟩,  -- KVM_MERGED
  ⟨0x58, 0, 1, 0, 1, 0x0, 0x0, 0x0, false, 0x0⟩,  -- KVM_HASH_COLL
  ⟨0x5C, 0, 1, 0, 1, 0x0, 0x0, 0x0, false, 0x0⟩,  -- KVM_POISONED
  ⟨0x60, 4, 8, 0, 1, 0x0, 0x0, 0x0, false, 0x0⟩,  -- KVM_FREE
  ⟨0x400, 64, 8, 0, 1, 0x0, 0xFFFFFE00, 0x0, false, 0x0⟩,  -- KV_BASE_LO
  ⟨0x404, 64, 8, 0, 1, 0x0, 0x3F, 0x0, false, 0x0⟩,  -- KV_BASE_HI
  ⟨0x408, 64, 8, 0, 1, 0x0, 0xFFFFFF, 0x0, false, 0x0⟩,  -- KV_UNITS
  ⟨0x40C, 64, 8, 0, 1, 0x0, 0xF33F3FFF, 0x0, false, 0x0⟩,  -- KV_GEO
  ⟨0x410, 64, 8, 0, 1, 0x0, 0x1FF00F3, 0x0, false, 0x20⟩,  -- KV_CTRL
  ⟨0x414, 64, 8, 0, 1, 0x0, 0x1FFF, 0x0, false, 0x0⟩,  -- KV_MAXSEQ
  ⟨0x418, 64, 8, 0, 1, 0x0, 0xFFFFFFFF, 0x0, false, 0x0⟩,  -- KV_TAG_LO
  ⟨0x41C, 64, 8, 0, 1, 0x0, 0xFFFFFFFF, 0x0, false, 0x0⟩,  -- KV_TAG_HI
  ⟨0x420, 64, 8, 0, 1, 0x0, 0x0, 0x0, false, 0x0⟩,  -- KV_UNITSZ
  ⟨0x424, 64, 8, 0, 1, 0x0, 0x0, 0x0, false, 0x0⟩,  -- KV_RC_LO
  ⟨0x428, 64, 8, 0, 1, 0x0, 0x0, 0x0, false, 0x0⟩,  -- KV_RC_HI
  ⟨0x42C, 64, 8, 0, 1, 0x0, 0x0, 0x0, false, 0x0⟩,  -- KV_PT_LO
  ⟨0x430, 64, 8, 0, 1, 0x0, 0x0, 0x0, false, 0x0⟩,  -- KV_PT_HI
  ⟨0x600, 16, 9, 0, 1, 0x0, 0xFFFFF000, 0x0, false, 0x0⟩,  -- KV_SWAP_LO
  ⟨0x604, 16, 9, 0, 1, 0x0, 0xFFFFFFFF, 0x0, false, 0x0⟩,  -- KV_SWAP_HI
  ⟨0x608, 16, 9, 0, 1, 0x0, 0xFFFFF, 0x0, false, 0x0⟩,  -- KV_SWAP_SIZE
  ⟨0x60C, 16, 9, 0, 1, 0x0, 0x1F1F, 0x0, false, 0x0⟩  -- KV_SWAP_CFG
  ]

/-- Registers of page type 0x0014, ATT. -/
def regsATT : List RegDef := [
  ⟨0x40, 0, 1, 0, 1, 0x0, 0x0, 0x0, true, 0x0⟩,  -- ATT_ROWS
  ⟨0x44, 0, 1, 0, 1, 0x0, 0x0, 0x0, true, 0x0⟩,  -- ATT_RANGE
  ⟨0x48, 0, 1, 0, 1, 0x0, 0x0, 0x0, true, 0x0⟩,  -- ATT_FLUSH
  ⟨0x4C, 0, 1, 0, 1, 0x0, 0x0, 0x0, true, 0x0⟩,  -- ATT_KV_SAT
  ⟨0x50, 0, 1, 0, 1, 0x0, 0x0, 0x0, true, 0x0⟩  -- ATT_POISON
  ]

/-- Registers of page type 0x0015, GLN. -/
def regsGLN : List RegDef := [
  ⟨0x40, 0, 1, 0, 1, 0x0, 0x0, 0x0, false, 0x0⟩,  -- GLN_STATE
  ⟨0x44, 0, 1, 0, 1, 0x0, 0x0, 0x0, false, 0x0⟩,  -- GLN_VOCAB
  ⟨0x48, 0, 1, 0, 1, 0x0, 0x0, 0x0, true, 0x0⟩,  -- GLN_ROWS
  ⟨0x4C, 0, 1, 0, 1, 0x0, 0x0, 0x0, true, 0x0⟩,  -- GLN_NAN
  ⟨0x50, 0, 1, 0, 1, 0x0, 0x0, 0x0, true, 0x0⟩,  -- GLN_NO_TOKEN
  ⟨0x54, 0, 1, 0, 1, 0x0, 0x0, 0x0, true, 0x0⟩,  -- GLN_BUSY
  ⟨0x60, 4, 8, 0, 1, 0x0, 0x0, 0x0, false, 0x0⟩  -- GLN_TOKEN
  ]

/-- Registers of page type 0x0016, SRV. -/
def regsSRV : List RegDef := [
  ⟨0x40, 0, 1, 0, 1, 0x0, 0x0, 0x0, false, 0x0⟩,  -- SRV_STATE
  ⟨0x44, 0, 1, 0, 1, 0x0, 0x0, 0x0, false, 0x0⟩,  -- SRV_QUEUED
  ⟨0x48, 0, 1, 0, 1, 0x0, 0x0, 0x0, false, 0x0⟩,  -- SRV_STEP_LO
  ⟨0x4C, 0, 1, 0, 1, 0x0, 0x0, 0x0, false, 0x0⟩,  -- SRV_STEP_HI
  ⟨0x50, 0, 1, 0, 1, 0x0, 0x0, 0x0, false, 0x0⟩,  -- SRV_BOUND_LO
  ⟨0x54, 0, 1, 0, 1, 0x0, 0x0, 0x0, false, 0x0⟩,  -- SRV_BOUND_HI
  ⟨0x58, 0, 1, 0, 1, 0x0, 0x0, 0x0, false, 0x0⟩,  -- SRV_STEP_NS
  ⟨0x5C, 0, 1, 0, 1, 0x0, 0x0, 0x0, false, 0x0⟩,  -- SRV_BOUND_NS
  ⟨0x60, 0, 1, 0, 1, 0x0, 0x0, 0x0, false, 0x0⟩,  -- SRV_BATCH
  ⟨0x64, 0, 1, 0, 1, 0x0, 0x7FF, 0x0, false, 0x400⟩,  -- SRV_MAXBATCH
  ⟨0x68, 0, 1, 0, 1, 0x0, 0x7FFFF, 0x0, false, 0x2000⟩,  -- SRV_PREFILL
  ⟨0x70, 0, 1, 0, 1, 0x0, 0x0, 0x0, true, 0x0⟩,  -- SRV_TOKENS
  ⟨0x74, 0, 1, 0, 1, 0x0, 0x0, 0x0, true, 0x0⟩,  -- SRV_LATE
  ⟨0x78, 0, 1, 0, 1, 0x0, 0x0, 0x0, true, 0x0⟩,  -- SRV_DEADLINE
  ⟨0x7C, 0, 1, 0, 1, 0x0, 0x0, 0x0, true, 0x0⟩,  -- SRV_CANCELLED
  ⟨0x80, 0, 1, 0, 1, 0x0, 0x0, 0x0, true, 0x0⟩,  -- SRV_HELD
  ⟨0x84, 0, 1, 0, 1, 0x0, 0x0, 0x0, true, 0x0⟩,  -- SRV_SPEC_TRIED
  ⟨0x88, 0, 1, 0, 1, 0x0, 0x0, 0x0, true, 0x0⟩,  -- SRV_SPEC_OK
  ⟨0x400, 0, 1, 0, 1, 0x0, 0x0, 0x0, false, 0x0⟩,  -- SRV_SEQTAB_LO
  ⟨0x404, 0, 1, 0, 1, 0x0, 0x0, 0x0, false, 0x0⟩,  -- SRV_SEQTAB_HI
  ⟨0x408, 0, 1, 0, 1, 0x0, 0x0, 0x0, false, 0x0⟩,  -- SRV_START
  ⟨0x40C, 0, 1, 0, 1, 0xFFF, 0x0, 0x0, false, 0x0⟩,  -- SRV_SEQ_SEL
  ⟨0x440, 4, 32, 0, 1, 0x0, 0x0, 0x0, false, 0x0⟩  -- SRV_SEQ_WIN
  ]

/-- Registers of page type 0x0018, VID. -/
def regsVID : List RegDef := [
  ⟨0x40, 0, 1, 0, 1, 0x0, 0x0, 0x0, false, 0x0⟩,  -- VID_STREAMS
  ⟨0x44, 0, 1, 0, 1, 0x0, 0x3F, 0x0, false, 0x3F⟩,  -- VID_CORE_EN
  ⟨0x48, 0, 1, 0, 1, 0x0, 0x0, 0x0, true, 0x0⟩,  -- VID_SYNTAX
  ⟨0x4C, 0, 1, 0, 1, 0x0, 0x0, 0x0, true, 0x0⟩,  -- VID_CONCEALED
  ⟨0x50, 0, 1, 0, 1, 0x0, 0x0, 0x0, true, 0x0⟩,  -- VID_LATE
  ⟨0x54, 0, 1, 0, 1, 0x0, 0x0, 0x0, true, 0x0⟩,  -- VID_SKIPPED
  ⟨0x58, 0, 1, 0, 1, 0x0, 0x0, 0x0, true, 0x0⟩,  -- VID_TAP_DROP
  ⟨0x5C, 0, 1, 0, 1, 0x0, 0x0, 0x0, true, 0x0⟩  -- VID_PREEMPT
  ]

/-- Registers of page type 0x0019, VDEC. -/
def regsVDEC : List RegDef := [
  ⟨0x40, 0, 1, 0, 1, 0x0, 0x0, 0x0, false, 0x0⟩,  -- xCORE_STATE
  ⟨0x44, 0, 1, 0, 1, 0x0, 0x0, 0x0, true, 0x0⟩,  -- xPIX
  ⟨0x48, 0, 1, 0, 1, 0x0, 0x0, 0x0, true, 0x0⟩,  -- xCYC
  ⟨0x4C, 0, 1, 0, 1, 0x0, 0x0, 0x0, true, 0x0⟩  -- xUNITS
  ]

/-- Registers of page type 0x001A, VENC. -/
def regsVENC : List RegDef := [
  ⟨0x40, 0, 1, 0, 1, 0x0, 0x0, 0x0, false, 0x0⟩,  -- xCORE_STATE
  ⟨0x44, 0, 1, 0, 1, 0x0, 0x0, 0x0, true, 0x0⟩,  -- xPIX
  ⟨0x48, 0, 1, 0, 1, 0x0, 0x0, 0x0, true, 0x0⟩,  -- xCYC
  ⟨0x4C, 0, 1, 0, 1, 0x0, 0x0, 0x0, true, 0x0⟩,  -- xUNITS
  ⟨0x50, 0, 1, 0, 1, 0x0, 0x0, 0x0, true, 0x0⟩,  -- VENC_BYTES
  ⟨0x400, 4, 64, 0, 1, 0x0, 0x0, 0x0, false, 0x0⟩  -- VENC_LAMBDA
  ]

/-- Registers of page type 0x0020, BAY. -/
def regsBAY : List RegDef := [
  ⟨0x40, 0, 1, 0, 1, 0x0, 0x0, 0x0, false, 0x0⟩,  -- BAY_STATE
  ⟨0x44, 0, 1, 0, 1, 0x0, 0x0, 0x0, false, 0xF⟩,  -- BAY_OWNER
  ⟨0x48, 0, 1, 0, 1, 0x0, 0x0, 0x0, false, 0x0⟩,  -- BAY_PC_LO
  ⟨0x4C, 0, 1, 0, 1, 0x0, 0x0, 0x0, false, 0x0⟩,  -- BAY_PC_HI
  ⟨0x50, 0, 1, 0, 1, 0x0, 0x0, 0x0, false, 0x0⟩,  -- BAY_EPOCH
  ⟨0x54, 0, 1, 0, 1, 0x0, 0x0, 0x0, false, 0x0⟩,  -- BAY_EPOCH_V
  ⟨0x60, 4, 8, 0, 1, 0x0, 0x0, 0x0, false, 0x0⟩,  -- BAY_TOKEN
  ⟨0x80, 0, 1, 0, 1, 0x0, 0x0, 0x0, false, 0x0⟩,  -- BAY_CREDIT_A
  ⟨0x84, 0, 1, 0, 1, 0x0, 0x0, 0x0, false, 0x0⟩,  -- BAY_CREDIT_B
  ⟨0x88, 0, 1, 0, 1, 0x0, 0x0, 0x0, false, 0x0⟩,  -- BAY_ECC
  ⟨0x100, 8, 16, 0, 1, 0x0, 0x0, 0x0, false, 0x0⟩,  -- BAY_PERF_LO
  ⟨0x104, 8, 16, 0, 1, 0x0, 0x0, 0x0, false, 0x0⟩,  -- BAY_PERF_HI
  ⟨0x400, 0, 1, 0, 1, 0x0, 0xFFFFFFF0, 0x0, false, 0x0⟩,  -- BAY_PROG_LO
  ⟨0x404, 0, 1, 0, 1, 0x0, 0x3F, 0x0, false, 0x0⟩,  -- BAY_PROG_HI
  ⟨0x408, 0, 1, 0, 1, 0x0, 0x1FF, 0x0, false, 0x0⟩,  -- BAY_START
  ⟨0x40C, 0, 1, 0, 1, 0x0, 0xFFF0FFF, 0x0, false, 0x0⟩,  -- BAY_CREDIT_INIT_A
  ⟨0x410, 0, 1, 0, 1, 0x0, 0xFFF0FFF, 0x0, false, 0x0⟩,  -- BAY_CREDIT_INIT_B
  ⟨0x414, 0, 1, 0, 1, 0x0, 0x0, 0x0, false, 0x0⟩,  -- BAY_RUN
  ⟨0x418, 0, 1, 0, 1, 0x0, 0x0, 0x0, false, 0x0⟩,  -- BAY_TOKEN_SET
  ⟨0x420, 0, 1, 0, 1, 0x0, 0x0, 0x0, false, 0x0⟩,  -- BAY_ERRPC_LO
  ⟨0x424, 0, 1, 0, 1, 0x0, 0x0, 0x0, false, 0x0⟩  -- BAY_ERRPC_HI
  ]

/-- Registers of page type 0x0021, FIELD. FIELD_STATE.GATED stays 0: the spec does not say when the governor gates a field (R60;
notes/assumptions/189). -/
def regsFIELD : List RegDef := [
  ⟨0x40, 0, 1, 0, 1, 0x0, 0x7F, 0x0, false, 0x40⟩,  -- FIELD_FREQ
  ⟨0x44, 0, 1, 0, 1, 0x0, 0x0, 0x0, false, 0x0⟩,  -- FIELD_FCUR
  ⟨0x48, 0, 1, 0, 1, 0x0, 0x0, 0x0, false, 0x0⟩,  -- FIELD_PWR
  ⟨0x4C, 0, 1, 0, 1, 0x0, 0x0, 0x0, true, 0x0⟩,  -- FIELD_STRETCH
  ⟨0x50, 0, 1, 0, 1, 0x0, 0x0, 0x0, false, 0x0⟩,  -- FIELD_RELOCKS
  ⟨0x54, 0, 1, 0, 1, 0x0, 0x0, 0x0, false, 0x0⟩,  -- FIELD_STATE
  ⟨0x60, 0, 1, 0, 1, 0x0, 0x0, 0x0, false, 0x0⟩,  -- FIELD_GATE
  ⟨0x64, 0, 1, 0, 1, 0x0, 0x0, 0x0, false, 0x50⟩,  -- FIELD_LIMIT
  ⟨0x80, 4, 16, 0, 1, 0x0, 0x0, 0x0, false, 0x0⟩,  -- FIELD_VF
  ⟨0x400, 0, 1, 0, 1, 0x0, 0x8000007F, 0x0, false, 0x40⟩  -- FIELD_FIXED
  ]

/-- Registers of page type 0x0030, TEN (tenant header page). -/
def regsTEN : List RegDef := [
  ⟨0x40, 0, 1, 0, 1, 0xFFF, 0x0, 0x0, false, 0x0⟩,  -- RING_ROUTE
  ⟨0x44, 0, 1, 0, 1, 0x0, 0x0, 0x1F, false, 0x0⟩,  -- STICKY
  ⟨0x48, 0, 1, 0, 1, 0x0, 0x0, 0x0, false, 0x0⟩,  -- STICKY_T_LO
  ⟨0x4C, 0, 1, 0, 1, 0x0, 0x0, 0x0, false, 0x0⟩,  -- STICKY_T_HI
  ⟨0x50, 4, 16, 0, 1, 0x0, 0x0, 0x0, true, 0x0⟩,  -- EQ_LOST
  ⟨0x90, 0, 1, 0, 1, 0x0, 0x0, 0x0, false, 0x0⟩,  -- FN_STATE
  ⟨0x100, 16, 16, 0, 1, 0xFFFFFFC0, 0x0, 0x0, false, 0x0⟩,  -- SQ_BASE_LO
  ⟨0x104, 16, 16, 0, 1, 0xFFFFFFFF, 0x0, 0x0, false, 0x0⟩,  -- SQ_BASE_HI
  ⟨0x108, 16, 16, 0, 1, 0x10F0F, 0x0, 0x0, false, 0x4⟩,  -- SQ_CFG
  ⟨0x10C, 16, 16, 0, 1, 0x0, 0x0, 0x0, false, 0x0⟩,  -- SQ_HEAD
  ⟨0x200, 16, 16, 0, 1, 0xFFFFFFC0, 0x0, 0x0, false, 0x0⟩,  -- EQ_BASE_LO
  ⟨0x204, 16, 16, 0, 1, 0xFFFFFFFF, 0x0, 0x0, false, 0x0⟩,  -- EQ_BASE_HI
  ⟨0x208, 16, 16, 0, 1, 0x103FF1F, 0x0, 0x0, false, 0x20006⟩,  -- EQ_CFG
  ⟨0x20C, 16, 16, 0, 1, 0x0, 0x0, 0x0, false, 0x0⟩  -- EQ_TAIL
  ]

/-- Registers by page type (R40); 0x0040 is the model's own type for the two selectors kept per function (R82, R443). -/
def pageRegs : Nat → List RegDef
  | 0x1 => regsSYS
  | 0x2 => regsCLK
  | 0x3 => regsPWR
  | 0x4 => regsTHM
  | 0x5 => regsCAL
  | 0x6 => regsSEC
  | 0x7 => regsPORT
  | 0x8 => regsMSG
  | 0x9 => regsCLAIM
  | 0xA => regsTXN
  | 0xB => regsFENCE
  | 0xC => regsTALLY
  | 0xD => regsMGMT
  | 0x10 => regsFUNC
  | 0x11 => regsWAIN
  | 0x12 => regsGRN
  | 0x13 => regsKVM
  | 0x14 => regsATT
  | 0x15 => regsGLN
  | 0x16 => regsSRV
  | 0x18 => regsVID
  | 0x19 => regsVDEC
  | 0x1A => regsVENC
  | 0x20 => regsBAY
  | 0x21 => regsFIELD
  | 0x30 => regsTEN
  | 0x40 => [⟨0x404, 0, 1, 0, 1, 0x1F, 0, 0, false, 0⟩, ⟨0x40, 0, 1, 0, 1, 0xFF, 0, 0, false, 0⟩]
  | _ => []

/-- The common header's stored registers (R43): BLK_CTRL with HALT_ON_ERR, BLK_IRQ_RAW, BLK_IRQ_EN. -/
def regsHeader : List RegDef := [
  ⟨0x10, 0, 1, 0, 1, 0x2, 0, 0, false, 0⟩,  -- BLK_CTRL
  ⟨0x18, 0, 1, 0, 1, 0, 0, 0xFFFF0003, false, 0⟩,  -- BLK_IRQ_RAW
  ⟨0x1C, 0, 1, 0, 1, 0xFFFF0003, 0, 0, false, 0⟩  -- BLK_IRQ_EN
  ]

/-- Whether a row's register lies at a page offset. -/
def regHit (d : RegDef) (off : Nat) : Bool :=
  (List.range d.n1).any fun i => (List.range d.n2).any fun j => d.off + i * d.s1 + j * d.s2 == off

/-- The row of the register at a page offset. -/
def findReg (ty off : Nat) : Option RegDef :=
  if off < 0x40 then regsHeader.find? (regHit · off) else (pageRegs ty).find? (regHit · off)

/-- The type of page number p of MF BAR0 (R40); 0 where no page lies. Pages from 0x1000 on are the model's places for
what is kept per tenant (header pages), per tally counter and per function. -/
def pageType (p : Nat) : Nat :=
  if p = 0 then 1 else if p ≤ 5 then p + 1 else if p ≤ 7 then 7 else if p ≤ 0xD then p
  else if 0x10 ≤ p ∧ p ≤ 0x17 then 0x10 else if 0x20 ≤ p ∧ p ≤ 0x3F then 0x11
  else if 0x40 ≤ p ∧ p ≤ 0x43 then 0x12 else if p = 0x50 then 0x13 else if p = 0x51 then 0x14
  else if p = 0x52 then 0x15 else if p = 0x53 then 0x16 else if p = 0x60 then 0x18
  else if 0x61 ≤ p ∧ p ≤ 0x64 then 0x19 else if p = 0x65 ∨ p = 0x66 then 0x1A
  else if 0x100 ≤ p ∧ p < 0x340 then 0x20 else if 0x340 ≤ p ∧ p ≤ 0x347 then 0x21
  else if 0x1000 ≤ p ∧ p ≤ 0x1007 then 0x30 else if 0x2000 ≤ p ∧ p ≤ 0x20FF then 0xC
  else if 0x4000 ≤ p ∧ p ≤ 0x4008 then 0x40 else 0

/-- The instance number of page p within its type (R40). -/
def pageInst (p : Nat) : Nat :=
  if pageType p = 7 then p - 6 else if 0x10 ≤ p ∧ p ≤ 0x17 then p - 0x10
  else if 0x20 ≤ p ∧ p ≤ 0x3F then p - 0x20 else if 0x40 ≤ p ∧ p ≤ 0x43 then p - 0x40
  else if 0x61 ≤ p ∧ p ≤ 0x64 then p - 0x61 else if p = 0x66 then 1
  else if 0x100 ≤ p ∧ p < 0x340 then p - 0x100 else if 0x340 ≤ p ∧ p ≤ 0x347 then p - 0x340
  else if 0x1000 ≤ p ∧ p ≤ 0x1007 then p - 0x1000 else 0

/-- The page of MF BAR0 a place belongs to: the tally counters' banks belong to the TALLY page, the selectors to the
page that shows them. -/
def homePage (p : Nat) : Nat :=
  if 0x2000 ≤ p ∧ p ≤ 0x20FF then 0xC else p

/-- The reset value of the register at a place (R43 and the chapters' tables). -/
def regReset (key : Nat) : Word :=
  match findReg (pageType (key / 0x1000)) (key % 0x1000) with
  | some d => BitVec.ofNat 32 d.reset
  | none => 0

/-- The ring page of a function: MSG for MF, the tenant header page for a tenant (R303). -/
def fnPage (f : Nat) : Nat := if f = 0 then 8 else 0xFFF + f

namespace K

/-- SYS_STATE, R57. -/
@[reducible] def sysState : Nat := 0x40

/-- SYS_PART, R57. -/
@[reducible] def sysPart : Nat := 0x44

/-- SYS_SERIAL_LO, R57. -/
@[reducible] def sysSerialLo : Nat := 0x48

/-- SYS_SERIAL_HI, R57. -/
@[reducible] def sysSerialHi : Nat := 0x4C

/-- SYS_FWVER, R57. -/
@[reducible] def sysFwver : Nat := 0x50

/-- SYS_RESET_CAUSE, R57. -/
@[reducible] def sysResetCause : Nat := 0x54

/-- SYS_SLOT, R57. -/
@[reducible] def sysSlot : Nat := 0x58

/-- SYS_UNMAPPED, R57. -/
@[reducible] def sysUnmapped : Nat := 0x5C

/-- SYS_SCRATCH, R57. -/
@[reducible] def sysScratch : Nat := 0x60

/-- CLK_LOCK, R59. -/
@[reducible] def clkLock : Nat := 0x1000 + 0x40

/-- CLK_MTIME_LO, R59. -/
@[reducible] def clkMtimeLo : Nat := 0x1000 + 0x48

/-- CLK_MTIME_HI, R59. -/
@[reducible] def clkMtimeHi : Nat := 0x1000 + 0x4C

/-- CLK_MTIME_INC_F, R59. -/
@[reducible] def clkMtimeIncF : Nat := 0x1000 + 0x50

/-- CLK_MTIME_INC_I, R59. -/
@[reducible] def clkMtimeIncI : Nat := 0x1000 + 0x54

/-- CLK_PTP, R59. -/
@[reducible] def clkPtp : Nat := 0x1000 + 0x58

/-- PWR_CAP, R410. -/
@[reducible] def pwrCap : Nat := 0x2000 + 0x40

/-- PWR_BOUNDS, R410. -/
@[reducible] def pwrBounds : Nat := 0x2000 + 0x44

/-- PWR_SLOPE, R410. -/
@[reducible] def pwrSlope : Nat := 0x2000 + 0x48

/-- PWR_TARGET, R410. -/
@[reducible] def pwrTarget : Nat := 0x2000 + 0x4C

/-- PWR_INNER, R410. -/
@[reducible] def pwrInner : Nat := 0x2000 + 0x50

/-- PWR_MEAS, R410. -/
@[reducible] def pwrMeas : Nat := 0x2000 + 0x54

/-- PWR_VIN, R410. -/
@[reducible] def pwrVin : Nat := 0x2000 + 0x58

/-- PWR_EST, R410. -/
@[reducible] def pwrEst : Nat := 0x2000 + 0x5C

/-- PWR_STATE, R410. -/
@[reducible] def pwrState : Nat := 0x2000 + 0x60

/-- PWR_CPI, R410. -/
@[reducible] def pwrCpi : Nat := 0x2000 + 0x64

/-- PWR_POOL, R410. -/
@[reducible] def pwrPool : Nat := 0x2000 + 0x68

/-- PWR_SHARE, R410. -/
@[reducible] def pwrShare : Nat := 0x2000 + 0x6C

/-- PWR_ENERGY_LO, R410. -/
@[reducible] def pwrEnergyLo : Nat := 0x2000 + 0x70

/-- PWR_ENERGY_HI, R410. -/
@[reducible] def pwrEnergyHi : Nat := 0x2000 + 0x74

/-- PWR_LAG_US, R410. -/
@[reducible] def pwrLagUs : Nat := 0x2000 + 0x78

/-- PWR_BRAKES, R410. -/
@[reducible] def pwrBrakes : Nat := 0x2000 + 0x7C

/-- PWR_PHASE_OPP, R410. -/
@[reducible] def pwrPhaseOpp (i : Nat) : Nat := 0x2000 + 0x80 + 4 * i

/-- PWR_EST_GAIN, R410. -/
@[reducible] def pwrEstGain : Nat := 0x2000 + 0xC0

/-- PWR_EST_OFS, R410. -/
@[reducible] def pwrEstOfs : Nat := 0x2000 + 0xC4

/-- PWR_LEARN_SEL, R412. -/
@[reducible] def pwrLearnSel : Nat := 0x2000 + 0x400

/-- PWR_LEARN_DATA, R412. -/
@[reducible] def pwrLearnData : Nat := 0x2000 + 0x404

/-- PWR_LEARN_CTRL, R412. -/
@[reducible] def pwrLearnCtrl : Nat := 0x2000 + 0x408

/-- THM_TJ, R413. -/
@[reducible] def thmTj (i : Nat) : Nat := 0x3000 + 0x40 + 4 * i

/-- THM_HBM, R413. -/
@[reducible] def thmHbm (i : Nat) : Nat := 0x3000 + 0x60 + 4 * i

/-- THM_COOL_IN, R413. -/
@[reducible] def thmCoolIn : Nat := 0x3000 + 0x70

/-- THM_COOL_OUT, R413. -/
@[reducible] def thmCoolOut : Nat := 0x3000 + 0x74

/-- THM_FLOW, R413. -/
@[reducible] def thmFlow : Nat := 0x3000 + 0x78

/-- THM_LEAK, R413. -/
@[reducible] def thmLeak : Nat := 0x3000 + 0x7C

/-- THM_CPVOL, R413. -/
@[reducible] def thmCpvol : Nat := 0x3000 + 0x80

/-- THM_LEAK_CLR, R413. -/
@[reducible] def thmLeakClr : Nat := 0x3000 + 0x84

/-- THM_THROTTLE_US, R413. -/
@[reducible] def thmThrottleUs : Nat := 0x3000 + 0x88

/-- CAL_STATE, R483. -/
@[reducible] def calState : Nat := 0x4000 + 0x40

/-- CAL_USR_TOFS, R483. -/
@[reducible] def calUsrTofs : Nat := 0x4000 + 0x44

/-- CAL_USR_PGAIN, R483. -/
@[reducible] def calUsrPgain : Nat := 0x4000 + 0x48

/-- CAL_USR_GUARD, R483. -/
@[reducible] def calUsrGuard : Nat := 0x4000 + 0x4C

/-- CAL_FAC_PGAIN, R483. -/
@[reducible] def calFacPgain : Nat := 0x4000 + 0x50

/-- CAL_FAC_POFS, R483. -/
@[reducible] def calFacPofs : Nat := 0x4000 + 0x54

/-- CAL_FAC_COOL, R483. -/
@[reducible] def calFacCool : Nat := 0x4000 + 0x58

/-- CAL_FAC_TJ, R483. -/
@[reducible] def calFacTj (i : Nat) : Nat := 0x4000 + 0x60 + 4 * i

/-- CAL_FAC_HBM, R483. -/
@[reducible] def calFacHbm (i : Nat) : Nat := 0x4000 + 0x80 + 4 * i

/-- CAL_START_PREHEAT, R483. -/
@[reducible] def calStartPreheat : Nat := 0x4000 + 0xA0

/-- CAL_START_BOOT, R483. -/
@[reducible] def calStartBoot : Nat := 0x4000 + 0xA4

/-- CAL_START_BIST, R483. -/
@[reducible] def calStartBist : Nat := 0x4000 + 0xA8

/-- CAL_START_READY, R483. -/
@[reducible] def calStartReady : Nat := 0x4000 + 0xAC

/-- CAL_BIST_BAYS, R483. -/
@[reducible] def calBistBays : Nat := 0x4000 + 0xB0

/-- SEC_STATE, R379. -/
@[reducible] def secState : Nat := 0x5000 + 0x40

/-- SEC_SVN, R379. -/
@[reducible] def secSvn : Nat := 0x5000 + 0x44

/-- SEC_VER_A, R379. -/
@[reducible] def secVerA : Nat := 0x5000 + 0x48

/-- SEC_VER_B, R379. -/
@[reducible] def secVerB : Nat := 0x5000 + 0x4C

/-- SEC_SETS, R379. -/
@[reducible] def secSets : Nat := 0x5000 + 0x50

/-- SEC_SESSIONS, R379. -/
@[reducible] def secSessions : Nat := 0x5000 + 0x54

/-- SEC_KEYS_LO, R379. -/
@[reducible] def secKeysLo : Nat := 0x5000 + 0x58

/-- SEC_KEYS_HI, R379. -/
@[reducible] def secKeysHi : Nat := 0x5000 + 0x5C

/-- SEC_SCRUB_LO, R379. -/
@[reducible] def secScrubLo : Nat := 0x5000 + 0x60

/-- SEC_SCRUB_HI, R379. -/
@[reducible] def secScrubHi : Nat := 0x5000 + 0x64

/-- SEC_MGMT, R379. -/
@[reducible] def secMgmt : Nat := 0x5000 + 0x68

/-- SEC_DBG_CHAL, R379. -/
@[reducible] def secDbgChal (i : Nat) : Nat := 0x5000 + 0x70 + 4 * i

/-- SEC_TID, R379. -/
@[reducible] def secTid (i j : Nat) : Nat := 0x5000 + 0x100 + 64 * i + 4 * j

/-- PORT_LINK, R314. -/
@[reducible] def portLink (n : Nat) : Nat := 0x6000 + 0x1000 * n + 0x40

/-- PORT_CTRL, R314. -/
@[reducible] def portCtrl (n : Nat) : Nat := 0x6000 + 0x1000 * n + 0x44

/-- PORT_WIN_BASE, R314. -/
@[reducible] def portWinBase (n : Nat) : Nat := 0x6000 + 0x1000 * n + 0x48

/-- PORT_DOWNS, R314. -/
@[reducible] def portDowns (n : Nat) : Nat := 0x6000 + 0x1000 * n + 0x4C

/-- PORT_TX_LO, R314. -/
@[reducible] def portTxLo (n : Nat) : Nat := 0x6000 + 0x1000 * n + 0x50

/-- PORT_TX_HI, R314. -/
@[reducible] def portTxHi (n : Nat) : Nat := 0x6000 + 0x1000 * n + 0x54

/-- PORT_RX_LO, R314. -/
@[reducible] def portRxLo (n : Nat) : Nat := 0x6000 + 0x1000 * n + 0x58

/-- PORT_RX_HI, R314. -/
@[reducible] def portRxHi (n : Nat) : Nat := 0x6000 + 0x1000 * n + 0x5C

/-- RING_ROUTE, R303. -/
@[reducible] def ringRoute (f : Nat) : Nat := 0x1000 * fnPage f + 0x40

/-- STICKY, R303. -/
@[reducible] def sticky (f : Nat) : Nat := 0x1000 * fnPage f + 0x44

/-- STICKY_T_LO, R303. -/
@[reducible] def stickyTLo (f : Nat) : Nat := 0x1000 * fnPage f + 0x48

/-- STICKY_T_HI, R303. -/
@[reducible] def stickyTHi (f : Nat) : Nat := 0x1000 * fnPage f + 0x4C

/-- EQ_LOST, R303. -/
@[reducible] def eqLost (f i : Nat) : Nat := 0x1000 * fnPage f + 0x50 + 4 * i

/-- FN_STATE, R303. -/
@[reducible] def fnState (f : Nat) : Nat := 0x1000 * fnPage f + 0x90

/-- SQ_BASE_LO, R303. -/
@[reducible] def sqBaseLo (f i : Nat) : Nat := 0x1000 * fnPage f + 0x100 + 16 * i

/-- SQ_BASE_HI, R303. -/
@[reducible] def sqBaseHi (f i : Nat) : Nat := 0x1000 * fnPage f + 0x104 + 16 * i

/-- SQ_CFG, R303. -/
@[reducible] def sqCfg (f i : Nat) : Nat := 0x1000 * fnPage f + 0x108 + 16 * i

/-- SQ_HEAD, R303. -/
@[reducible] def sqHead (f i : Nat) : Nat := 0x1000 * fnPage f + 0x10C + 16 * i

/-- EQ_BASE_LO, R303. -/
@[reducible] def eqBaseLo (f i : Nat) : Nat := 0x1000 * fnPage f + 0x200 + 16 * i

/-- EQ_BASE_HI, R303. -/
@[reducible] def eqBaseHi (f i : Nat) : Nat := 0x1000 * fnPage f + 0x204 + 16 * i

/-- EQ_CFG, R303. -/
@[reducible] def eqCfg (f i : Nat) : Nat := 0x1000 * fnPage f + 0x208 + 16 * i

/-- EQ_TAIL, R303. -/
@[reducible] def eqTail (f i : Nat) : Nat := 0x1000 * fnPage f + 0x20C + 16 * i

/-- MSG_SQ_DOORBELL, R304. -/
@[reducible] def msgSqDoorbell (i : Nat) : Nat := 0x8000 + 0x300 + 4 * i

/-- MSG_EQ_DOORBELL, R304. -/
@[reducible] def msgEqDoorbell (i : Nat) : Nat := 0x8000 + 0x340 + 4 * i

/-- MSG_BAYMAP, R315. -/
@[reducible] def msgBaymap (i : Nat) : Nat := 0x8000 + 0x380 + 4 * i

/-- CLAIM_CUR_LO, R332. -/
@[reducible] def claimCurLo : Nat := 0x9000 + 0x40

/-- CLAIM_CUR_HI, R332. -/
@[reducible] def claimCurHi : Nat := 0x9000 + 0x44

/-- CLAIM_STATE, R332. -/
@[reducible] def claimState : Nat := 0x9000 + 0x48

/-- CLAIM_CFG, R332. -/
@[reducible] def claimCfg : Nat := 0x9000 + 0x4C

/-- CLAIM_CHANGES, R332. -/
@[reducible] def claimChanges : Nat := 0x9000 + 0x50

/-- CLAIM_REJECTS, R332. -/
@[reducible] def claimRejects : Nat := 0x9000 + 0x54

/-- CLAIM_KEY_LO, R332. -/
@[reducible] def claimKeyLo : Nat := 0x9000 + 0x58

/-- CLAIM_KEY_HI, R332. -/
@[reducible] def claimKeyHi : Nat := 0x9000 + 0x5C

/-- HB_LO, R332. -/
@[reducible] def claimHbLo (i : Nat) : Nat := 0x9000 + 0x80 + 64 * i

/-- HB_HI, R332. -/
@[reducible] def claimHbHi (i : Nat) : Nat := 0x9000 + 0x84 + 64 * i

/-- HOST, R332. -/
@[reducible] def claimHost (i : Nat) : Nat := 0x9000 + 0x88 + 64 * i

/-- PCIE_CLAIM_LO, R332. -/
@[reducible] def claimPcieClaimLo (i : Nat) : Nat := 0x9000 + 0x90 + 64 * i

/-- PCIE_CLAIM_HI, R332. -/
@[reducible] def claimPcieClaimHi (i : Nat) : Nat := 0x9000 + 0x94 + 64 * i

/-- MGMT_CLAIM_LO, R332. -/
@[reducible] def claimMgmtClaimLo (i : Nat) : Nat := 0x9000 + 0x98 + 64 * i

/-- MGMT_CLAIM_HI, R332. -/
@[reducible] def claimMgmtClaimHi (i : Nat) : Nat := 0x9000 + 0x9C + 64 * i

/-- HBADDR_LO, R332. -/
@[reducible] def claimHbaddrLo (i : Nat) : Nat := 0x9000 + 0xA0 + 64 * i

/-- HBADDR_HI, R332. -/
@[reducible] def claimHbaddrHi (i : Nat) : Nat := 0x9000 + 0xA4 + 64 * i

/-- RING, R332. -/
@[reducible] def claimRing (i : Nat) : Nat := 0x9000 + 0xA8 + 64 * i

/-- EARLY, R332. -/
@[reducible] def claimEarly (i : Nat) : Nat := 0x9000 + 0xAC + 64 * i

/-- TXN_EPOCH, R80. -/
@[reducible] def txnEpoch : Nat := 0xA000 + 0x40

/-- TXN_OLDEST, R80. -/
@[reducible] def txnOldest : Nat := 0xA000 + 0x44

/-- TXN_SLOTS, R80. -/
@[reducible] def txnSlots : Nat := 0xA000 + 0x48

/-- TXN_QUOTA_LO, R80. -/
@[reducible] def txnQuotaLo : Nat := 0xA000 + 0x4C

/-- TXN_QUOTA_HI, R80. -/
@[reducible] def txnQuotaHi : Nat := 0xA000 + 0x50

/-- TXN_RETAIN, R80. -/
@[reducible] def txnRetain : Nat := 0xA000 + 0x54

/-- TXN_RAISED, R80. -/
@[reducible] def txnRaised : Nat := 0xA000 + 0x58

/-- TXN_STRUCK, R80. -/
@[reducible] def txnStruck : Nat := 0xA000 + 0x5C

/-- TXN_RETIRE_WARN, R80. -/
@[reducible] def txnRetireWarn : Nat := 0xA000 + 0x60

/-- FENCE_STATE, R442. -/
@[reducible] def fenceState : Nat := 0xB000 + 0x40

/-- FENCE_SEQ, R442. -/
@[reducible] def fenceSeq : Nat := 0xB000 + 0x44

/-- FENCE_DROPS, R442. -/
@[reducible] def fenceDrops : Nat := 0xB000 + 0x48

/-- FENCE_LAST, R442. -/
@[reducible] def fenceLast : Nat := 0xB000 + 0x4C

/-- SHADOW_STATE, R442. -/
@[reducible] def shadowState : Nat := 0xB000 + 0x50

/-- SHADOW_PROOF, R442. -/
@[reducible] def shadowProof : Nat := 0xB000 + 0x54

/-- SHADOW_RUN, R442. -/
@[reducible] def shadowRun : Nat := 0xB000 + 0x58

/-- SHADOW_BAD_LO, R442. -/
@[reducible] def shadowBadLo : Nat := 0xB000 + 0x5C

/-- SHADOW_BAD_HI, R442. -/
@[reducible] def shadowBadHi : Nat := 0xB000 + 0x60

/-- SHADOW_BAD_T, R442. -/
@[reducible] def shadowBadT : Nat := 0xB000 + 0x64

/-- WIRING_STATE, R442. -/
@[reducible] def wiringState : Nat := 0xB000 + 0x68

/-- FENCE_RID, R442. -/
@[reducible] def fenceRid (i : Nat) : Nat := 0xB000 + 0x100 + 4 * i

/-- TALLY_SEL, R443. -/
@[reducible] def tallySel : Nat := 0xC000 + 0x40

/-- TALLY_OWNER, R443. -/
@[reducible] def tallyOwner (c : Nat) : Nat := 0x2000000 + 0x1000 * c + 0x44

/-- TALLY_COUNT, R443. -/
@[reducible] def tallyCount (c : Nat) : Nat := 0x2000000 + 0x1000 * c + 0x48

/-- TALLY_TARGET, R443. -/
@[reducible] def tallyTarget (c : Nat) : Nat := 0x2000000 + 0x1000 * c + 0x4C

/-- TALLY_MODE, R443. -/
@[reducible] def tallyMode (c : Nat) : Nat := 0x2000000 + 0x1000 * c + 0x50

/-- TALLY_PARENT_LO, R443. -/
@[reducible] def tallyParentLo (c : Nat) : Nat := 0x2000000 + 0x1000 * c + 0x54

/-- TALLY_PARENT_HI, R443. -/
@[reducible] def tallyParentHi (c : Nat) : Nat := 0x2000000 + 0x1000 * c + 0x58

/-- TALLY_LINK, R443. -/
@[reducible] def tallyLink (c : Nat) : Nat := 0x2000000 + 0x1000 * c + 0x5C

/-- TALLY_ROUND, R443. -/
@[reducible] def tallyRound (c : Nat) : Nat := 0x2000000 + 0x1000 * c + 0x60

/-- TALLY_SUB, R443. -/
@[reducible] def tallySub (c : Nat) : Nat := 0x2000000 + 0x1000 * c + 0x64

/-- TALLY_UP, R443. -/
@[reducible] def tallyUp (c : Nat) : Nat := 0x2000000 + 0x1000 * c + 0x68

/-- TALLY_ADD, R443. -/
@[reducible] def tallyAdd (c : Nat) : Nat := 0x2000000 + 0x1000 * c + 0x6C

/-- TALLY_FIRE_LO, R443. -/
@[reducible] def tallyFireLo (c : Nat) : Nat := 0x2000000 + 0x1000 * c + 0x70

/-- TALLY_FIRE_HI, R443. -/
@[reducible] def tallyFireHi (c : Nat) : Nat := 0x2000000 + 0x1000 * c + 0x74

/-- TALLY_CHILD_LO, R443. -/
@[reducible] def tallyChildLo (c i : Nat) : Nat := 0x2000000 + 0x1000 * c + 0x80 + 8 * i

/-- TALLY_CHILD_HI, R443. -/
@[reducible] def tallyChildHi (c i : Nat) : Nat := 0x2000000 + 0x1000 * c + 0x84 + 8 * i

/-- TALLY_CHILD_CFG, R443. -/
@[reducible] def tallyChildCfg (c i : Nat) : Nat := 0x2000000 + 0x1000 * c + 0x100 + 4 * i

/-- TALLY_STALL_MS, R443. -/
@[reducible] def tallyStallMs : Nat := 0xC000 + 0x200

/-- TALLY_BAD, R443. -/
@[reducible] def tallyBad : Nat := 0xC000 + 0x204

/-- MGMT_LINK, R333. -/
@[reducible] def mgmtLink (i : Nat) : Nat := 0xD000 + 0x40 + 4 * i

/-- MGMT_CTRL, R333. -/
@[reducible] def mgmtCtrl : Nat := 0xD000 + 0x48

/-- MGMT_PTP, R333. -/
@[reducible] def mgmtPtp : Nat := 0xD000 + 0x4C

/-- MGMT_PTP_OFS, R333. -/
@[reducible] def mgmtPtpOfs : Nat := 0xD000 + 0x50

/-- MGMT_MAC0_LO, R333. -/
@[reducible] def mgmtMac0Lo : Nat := 0xD000 + 0x58

/-- MGMT_MAC0_HI, R333. -/
@[reducible] def mgmtMac0Hi : Nat := 0xD000 + 0x5C

/-- MGMT_MAC1_LO, R333. -/
@[reducible] def mgmtMac1Lo : Nat := 0xD000 + 0x60

/-- MGMT_MAC1_HI, R333. -/
@[reducible] def mgmtMac1Hi : Nat := 0xD000 + 0x64

/-- MGMT_RX, R333. -/
@[reducible] def mgmtRx (i : Nat) : Nat := 0xD000 + 0x68 + 4 * i

/-- MGMT_DROP, R333. -/
@[reducible] def mgmtDrop (i : Nat) : Nat := 0xD000 + 0x70 + 4 * i

/-- FUNC_STATE, R300. -/
@[reducible] def funcState (n : Nat) : Nat := 0x10000 + 0x1000 * n + 0x40

/-- FUNC_EXPERT_ALLOW, R300. -/
@[reducible] def funcExpertAllow (n : Nat) : Nat := 0x10000 + 0x1000 * n + 0x44

/-- FUNC_CFG, R300. -/
@[reducible] def funcCfg (n : Nat) : Nat := 0x10000 + 0x1000 * n + 0x48

/-- FUNC_DRAIN_TIMEOUT, R300. -/
@[reducible] def funcDrainTimeout (n : Nat) : Nat := 0x10000 + 0x1000 * n + 0x4C

/-- FUNC_APERTURE, R300. -/
@[reducible] def funcAperture (n i : Nat) : Nat := 0x10000 + 0x1000 * n + 0x50 + 4 * i

/-- FUNC_BAYMAP, R300. -/
@[reducible] def funcBaymap (n i : Nat) : Nat := 0x10000 + 0x1000 * n + 0x70 + 4 * i

/-- FUNC_WAINS, R300. -/
@[reducible] def funcWains (n : Nat) : Nat := 0x10000 + 0x1000 * n + 0xC0

/-- FUNC_REGION_BASE, R300. -/
@[reducible] def funcRegionBase (n i : Nat) : Nat := 0x10000 + 0x1000 * n + 0x100 + 8 * i

/-- FUNC_REGION_SIZE, R300. -/
@[reducible] def funcRegionSize (n i : Nat) : Nat := 0x10000 + 0x1000 * n + 0x104 + 8 * i

/-- WAIN_STATE, R356. -/
@[reducible] def wainState (n : Nat) : Nat := 0x20000 + 0x1000 * n + 0x40

/-- WAIN_OWNER, R356. -/
@[reducible] def wainOwner (n : Nat) : Nat := 0x20000 + 0x1000 * n + 0x44

/-- WAIN_POST_LO, R356. -/
@[reducible] def wainPostLo (n : Nat) : Nat := 0x20000 + 0x1000 * n + 0x48

/-- WAIN_POST_HI, R356. -/
@[reducible] def wainPostHi (n : Nat) : Nat := 0x20000 + 0x1000 * n + 0x4C

/-- WAIN_CTRL, R356. -/
@[reducible] def wainCtrl (n : Nat) : Nat := 0x20000 + 0x1000 * n + 0x50

/-- WAIN_CFG, R356. -/
@[reducible] def wainCfg (n : Nat) : Nat := 0x20000 + 0x1000 * n + 0x54

/-- WAIN_CUR_LO, R356. -/
@[reducible] def wainCurLo (n : Nat) : Nat := 0x20000 + 0x1000 * n + 0x58

/-- WAIN_CUR_HI, R356. -/
@[reducible] def wainCurHi (n : Nat) : Nat := 0x20000 + 0x1000 * n + 0x5C

/-- WAIN_CQ_LO, R356. -/
@[reducible] def wainCqLo (n : Nat) : Nat := 0x20000 + 0x1000 * n + 0x60

/-- WAIN_CQ_HI, R356. -/
@[reducible] def wainCqHi (n : Nat) : Nat := 0x20000 + 0x1000 * n + 0x64

/-- WAIN_CQ_CFG, R356. -/
@[reducible] def wainCqCfg (n : Nat) : Nat := 0x20000 + 0x1000 * n + 0x68

/-- WAIN_CQ_TAIL, R356. -/
@[reducible] def wainCqTail (n : Nat) : Nat := 0x20000 + 0x1000 * n + 0x6C

/-- WAIN_CQ_HEAD, R356. -/
@[reducible] def wainCqHead (n : Nat) : Nat := 0x20000 + 0x1000 * n + 0x70

/-- WAIN_BYTES_LO, R356. -/
@[reducible] def wainBytesLo (n : Nat) : Nat := 0x20000 + 0x1000 * n + 0x78

/-- WAIN_BYTES_HI, R356. -/
@[reducible] def wainBytesHi (n : Nat) : Nat := 0x20000 + 0x1000 * n + 0x7C

/-- WAIN_DESCS, R356. -/
@[reducible] def wainDescs (n : Nat) : Nat := 0x20000 + 0x1000 * n + 0x80

/-- WAIN_AUTHFAIL, R356. -/
@[reducible] def wainAuthfail (n : Nat) : Nat := 0x20000 + 0x1000 * n + 0x84

/-- GRN_WEIGHT, R22. -/
@[reducible] def grnWeight (n : Nat) : Nat := 0x40000 + 0x1000 * n + 0x40

/-- GRN_GRANT_LO, R24. -/
@[reducible] def grnGrantLo (n i : Nat) : Nat := 0x40000 + 0x1000 * n + 0x60 + 8 * i

/-- GRN_GRANT_HI, R24. -/
@[reducible] def grnGrantHi (n i : Nat) : Nat := 0x40000 + 0x1000 * n + 0x64 + 8 * i

/-- GRN_STALL, R25. -/
@[reducible] def grnStall (n i : Nat) : Nat := 0x40000 + 0x1000 * n + 0x80 + 4 * i

/-- GRN_ECC_CE, R491. -/
@[reducible] def grnEccCe (n : Nat) : Nat := 0x40000 + 0x1000 * n + 0xA0

/-- GRN_ECC_UE, R491. -/
@[reducible] def grnEccUe (n : Nat) : Nat := 0x40000 + 0x1000 * n + 0xA4

/-- GRN_POISON_LAST_LO, R491. -/
@[reducible] def grnPoisonLastLo (n : Nat) : Nat := 0x40000 + 0x1000 * n + 0xA8

/-- GRN_POISON_LAST_HI, R491. -/
@[reducible] def grnPoisonLastHi (n : Nat) : Nat := 0x40000 + 0x1000 * n + 0xAC

/-- GRN_RETIRED, R491. -/
@[reducible] def grnRetired (n : Nat) : Nat := 0x40000 + 0x1000 * n + 0xB0

/-- KVM_STATE, R218. -/
@[reducible] def kvmState : Nat := 0x50000 + 0x40

/-- KVM_CMD, R218. -/
@[reducible] def kvmCmd : Nat := 0x50000 + 0x44

/-- KVM_PREEMPT, R218. -/
@[reducible] def kvmPreempt : Nat := 0x50000 + 0x48

/-- KVM_SWAPOUT, R218. -/
@[reducible] def kvmSwapout : Nat := 0x50000 + 0x4C

/-- KVM_SWAPIN, R218. -/
@[reducible] def kvmSwapin : Nat := 0x50000 + 0x50

/-- KVM_MERGED, R218. -/
@[reducible] def kvmMerged : Nat := 0x50000 + 0x54

/-- KVM_HASH_COLL, R218. -/
@[reducible] def kvmHashColl : Nat := 0x50000 + 0x58

/-- KVM_POISONED, R218. -/
@[reducible] def kvmPoisoned : Nat := 0x50000 + 0x5C

/-- KVM_FREE, R218. -/
@[reducible] def kvmFree (i : Nat) : Nat := 0x50000 + 0x60 + 4 * i

/-- KV_BASE_LO, R219. -/
@[reducible] def kvBaseLo (i : Nat) : Nat := 0x50000 + 0x400 + 64 * i

/-- KV_BASE_HI, R219. -/
@[reducible] def kvBaseHi (i : Nat) : Nat := 0x50000 + 0x404 + 64 * i

/-- KV_UNITS, R219. -/
@[reducible] def kvUnits (i : Nat) : Nat := 0x50000 + 0x408 + 64 * i

/-- KV_GEO, R219. -/
@[reducible] def kvGeo (i : Nat) : Nat := 0x50000 + 0x40C + 64 * i

/-- KV_CTRL, R219. -/
@[reducible] def kvCtrl (i : Nat) : Nat := 0x50000 + 0x410 + 64 * i

/-- KV_MAXSEQ, R219. -/
@[reducible] def kvMaxseq (i : Nat) : Nat := 0x50000 + 0x414 + 64 * i

/-- KV_TAG_LO, R219. -/
@[reducible] def kvTagLo (i : Nat) : Nat := 0x50000 + 0x418 + 64 * i

/-- KV_TAG_HI, R219. -/
@[reducible] def kvTagHi (i : Nat) : Nat := 0x50000 + 0x41C + 64 * i

/-- KV_UNITSZ, R219. -/
@[reducible] def kvUnitsz (i : Nat) : Nat := 0x50000 + 0x420 + 64 * i

/-- KV_RC_LO, R219. -/
@[reducible] def kvRcLo (i : Nat) : Nat := 0x50000 + 0x424 + 64 * i

/-- KV_RC_HI, R219. -/
@[reducible] def kvRcHi (i : Nat) : Nat := 0x50000 + 0x428 + 64 * i

/-- KV_PT_LO, R219. -/
@[reducible] def kvPtLo (i : Nat) : Nat := 0x50000 + 0x42C + 64 * i

/-- KV_PT_HI, R219. -/
@[reducible] def kvPtHi (i : Nat) : Nat := 0x50000 + 0x430 + 64 * i

/-- KV_SWAP_LO, R220. -/
@[reducible] def kvSwapLo (i : Nat) : Nat := 0x50000 + 0x600 + 16 * i

/-- KV_SWAP_HI, R220. -/
@[reducible] def kvSwapHi (i : Nat) : Nat := 0x50000 + 0x604 + 16 * i

/-- KV_SWAP_SIZE, R220. -/
@[reducible] def kvSwapSize (i : Nat) : Nat := 0x50000 + 0x608 + 16 * i

/-- KV_SWAP_CFG, R220. -/
@[reducible] def kvSwapCfg (i : Nat) : Nat := 0x50000 + 0x60C + 16 * i

/-- ATT_ROWS, R222. -/
@[reducible] def attRows : Nat := 0x51000 + 0x40

/-- ATT_RANGE, R222. -/
@[reducible] def attRange : Nat := 0x51000 + 0x44

/-- ATT_FLUSH, R222. -/
@[reducible] def attFlush : Nat := 0x51000 + 0x48

/-- ATT_KV_SAT, R222. -/
@[reducible] def attKvSat : Nat := 0x51000 + 0x4C

/-- ATT_POISON, R222. -/
@[reducible] def attPoison : Nat := 0x51000 + 0x50

/-- GLN_STATE, R259. -/
@[reducible] def glnState : Nat := 0x52000 + 0x40

/-- GLN_VOCAB, R259. -/
@[reducible] def glnVocab : Nat := 0x52000 + 0x44

/-- GLN_ROWS, R259. -/
@[reducible] def glnRows : Nat := 0x52000 + 0x48

/-- GLN_NAN, R259. -/
@[reducible] def glnNan : Nat := 0x52000 + 0x4C

/-- GLN_NO_TOKEN, R259. -/
@[reducible] def glnNoToken : Nat := 0x52000 + 0x50

/-- GLN_BUSY, R259. -/
@[reducible] def glnBusy : Nat := 0x52000 + 0x54

/-- GLN_TOKEN, R259. -/
@[reducible] def glnToken (i : Nat) : Nat := 0x52000 + 0x60 + 4 * i

/-- SRV_STATE, R257. -/
@[reducible] def srvState : Nat := 0x53000 + 0x40

/-- SRV_QUEUED, R257. -/
@[reducible] def srvQueued : Nat := 0x53000 + 0x44

/-- SRV_STEP_LO, R257. -/
@[reducible] def srvStepLo : Nat := 0x53000 + 0x48

/-- SRV_STEP_HI, R257. -/
@[reducible] def srvStepHi : Nat := 0x53000 + 0x4C

/-- SRV_BOUND_LO, R257. -/
@[reducible] def srvBoundLo : Nat := 0x53000 + 0x50

/-- SRV_BOUND_HI, R257. -/
@[reducible] def srvBoundHi : Nat := 0x53000 + 0x54

/-- SRV_STEP_NS, R257. -/
@[reducible] def srvStepNs : Nat := 0x53000 + 0x58

/-- SRV_BOUND_NS, R257. -/
@[reducible] def srvBoundNs : Nat := 0x53000 + 0x5C

/-- SRV_BATCH, R257. -/
@[reducible] def srvBatch : Nat := 0x53000 + 0x60

/-- SRV_MAXBATCH, R257. -/
@[reducible] def srvMaxbatch : Nat := 0x53000 + 0x64

/-- SRV_PREFILL, R257. -/
@[reducible] def srvPrefill : Nat := 0x53000 + 0x68

/-- SRV_TOKENS, R257. -/
@[reducible] def srvTokens : Nat := 0x53000 + 0x70

/-- SRV_LATE, R257. -/
@[reducible] def srvLate : Nat := 0x53000 + 0x74

/-- SRV_DEADLINE, R257. -/
@[reducible] def srvDeadline : Nat := 0x53000 + 0x78

/-- SRV_CANCELLED, R257. -/
@[reducible] def srvCancelled : Nat := 0x53000 + 0x7C

/-- SRV_HELD, R257. -/
@[reducible] def srvHeld : Nat := 0x53000 + 0x80

/-- SRV_SPEC_TRIED, R257. -/
@[reducible] def srvSpecTried : Nat := 0x53000 + 0x84

/-- SRV_SPEC_OK, R257. -/
@[reducible] def srvSpecOk : Nat := 0x53000 + 0x88

/-- SRV_SEQTAB_LO, R258. -/
@[reducible] def srvSeqtabLo : Nat := 0x53000 + 0x400

/-- SRV_SEQTAB_HI, R258. -/
@[reducible] def srvSeqtabHi : Nat := 0x53000 + 0x404

/-- SRV_START, R258. -/
@[reducible] def srvStart : Nat := 0x53000 + 0x408

/-- SRV_SEQ_SEL, R258. -/
@[reducible] def srvSeqSel : Nat := 0x53000 + 0x40C

/-- SRV_SEQ_WIN, R258. -/
@[reducible] def srvSeqWin (i : Nat) : Nat := 0x53000 + 0x440 + 4 * i

/-- VID_STREAMS, R287. -/
@[reducible] def vidStreams : Nat := 0x60000 + 0x40

/-- VID_CORE_EN, R287. -/
@[reducible] def vidCoreEn : Nat := 0x60000 + 0x44

/-- VID_SYNTAX, R287. -/
@[reducible] def vidSyntax : Nat := 0x60000 + 0x48

/-- VID_CONCEALED, R287. -/
@[reducible] def vidConcealed : Nat := 0x60000 + 0x4C

/-- VID_LATE, R287. -/
@[reducible] def vidLate : Nat := 0x60000 + 0x50

/-- VID_SKIPPED, R287. -/
@[reducible] def vidSkipped : Nat := 0x60000 + 0x54

/-- VID_TAP_DROP, R287. -/
@[reducible] def vidTapDrop : Nat := 0x60000 + 0x58

/-- VID_PREEMPT, R287. -/
@[reducible] def vidPreempt : Nat := 0x60000 + 0x5C

/-- xCORE_STATE, R288. -/
@[reducible] def vdecCoreState (n : Nat) : Nat := 0x61000 + 0x1000 * n + 0x40

/-- xPIX, R288. -/
@[reducible] def vdecPix (n : Nat) : Nat := 0x61000 + 0x1000 * n + 0x44

/-- xCYC, R288. -/
@[reducible] def vdecCyc (n : Nat) : Nat := 0x61000 + 0x1000 * n + 0x48

/-- xUNITS, R288. -/
@[reducible] def vdecUnits (n : Nat) : Nat := 0x61000 + 0x1000 * n + 0x4C

/-- xCORE_STATE, R288. -/
@[reducible] def vencCoreState (n : Nat) : Nat := 0x65000 + 0x1000 * n + 0x40

/-- xPIX, R288. -/
@[reducible] def vencPix (n : Nat) : Nat := 0x65000 + 0x1000 * n + 0x44

/-- xCYC, R288. -/
@[reducible] def vencCyc (n : Nat) : Nat := 0x65000 + 0x1000 * n + 0x48

/-- xUNITS, R288. -/
@[reducible] def vencUnits (n : Nat) : Nat := 0x65000 + 0x1000 * n + 0x4C

/-- VENC_BYTES, R288. -/
@[reducible] def vencBytes (n : Nat) : Nat := 0x65000 + 0x1000 * n + 0x50

/-- VENC_LAMBDA, R288. -/
@[reducible] def vencLambda (n i : Nat) : Nat := 0x65000 + 0x1000 * n + 0x400 + 4 * i

/-- BAY_STATE, R149. -/
@[reducible] def bayState (n : Nat) : Nat := 0x100000 + 0x1000 * n + 0x40

/-- BAY_OWNER, R149. -/
@[reducible] def bayOwner (n : Nat) : Nat := 0x100000 + 0x1000 * n + 0x44

/-- BAY_PC_LO, R149. -/
@[reducible] def bayPcLo (n : Nat) : Nat := 0x100000 + 0x1000 * n + 0x48

/-- BAY_PC_HI, R149. -/
@[reducible] def bayPcHi (n : Nat) : Nat := 0x100000 + 0x1000 * n + 0x4C

/-- BAY_EPOCH, R149. -/
@[reducible] def bayEpoch (n : Nat) : Nat := 0x100000 + 0x1000 * n + 0x50

/-- BAY_EPOCH_V, R149. -/
@[reducible] def bayEpochV (n : Nat) : Nat := 0x100000 + 0x1000 * n + 0x54

/-- BAY_TOKEN, R149. -/
@[reducible] def bayToken (n i : Nat) : Nat := 0x100000 + 0x1000 * n + 0x60 + 4 * i

/-- BAY_CREDIT_A, R149. -/
@[reducible] def bayCreditA (n : Nat) : Nat := 0x100000 + 0x1000 * n + 0x80

/-- BAY_CREDIT_B, R149. -/
@[reducible] def bayCreditB (n : Nat) : Nat := 0x100000 + 0x1000 * n + 0x84

/-- BAY_ECC, R491. -/
@[reducible] def bayEcc (n : Nat) : Nat := 0x100000 + 0x1000 * n + 0x88

/-- BAY_PERF_LO, R150. -/
@[reducible] def bayPerfLo (n i : Nat) : Nat := 0x100000 + 0x1000 * n + 0x100 + 8 * i

/-- BAY_PERF_HI, R150. -/
@[reducible] def bayPerfHi (n i : Nat) : Nat := 0x100000 + 0x1000 * n + 0x104 + 8 * i

/-- BAY_PROG_LO, R151. -/
@[reducible] def bayProgLo (n : Nat) : Nat := 0x100000 + 0x1000 * n + 0x400

/-- BAY_PROG_HI, R151. -/
@[reducible] def bayProgHi (n : Nat) : Nat := 0x100000 + 0x1000 * n + 0x404

/-- BAY_START, R151. -/
@[reducible] def bayStart (n : Nat) : Nat := 0x100000 + 0x1000 * n + 0x408

/-- BAY_CREDIT_INIT_A, R151. -/
@[reducible] def bayCreditInitA (n : Nat) : Nat := 0x100000 + 0x1000 * n + 0x40C

/-- BAY_CREDIT_INIT_B, R151. -/
@[reducible] def bayCreditInitB (n : Nat) : Nat := 0x100000 + 0x1000 * n + 0x410

/-- BAY_RUN, R151. -/
@[reducible] def bayRun (n : Nat) : Nat := 0x100000 + 0x1000 * n + 0x414

/-- BAY_TOKEN_SET, R151. -/
@[reducible] def bayTokenSet (n : Nat) : Nat := 0x100000 + 0x1000 * n + 0x418

/-- BAY_ERRPC_LO, R151. -/
@[reducible] def bayErrpcLo (n : Nat) : Nat := 0x100000 + 0x1000 * n + 0x420

/-- BAY_ERRPC_HI, R151. -/
@[reducible] def bayErrpcHi (n : Nat) : Nat := 0x100000 + 0x1000 * n + 0x424

/-- FIELD_FREQ, R60. -/
@[reducible] def fieldFreq (n : Nat) : Nat := 0x340000 + 0x1000 * n + 0x40

/-- FIELD_FCUR, R60. -/
@[reducible] def fieldFcur (n : Nat) : Nat := 0x340000 + 0x1000 * n + 0x44

/-- FIELD_PWR, R60. -/
@[reducible] def fieldPwr (n : Nat) : Nat := 0x340000 + 0x1000 * n + 0x48

/-- FIELD_STRETCH, R60. -/
@[reducible] def fieldStretch (n : Nat) : Nat := 0x340000 + 0x1000 * n + 0x4C

/-- FIELD_RELOCKS, R60. -/
@[reducible] def fieldRelocks (n : Nat) : Nat := 0x340000 + 0x1000 * n + 0x50

/-- FIELD_STATE, R60. -/
@[reducible] def fieldState (n : Nat) : Nat := 0x340000 + 0x1000 * n + 0x54

/-- FIELD_GATE, R414. -/
@[reducible] def fieldGate (n : Nat) : Nat := 0x340000 + 0x1000 * n + 0x60

/-- FIELD_LIMIT, R414. -/
@[reducible] def fieldLimit (n : Nat) : Nat := 0x340000 + 0x1000 * n + 0x64

/-- FIELD_VF, R414. -/
@[reducible] def fieldVf (n i : Nat) : Nat := 0x340000 + 0x1000 * n + 0x80 + 4 * i

/-- FIELD_FIXED, R62. -/
@[reducible] def fieldFixed (n : Nat) : Nat := 0x340000 + 0x1000 * n + 0x400

/-- Common header places of page p (R43). -/
@[reducible] def blkCtrl (p : Nat) : Nat := 0x1000 * p + 0x10
@[reducible] def blkIrqRaw (p : Nat) : Nat := 0x1000 * p + 0x18
@[reducible] def blkIrqEn (p : Nat) : Nat := 0x1000 * p + 0x1C
@[reducible] def blkErr (p : Nat) : Nat := 0x1000 * p + 0x20
@[reducible] def blkErrInfo (p : Nat) : Nat := 0x1000 * p + 0x24
@[reducible] def blkPagever (p : Nat) : Nat := 0x1000 * p + 0x2C
/-- TXN_SEL of function f (R82). -/
@[reducible] def txnSel (f : Nat) : Nat := 0x4000000 + 0x1000 * f + 0x404
/-- TALLY_SEL of function f (R443). -/
@[reducible] def tallySelOf (f : Nat) : Nat := 0x4000000 + 0x1000 * f + 0x40

end K

end Sys2Proof.Machine
end

