-- ==== Sys2Proof/Machine/State.lean ====
section
/-! DEFINITION. The state of the block, as plain data: every register place, buffer, counter, queue and mode the spec
names, and the queue of waiting commands. Each part's docstring names the rules it follows. -/

namespace Sys2Proof.Machine

/-- Why the block would stop with a fault. No meaning of this model raises one (notes/assumptions/1): the spec's block
reports errors in registers, completions and messages and goes on. The one reason is kept for the host's interface;
raising it would be safe. -/
inductive Fault where
  /-- Nobody raises it. -/
  | unreachable
deriving DecidableEq, Repr

/-- Why the block would refuse a command. -/
inductive Refusal where
  /-- The command has no meaning yet; raised only by an arm of exec; safe. -/
  | notModelled (mnemonic : String)
deriving DecidableEq, Repr

/-- What the block sends to the outside. -/
inductive Output where
  /-- A memory write to host memory through a port for a function (R306, R320, R344). -/
  | hostWrite (port func addr : Nat) (data : Bytes)
  /-- An MSI-X vector (R297). -/
  | msix (port func vec : Nat)
  /-- The identity message (R310): port and its 16 data bytes. -/
  | vdm (port : Nat) (data : Bytes)
  /-- A frame on a management link: link, source and destination MAC and payload (R328, R329). -/
  | frame (link src dst : Nat) (payload : Bytes)
  /-- The data of a read (low word first) or of a BAR2 read. -/
  | readData (port func off : Nat) (data : Bytes)
  /-- A read answered with the Poisoned TLP bit set (R487). -/
  | poisonedData (port func off : Nat)
  /-- A request completed with Completer Abort (R41). -/
  | completerAbort (port func off : Nat)
  /-- A request completed with Unsupported Request (R292, R295). -/
  | unsupported (port func off : Nat)
  /-- A configuration request answered, with the field it read, or Retry Status (R292). -/
  | config (port : Nat) (answered : Bool) (value : Nat)
  /-- A translation request for the 4 KiB page of a host address (ATS, R342). -/
  | translation (port func page : Nat)
  /-- An SPDM response on a port, in a session (0: none): response code and body (R363). -/
  | spdm (port sess code : Nat) (body : Bytes)
  /-- What the shadow sends to its elder, named by serial number (R426, R428). -/
  | peer (serial : Nat) (data : Bytes)
  /-- A pin or LED driven by the reeve: what and its new value (R460). -/
  | pin (what value : Nat)
deriving DecidableEq, Repr

/-- Edges of the die at which blocks attach to the mesh (R11). -/
inductive Edge where
  | north | south | west | east
deriving DecidableEq, Repr

/-- A router port of the mesh (R11, R15): a bay's own, or the edge port of a column (north, south) or row (west, east). -/
inductive RouterPort where
  | bay (b : Nat)
  | edge (e : Edge) (i : Nat)
deriving DecidableEq, Repr

/-- A granary write accepted and not yet acknowledged (R26): the unit that made it, the bytes of one line, and whether a
round of its channel has granted it (R20). -/
structure GWrite where
  id : Nat
  unit : Nat
  line : Nat
  cells : List Host.Cell
  granted : Bool := false
deriving DecidableEq, Repr

/-- A token, credit or tally message in flight on the mesh (R15): source unit, destination unit. -/
structure MeshMsg where
  src : Nat
  dst : Nat
  /-- 0 token, 1 credit, 2 tally add. -/
  kind : Nat
  ctr : Nat
  amount : Nat
  phase : Nat := 0
deriving DecidableEq, Repr

/-- What waits for the acknowledgement of a unit's earlier writes (R27): the message is sent when no write of the unit
with an id below the bound is in flight. -/
structure Held where
  unit : Nat
  before : Nat
  msg : MeshMsg
deriving DecidableEq, Repr

/-- Content a line held until the raise that published epoch+1 (R77). -/
structure Retained where
  line : Nat
  epoch : Nat
  content : Bytes
deriving DecidableEq, Repr

/-- Storage a bent dropped, held until TXN_OLDEST reaches the epoch (R78): kind 0 a KV unit run of pool a, first unit b,
order c. -/
structure Deferred where
  epoch : Nat
  kind : Nat
  a : Nat
  b : Nat
  c : Nat
deriving DecidableEq, Repr

/-! ### Bents (R64-R82) -/

/-- A staged action (R66, R67). -/
structure Action where
  kind : Nat
  anyver : Bool
  expect : Nat
  len : Nat
  target : Nat
  value : Nat
  mask : Nat
  data : Bytes
deriving DecidableEq, Repr

/-- Slot states (R79). -/
inductive SlotState where
  | free | opened | fetching | armed | raised | struck
deriving DecidableEq, Repr

/-- A bent slot (R79, R82). -/
structure Slot where
  /-- Owning function 0-8; 9 for the module's firmware. -/
  owner : Nat := 9
  st : SlotState := .free
  mode : Nat := 0
  tally : Nat := 0
  notify : Bool := false
  listLo : Nat := 0
  listHi : Nat := 0
  verqLo : Nat := 0
  verqHi : Nat := 0
  actions : List Action := []
  /-- Records still to fetch, and where the next line of the list lies. -/
  toFetch : Nat := 0
  fetchAddr : Nat := 0
  fetchBuf : Bytes := []
  fetchPort : Nat := 0
  /-- The list lies in the granary. -/
  fetchGran : Bool := false
  /-- Pages whose version a commit or soft reset stepped while the slot held actions for them (R53). -/
  clash : List Nat := []
  raisePend : Bool := false
  code : Nat := 0
  index : Nat := 0
  epochAt : Nat := 0
  doneAt : Nat := 0
  /-- The accepted claim at TXN_OPEN (R73). -/
  claimAt : Nat := 0
  /-- Arrival number of the RAISE of an IMMEDIATE bent (R71). -/
  armSeq : Nat := 0
deriving DecidableEq, Repr

/-! ### Bays (R114-R152) -/

/-- Bay states (R132). -/
inductive BaySt where
  | idle | running | halted | error
deriving DecidableEq, Repr

/-- A decoded word in the work-word queue: its granary address, its 128 bits and the code that refuses it (R121). -/
structure QWord where
  addr : Nat
  word : BitVec 128
  refused : Option Nat
deriving DecidableEq, Repr

/-- The engines of a bay (R114). -/
inductive Engine where
  | auger | press | winnow | vec | seq | composite
deriving DecidableEq, Repr

/-- An issued word that has not completed: its engine, the line ranges it reads and writes (R130; lines from 8192 on
are the vector file), whether it is a LOAD, its class and the epoch it took (R76). -/
structure Issued where
  eng : Engine
  cls : Nat
  rd : List (Nat × Nat)
  wr : List (Nat × Nat)
  epoch : Nat
  /-- Engines a composite uses (R153, R196). -/
  uses : List Engine := []
  /-- Writes of the bay with an id below this one belong to the word or to words before it (R131). -/
  bound : Nat := 0
  /-- Presses that a PRESS word or composite assigns work (R134, R144). -/
  np : Nat := 0
deriving DecidableEq, Repr

/-- An open press accumulation (R135): its shape, formats and start chunk, and per element of C its chunk values so
far. -/
structure PressAcc where
  m : Nat
  n : Nat
  cline : Nat
  fw : Nat
  fx : Nat
  koff : Nat
  chunks : List (List Nat)
deriving DecidableEq, Repr

/-- An input row that a CONV has fetched in a pass: element bytes (one string per channel when planar) and block scales
(R161). -/
structure InRow where
  pass : Nat
  y : Nat
  planes : List Bytes
  scales : Bytes
deriving DecidableEq, Repr

/-- A composite that runs (R153, R196): class and OP, granary line of its descriptor, address of its word, the descriptor's
bytes, the row records of an ATTN word and the epoch of its table reads (R76). -/
structure Composite where
  cls : Nat
  op : Nat
  desc : Nat
  addr : Nat
  body : Bytes
  rows : List Bytes := []
  epoch : Nat := 0
  /-- Rows done, or steps of a CONV: one row in one pass over the output channels (R164); rows fully written. -/
  next : Nat := 0
  full : Nat := 0
  /-- A CONV's input rows as fetched in each pass (R161), and the values of rows that an earlier pass computed (R164). -/
  got : List InRow := []
  parts : List (Nat × List (List Nat)) := []
  /-- The ranges of a CONV's descriptor overlap: what it writes is not defined (R157). -/
  torn : Bool := false
  /-- It waits for a scarf token (R174); the sides whose token it has taken (0 north, 1 south). -/
  waiting : Bool := false
  took : List Nat := []
  /-- Some row had a visible key; a row met poison or R209's range rule (R202). -/
  seen : Bool := false
  poison : Bool := false
  range : Bool := false
deriving DecidableEq, Repr

/-- A bay (R114). -/
structure Bay where
  st : BaySt := .idle
  hcode : Nat := 0
  /-- BAY_OWNER: 0 MF, 1-8 T0-T7, 15 unassigned (R149). -/
  owner : Nat := 15
  /-- Disabled by BIST (R148). -/
  off : Bool := false
  /-- BAY_RUN.HALT or a function halt has stopped issue (R132). -/
  halting : Bool := false
  /-- Address of the next line to fetch, and words fetched that have not entered the queue (R128). -/
  fetch : Nat := 0
  prefetch : List QWord := []
  queue : List QWord := []
  issued : List Issued := []
  epoch : Option Nat := none
  /-- The epoch is held for a serving step and not per word (R76). -/
  stepHeld : Bool := false
  phase : Nat := 0
  tokens : Map Nat := []
  credits : Map Nat := []
  perf : Map Nat := []
  errpc : Nat := 0
  /-- Bay-store and vector-file bytes by byte address, 64 times the line (the vector file from line 8192 on). -/
  store : List Host.Cell := []
  /-- Lines whose written bit is 1 (R116). -/
  written : List Nat := []
  /-- Lines with an uncorrectable error (R490). -/
  ue : List Nat := []
  acc : Option PressAcc := none
  comp : Option Composite := none
  /-- Whether every output of the program so far was empty (R159), once it has produced one. -/
  outs : Option Bool := none
  /-- Presses of the bay: 0 idle, 1 waiting for admission, 2 active, 3 active and waiting for release (R144). -/
  presses : List Nat := [0, 0, 0, 0]
deriving DecidableEq, Repr

/-- The activity ramp limiter (R145). -/
structure Ramp where
  /-- Whether ticks run, and the number of the next tick. -/
  on : Bool := false
  ptr : Nat := 0
  rptr : Nat := 0
  aG : Rat := 0
  bG : Rat := 0
  aF : List Rat := [0, 0, 0, 0, 0, 0, 0, 0]
  bF : List Rat := [0, 0, 0, 0, 0, 0, 0, 0]
  counter : Nat := 0
  /-- Whether the next tick 0 starts a serving step (R145). -/
  step : Option Nat := none
deriving DecidableEq, Repr

/-! ### Host ports, rings and functions (R290-R316) -/

/-- A message that waits for room in its event ring, without PHASE and SEQ (R308). -/
structure Msg where
  type : Nat
  func : Nat
  flags : Nat
  mtime : Nat
  payload : Bytes
  /-- The batch record whose space goes with the message (R251): length in bytes. -/
  batch : Nat := 0
deriving DecidableEq, Repr

/-- An event ring's state beyond its registers (R297, R303, R308). -/
structure EvRing where
  head : Nat := 0
  seq : Nat := 0
  phase : Bool := true
  armed : Bool := false
  /-- Completion entries reserved (R305). -/
  reserved : Nat := 0
  /-- Port of the last head doorbell (FOLLOW). -/
  lastPort : Nat := 0
  /-- Held messages that wait for room, oldest first. -/
  waiting : List Msg := []
  /-- TOKEN_BATCH messages not yet passed by the head: index in the ring, function and record length (R251). -/
  batches : List (Nat × Nat × Nat) := []
  /-- Messages lost since the last OVERFLOW report: count, first and last SEQ, and the message that waits behind it. -/
  lost : Nat := 0
  lostFirst : Nat := 0
  lostLast : Nat := 0
  /-- Messages written in the last 100 us: ACLK time, port, address and bytes (R306). -/
  recent : List (Nat × Nat × Nat × Bytes) := []
  /-- Interrupts of the ring sent in the last 100 us: ACLK time and port (R297). -/
  irqs : List (Nat × Nat) := []
  /-- Messages to write again on the next link (address and bytes), and whether an interrupt follows them (R297, R306). -/
  resend : List (Nat × Bytes) := []
  reirq : Bool := false
deriving DecidableEq, Repr

/-- A submission ring's state beyond its registers (R303-R305). -/
structure SqRing where
  tail : Nat := 0
  lastPort : Nat := 0
  /-- A record read failed: nothing is fetched until the next doorbell or link-up. -/
  stopped : Bool := false
deriving DecidableEq, Repr

/-- A fetched command (R301, R305). src: 16 times the function plus the ring, 0x100 plus the management link
(R329), or 0x200 plus 16 times the function for a mirrored command (R426). -/
structure Cmd where
  id : Nat
  src : Nat
  body : Bytes
  started : Bool := false
  sqHead : Nat := 0
  /-- The event ring of its completion, and whether the entry reserved there still stands (R305, R308). -/
  eq : Nat := 0
  reserved : Bool := true
deriving DecidableEq, Repr

/-- A port (R290-R293, R310). -/
structure Port where
  /-- PERST# is asserted. -/
  perst : Bool := true
  /-- The link is at DL_Up. -/
  up : Bool := false
  /-- PERST# release seen; may train (R471). -/
  released : Bool := false
  /-- ACLK time of the later of PERST# release and entry to LINKS (R292). -/
  since : Nat := 0
  /-- The link trained at x4 or narrower: configuration requests only (R291). -/
  narrow : Bool := false
  /-- Configuration space (R291, R294; values after reset PRESUMED from the PCI Express specification, notes/assumptions/165):
  NumVFs, Max Payload Size and Max Read Request Size in bytes, and the sizes of MF BAR2 and of a VF's BAR2 in GiB. -/
  numVfs : Nat := 0
  maxPayload : Nat := 128
  maxRead : Nat := 512
  bar2 : Nat := 256
  vfBar2 : Nat := 16
  /-- Functions whose MSI-X capability has MSI-X Enable set, and those with Function Mask set (R297). -/
  msixOn : List Nat := []
  msixMask : List Nat := []
deriving DecidableEq, Repr

/-- A tenant's lifecycle data beyond FUNC_STATE (R311-R313). -/
structure Tenant where
  /-- Held by an FLR: ENABLING follows DISABLED (R311). -/
  flr : Bool := false
  cause : Nat := 0
  /-- Commands (ids) that complete at ENABLED or DISABLED. -/
  enableCmd : Option Nat := none
  disableCmds : List Nat := []
  drainStart : Nat := 0
  /-- Regions (base, size in 2 MiB) whose scrub waits, and the bytes scrubbed so far. -/
  scrub : List (Nat × Nat) := []
  scrubbed : Nat := 0
  /-- Regions the function held before (needing no scrub at ENABLING). -/
  held : List (Nat × Nat) := []
  /-- Regions scrubbed since ENABLING began. -/
  begun : List (Nat × Nat) := []
deriving DecidableEq, Repr

/-! ### Claim and management (R317-R334) -/

/-- A host record beyond its CLAIM registers (R319, R322): ACLK times of the last valid heartbeat on each path, the
last write's port, records written and the time since which a path has been live without a break. -/
structure HostRec where
  lastPcie : Option Nat := none
  lastMgmt : Option Nat := none
  everPcie : Bool := false
  everMgmt : Bool := false
  port : Nat := 0
  hbLo : Nat := 0
  seq : Nat := 0
  liveSince : Option Nat := none
  /-- SEQ plus 1 of the last accepted frame on the record's link, by source MAC (R330). -/
  rxSeq : Map Nat := []
  txSeq : Nat := 0
  /-- Source MAC of the last valid frame on the link (R328). -/
  peerMac : Option Nat := none
deriving DecidableEq, Repr

/-- Announce data of the PTP master seen on a link (R331), best first by the BMCA's fields. -/
structure PtpMaster where
  priority1 : Nat
  clockClass : Nat
  accuracy : Nat
  variance : Nat
  priority2 : Nat
  identity : Nat
  steps : Nat
deriving DecidableEq, Repr

/-! ### Wains (R335-R357) -/

/-- A chain in a post queue: first descriptor address, whether it lies in the granary, the port it was posted on and
whether firmware posted it (R337, R355). -/
structure Chain where
  addr : Nat
  gran : Bool
  port : Nat := 0
  firmware : Bool := false
  /-- Firmware's own descriptors, which lie in the reserved range (R17, R355), and the copy they belong to. -/
  descs : List Bytes := []
  job : Nat := 0
deriving DecidableEq, Repr

/-- The descriptor a channel runs (R338), and how far it has come. -/
structure RunDesc where
  addr : Nat
  gran : Bool
  body : Bytes
  port : Nat
  firmware : Bool
  /-- Bursts, elements or frames done. -/
  bursts : List Nat := []
  /-- TXN staging (R353): the decrypted bytes so far. -/
  staging : Bytes := []
  /-- The key that it took when it started (R368). -/
  key : Bytes := []
  /-- It waits for a completion queue entry (R348). -/
  waitCq : Bool := false
  /-- Firmware's descriptors that follow in the chain, and the copy they belong to (R355). -/
  rest : List Bytes := []
  job : Nat := 0
  /-- Addresses that its elements so far were gathered from or scattered to (R341). -/
  elems : List Nat := []
  /-- Bytes that wait in the funnel for the rest of their line, in address order (R342). -/
  funnel : List Host.Cell := []
  /-- It has failed, with this code and DETAIL: its record waits for its writes or for a completion queue entry (R347, R348). -/
  failed : Option (Nat × Nat) := none
deriving DecidableEq, Repr

/-- A wain channel beyond its page (R335-R351). -/
structure Wain where
  posts : List Chain := []
  /-- The next descriptor of the running chain, to be fetched. -/
  next : Option Chain := none
  desc : Option RunDesc := none
  phase : Bool := true
  /-- The abort's code: WAIN_ABORTED or FENCED (R351, R423). -/
  abortCode : Nat := 0
  /-- A soft reset resets the page once the abort ends (R476). -/
  resetAfter : Bool := false
  /-- A change of owner waits for the abort to end (R335). -/
  newOwner : Option Nat := none
deriving DecidableEq, Repr

/-! ### Joined systems (R416-R443) -/

/-- The wiring check beyond its register (R439): the slot the EEPROM holds, the host record planned for port A (0xFF:
unchecked), the port of each record's last CLAIM_HB write, the record last seen on port A, and the last outcome. -/
structure Wiring where
  eeprom : Nat := 0
  plan : Nat := 0xFF
  seen : List (Option Nat) := [none, none]
  seenA : Nat := 0xFF
  told : Option (Bool × Bool) := none
deriving DecidableEq, Repr

/-- The shadow relation (R425-R430). -/
structure Shadow where
  func : Nat := 0
  elderFunc : Nat := 0
  serial : Nat := 0
  ring : Nat := 0
  host : Nat := 0
  /-- Elder: bytes written to the ring and consumed by the shadow. Shadow: bytes consumed. -/
  wrote : Nat := 0
  consumed : Nat := 0
  /-- Shadow: MTIME of the last record applied. -/
  lastRec : Nat := 0
  /-- The shadow's own digests not yet compared: B, T (R427). -/
  digests : List (Nat × List Nat) := []
  /-- The elder's digests not yet compared: step, then D and T. -/
  elderDigests : List (Nat × List Nat) := []
  ending : Bool := false
  endCmd : Option Nat := none
  /-- Shadow: ACLK time of the last record applied, and the boundary the last PLAN tells of: step and t_b. -/
  heard : Nat := 0
  plan : Option (Nat × Nat) := none
deriving DecidableEq, Repr

/-- A command that waits for a tally fire (R437): kind 0 SNAPSHOT first fire, 1 SNAPSHOT second fire, 2 GLOBAL_RESET,
with its counter and command. -/
structure TallyWait where
  kind : Nat
  ctr : Nat
  cmd : Nat
  step : Nat := 0
  func : Nat := 0
  wain : Nat := 0
  dest : Nat := 0
  /-- SNAPSHOT: 0 waits for the boundary, 1 writes out, 2 has added; and the copy that writes out, with its descriptors. -/
  phase : Nat := 0
  job : Nat := 0
  descs : Nat := 0
deriving DecidableEq, Repr

/-- A fence certificate under check (R421): its bytes and command. -/
structure CertJob where
  cert : Bytes
  cmd : Nat
deriving DecidableEq, Repr

/-! ### Tray, start-up and fault log (R446-R495) -/

/-- Hot-swap states (R461, R493). -/
inductive HsState where
  | unpowered | standby | starting | inService | draining | drained | quenching | fault
deriving DecidableEq, Repr

/-- A committed fault record (R493): its bytes, CRC included. -/
structure FaultRec where
  seq : Nat
  kind : Nat
  acked : Bool
  bytes : Bytes
deriving DecidableEq, Repr

/-- The tray and the start-up sequence as the reeve keeps them (R453-R483). -/
structure Tray where
  hs : HsState := .unpowered
  /-- Start-up stage by its order (R470); 6 once ready. ACLK times at which the stage, BOOT, and the count to READY began. -/
  stage : Nat := 0
  stageFrom : Nat := 0
  bootFrom : Nat := 0
  readyFrom : Nat := 0
  /-- EJECT_REQ is closed (the lever stands open), since when it has been open, and whether it has been closed in DRAINED. -/
  eject : Bool := false
  openFrom : Nat := 0
  wasClosed : Bool := false
  /-- EJECT_REQ closed during STARTING: the stage ends, then DRAINED (R461). -/
  stopStart : Bool := false
  /-- The reeve has booted; the start is that of a module cold reset (R479). -/
  booted : Bool := false
  coldStart : Bool := false
  /-- Die rails are up. -/
  rails : Bool := false
  heater : Bool := false
  /-- PRSNT_EARLY# is made. -/
  present : Bool := false
  /-- Input voltage in mV as last seen, and ACLK time since which it has been above 60 V (R453). -/
  vin : Nat := 0
  highFrom : Option Nat := none
  /-- Deadline of the drain (ACLK time) and what started it: 0 lever, 1 TRAY_REMOVE (R462, R468). -/
  drainBy : Nat := 0
  drainSrc : Nat := 0
  /-- Drain timeout in s, kept in flash, and LOCATE (R459). -/
  timeout : Nat := 30
  locate : Bool := false
  /-- Start-up FAULTs since standby power without READY, and ACLK time of the last (R473). -/
  faults : Nat := 0
  faultFrom : Option Nat := none
  /-- A reset that MODULE_RESET scheduled: level, ACLK time of the completion (R478). -/
  reset : Option (Nat × Nat) := none
  /-- A die warm reset is due: its SYS_RESET_CAUSE (R477, R360, R437, R487). -/
  warm : Option Nat := none
  /-- The boot under way belongs to a die warm reset: BIST is skipped (R477). -/
  warmBoot : Bool := false
  /-- The image being booted or running, whether on trial, and whether an image has been abandoned in this boot (R360). -/
  image : Nat := 0
  trial : Bool := false
  abandoned : Bool := false
  /-- LED_G_OUT and LED_A_OUT: ACLK time at which the driver went off, while it is off (R467). -/
  drivers : List (Option Nat) := [none, none]
  /-- Fault records captured and not yet committed (R464), and the SEQ of the UNCLEAN record of a removal that may yet be
marked RESEATED (R466). -/
  drafts : List FaultRec := []
  lastUnclean : Option Nat := none
  /-- An EJECT INPUT_FAULT waits for the links (R453); an UNCLEAN_RECORD waits for the first claim (R465): step, time. -/
  inputFaultDue : Bool := false
  uncleanDue : Option (Nat × Nat) := none
deriving DecidableEq, Repr


/-- What module flash keeps beside the fault log (R417, R459, R482): the newest user calibration sets that verify. -/
structure Flash where
  /-- The two calibration records: sequence number and the three user words (R482). -/
  cal : List (Nat × List Nat) := []
  calSaving : Bool := false
  calAgain : Bool := false
  /-- Partition, Q and N, keys, fence state and FENCE_SEQ, fence table (R417, R418). -/
  part : Nat := 0
  qn : Nat := 0
  keys : List Bytes := []
  fenceState : Nat := 0
  fenceSeq : Nat := 0
  fenceTable : Map Nat := []
  restartJoin : Bool := false
  /-- Digest of the image that FW_WRITE put into slot A and slot B; empty for the image as shipped (R361). -/
  images : List Bytes := [[], []]
  /-- Device set keys by store: set and key (R369), and the cabinet management key (R371). -/
  sets : List (Option (Nat × Bytes)) := []
  mgmtKey : Bytes := []
  /-- Retired granules per stack (R489). -/
  granules : List Nat := []
  /-- Reeve operating time in ms as last saved (R405). -/
  opTime : Nat := 0
deriving DecidableEq, Repr

/-! ### Power and heat (R381-R414) -/

/-- A field's clock change (R34, R392): the step it goes to, and where it stands: 0 none, 1 rail rising, 2 relocking,
3 rail falling. -/
structure FieldCtl where
  target : Nat := 0
  phase : Nat := 0
  /-- The step the learner last set; a change in progress ends before the next begins. -/
  want : Nat := 16
  /-- Rail voltage the change ends at, in mV. -/
  volt : Nat := 0
  droop : Bool := false
  /-- Junction ceiling while throttled (R403), and ms spent at or below 97 C. -/
  jceil : Option Nat := none
  coolMs : Nat := 0
  /-- Sensors at or above 115 C at the last sample, one bit each (R405). -/
  hot : Nat := 0
  /-- Preferred step of the last period (R393). -/
  opp : Nat := 0
  /-- Since the last allocation (R394, R395): words issued by phase, FCLK cycles of its bays that ran and waited for no token or
  credit, and whether its clock changed or g left 0. -/
  words : Map Nat := []
  busy : Nat := 0
  moved : Bool := false
deriving DecidableEq, Repr

/-- A pool record (R401): member index, I, l, u, s. -/
structure PoolRec where
  index : Nat
  i : Nat
  l : Nat
  u : Nat
  s : Nat
deriving DecidableEq, Repr

/-- The governor, the thermal loops and the pool beyond their registers. -/
structure Power where
  fields : List FieldCtl := [{}, {}, {}, {}, {}, {}, {}, {}]
  /-- Corrected estimate E' and inner target T_i, in 0.1 W (R383, R387). -/
  est : Rat := 0
  ti : Rat := 9000
  /-- Sum and count of E' since the last allocation period, for its mean (R410). -/
  estSum : Rat := 0
  estN : Nat := 0
  /-- ACLK time of the last allocation (R394). -/
  periodFrom : Nat := 0
  /-- Sums and counts of M and E' in the present 1 ms window (R384). -/
  winM : Rat := 0
  winMN : Nat := 0
  winE : Rat := 0
  winEN : Nat := 0
  /-- ACLK time since which a TREE counter waits with this module's part complete, and cycles waited in the pool period (R400). -/
  waitFrom : Option Nat := none
  waited : Nat := 0
  /-- A sensor was at or above 115 C in two consecutive samples (R405). -/
  hotTwice : Bool := false
  /-- Last plausible M in 0.1 W. -/
  meas : Rat := 0
  /-- ACLK time since which P_c has stayed at or below T while CAP_LAG stands (R389). -/
  lagOk : Option Nat := none
  lagFrom : Nat := 0
  /-- Windows in a row that differ, and that agree (R384). -/
  differ : Nat := 0
  agree : Nat := 0
  /-- Plausible samples in a row during SENSOR_FAULT; equal current codes in a row with the E' range meanwhile. -/
  plausible : Nat := 0
  code : Nat := 0
  same : Nat := 0
  sameLo : Rat := 0
  sameHi : Rat := 0
  /-- Input energy in 10 uJ (R410). -/
  energy : Nat := 0
  /-- 0 no brake, 1 gates rising, 2 gates at 63, 3 clocks dropped (R398). -/
  brake : Nat := 0
  brakeFrom : Nat := 0
  /-- Learned table entries in 10 mW by phase, field and step (R395). -/
  learned : Map (Option Rat) := []
  /-- Granary grant limit of the learner; video units held back; video duty limited by the brake. -/
  granLimit : Nat := 100
  videoHeld : Bool := false
  videoDuty : Bool := false
  coolCeil : Option Nat := none
  coolHot : Bool := false
  coolCold : Bool := false
  flowLowFrom : Option Nat := none
  flowPosted : Bool := false
  wet : Nat := 0
  leakPosted : Bool := false
  /-- ACLK time since which a stack stays at or above 95 C (R405), per stack. -/
  hbmHot : List (Option Nat) := [none, none, none, none]
  hbmThrottle : List Bool := [false, false, false, false]
  /-- Raw junction and stack readings last seen, and time of the shutdown (R405). -/
  shutAt : Option Nat := none
  /-- Operating times of thermal restarts in ms, kept in flash (R405). -/
  restarts : List Nat := []
  /-- ACLK time up to which flash counts the operating time (R405). -/
  opFrom : Nat := 0
  /-- Pool (R401, R402): total P, whether no round has run yet, records of this round, rounds missed in a row, share to
rise to and ACLK time of the rise, the 10 ms period of the last round, and whether that round is closed. -/
  poolTotal : Nat := 0
  poolFirst : Bool := true
  poolRecs : List PoolRec := []
  poolMissed : Nat := 0
  poolRise : Option (Nat × Nat) := none
  poolBoundary : Option Nat := none
  poolDone : Bool := true
deriving DecidableEq, Repr

/-! ### Firmware, keys, bundles and sessions (R358-R379) -/

/-- A bundle that is LOADED (R372-R374): its destination and length, the SHA-384 digest of its header, and its tables. -/
structure Bundle where
  dest : Nat
  len : Nat
  digest : Bytes
  info : BundleInfo
deriving DecidableEq, Repr

/-- The BUNDLE_LOAD that runs (R374): command, function, bundle number, source, destination, header, and the bundle key of an
encrypted one. -/
structure LoadJob where
  cmd : Nat
  func : Nat
  num : Nat
  src : Nat
  dest : Nat
  header : Bytes
  key : Option Bytes
deriving DecidableEq, Repr

/-- A JOB_RUN that runs (R373): function, bundle, command, the bays of its programs, the time at which it started and the code
of the first bay that failed. -/
structure Job where
  func : Nat
  num : Nat
  cmd : Nat
  bays : List Nat
  start : Nat
  code : Nat := 0
deriving DecidableEq, Repr

/-- An SPDM session (R363, R366): its port, whether FINISH has completed it, whether it asked for mutual authentication, and
the tenant function it is bound to. -/
structure Session where
  id : Nat
  port : Nat
  established : Bool := false
  wantsMutual : Bool := false
  func : Option Nat := none
  /-- The transcript so far, the handshake secret, the secret of each direction and the records sent (DSP0277, R9). -/
  transcript : Bytes := []
  handshake : Bytes := []
  req : Bytes := []
  rsp : Bytes := []
  sent : Nat := 0
deriving DecidableEq, Repr

/-- The security services beyond the SEC page: the firmware update that runs (command, address, length), the unlock that
waits for the confidential tenants (command, scope), the state that measurement 4 took at boot (F, the running image's SVN,
ACTIVE), how far each port's SPDM negotiation has come, the sessions, the loaded bundles by 16 times the function plus the
number, the load, scrubs of bundle destinations (range, and the BUNDLE_UNLOAD it completes), KV pages whose scrub waits
(pool, first unit, size code) and the jobs. -/
structure Security where
  fwWrite : Option (Nat × Nat × Nat) := none
  unlocks : List (Nat × Nat) := []
  measured : Nat × Nat × Nat := (0, 0, 0)
  spdm : List Nat := [0, 0]
  sessions : List Session := []
  bundles : Map Bundle := []
  load : Option LoadJob := none
  scrubs : List (Nat × Nat × Option Nat) := []
  kvScrubs : List (Nat × Nat × Nat) := []
  jobs : List Job := []
deriving DecidableEq, Repr

/-! ### Serving (R224-R258) -/

/-- A node of a candidate tree (R242): its parent (0 the root, n candidate n - 1), token and depth. -/
structure Node where
  parent : Nat
  token : Nat
  depth : Nat
deriving DecidableEq, Repr

/-- What the gleaner found for a sequence in a step (R237, R244): the candidates accepted in order, the new token,
the tokens that each head ranks highest at the last node (R242), and the code that ends the sequence. -/
structure GlnResult where
  accepted : List Nat
  token : Option Nat
  tops : List (List Nat)
  code : Nat
deriving DecidableEq, Repr

/-- A sequence table entry (R225) with what the module keeps beside it. -/
structure Seq where
  gen : Nat := 0
  st : Nat := 0
  func : Nat := 0
  bundle : Nat := 0
  specN : Nat := 0
  misses : Nat := 0
  hits : Nat := 0
  probe : Nat := 0
  admitNo : Nat := 0
  genTok : Nat := 0
  pt : Nat := 0
  endCode : Nat := 0
  user : Nat := 0
  lastStep : Nat := 0
  req : Bytes := []
  bias : List (Nat × Nat) := []
  /-- Posted mask: position and address (R238). -/
  mask : Option (Nat × Nat) := none
  /-- A fork that waits: the parent's handle and f (R187, R188). -/
  fork : Option (Nat × Nat) := none
  /-- It has a page table, at index pt of its pool; and the largest LEN it has had. -/
  table : Bool := false
  lenMax : Nat := 0
  /-- Positions to be prefilled before it samples: PROMPT_LEN, or PROMPT_LEN + GEN under R195. -/
  target : Nat := 0
  /-- It takes part in the running step, with this many prompt tokens (0 when it decodes), its query number in its rows and
the tree it runs. -/
  inStep : Bool := false
  chunk : Nat := 0
  row : Nat := 0
  tree : List Node := []
  /-- The tree to run in its next decode step (R242), and whether the tree of this step is a probe (R247). -/
  next : List Node := []
  probing : Bool := false
  result : Option GlnResult := none
  /-- What ends it at the next boundary. -/
  fail : Nat := 0
  /-- Swap (R193, R194): 0 none, 1 copying out, 2 out, 3 copying in, 4 in again; 5 and 7: the copy out or in has ended and its bent
  follows at the next boundary. -/
  swap : Nat := 0
  /-- Pages in swap: entry, offset in 512-byte units, NONCE (R352). -/
  pages : List (Nat × Nat × Nat) := []
  /-- Units that a swap-in copies to: entry and first unit. -/
  newUnits : List (Nat × Nat) := []
  /-- The copy to or from swap that runs (R193, R194), and how many descriptors it has. -/
  swapJob : Option (Nat × Nat) := none
deriving DecidableEq, Repr

/-- A batch record that is formed (R250): step, t_b, entries and the record's bytes. -/
structure Batch where
  step : Nat
  tb : Nat
  entries : Nat
  bytes : Bytes
deriving DecidableEq, Repr

/-- A function's token area (R248, R251): address, size, event ring, where the next record goes, the lengths of the records
whose space is not released, oldest first, and the records held. -/
structure Area where
  addr : Nat
  size : Nat
  ring : Nat
  off : Nat := 0
  used : List Nat := []
  held : List Batch := []
deriving DecidableEq, Repr

/-- An entry of a batch record (R250): sequence, first position, tokens, flags (LATE, STOP, FIRST) and, if it ends, its code. -/
structure Entry where
  seq : Nat
  pos : Nat
  toks : List Nat
  late : Bool := false
  stop : Bool := false
  first : Bool := false
  done : Option Nat := none
deriving DecidableEq, Repr

/-- A boundary after row 6 of R233: t_b, the number of the step that ended, the entries of its batch records, the firmware bents
and reference drops to raise, the sequences of the next step, the snapshots taken at it (R437), and the copies it waits for: job,
descriptors and the sequence they belong to. -/
structure Mid where
  tb : Nat
  step : Nat
  ents : List Entry
  bents : List (List Action)
  drops : List Nat
  chosen : List Nat
  due : List TallyWait
  jobs : List (Nat × Nat × Nat)
deriving DecidableEq, Repr

/-- The serving sequencer beyond the SRV page. -/
structure Serve where
  /-- A step runs, since this MTIME, on these bays. -/
  running : Bool := false
  began : Nat := 0
  bays : List Nat := []
  /-- BLK_CTRL.PAUSE is 1. -/
  pause : Bool := false
  nextAdmit : Nat := 0
  /-- Jobs that have ended since reset; they count as steps of their function in digests (R427). -/
  jobSteps : Nat := 0
  /-- Refcount addresses whose drop is carried to the next boundary (R233, row 7). -/
  carry : List Nat := []
  areas : Map Area := []
  /-- Digest sums by 64 times the function plus the tensor (R427); jobs count as steps of their function. -/
  sums : Map Nat := []
  /-- ACLK time of the last boundary (R235). -/
  lastAt : Nat := 0
  /-- A boundary that waits for its copies (R189, R246). -/
  mid : Option Mid := none
  /-- ACLK time until which the gleaner's passes run (R236, R259). -/
  gln : Nat := 0
deriving DecidableEq, Repr

/-! ### Video (R261-R289) -/

/-- A submission (R270): its command, the picture or access unit's address and length, PTS, deadline, EOS or KEY, whether its
bytes are all parsed, its units parsed and not done; for an encode frame the rows ready, rows taken and the slice index. -/
structure VidSub where
  cmd : Nat
  addr : Nat
  len : Nat
  pts : Nat
  deadline : Nat
  mark : Bool
  gmv : Nat := 0
  /-- Its place among the stream's submissions, for an encode stream in display order; for a decode stream where parsing stands. -/
  idx : Nat := 0
  pos : Nat := 0
  parsed : Bool := false
  open' : Nat := 0
  ready : Nat := 0
  taken : Nat := 0
  slice : Nat := 0
deriving DecidableEq, Repr

/-- A tap's work on a picture (R282): tap number, its block, whether it has begun, the next output row, and the number of
the tapped frame. -/
structure TapJob where
  tap : Nat
  block : Bytes
  begun : Bool := false
  row : Nat := 0
  frame : Nat := 0
deriving DecidableEq, Repr

/-- A picture of a decode stream from its first header to its FRAME_DONE (R276, R286). -/
structure VidPic where
  slot : Nat
  order : Nat
  pts : Nat
  deadline : Nat
  width : Nat
  height : Nat
  layout : Nat
  colour : Nat
  flags : Nat := 0
  code : Nat := 0
  cblocks : Nat := 0
  isRef : Bool := false
  shown : Bool := true
  /-- The places in output order of the pictures it refers to, the submission it came with, the blocks decoded or concealed with
their vectors (R285), and the core that last raised FINAL_ROWS. -/
  refs : List Nat := []
  sub : Nat := 0
  done : List UnitBlock := []
  core : Nat := 0
  /-- Its first unit has started; its last unit is parsed; units parsed and not done; rows decoded; rows final; it may be output. -/
  started : Bool := false
  closed : Bool := false
  open' : Nat := 0
  rows : Nat := 0
  final : Nat := 0
  bumped : Bool := false
  taps : List TapJob := []
deriving DecidableEq, Repr

/-- A picture slot (R272): referred to by the decoder, FRAME_DONE posted and not released by the host since; flags, place in
output order and size of its picture. -/
structure VidSlot where
  held : Bool := false
  posted : Bool := false
  flags : Nat := 0
  order : Nat := 0
  size : Nat × Nat := (0, 0)
  /-- Encode: the vectors of the reconstructed picture (R278). -/
  vecs : List BlockVec := []
deriving DecidableEq, Repr

/-- A parsed unit that waits for a core: the picture's slot, whether it is the picture's last unit (R264), its submission and where
it stands there. -/
structure VidUnit where
  slot : Nat
  last : Bool
  sub : Nat
  pos : Nat
deriving DecidableEq, Repr

/-- A stream context (R266-R271). States: 0 FREE, 1 OPEN, 2 RUNNING, 3 STALLED, 4 FLUSHING, 5 FAULT, 6 CLOSING. -/
structure VidCtx where
  st : Nat := 0
  func : Nat := 0
  block : Bytes := []
  subs : List VidSub := []
  units : List VidUnit := []
  pics : List VidPic := []
  slots : List VidSlot := []
  /-- Tap blocks (empty: none), frames tapped by each, and pictures seen since the last one taken. -/
  taps : List Bytes := [[], [], [], []]
  tapped : List Nat := [0, 0, 0, 0]
  since : List Nat := [0, 0, 0, 0]
  frameNo : Nat := 0
  /-- Picture size last used. -/
  size : Nat × Nat := (0, 0)
  /-- Encode: bytes written to and released from the output ring, the length of a slice that waits for room, frames since the
last key picture, and frames before the last anchor that are still to be encoded. -/
  wrote : Nat := 0
  released : Nat := 0
  needs : Nat := 0
  gop : Nat := 0
  bLeft : Nat := 0
  /-- Decode: the bytes of every submission so far (R265). -/
  stream : List Bytes := []
  /-- Submissions so far. -/
  count : Nat := 0
  /-- Encode: the reference slots, latest first; the slot and the vectors of the frame in progress; those of the previous coded
picture (R278); and the bytes of every slice so far, which rate control counts (R265). -/
  encRefs : List Nat := []
  encSlot : Nat := 0
  vecs : List BlockVec := []
  prevVecs : List BlockVec := []
  coded : List Nat := []
  /-- Core whose frame is in progress, and ACLK time of the last service. -/
  onCore : Option Nat := none
  served : Nat := 0
  closeCmds : List Nat := []
deriving DecidableEq, Repr

/-- A decode core (0-3) or encode core (4, 5) (R274, R288): the context of the unit in progress, the frame it last left
unfinished, and luma samples that make no 256 yet. -/
structure VidCore where
  ctx : Option Nat := none
  unfinished : Option Nat := none
  luma : Nat := 0
deriving DecidableEq, Repr

/-- The state of the block. -/
structure State where
  /-- Commands that wait, first in first out. -/
  pending : List Instr := []
  /-- ACLK cycles since the reeve started (R31); the model's own time base (notes/assumptions/4). -/
  clock : Nat := 0
  /-- MTIME as a 64.32 fixed-point number of nanoseconds (R35). -/
  mtime : BitVec 96 := 0
  /-- The last MTIME sample given out; samples never decrease (R37). -/
  lastSample : Nat := 0
  /-- Counter of the free values drawn (the model's own; notes/assumptions/5). -/
  free : Nat := 0
  /-- Next identity for a write or a command (the model's own). -/
  nextId : Nat := 0
  /-- Everything sent to the outside, oldest first. -/
  out : List Output := []
  /-- Active register values by place (R43 and the register tables). -/
  regs : Map Word := []
  /-- Staged values of RWS fields by place (R49). -/
  staged : Map Word := []
  /-- High words latched by reads of low words (R24), by place of the high word. -/
  latched : Map Word := []
  /-- Unlocked expert ranges: page and function (R46). -/
  unlocked : List (Nat × Nat) := []
  /-- Pages that have recorded EXPERT_LOCKED since the last clear of their BLK_ERR (R47). -/
  lockSeen : List Nat := []
  /-- Pages whose enabled raw interrupt bits are not all 0 (R298). -/
  irqHigh : List Nat := []
  /-- Granary bytes (R16), canonical: an unlisted address reads 0. -/
  mem : List Host.Cell := []
  /-- Granary writes accepted and not yet acknowledged, oldest first (R26). -/
  gwq : List GWrite := []
  /-- Reads that a channel has granted and that have not returned, by 4 times the channel plus the class (R19, R20). -/
  readGrants : Map Nat := []
  /-- Messages held until earlier writes are acknowledged (R27). -/
  held : List Held := []
  /-- Poisoned lines (R486). -/
  poison : List Nat := []
  /-- Line versions kept by the transaction unit (R69). -/
  lineVer : Map Nat := []
  /-- Retained lines (R77). -/
  retained : List Retained := []
  /-- Storage waiting for TXN_OLDEST (R78). -/
  deferred : List Deferred := []
  /-- Class that received the last lent grant, per channel (R21). -/
  lentLast : Map Nat := []
  /-- The bays (R114). -/
  bays : Map Bay := []
  /-- Token, credit and tally messages in flight, oldest first (R15). -/
  mesh : List MeshMsg := []
  /-- Counters of the gleaner and of the serving sequencer, by 16 times the unit (0 gleaner, 1 sequencer) plus the counter
(R120, R236). -/
  unitTokens : Map Nat := []
  /-- The activity ramp limiter (R145). -/
  ramp : Ramp := {}
  /-- The bent slots (R64). -/
  slots : Map Slot := []
  /-- RAISE writes seen (R71). -/
  raises : Nat := 0
  /-- Epoch held by the serving step, if one runs (R76). -/
  stepEpoch : Option Nat := none
  /-- ACLK time at which TXN_OLDEST, at its present value, first fell below TXN_EPOCH (R78). -/
  stallFrom : Option Nat := none
  /-- Fetched commands, in fetch order (R305). -/
  cmds : List Cmd := []
  sqs : Map SqRing := []
  eqs : Map EvRing := []
  /-- Ports A and B. -/
  ports : List Port := [{}, {}]
  /-- MSI-X table words by port, function and offset (R297). -/
  msixTab : Map Word := []
  /-- Pending MSI-X vectors: port, function, vector (R297). -/
  pba : List (Nat × Nat × Nat) := []
  tenants : Map Tenant := []
  hosts : List HostRec := [{}, {}]
  /-- Best master seen on each management link (R331). -/
  ptp : List (Option PtpMaster) := [none, none]
  /-- Whether a claim has been accepted since module cold reset (R36). -/
  everClaimed : Bool := false
  /-- Cabinet management key (R371); empty when none is installed. -/
  mgmtKey : Bytes := []
  /-- Last value written to CLAIM_KEY through each port (R326). -/
  claimKeys : List Nat := [0, 0]
  wains : Map Wain := []
  wiring : Wiring := {}
  shadow : Shadow := {}
  tallyWaits : List TallyWait := []
  /-- Fence certificates under check, oldest first (R421). -/
  certs : List CertJob := []
  /-- The FENCE_CERT command that fences the module (R423). -/
  fencing : Option Nat := none
  /-- TREE counters that wait for an UP or a DOWN: ACLK time plus 1 at which the wait began, and whether the stall was
posted (R436). -/
  tallySince : Map (Nat × Bool) := []
  /-- Non-root counters that have received DOWN for their round (R434). -/
  tallyDown : List Nat := []
  /-- Tally messages that wait for a link: port choice, host address and bytes (R435). -/
  tallyOut : List (Nat × Nat × Bytes) := []
  /-- The module waits for the partition's next GLOBAL_RESET fire (R431). -/
  joinWait : Bool := false
  tray : Tray := {}
  faultLog : List FaultRec := []
  faultSeq : Nat := 0
  flash : Flash := {}
  power : Power := {}
  /-- Allocated pages of the KV pools: first unit and size code, per pool (R180). -/
  kvBlocks : Map (List (Nat × Nat)) := []
  /-- Pages held out of the allocator (R217): pool, first unit, size code. -/
  kvPoison : List (Nat × Nat × Nat) := []
  /-- Tenant key slots by 8 times the tenant plus the slot: usage and key (R367); an empty key is an empty slot. -/
  keySlots : Map (Nat × Bytes) := []
  /-- The KV manager's NONCE counters, numbered as the key slots (R352). -/
  nonces : Map Nat := []
  /-- Firmware descriptors that have ended: the copy they belong to and their status, in order (R355). -/
  fwDone : List (Nat × Nat) := []
  /-- Firmware chains that wait for room in a channel's post queue: channel and chain (R355). -/
  fwWait : List (Nat × Chain) := []
  /-- Firmware bents that a full retained-line store or epoch span struck and that firmware raises again
(notes/assumptions/173). -/
  fwAgain : List (List Action) := []
  /-- t_b of the last step boundary (R233, R465). -/
  lastTb : Nat := 0
  /-- Ranges a confidential tenant held at a die warm reset, in no function until they are scrubbed (R477). -/
  orphans : List (Nat × Nat) := []
  /-- KV pages that an auger met poisoned and the KV manager has not yet marked (R217): pool and first unit. -/
  kvMarks : List (Nat × Nat) := []
  sec : Security := {}
  /-- Set and management keys may not be used before the next module cold reset (R376). -/
  keysLocked : Bool := false
  /-- The sequence table (R225), and each entry as published at the last boundary (R258). -/
  seqs : Map Seq := []
  seqPub : Map Seq := []
  srv : Serve := {}
  /-- The stream contexts and the cores of the video engine (R266, R274). -/
  video : Map VidCtx := []
  cores : Map VidCore := []
deriving DecidableEq, Repr

/-- The state right after reset: power-on, before standby power has come (R461): every register place at its table's
reset value, every queue, buffer and counter empty or 0 (values the spec does not give: notes/assumptions/3). -/
def State.reset : State := {}

end Sys2Proof.Machine
end

