-- ==== Sys2Proof/Machine/Ops.lean ====
section
/-! DEFINITION. The named operations over the state that every family uses: register places, time samples, output,
event rings and messages (R297, R298, R306-R308), error recording (R43, R44), granary reads and writes with their
acknowledgement (R26-R28, R488), the mesh (R15, R27), bays, and completions (R309). -/

namespace Sys2Proof.Machine

/-! ### Register places -/

/-- The active value of a register place, as a number. -/
def rd (s : State) (k : Nat) : Nat := (mget regReset s.regs k).toNat

/-- Set the active value of a register place. -/
def wr (s : State) (k v : Nat) : State :=
  { s with regs := mset regReset s.regs k (BitVec.ofNat 32 v) }

/-- The staged value of a register place (R49). -/
def rdStaged (s : State) (k : Nat) : Nat := (mget regReset s.staged k).toNat

/-- Set the staged value of a register place. -/
def wrStaged (s : State) (k v : Nat) : State :=
  { s with staged := mset regReset s.staged k (BitVec.ofNat 32 v) }

/-- A field of a register place. -/
def rf (s : State) (k hi lo : Nat) : Nat := fld (rd s k) hi lo

/-- Set a field of a register place. -/
def wf (s : State) (k hi lo v : Nat) : State := wr s k (putFld (rd s k) hi lo v)

/-- Set one bit of a register place. -/
def setBit (s : State) (k i : Nat) (b : Bool) : State := wf s k i i (b2n b)

/-- A count that wraps at 32 bits. -/
def incr (s : State) (k n : Nat) : State := wr s k (rd s k + n)

/-- A count that saturates at 0xFFFF_FFFF. -/
def satIncr (s : State) (k n : Nat) : State := wr s k (min (rd s k + n) 0xFFFFFFFF)

/-- A 64-bit value kept at a low place and the place after it. -/
def rd64 (s : State) (k : Nat) : Nat := rd s k + 2 ^ 32 * rd s (k + 4)

/-- Set a 64-bit value. -/
def wr64 (s : State) (k v : Nat) : State := wr (wr s k (v % 2 ^ 32)) (k + 4) (v / 2 ^ 32)

/-- The function index of BLK_ERR_INFO for what the module itself causes (R43). -/
def internalFunc : Nat := 15

/-- Send something out. -/
def emit (s : State) (o : Output) : State := { s with out := s.out ++ [o] }

/-- MTIME in whole nanoseconds (R35). -/
def mtimeNs (s : State) : Nat := s.mtime.toNat / 2 ^ 32

/-- An MTIME sample (R37): it lags MTIME by up to 60 ns, by a free amount, and never decreases. -/
def now (s : State) : Nat :=
  max s.lastSample (mtimeNs s - min 60 (Config.mtimeLag s.clock))

/-- One ACLK cycle with nothing to do: MTIME advances by its increment (R35), and the last sample is kept (R37;
notes/assumptions/4). Without standby power nothing runs (R461). -/
def idleCycle (s : State) : State :=
  if s.tray.hs = .unpowered then s
  else
    { s with
      lastSample := now s
      clock := s.clock + 1
      mtime := s.mtime + BitVec.ofNat 96 (2 ^ 32 * rd s K.clkMtimeIncI + rd s K.clkMtimeIncF) }

/-- ACLK cycles in a number of microseconds (R31: 100 MHz). -/
def usCycles (us : Nat) : Nat := 100 * us

/-- Draw a free value (notes/assumptions/5). -/
def draw (s : State) : Nat × State := (Config.freeValue s.free, { s with free := s.free + 1 })

/-! ### Ports -/

def port (s : State) (p : Nat) : Port := s.ports.getD p {}

def setPort (s : State) (p : Nat) (x : Port) : State := { s with ports := s.ports.set p x }

/-- Whether a port's link is up. -/
def portUp (s : State) (p : Nat) : Bool := (port s p).up

/-- The port asked for, or the other one if it is down. -/
def choosePort (s : State) (p : Nat) : Option Nat :=
  if portUp s p then some p else if portUp s (1 - p) then some (1 - p) else none

/-- Count payload bytes a port sends (R314). -/
def countTx (s : State) (p n : Nat) : State := wr64 s (K.portTxLo p) ((rd64 s (K.portTxLo p) + n) % 2 ^ 64)

/-- Count payload bytes a port receives (R314). -/
def countRx (s : State) (p n : Nat) : State := wr64 s (K.portRxLo p) ((rd64 s (K.portRxLo p) + n) % 2 ^ 64)

/-- Whether a port presents a function: MF always, the VFs while NumVFs is 8 (R291). -/
def vfHere (s : State) (p f : Nat) : Bool := f == 0 || (port s p).numVfs == 8

/-- Memory writes that carry a byte string: none longer than the port's Max Payload Size and none across a 4 KiB boundary
(R291). -/
def payloads (m : Nat) : Nat → Nat → Bytes → List (Nat × Bytes)
  | 0, a, bs => if bs.isEmpty then [] else [(a, bs)]
  | k + 1, a, bs =>
    if bs.isEmpty then []
    else
      let n := min m (4096 - a % 4096)
      (a, bs.take n) :: payloads m k (a + n) (bs.drop n)

/-- A write to host memory through a port (R291, R293: none on a link that is down). -/
def hostWrite (s : State) (p f addr : Nat) (bs : Bytes) : State :=
  (payloads (port s p).maxPayload (bs.length / 64 + 2) addr bs).foldl (fun s e => emit s (.hostWrite p f e.1 e.2))
    (countTx s p bs.length)

/-! ### MSI-X (R297) -/

/-- The place of an MSI-X table word. -/
def msixKey (p f off : Nat) : Nat := 2 ^ 20 * p + 2 ^ 14 * f + off

/-- Vector control reads masked until written (PRESUMED from the PCI Express specification, notes/assumptions/8). -/
def msixReset (k : Nat) : Word := if k % 16 = 12 then 1 else 0

/-- Whether a vector is masked. -/
def msixMasked (s : State) (p f vec : Nat) : Bool :=
  (mget msixReset s.msixTab (msixKey p f (16 * vec + 12))).toNat % 2 == 1

/-- Send a vector, or set its pending bit while it or its function is masked; a function whose MSI-X is not enabled sends
none (PRESUMED from the PCI Express specification, notes/assumptions/165). -/
def sendMsix (s : State) (p f vec : Nat) : State :=
  if !(port s p).msixOn.contains f then s
  else if (port s p).msixMask.contains f || msixMasked s p f vec then
    (if s.pba.contains (p, f, vec) then s else { s with pba := s.pba ++ [(p, f, vec)] })
  else emit s (.msix p f vec)

/-! ### Event rings (R303, R306-R308) -/

def eqKey (f n : Nat) : Nat := 16 * f + n
def eqr (s : State) (f n : Nat) : EvRing := mget (fun _ => {}) s.eqs (eqKey f n)
def setEqr (s : State) (f n : Nat) (x : EvRing) : State :=
  { s with eqs := mset (fun _ => {}) s.eqs (eqKey f n) x }
def eqEnabled (s : State) (f n : Nat) : Bool := bit (rd s (K.eqCfg f n)) 24
def eqSize (s : State) (f n : Nat) : Nat := 2 ^ rf s (K.eqCfg f n) 4 0

/-- Unread messages of an event ring. -/
def unread (s : State) (f n : Nat) : Nat :=
  (rd s (K.eqTail f n) + eqSize s f n - (eqr s f n).head) % eqSize s f n

/-- Entries free beyond the unread messages: at most E - 1 are unread (R308). -/
def eqFree (s : State) (f n : Nat) : Nat := eqSize s f n - 1 - unread s f n

/-- Entries free beyond the reserved ones (R305). -/
def eqRoom (s : State) (f n : Nat) : Nat := eqFree s f n - (eqr s f n).reserved

/-- The port an event ring writes through: A, B or that of its last head doorbell, the other if it is down
(R303, R306). -/
def eqPort (s : State) (f n : Nat) : Option Nat :=
  let c := rf s (K.eqCfg f n) 17 16
  choosePort s (if c = 2 then (eqr s f n).lastPort else c % 2)

/-- The 64 bytes of a message (R306). -/
def msgBytes (m : Msg) (phase : Bool) (seq : Nat) : Bytes :=
  toLE 1 m.type ++ toLE 1 m.func ++ toLE 2 (b2n phase + 2 * m.flags) ++ toLE 4 seq ++ toLE 8 m.mtime ++ sub m.payload 0 48

/-- What was done within the last 100 us. -/
def recentOf {α : Type} (s : State) (t : α → Nat) (l : List α) : List α :=
  l.filter fun e => decide (s.clock ≤ t e + usCycles 100)

/-- Write a message into a ring at its tail, through a port: one 64-byte write, then the interrupt of an armed ring
(R297, R306). -/
def writeMsg (s : State) (f n p : Nat) (m : Msg) : State :=
  let r := eqr s f n
  let tail := rd s (K.eqTail f n)
  let addr := rd64 s (K.eqBaseLo f n) + 64 * tail
  let bs := msgBytes m r.phase r.seq
  let tail' := (tail + 1) % eqSize s f n
  let vec := rf s (K.eqCfg f n) 15 8
  let r' : EvRing := { r with
    seq := (r.seq + 1) % 2 ^ 32
    phase := if tail' = 0 then !r.phase else r.phase
    armed := false
    recent := recentOf s (·.1) r.recent ++ [(s.clock, p, addr, bs)]
    batches := if m.batch = 0 then r.batches else r.batches ++ [(tail, m.func, m.batch)]
    irqs := if r.armed then recentOf s (·.1) r.irqs ++ [(s.clock, p)] else r.irqs }
  let s := wr (setEqr s f n r') (K.eqTail f n) tail'
  let s := hostWrite s p f addr bs
  if r.armed then sendMsix s p f vec else s

/-- Lose a message to a full ring: it takes a SEQ and EQ_LOST counts it (R308). -/
def loseMsg (s : State) (f n : Nat) : State :=
  let r := eqr s f n
  let r' : EvRing := { r with
    seq := (r.seq + 1) % 2 ^ 32
    lost := r.lost + 1
    lostFirst := if r.lost = 0 then r.seq else r.lostFirst
    lostLast := r.seq }
  satIncr (setEqr s f n r') (K.eqLost f n) 1

/-- The OVERFLOW message of a ring (R308). -/
def overflowMsg (s : State) (f n : Nat) : Msg :=
  let r := eqr s f n
  { type := 0x02, func := f, flags := 0, mtime := now s,
    payload := toLE 4 r.lost ++ toLE 4 r.lostFirst ++ toLE 4 r.lostLast }

/-- Write the OVERFLOW report of a ring that lost messages, if it has room. -/
def flushOverflow (s : State) (f n : Nat) : State :=
  match eqPort s f n with
  | none => s
  | some p =>
    if (eqr s f n).lost = 0 || eqRoom s f n = 0 then s
    else
      let s := writeMsg s f n p (overflowMsg s f n)
      setEqr s f n { eqr s f n with lost := 0 }

/-- Whether a waiting message may be written now: a completion uses its reserved entry (R305). -/
def fits (s : State) (f n : Nat) (m : Msg) : Bool :=
  if m.type = 0x01 then decide (0 < eqFree s f n) else decide (0 < eqRoom s f n)

/-- Write waiting messages in the order they were produced, as long as they fit. -/
def flushWaiting : Nat → State → Nat → Nat → State
  | 0, s, _, _ => s
  | k + 1, s, f, n =>
    match (eqr s f n).waiting, eqPort s f n with
    | m :: rest, some p =>
      if fits s f n m then
        let r := eqr s f n
        let s := setEqr s f n { r with
          waiting := rest, reserved := if m.type = 0x01 then r.reserved - 1 else r.reserved }
        flushWaiting k (writeMsg s f n p m) f n
      else s
    | _, _ => s

/-- A message with RESENT set (R306). -/
def resentBytes (bs : Bytes) : Bytes := bs.take 2 ++ ((bs.drop 2).take 1).map (· ||| 4#8) ++ bs.drop 3

/-- Write again what a lost link may not have delivered, then the interrupt (R297, R306). -/
def flushResend (s : State) (f n : Nat) : State :=
  let r := eqr s f n
  match eqPort s f n with
  | none => s
  | some p =>
    if r.resend.isEmpty && !r.reirq then s
    else
      let s := setEqr s f n { r with
        resend := [], reirq := false
        recent := recentOf s (·.1) r.recent ++ r.resend.map fun e => (s.clock, p, e.1, e.2)
        irqs := if r.reirq then recentOf s (·.1) r.irqs ++ [(s.clock, p)] else r.irqs }
      let s := r.resend.foldl (fun s e => hostWrite s p f e.1 e.2) s
      if r.reirq then sendMsix s p f (rf s (K.eqCfg f n) 15 8) else s

/-- What a ring does when it may have room: what a lost link left, the OVERFLOW report, then the waiting messages
(R306, R308). -/
def flushRing (s : State) (f n : Nat) : State :=
  let s := flushOverflow (flushResend s f n) f n
  flushWaiting (eqr s f n).waiting.length s f n

/-- Entries of a ring that no waiting message will take: what is free beyond reservations, less the messages that wait
without one (R305, R308). -/
def spareRoom (s : State) (f n : Nat) : Nat :=
  eqRoom s f n - ((eqr s f n).waiting.filter (·.type != 0x01)).length

/-- Produce a message for an event ring (R307, R308): written if it fits, kept if its type is held or no link is up and it
will fit, otherwise lost. -/
def post (s : State) (f n : Nat) (held : Bool) (m : Msg) : State :=
  if !eqEnabled s f n then satIncr s (K.eqLost f n) 1
  else
    let r := eqr s f n
    match eqPort s f n with
    | none =>
      if held || m.type = 0x01 || (r.lost = 0 && decide (0 < spareRoom s f n)) then
        setEqr s f n { r with waiting := r.waiting ++ [m] }
      else loseMsg s f n
    | some p =>
      if m.type = 0x01 && r.waiting.isEmpty then
        writeMsg (setEqr s f n { r with reserved := r.reserved - 1 }) f n p m
      else if held then
        (if r.waiting.isEmpty && r.lost = 0 && decide (0 < eqRoom s f n) then writeMsg s f n p m
         else flushRing (setEqr s f n { r with waiting := r.waiting ++ [m] }) f n)
      else
        let s := flushRing s f n
        if (eqr s f n).waiting.isEmpty && decide (0 < eqRoom s f n) then writeMsg s f n p m
        else loseMsg s f n

/-- The ASYNC ring of a function (R303). -/
def asyncRing (s : State) (f : Nat) : Nat := rf s (K.ringRoute f) 3 0

/-- Set a STICKY bit of a function and latch its time if STICKY was all zero (R303, R307). -/
def setSticky (s : State) (f i : Nat) : State :=
  let s := if rd s (K.sticky f) = 0 then wr64 s (K.stickyTLo f) (now s) else s
  setBit s (K.sticky f) i true

/-- A message on a function's ASYNC ring; not held. -/
def postAsync (s : State) (ring type func flags : Nat) (payload : Bytes) : State :=
  post s ring (asyncRing s ring) false
    { type := type, func := func, flags := flags, mtime := now s, payload := payload }

/-- A CRIT message on a function's ASYNC ring with its STICKY bit (R307). -/
def postCrit (s : State) (ring type sticky : Nat) (payload : Bytes) : State :=
  postAsync (setSticky s ring sticky) ring type ring 1 payload

/-! ### Interrupts and errors of a page (R43, R44, R298) -/

def bay (s : State) (b : Nat) : Bay := mget (fun _ => {}) s.bays b
def setBay (s : State) (b : Nat) (x : Bay) : State := { s with bays := mset (fun _ => {}) s.bays b x }

/-- Page types a tenant's aperture may show (R56; BAY R148, WAIN R356; TXN DEDUCED, notes/assumptions/9). -/
def tenantMapType (ty : Nat) : Bool := ty == 0x20 || ty == 0x11 || ty == 0xA

/-- Whether MF has assigned a page's resource to a tenant function (R56). -/
def pageAssigned (s : State) (f page : Nat) : Bool :=
  if pageType page = 0x20 then (bay s (page - 0x100)).owner == f
  else if pageType page = 0x11 then rf s (K.wainOwner (page - 0x20)) 3 0 == f
  else true

/-- The place of the aperture slot of tenant t (0-7) that shows a page, as the tenant's BAR0 offset: a slot shows only a page
that may be mapped and that MF has assigned to the tenant (R56, R298). -/
def shownAt (s : State) (t page : Nat) : Option Nat :=
  if !tenantMapType (pageType page) || !pageAssigned s (t + 1) page then none
  else
    ((List.range 8).find? fun k =>
      let a := rd s (K.funcAperture t k)
      bit a 31 && fld a 12 0 == page).map fun k => 0x8000 + 0x1000 * k

/-- Payload of BLOCK_IRQ (R307). -/
def irqPayload (s : State) (page off : Nat) : Bytes :=
  toLE 4 off ++ toLE 4 (rd s (K.blkIrqRaw page)) ++ toLE 4 (rd s (K.blkErr page))

/-- Post BLOCK_IRQ for a page on MF's ASYNC ring and on that of each tenant whose aperture shows it; for a tenant header
page only on the owner's (R298). -/
def postBlockIrq (s : State) (page : Nat) : State :=
  if 0x1000 ≤ page then postAsync s (page - 0xFFF) 0x03 (page - 0xFFF) 0 (irqPayload s page 0)
  else
    let s := postAsync s 0 0x03 0 0 (irqPayload s page (0x1000 * page))
    (List.range 8).foldl (fun s t =>
      match shownAt s t page with
      | some o => postAsync s (t + 1) 0x03 (t + 1) 0 (irqPayload s page o)
      | none => s) s

/-- Follow the OR of BLK_IRQ_RAW & BLK_IRQ_EN: a rise posts one BLOCK_IRQ (R298). -/
def irqUpdate (s : State) (page : Nat) : State :=
  let on := decide (Nat.land (rd s (K.blkIrqRaw page)) (rd s (K.blkIrqEn page)) ≠ 0)
  if on then
    (if s.irqHigh.contains page then s
     else postBlockIrq { s with irqHigh := page :: s.irqHigh } page)
  else { s with irqHigh := s.irqHigh.filter (· != page) }

/-- Set a raw interrupt bit of a page (R43). -/
def raiseIrq (s : State) (page i : Nat) : State :=
  irqUpdate (setBit s (K.blkIrqRaw page) i true) page

/-- Record an error in a page (R43, R44): the first sets CODE, INFO and VALID, every one counts. -/
def recordErr (s : State) (page code func off : Nat) (detail : Nat := 0) : State :=
  let e := rd s (K.blkErr page)
  if bit e 31 then wr s (K.blkErr page) (putFld e 29 16 (min (fld e 29 16 + 1) 0x3FFF))
  else
    let s := wr s (K.blkErr page) (2 ^ 31 + 2 ^ 16 + code)
    let s := wr s (K.blkErrInfo page) (func + 16 * (off % 0x1000) + 2 ^ 16 * detail)
    raiseIrq s page 0

/-- Whether HALT_ON_ERR stops a page's block from taking new work (R43; what counts as new work: DEDUCED, notes/assumptions/49). -/
def haltedOnErr (s : State) (page : Nat) : Bool := bit (rd s (K.blkCtrl page)) 1 && bit (rd s (K.blkErr page)) 31

/-- Clear a page's error (R43); the next locked access may record EXPERT_LOCKED again (R47). -/
def clearErr (s : State) (page : Nat) : State :=
  let s := wr (wr s (K.blkErr page) 0) (K.blkErrInfo page) 0
  { s with lockSeen := s.lockSeen.filter (· != page) }

/-- Step a page's version (R50, R52). -/
def bumpVer (s : State) (page : Nat) : State :=
  wr s (K.blkPagever page) ((rd s (K.blkPagever page) + 1) % 2 ^ 16)

/-! ### Granary (R16-R29, R486-R488) -/

/-- Units that make granary accesses: bays by number, then the others. -/
@[reducible] def uGleaner : Nat := 600
@[reducible] def uServing : Nat := 601
@[reducible] def uTally : Nat := 602
@[reducible] def uHost (p : Nat) : Nat := 610 + p
@[reducible] def uWain (c : Nat) : Nat := 640 + c
@[reducible] def uCore (c : Nat) : Nat := 680 + c
@[reducible] def uTap (x : Nat) : Nat := 700 + x

/-- A granary stack's controller, where it attaches to the mesh (R11). -/
@[reducible] def uStack (k : Nat) : Nat := 630 + k

/-- Traffic class of the requests a unit makes (R19): gleaner LATENCY, bays (augers) BULK, video STREAM, wains HOST. The table
names no class for the ports' BAR2 accesses, which R295 puts in HOST, nor for the serving sequencer, the tally unit and the
service cores: HOST too (DESIGN CHOICE, notes/assumptions/166). A winnower's weight stream is LATENCY (winnowClass). -/
def unitClass (unit : Nat) : Nat :=
  if unit < 576 then 1 else if unit = uGleaner then 0 else if uCore 0 ≤ unit then 2 else 3

/-- Class of a winnower's weight stream (R19). -/
@[reducible] def winnowClass : Nat := 0

/-- The first address of the reserved range, and the end of the granary (R16). -/
@[reducible] def granReserved : Nat := 0x2F00000000
@[reducible] def granEnd : Nat := 0x3000000000

/-- Whether a byte range lies in the allocatable granary (R16, R17). -/
def allocatable (addr len : Nat) : Bool := decide (addr + len ≤ granReserved)

/-- The global channel of an address (R18). -/
def channelOf (addr : Nat) : Nat :=
  let g := addr / 512
  32 * (g % 4) + (g / 4) % 32

/-- What an unlisted granary byte reads as: 0 (DESIGN CHOICE, notes/assumptions/2). -/
def memReset (_ : Nat) : Byte := 0

/-- The granary's canonical form: addresses strictly rising and no entry equal to what an unlisted address reads as. -/
def Memory.wf (m : List Host.Cell) : Bool := mwf memReset m

/-- The visible byte at an address. -/
def gbyte (s : State) (a : Nat) : Byte := mget memReset s.mem a

/-- The byte a unit sees: its own latest write in flight, else the visible byte (R28). -/
def gbyteOf (s : State) (unit a : Nat) : Byte :=
  s.gwq.foldl (fun v w => if w.unit = unit then mget (fun _ => v) w.cells a else v) (gbyte s a)

/-- Visible bytes of the granary. -/
def gread (s : State) (a n : Nat) : Bytes := (List.range n).map fun i => gbyte s (a + i)

/-- The bytes a unit reads (R28). -/
def greadOf (s : State) (unit a n : Nat) : Bytes := (List.range n).map fun i => gbyteOf s unit (a + i)

/-- A number in the granary, little-endian. -/
def gnum (s : State) (a n : Nat) : Nat := leNat (gread s a n)

/-- Cells of a byte string at an address. -/
def cellsAt (a : Nat) (bs : Bytes) : List Host.Cell := (List.range bs.length).zip bs |>.map fun p => (a + p.1, p.2)

/-- Clear the poison of the lines a write covers whole (R488). -/
def clearPoison (s : State) (a n : Nat) : State :=
  { s with poison := s.poison.filter fun l => !(decide (a ≤ 64 * l) && decide (64 * l + 64 ≤ a + n)) }

/-- Make bytes visible at once: the transaction unit's and firmware's writes, and a write at its acknowledgement. -/
def poke (s : State) (a : Nat) (bs : Bytes) : State :=
  clearPoison { s with mem := msetMany memReset s.mem a bs } a bs.length

/-- Make the cells of an acknowledged write visible, whole line at once (R26). -/
def applyWrite (s : State) (w : GWrite) : State :=
  let s := { s with mem := w.cells.foldl (fun m c => mset memReset m c.1 c.2) s.mem }
  if w.cells.length = 64 then clearPoison s (64 * w.line) 64 else s

/-- Accept a unit's write of one line's bytes into the write queue (R26). -/
def queueWrite (s : State) (unit : Nat) (cells : List Host.Cell) : State :=
  match cells with
  | [] => s
  | c :: _ =>
    { s with gwq := s.gwq ++ [{ id := s.nextId, unit := unit, line := c.1 / 64, cells := cells }], nextId := s.nextId + 1 }

/-- Pieces of a byte string that lie in one line each, with their addresses. -/
def linePieces : Nat → Nat → Bytes → List (List Host.Cell)
  | 0, _, _ => []
  | _, _, [] => []
  | fuel + 1, a, bs =>
    let n := 64 - a % 64
    cellsAt a (bs.take n) :: linePieces fuel (a + n) (bs.drop n)

/-- A unit's write of a byte string: one write per line, in address order (R26, R342). -/
def gwrite (s : State) (unit a : Nat) (bs : Bytes) : State :=
  (linePieces (bs.length / 64 + 2) a bs).foldl (fun s c => queueWrite s unit c) s

/-- Whether a unit has a write in flight. -/
def writing (s : State) (unit : Nat) : Bool := s.gwq.any (·.unit == unit)

/-- Whether any line of a byte range is poisoned. -/
def poisonedIn (s : State) (a n : Nat) : Bool :=
  s.poison.any fun l => decide (64 * l < a + n) && decide (a < 64 * l + 64)

/-! ### Mesh (R11, R15, R27) -/

/-- Where a unit other than a bay attaches: its edge and the first of its block's twelve columns or rows (R11). -/
def attachedAt (unit : Nat) : Edge × Nat :=
  if unit = uGleaner then (.east, 12)
  else if unit = uServing || unit = uTally then (.east, 0)
  else if uStack 0 ≤ unit && decide (unit < uStack 4) then
    (if unit < uStack 2 then .north else .south, 12 * ((unit - uStack 0) % 2))
  else if unit < uCore 0 then (.west, 0)
  else (.west, 12)

/-- The edge port of a unit's block for a bay: the one in the bay's row or column, or the nearest to it (R11). -/
def edgePort (unit b : Nat) : RouterPort :=
  let at? := attachedAt unit
  let i := match at?.1 with
    | .north | .south => b % 24
    | .west | .east => b / 24
  .edge at?.1 (max at?.2 (min i (at?.2 + 11)))

/-- The router port at which a message between two units enters or leaves the mesh on one unit's side: a bay's own router,
or the block's edge port for the bay at the other end. What a block does for another block R11 does not say: the first of its
ports (DESIGN CHOICE, notes/assumptions/167). -/
def routerPort (unit other : Nat) : RouterPort :=
  if unit < 576 then .bay unit
  else if other < 576 then edgePort unit other
  else .edge (attachedAt unit).1 (attachedAt unit).2

/-- The route of a message from one unit to another: messages of one route arrive in the order in which they were sent
(R15; every token, credit and tally message travels on plane 0, R13). -/
def routeOf (src dst : Nat) : RouterPort × RouterPort := (routerPort src dst, routerPort dst src)

/-- Send a message. -/
def send (s : State) (m : MeshMsg) : State := { s with mesh := s.mesh ++ [m] }

/-- Send a message once the unit's writes so far are acknowledged (R27). -/
def sendAfter (s : State) (unit : Nat) (m : MeshMsg) : State :=
  if writing s unit then { s with held := s.held ++ [⟨unit, s.nextId, m⟩] } else send s m

/-- Whether a held message's writes are all acknowledged. -/
def heldReady (s : State) (h : Held) : Bool := !(s.gwq.any fun w => w.unit == h.unit && decide (w.id < h.before))

/-- Send every held message whose writes are acknowledged, in order. -/
def releaseHeld (s : State) : State :=
  let ready := s.held.filter (heldReady s)
  { s with held := s.held.filter (fun h => !heldReady s h), mesh := s.mesh ++ ready.map (·.msg) }

/-! ### Bays -/

/-- Number of bays (R10), and the page of a bay and of a field. -/
@[reducible] def nBays : Nat := 576
@[reducible] def bayPage (b : Nat) : Nat := 0x100 + b
@[reducible] def fieldPage (f : Nat) : Nat := 0x340 + f
@[reducible] def fieldOf (b : Nat) : Nat := b / 72

/-- A token counter, a credit pool and a performance counter of a bay. -/
def tok (x : Bay) (c : Nat) : Nat := mget (fun _ => 0) x.tokens c
def cred (x : Bay) (c : Nat) : Nat := mget (fun _ => 0) x.credits c
def perfOf (x : Bay) (j : Nat) : Nat := mget (fun _ => 0) x.perf j
def setTok (x : Bay) (c v : Nat) : Bay := { x with tokens := mset (fun _ => 0) x.tokens c v }
def setCred (x : Bay) (c v : Nat) : Bay := { x with credits := mset (fun _ => 0) x.credits c v }
def addPerf (x : Bay) (j n : Nat) : Bay :=
  { x with perf := mset (fun _ => 0) x.perf j ((perfOf x j + n) % 2 ^ 64) }

/-- The bytes of a line of the bay store or vector file: zeros where its written bit is 0 (R116). -/
def bline (x : Bay) (l : Nat) : Bytes :=
  if x.written.contains l then mgetMany memReset x.store (64 * l) 64 else List.replicate 64 0

/-- Bytes of the store from a line on (lines from 8192 on are the vector file). -/
def bread (x : Bay) (l n : Nat) : Bytes :=
  ((List.range (cdiv n 64)).flatMap fun i => bline x (l + i)).take n

/-- Write one line, whole or in part from its first byte: sets its written bit, the other bytes of an unwritten line become
zero (R116), and an uncorrectable error of the line is gone (R490). -/
def bwriteLine (x : Bay) (l : Nat) (bs : Bytes) : Bay :=
  let bs := bs.take 64
  let old := bline x l
  { x with
    store := msetMany memReset x.store (64 * l) (bs ++ old.drop bs.length)
    written := if x.written.contains l then x.written else x.written ++ [l]
    ue := x.ue.filter (· != l) }

/-- Write a byte string from the start of a line on. -/
def bwrite (x : Bay) (l : Nat) (bs : Bytes) : Bay :=
  (List.range (cdiv bs.length 64)).foldl (fun x i => bwriteLine x (l + i) (bs.drop (64 * i))) x

/-- Clear the written bits (R116). -/
def clearWritten (x : Bay) : Bay := { x with written := [], ue := [] }

/-! ### Commands and their completion (R301, R305, R309) -/

/-- Function of a command's source: a ring's function, MF for a management link (R329), the shadow function for a mirrored
command (R426). -/
def srcFunc (src : Nat) : Nat := if 0x200 ≤ src then (src - 0x200) / 16 else if 0x100 ≤ src then 0 else src / 16

/-- The COMPLETION message of a command (R309). -/
def completionMsg (s : State) (c : Cmd) (status cflags : Nat) (result detail : Nat) : Msg :=
  { type := 0x01, func := srcFunc c.src, flags := 0, mtime := now s,
    payload := sub c.body 4 4 ++ sub c.body 0 1 ++ toLE 1 (if 0x100 ≤ c.src then 0 else c.src % 16) ++ toLE 2 c.sqHead ++ toLE 2 status
      ++ toLE 2 cflags ++ toLE 4 0 ++ toLE 8 result ++ toLE 8 detail }

/-- The accepted claim A (R318). -/
def claimA (s : State) : Nat := rd64 s K.claimCurLo

def host (s : State) (k : Nat) : HostRec := s.hosts.getD k {}
def setHost (s : State) (k : Nat) (h : HostRec) : State := { s with hosts := s.hosts.set k h }

/-- Whether a management link is up (R333). -/
def mgmtUp (s : State) (k : Nat) : Bool := bit (rd s (K.mgmtLink k)) 0

/-- A frame's payload (R329), with its TAG under the cabinet management key (R330). -/
def frameBytes (s : State) (k kind : Nat) (body : Bytes) : Bytes :=
  let head := toLE 1 1 ++ toLE 1 kind ++ toLE 2 body.length ++ toLE 4 (host s k).txSeq ++ toLE 8 (claimA s)
    ++ toLE 8 (rd64 s K.sysSerialLo)
  let tag := if bit (rd s K.mgmtCtrl) 0 then (Config.hmac384 s.mgmtKey (head ++ body)).take 16 else List.replicate 16 0
  head ++ tag ++ body

/-- The MAC address of link k (R333). -/
def macOf (s : State) (k : Nat) : Nat :=
  if k = 0 then rd s K.mgmtMac0Lo + 2 ^ 32 * rd s K.mgmtMac0Hi else rd s K.mgmtMac1Lo + 2 ^ 32 * rd s K.mgmtMac1Hi

/-- Send a frame on a management link that is up, to the last valid frame's source, or broadcast (R328); none can carry a TAG
while the key is unusable (R376). -/
def sendFrame (s : State) (k kind : Nat) (body : Bytes) : State :=
  if !mgmtUp s k || (bit (rd s K.mgmtCtrl) 0 && s.mgmtKey.isEmpty) then s
  else
    let h := host s k
    let o := Output.frame k (macOf s k) (h.peerMac.getD (2 ^ 48 - 1)) (frameBytes s k kind body)
    emit (setHost s k { h with txSeq := (h.txSeq + 1) % 2 ^ 32 }) o

end Sys2Proof.Machine
end

