-- ==== Sys2Proof/Machine/Control.lean ====
section
/-! DEFINITION. The control claim (R317-R326), the life of a command record from fetch to completion (R301, R302, R305,
R309) and the resolution of register accesses (R40-R47, R55, R56). -/

namespace Sys2Proof.Machine

/-! ### Error codes (R485) -/

@[reducible] def eCmdOpcode : Nat := 0x1001
@[reducible] def eCmdReserved : Nat := 0x1002
@[reducible] def eCmdNotAllowed : Nat := 0x1003
@[reducible] def eDoorbellBad : Nat := 0x1004
@[reducible] def eRingState : Nat := 0x1005
@[reducible] def eFuncBadState : Nat := 0x1006
@[reducible] def eSresetRefused : Nat := 0x1007
@[reducible] def eFaultNone : Nat := 0x1008
@[reducible] def eFuncDisabling : Nat := 0x1010
@[reducible] def eFuncDisabled : Nat := 0x1011
@[reducible] def eFuncResource : Nat := 0x1012
@[reducible] def eExpertLocked : Nat := 0x1020
@[reducible] def eRegAlign : Nat := 0x1021
@[reducible] def eBayBadWord : Nat := 0x1030
@[reducible] def eBayTokenOvf : Nat := 0x1031
@[reducible] def eBayCreditOvf : Nat := 0x1032
@[reducible] def eBayDest : Nat := 0x1033
@[reducible] def eBayPressSeq : Nat := 0x1034
@[reducible] def eBayBusy : Nat := 0x1035
@[reducible] def eBayDisabled : Nat := 0x1036
@[reducible] def eBayReset : Nat := 0x1037
@[reducible] def eConvDesc : Nat := 0x1040
@[reducible] def eConvWork : Nat := 0x1041
@[reducible] def eConvLayout : Nat := 0x1042
@[reducible] def eAttDesc : Nat := 0x1050
@[reducible] def eWainDesc : Nat := 0x1060
@[reducible] def eWainPostFull : Nat := 0x1061
@[reducible] def eWainState : Nat := 0x1062
@[reducible] def eWainAborted : Nat := 0x1063
@[reducible] def eMemRange : Nat := 0x2001
@[reducible] def eBayStoreRange : Nat := 0x2010
@[reducible] def eZrcBad : Nat := 0x2011
@[reducible] def eKvTable : Nat := 0x2020
@[reducible] def eKvCowWrite : Nat := 0x2021
@[reducible] def eKvSwapped : Nat := 0x2022
@[reducible] def eKvExhausted : Nat := 0x2023
@[reducible] def ePoison : Nat := 0x2024
@[reducible] def eWainRegion : Nat := 0x2030
@[reducible] def eStoreUe : Nat := 0x2040
@[reducible] def eArithPair : Nat := 0x3001
@[reducible] def eArithNanLost : Nat := 0x3002
@[reducible] def eArithLqtByte : Nat := 0x3003
@[reducible] def eAttRange : Nat := 0x3010
@[reducible] def eTxnConflict : Nat := 0x4001
@[reducible] def eTxnCapacity : Nat := 0x4002
@[reducible] def eTxnInvalid : Nat := 0x4003
@[reducible] def eTxnClaimLost : Nat := 0x4004
@[reducible] def eTxnFuncDisabled : Nat := 0x4005
@[reducible] def eTxnState : Nat := 0x4006
@[reducible] def eLinkDegraded : Nat := 0x5001
@[reducible] def eCmdFetch : Nat := 0x5002
@[reducible] def eWainHostErr : Nat := 0x5010
@[reducible] def eWainPortDown : Nat := 0x5011
@[reducible] def eSecImage : Nat := 0x6001
@[reducible] def eSecRollback : Nat := 0x6002
@[reducible] def eSecBusy : Nat := 0x6003
@[reducible] def eSecNoSet : Nat := 0x6004
@[reducible] def eSecBundle : Nat := 0x6005
@[reducible] def eSecDebug : Nat := 0x6006
@[reducible] def eSecSession : Nat := 0x6007
@[reducible] def eConfViolation : Nat := 0x6010
@[reducible] def eAuthFail : Nat := 0x6011
@[reducible] def eWainKey : Nat := 0x6012
@[reducible] def eExpertDenied : Nat := 0x6020
@[reducible] def eCapLag : Nat := 0x7001
@[reducible] def eMismatch : Nat := 0x7002
@[reducible] def eSensorFault : Nat := 0x7003
@[reducible] def eThermalThrottle : Nat := 0x7004
@[reducible] def eHbmThrottle : Nat := 0x7005
@[reducible] def eHbmLimit : Nat := 0x7006
@[reducible] def eThermalShutdown : Nat := 0x7007
@[reducible] def eCoolantHot : Nat := 0x7008
@[reducible] def eCoolantCold : Nat := 0x7009
@[reducible] def eFlowLow : Nat := 0x700A
@[reducible] def eCoolantSensor : Nat := 0x700B
@[reducible] def eLeak : Nat := 0x700C
@[reducible] def eLeakSensor : Nat := 0x700D
@[reducible] def ePoolStale : Nat := 0x700E
@[reducible] def ePoolShort : Nat := 0x700F
@[reducible] def ePwrRange : Nat := 0x7010
@[reducible] def eInputVoltage : Nat := 0x7011
@[reducible] def ePreheatFail : Nat := 0x7012
@[reducible] def eVidParam : Nat := 0x8001
@[reducible] def eVidLimit : Nat := 0x8002
@[reducible] def eVidState : Nat := 0x8003
@[reducible] def eVidUnsupported : Nat := 0x8004
@[reducible] def eVidSize : Nat := 0x8005
@[reducible] def eVidSyntax : Nat := 0x8006
@[reducible] def eDeadline : Nat := 0x9001
@[reducible] def eSeqLimit : Nat := 0x9002
@[reducible] def eSeqState : Nat := 0x9003
@[reducible] def eSeqUnknown : Nat := 0x9004
@[reducible] def eSeqParam : Nat := 0x9005
@[reducible] def eGlnNoToken : Nat := 0x9006
@[reducible] def eClaimStale : Nat := 0xA001
@[reducible] def eControllerSilent : Nat := 0xA002
@[reducible] def eClaimSplit : Nat := 0xA003
@[reducible] def eClaimNone : Nat := 0xA004
@[reducible] def eClaimHost : Nat := 0xA005
@[reducible] def eMgmtNoDie : Nat := 0xA006
@[reducible] def eFenced : Nat := 0xA010
@[reducible] def eFenceCertBad : Nat := 0xA011
@[reducible] def eFenceStale : Nat := 0xA012
@[reducible] def ePartState : Nat := 0xA013
@[reducible] def ePartParam : Nat := 0xA014
@[reducible] def eWiringMismatch : Nat := 0xA020
@[reducible] def eShadowParam : Nat := 0xA030
@[reducible] def eShadowMismatch : Nat := 0xA031
@[reducible] def eShadowLost : Nat := 0xA032
@[reducible] def eShadowState : Nat := 0xA033
@[reducible] def eTallyStall : Nat := 0xA040
@[reducible] def eTallyBad : Nat := 0xA041
@[reducible] def eTrayDraining : Nat := 0xA050
@[reducible] def eTrayUnclean : Nat := 0xA051
@[reducible] def eDrainTimeout : Nat := 0xA052
@[reducible] def eLedLine : Nat := 0xB001
@[reducible] def eHbmTrain : Nat := 0xB002
@[reducible] def eRailFail : Nat := 0xB003
@[reducible] def eBistFail : Nat := 0xB004
@[reducible] def eGrnRetireFull : Nat := 0xB005

/-! ### Pages by number -/

@[reducible] def pgSys : Nat := 0
@[reducible] def pgPwr : Nat := 2
@[reducible] def pgThm : Nat := 3
@[reducible] def pgCal : Nat := 4
@[reducible] def pgSec : Nat := 5
@[reducible] def pgPort (p : Nat) : Nat := 6 + p
@[reducible] def pgMsg : Nat := 8
@[reducible] def pgClaim : Nat := 9
@[reducible] def pgTxn : Nat := 0xA
@[reducible] def pgFence : Nat := 0xB
@[reducible] def pgTally : Nat := 0xC
@[reducible] def pgMgmt : Nat := 0xD
@[reducible] def pgFunc (t : Nat) : Nat := 0x10 + t
@[reducible] def pgWain (c : Nat) : Nat := 0x20 + c
@[reducible] def pgGrn (k : Nat) : Nat := 0x40 + k
@[reducible] def pgKvm : Nat := 0x50
@[reducible] def pgAtt : Nat := 0x51
@[reducible] def pgGln : Nat := 0x52
@[reducible] def pgSrv : Nat := 0x53
@[reducible] def pgVid : Nat := 0x60
@[reducible] def pgVdec (c : Nat) : Nat := 0x61 + c
@[reducible] def pgVenc (c : Nat) : Nat := 0x65 + c

/-! ### Module state read by the gates -/

/-- SYS_STATE.STATE (R57). -/
def sysState (s : State) : Nat := rf s K.sysState 3 0

/-- The die serves: READY, DRAINING or FENCED (R58, R292). -/
def serving (s : State) : Bool := sysState s == 3 || sysState s == 4 || sysState s == 5

/-- FENCE_STATE.STATE: 0 UNFENCED, 1 FENCING, 2 FENCED (R422). -/
def fenceState (s : State) : Nat := rf s K.fenceState 1 0

/-- FUNC_STATE of tenant function f (1-8) (R300, R311). -/
def funcState (s : State) (f : Nat) : Nat := rf s (K.funcState (f - 1)) 2 0

def setFuncState (s : State) (f v : Nat) : State := wf s (K.funcState (f - 1)) 2 0 v

/-- Whether a function is up: MF always, a tenant while it is ENABLED or DRAINING. -/
def funcLive (s : State) (f : Nat) : Bool := f == 0 || funcState s f == 2 || funcState s f == 3

/-- Functions 0-8 whose ASYNC ring hears module events: MF and every enabled tenant. -/
def allLive (s : State) : List Nat := (List.range 9).filter (funcLive s)

/-! ### Claim (R318-R326) -/

/-- INTERVAL in ACLK cycles (R332). -/
def intervalCycles (s : State) : Nat := usCycles (1000 * rf s K.claimCfg 9 0)

/-- Path liveness bits of a host record: PCIe, then management (R332). -/
def pcieLive (s : State) (k : Nat) : Bool := bit (rd s (K.claimHost k)) 9
def mgmtLive (s : State) (k : Nat) : Bool := bit (rd s (K.claimHost k)) 10

/-- PATHS of a record as two bits (R325). -/
def pathBits (s : State) (k : Nat) : Nat := b2n (pcieLive s k) + 2 * b2n (mgmtLive s k)

/-- The record that holds a host id (R319). -/
def recordOf (s : State) (id : Nat) : Option Nat :=
  (List.range 2).find? fun k => bit (rd s (K.claimHost k)) 8 && rf s (K.claimHost k) 7 0 == id

/-- CLAIM_STATE.HOLDER while a claim is held. -/
def holder (s : State) : Nat := rf s K.claimState 4 4

/-- Both of the holder's paths are live and report different claims (R326, step 3); a path that no heartbeat has come on
reports none (R322). -/
def splitNow (s : State) : Bool :=
  let h := holder s
  let p := rd64 s (K.claimPcieClaimLo h)
  let m := rd64 s (K.claimMgmtClaimLo h)
  claimA s != 0 && pcieLive s h && mgmtLive s h && p != 0 && m != 0 && p != m

/-- The heartbeat record for host k (R321). -/
def hbRecord (s : State) (k : Nat) : Bytes :=
  toLE 4 (host s k).seq ++ toLE 1 (rf s K.claimState 1 0)
    ++ toLE 1 (if claimA s = 0 then 0xFF else holder s)
    ++ toLE 1 (sysState s) ++ toLE 1 (pathBits s k + 4 * pathBits s (1 - k)) ++ toLE 8 (claimA s) ++ toLE 8 (now s)
    ++ toLE 2 (rf s K.claimCfg 9 0) ++ toLE 6 0

/-- Send host k its heartbeat on both paths (R320). -/
def sendHeartbeat (s : State) (k : Nat) : State :=
  let r := hbRecord s k
  let s := sendFrame s k 1 r
  let addr := rd64 s (K.claimHbaddrLo k)
  if addr = 0 then s
  else
    match choosePort s (host s k).port with
    | none => s
    | some p =>
      let h := host s k
      hostWrite (setHost s k { h with seq := (h.seq + 1) % 2 ^ 32 }) p 0 addr r

def sendHeartbeats (s : State) : State := sendHeartbeat (sendHeartbeat s 0) 1

/-- Report a claim event to both hosts (R325) with heartbeats at once (R320). -/
def claimEvent (s : State) (ev rec code other cid : Nat) : State :=
  let body := toLE 1 ev ++ toLE 1 rec ++ toLE 2 code ++ toLE 1 (if rec < 2 then pathBits s rec else 0) ++ toLE 3 0
    ++ toLE 8 (claimA s) ++ toLE 8 other ++ toLE 4 cid ++ toLE 20 0
  let s := setSticky s 0 0
  let s := (List.range 2).foldl (fun s k =>
    if bit (rd s (K.claimRing k)) 4 then
      post s 0 (rf s (K.claimRing k) 3 0) false
        { type := 0x08, func := 0, flags := 1, mtime := now s, payload := body }
    else s) s
  let s := (List.range 2).foldl (fun s k => sendFrame s k 2 body) s
  sendHeartbeats s

/-- A control-plane act refused (R326): counted and reported. -/
def refuseAct (s : State) (claim code cid : Nat) : State :=
  let rec? := (recordOf s (claim % 256)).getD 0xFF
  let s := satIncr s K.claimRejects 1
  let s := raiseIrq s pgClaim 18
  if code = eClaimStale then claimEvent s 2 rec? code claim cid
  else if code = eClaimSplit then claimEvent s 4 rec? code claim cid
  else s

/-- The claim check of R326: the code that refuses, or 0. -/
def claimCode (s : State) (claim : Nat) : Nat :=
  if claimA s = 0 then eClaimNone
  else if claim ≠ claimA s then eClaimStale
  else if splitNow s then eClaimSplit
  else 0

/-! ### Command records (R301, R302) -/

/-- OPCODE, CID and CLAIM of a command. -/
def cmdOp (c : Cmd) : Nat := num c.body 0 1
def cmdCid (c : Cmd) : Nat := num c.body 4 4
def cmdClaim (c : Cmd) : Nat := num c.body 8 8
/-- A payload field of a command. -/
def arg (c : Cmd) (off len : Nat) : Nat := num c.body off len
/-- The function a command is given for. -/
def cmdFunc (c : Cmd) : Nat := srcFunc c.src

/-- The payload fields of each opcode (offset, bytes), everything else being reserved; none where the opcode is not
allocated (R302 and the chapters' command tables). -/
def payloadOf : Nat → Option (List (Nat × Nat))
  | 0x00 => some []
  | 0x20 => some [(0x10, 1), (0x11, 1), (0x18, 8), (0x20, 8), (0x28, 8)]
  | 0x21 => some [(0x10, 1)]
  | 0x22 => some [(0x10, 1), (0x12, 2), (0x18, 8)]
  | 0x40 => some [(0x10, 8), (0x18, 4), (0x1C, 1)]
  | 0x41 => some [(0x10, 8), (0x18, 4), (0x1C, 4), (0x20, 4)]
  | 0x42 => some [(0x10, 4)]
  | 0x43 => some [(0x10, 4), (0x14, 4), (0x18, 8)]
  | 0x44 => some [(0x10, 8), (0x18, 1), (0x19, 1)]
  | 0x60 => some [(0x10, 8)]
  | 0x61 => some [(0x10, 1), (0x11, 1), (0x14, 4), (0x18, 8), (0x20, 8), (0x28, 8)]
  | 0x62 => some [(0x10, 1), (0x11, 1)]
  | 0x63 => some [(0x10, 1), (0x11, 1), (0x12, 2), (0x18, 8), (0x20, 8), (0x28, 8), (0x30, 4)]
  | 0x64 => some [(0x10, 1), (0x12, 2)]
  | 0x65 => some [(0x10, 1), (0x11, 1), (0x18, 8)]
  | 0x66 => some [(0x10, 1)]
  | 0x67 => some [(0x10, 1)]
  | 0x68 => some [(0x10, 1), (0x14, 4)]
  | 0x80 => some [(0x10, 1)]
  | 0x81 => some [(0x10, 1), (0x11, 1)]
  | 0x90 => some [(0x10, 2)]
  | 0x91 => some [(0x10, 4), (0x14, 1), (0x15, 1), (0x16, 1)]
  | 0x98 => some [(0x10, 2), (0x12, 1)]
  | 0x99 => some []
  | 0x9A => some []
  | 0x9C => some [(0x10, 1)]
  | 0x9D => some [(0x10, 4), (0x14, 4)]
  | 0x9E => some [(0x10, 4)]
  | 0xA0 => some [(0x10, 8), (0x18, 8)]
  | 0xA1 => some []
  | 0xA2 => some [(0x10, 1)]
  | 0xA3 => some [(0x10, 8)]
  | 0xA4 => some [(0x10, 8)]
  | 0xA5 => some [(0x10, 8)]
  | 0xA6 => some [(0x10, 8)]
  | 0xB0 => some [(0x10, 8)]
  | 0xB1 => some []
  | 0xB2 => some [(0x10, 8)]
  | 0xB3 => some [(0x10, 1), (0x18, 8), (0x20, 8)]
  | 0xB4 => some [(0x10, 1), (0x11, 1), (0x18, 8), (0x20, 8)]
  | 0xB5 => some [(0x10, 1)]
  | 0xB6 => some [(0x10, 1), (0x11, 1), (0x12, 1), (0x18, 8), (0x20, 8)]
  | 0xB7 => some [(0x10, 1)]
  | 0xB8 => some [(0x10, 1), (0x11, 1), (0x12, 1)]
  | _ => none

/-- Reserved bits inside listed payload bytes: opcode, offset, length and the bits that may be set. -/
def bitsOf : Nat → List (Nat × Nat × Nat)
  | 0x41 => [(0x20, 4, 0x7FFFF)]
  | 0x43 => [(0x14, 4, 0x7FFFF)]
  | 0x61 => [(0x11, 1, 1)]
  | 0x63 => [(0x11, 1, 1)]
  | 0x98 => [(0x12, 1, 1)]
  | 0xA2 => [(0x10, 1, 1)]
  | 0xB8 => [(0x10, 1, 0x3F), (0x11, 1, 1)]
  | _ => []

/-- A control opcode (R302, R317). -/
def isControl (op : Nat) : Bool := decide (0x80 ≤ op) && decide (op ≤ 0xBF)

/-- Whether a record has a reserved byte or flag bit set (R301, R302). -/
def reservedSet (body : Bytes) : Bool :=
  let op := num body 0 1
  let fields := [(0, 1), (4, 4)] ++ (if isControl op then [(8, 8)] else []) ++ (payloadOf op).getD []
  decide (1 < num body 1 1) ||
  ((List.range 64).any fun i =>
    i != 1 && !(fields.any fun f => decide (f.1 ≤ i) && decide (i < f.1 + f.2)) && num body i 1 != 0) ||
  ((bitsOf op).any fun b => Nat.land (num body b.1 b.2.1) b.2.2 != num body b.1 b.2.1)

/-- The checks at fetch in their order (R302, 1 to 3): the code that fails, or 0. -/
def fetchCode (src : Nat) (body : Bytes) : Nat :=
  let op := num body 0 1
  if (payloadOf op).isNone then eCmdOpcode
  else if isControl op && srcFunc src != 0 then eCmdNotAllowed
  else if reservedSet body then eCmdReserved
  else 0

/-- Opcodes that act while FENCING or FENCED (R424). -/
def fencedOk (op : Nat) : Bool := [0x00, 0x81, 0xB2, 0xB0, 0xB1, 0x98, 0x99, 0x9A, 0x9D, 0x9E].contains op

/-- The state checks every chapter's commands share, after the claim check (R302): FENCED (R424), WIRING_MISMATCH
(R440), TRAY_DRAINING (R462), SHADOW_STATE (R425), FUNC_DISABLING (R313, step 1). -/
def gateCode (s : State) (src op : Nat) : Nat :=
  let f := srcFunc src
  if fenceState s ≠ 0 && !fencedOk op then eFenced
  else if bit (rd s K.wiringState) 8 && !bit (rd s K.wiringState) 7 && ((f != 0 && op != 0) || op == 0x80) then eWiringMismatch
  else if s.tray.hs = .draining && [0x40, 0x41, 0x60, 0x22, 0x20, 0x80].contains op then eTrayDraining
  else if (rf s K.shadowState 2 0 == 2 || rf s K.shadowState 2 0 == 3) && f == s.shadow.func && src < 0x100 && !isControl op then eShadowState
  else 0

/-- The oldest command of a source that has not started (R305: commands start in fetch order). -/
def nextCmd (s : State) (src : Nat) : Option Cmd := s.cmds.find? fun c => c.src == src && !c.started

/-- FENCE holds a command until every earlier command of its ring has completed (R301). -/
def fenceHeld (s : State) (c : Cmd) : Bool :=
  bit (num c.body 1 1) 0 && s.cmds.any fun d => d.src == c.src && decide (d.id < c.id)

/-- Complete a command (R309): its COMPLETION goes to its ring's completion event ring, or a RESPONSE frame to its
management link (R329), and that of a mirrored command goes nowhere (R426). A completion whose reserved entry is gone is
discarded and counted (R308). -/
def finishC (s : State) (c : Cmd) (status result detail cflags : Nat) : State :=
  let s := { s with cmds := s.cmds.filter (·.id != c.id) }
  let m := completionMsg s c status cflags result detail
  if 0x200 ≤ c.src then s
  else if 0x100 ≤ c.src then sendFrame s (c.src - 0x100) 4 (msgBytes m false 0)
  else if !c.reserved then satIncr s (K.eqLost (c.src / 16) c.eq) 1
  else post s (c.src / 16) c.eq true m

/-- Complete a command with a status and a result. -/
def finish (s : State) (c : Cmd) (status : Nat) (result : Nat := 0) (detail : Nat := 0) : State :=
  finishC s c status result detail 0

/-- Complete a command named by its identity, if it is still there. -/
def finishId (s : State) (id status : Nat) (result : Nat := 0) (detail : Nat := 0) : State :=
  match s.cmds.find? (·.id == id) with
  | some c => finish s c status result detail
  | none => s

/-- Mark a command as started. -/
def markStarted (s : State) (c : Cmd) : State :=
  { s with cmds := s.cmds.map fun d => if d.id = c.id then { d with started := true } else d }

/-- Start the next command of a source if it has the opcode: the FENCE hold, the claim check of a control opcode, the
shared state checks, then the command's own effect (R301, R302, R326). -/
def withCmd (s : State) (src op : Nat) (f : State → Cmd → State) : State :=
  match nextCmd s src with
  | none => s
  | some c =>
    if cmdOp c ≠ op || fenceHeld s c then s
    else
      let code := if isControl op then claimCode s (cmdClaim c) else 0
      if code ≠ 0 then finish (refuseAct s (cmdClaim c) code (cmdCid c)) c code
      else if gateCode s src op ≠ 0 then finish s c (gateCode s src op)
      else f (markStarted s c) c

/-! ### Register accesses (R40-R47, R55, R56) -/

/-- A register place an access reaches: its page, its offset in the page and its key. -/
structure Place where
  page : Nat
  off : Nat
  key : Nat
deriving DecidableEq, Repr

/-- The key of a page's offset for a function: the selectors and the tally counters' registers are kept apart
(R82, R443). -/
def placeKey (s : State) (f page off : Nat) : Nat :=
  if page = pgTxn && off == 0x404 then K.txnSel f
  else if page = pgTally && off == 0x40 then K.tallySelOf f
  else if page = pgTally && decide (0x44 ≤ off) && decide (off < 0x140) then
    0x2000000 + 0x1000 * rd s (K.tallySelOf f) + off
  else 0x1000 * page + off

/-- Whether a page answers (R292). -/
def pageAnswers (s : State) (page : Nat) : Bool :=
  serving s || [1, 2, 7, 0xD].contains (pageType page)

/-- The page an access names, if it reaches one. -/
def accessPage (s : State) (a : Access) : Option Nat :=
  if (port s a.port).narrow || !vfHere s a.port a.func then none
  else if a.func = 0 then
    (if pageType (a.off / 0x1000) = 0 || 0x1000 ≤ a.off / 0x1000 then none else some (a.off / 0x1000))
  else if !serving s || funcState s a.func == 0 then none
  else if a.off < 0x1000 then some (0xFFF + a.func)
  else if a.off < 0x8000 || 0x10000 ≤ a.off then none
  else
    let ap := rd s (K.funcAperture (a.func - 1) ((a.off - 0x8000) / 0x1000))
    let page := fld ap 12 0
    if bit ap 31 && tenantMapType (pageType page) && pageAssigned s a.func page then some page else none

/-- The place an access reaches: none where nothing answers. -/
def place (s : State) (a : Access) : Option Place :=
  match accessPage s a with
  | none => none
  | some p =>
    if pageAnswers s p then some ⟨p, a.off % 0x1000, placeKey s a.func p (a.off % 0x1000)⟩ else none

/-- Whether a function has unlocked a page's expert range (R46). -/
def isUnlocked (s : State) (page func : Nat) : Bool := s.unlocked.contains (page, func)

/-- Whether an access meets a locked expert range (R47). -/
def expertLocked (s : State) (pl : Place) (func : Nat) : Bool :=
  decide (0x400 ≤ pl.off) && decide (pl.page ≠ pgTally ∨ pl.off < 0xC00) && !isUnlocked s pl.page func

/-- Record EXPERT_LOCKED once per clear of the page's BLK_ERR (R47). -/
def noteLocked (s : State) (pl : Place) (func : Nat) : State :=
  if s.lockSeen.contains pl.page then s
  else recordErr { s with lockSeen := pl.page :: s.lockSeen } pl.page eExpertLocked func pl.off

/-- Whether a request to a function's BAR0 completes with UR: on a narrow link (R291), and for a tenant that has no VF, before
service or while it is DISABLED (R292, R313). -/
def noAnswer (s : State) (a : Access) : Bool :=
  (port s a.port).narrow || (a.func != 0 && (!vfHere s a.port a.func || !serving s || funcState s a.func == 0))

/-- Whether an access names an offset of MF BAR0 that no page occupies (R42). -/
def unoccupied (a : Access) : Bool :=
  a.func == 0 && (pageType (a.off / 0x1000) == 0 || decide (0x1000 ≤ a.off / 0x1000))

/-- Run an effect at the place an access reaches, past the expert lock; otherwise only what R47 records. -/
def atPlace (s : State) (a : Access) (f : State → Place → State) : State :=
  match place s a with
  | none => s
  | some pl => if expertLocked s pl a.func then noteLocked s pl a.func else f s pl

/-- Relock every page for a function (R48). -/
def relockFunc (s : State) (func : Nat) : State := { s with unlocked := s.unlocked.filter (·.2 != func) }

/-- Relock a page for every function (R45, R48). -/
def relockPage (s : State) (page : Nat) : State := { s with unlocked := s.unlocked.filter (·.1 != page) }

/-- New bits under a mask. -/
def merge (old new mask : Nat) : Nat := old - Nat.land old mask + Nat.land new mask

/-- A plain store to a register: RW bits, staged RWS bits, W1C bits and clearing counts (R43, R49). -/
def storeReg (s : State) (k v : Nat) : State :=
  match findReg (pageType (k / 0x1000)) (k % 0x1000) with
  | none => s
  | some d =>
    let s := if d.rw = 0 then s else wr s k (merge (rd s k) v d.rw)
    let s := if d.rws = 0 then s else wrStaged s k (merge (rdStaged s k) v d.rws)
    let s := if d.w1c = 0 then s else wr s k (rd s k - Nat.land (rd s k) (Nat.land v d.w1c))
    if d.cnt && v % 2 = 1 then wr s k 0 else s

/-- Whether a key belongs to a page and holds RWS bits. -/
def isStagedKey (page k : Nat) : Bool :=
  homePage (k / 0x1000) == page &&
    (match findReg (pageType (k / 0x1000)) (k % 0x1000) with
      | some d => d.rws != 0
      | none => false)

/-- The RWS mask of a key. -/
def rwsMask (k : Nat) : Nat :=
  match findReg (pageType (k / 0x1000)) (k % 0x1000) with
  | some d => d.rws
  | none => 0

/-- The keys of a page whose staged or active value stands apart from reset. -/
def stagedKeys (s : State) (page : Nat) : List Nat :=
  ((s.regs.map (·.1) ++ s.staged.map (·.1)).filter (isStagedKey page)).dedup

/-- At least one staged value of the page differs from its active value (R43). -/
def pendingPage (s : State) (page : Nat) : Bool :=
  (stagedKeys s page).any fun k => Nat.land (rd s k) (rwsMask k) != Nat.land (rdStaged s k) (rwsMask k)

/-- All staged values of a page made active (R50, step 3). -/
def applyStaged (s : State) (page : Nat) : State :=
  (stagedKeys s page).foldl (fun s k => wr s k (merge (rd s k) (rdStaged s k) (rwsMask k))) s

/-- Every staged value of a page set to its active value (R50, discard). -/
def discardStaged (s : State) (page : Nat) : State :=
  (stagedKeys s page).foldl (fun s k => wrStaged s k (merge (rdStaged s k) (rd s k) (rwsMask k))) s

/-- All register places of a page at their reset values (R45), but for BLK_IRQ_EN and the version. -/
def resetPage (s : State) (page : Nat) : State :=
  let keep := fun (e : Nat × Word) =>
    homePage (e.1 / 0x1000) != page || e.1 == K.blkIrqEn page || e.1 == K.blkPagever page
  { s with
    regs := s.regs.filter keep
    staged := s.staged.filter fun e => homePage (e.1 / 0x1000) != page
    latched := s.latched.filter fun e => homePage (e.1 / 0x1000) != page }

end Sys2Proof.Machine
end

