-- ==== Sys2Proof/Machine/Hash.lean ====
section
/-! DEFINITION. The 64-bit mixing functions: prefix hashes (R190), LQ-CB64 (R239) and step digests (R427). Arithmetic is
modulo 2^64. -/

namespace Sys2Proof.Machine

/-- A sum or product cut to 64 bits. -/
def m64 (n : Nat) : Nat := n % 2 ^ 64

/-- mix64 (R190). -/
def mix64 (z : Nat) : Nat :=
  let z := m64 (Nat.xor z (z / 2 ^ 31) * 0xD6E8FEB86659FD93)
  let z := m64 (Nat.xor z (z / 2 ^ 29) * 0xB492B66FBE98F273)
  Nat.xor z (z / 2 ^ 32)

/-- hash_block of 16 tokens after a hash (R190). -/
def hashBlock (prev : Nat) (toks : List Nat) : Nat :=
  ((List.range toks.length).zip toks).foldl (fun h e => mix64 (Nat.xor h (2 ^ 32 * e.1 + e.2))) prev

/-- H[0], H[1], … of the full blocks of a token sequence (R190). -/
def prefixHashes (tag : Nat) (toks : List Nat) : List Nat :=
  ((List.range (toks.length / 16)).foldl (fun (acc : Nat × List Nat) j =>
    let h := hashBlock acc.1 ((toks.drop (16 * j)).take 16)
    (h, acc.2 ++ [h])) (mix64 tag, [])).2

/-- lq_cb64 (R239). -/
def lqCb64 (seed pos draw : Nat) : Nat :=
  ((List.range 4).foldl (fun (acc : Nat × Nat) _ =>
    let k := m64 (acc.1 + 0x9E3779B97F4A7C15)
    (k, mix64 (Nat.xor acc.2 k))) (m64 seed, 2 ^ 32 * pos + draw)).2

/-- uniform (R239): 24 bits, to be read as a multiple of 2^-24. -/
def uniform24 (seed pos draw : Nat) : Nat := lqCb64 seed pos draw / 2 ^ 40

/-- line_hash of eight words (R427). -/
def lineHash (t off : Nat) (ws : List Nat) : Nat :=
  ws.foldl (fun h w => mix64 (Nat.xor h w)) (mix64 (2 ^ 40 * t + off))

/-- The words of a line, zero-extended to eight. -/
def lineWords (bs : Bytes) : List Nat := (List.range 8).map fun i => num bs (8 * i) 8

/-- D_s from the step number, the tensor sums and B_s (R427). -/
def stepDigest (step : Nat) (ts : List Nat) (b : Nat) : Nat :=
  mix64 (Nat.xor (ts.foldl (fun d t => mix64 (Nat.xor d t)) (mix64 (m64 step))) b)

end Sys2Proof.Machine
end

