-- ==== Sys2Proof/Machine/Power.lean ====
section
/-! DEFINITION. Power, voltage and heat (R381-R415): the target and its sources, the measurement loops, the learner, the
brake, clock and rail changes of the fields, junction, HBM, coolant and leak samples. -/

namespace Sys2Proof.Machine

/-- The signed value of the low w bits of n. -/
def sgn (w n : Nat) : Int :=
  if n % 2 ^ w < 2 ^ (w - 1) then (n % 2 ^ w : Nat) else (n % 2 ^ w : Nat) - (2 ^ w : Nat)

/-- The low w bits of a signed value. -/
def unsgn (w : Nat) (i : Int) : Nat := (i % (2 ^ w : Nat)).toNat

/-- A value held within bounds. -/
def clampR (x lo hi : Rat) : Rat := max lo (min x hi)

/-- A value in 0.1 W as a register field of w bits, rounded down and held within it. -/
def fieldOfRat (w : Nat) (x : Rat) : Nat := min (2 ^ w - 1) x.floor.toNat

/-! ### Target (R381) -/

/-- Bits of PWR_STATE. -/
def braking (s : State) : Bool := bit (rd s K.pwrState) 0
def capLag (s : State) : Bool := bit (rd s K.pwrState) 1
def mismatch (s : State) : Bool := bit (rd s K.pwrState) 2
def sensorFault (s : State) : Bool := bit (rd s K.pwrState) 3
def inPool (s : State) : Bool := bit (rd s K.pwrState) 4

/-- The sources of R381 that apply, in the table's order: value in W and SOURCE code. -/
def targetSources (s : State) : List (Nat × Nat) :=
  (if inPool s then [(rf s K.pwrShare 9 0, 1)] else [(rf s K.pwrCap 9 0, 0)])
    ++ (match s.power.coolCeil with | some c => [(c, 2)] | none => [])
    ++ (if bit (rd s K.thmLeak) 2 then [(180, 3)] else [])
    ++ (if braking s then [(180, 4)] else [])

/-- The lowest source, the earlier of equal ones. -/
def targetOf (s : State) : Nat × Nat :=
  (targetSources s).foldl (fun a c => if c.1 < a.1 then c else a) (2 ^ 10, 0)

/-- T in W (R381). -/
def target (s : State) : Nat := (targetOf s).1

/-- Set the inner target T_i (0.1 W) and show it (R387). -/
def setInner (s : State) (x : Rat) : State :=
  wf { s with power := { s.power with ti := x } } K.pwrInner 9 0 (x / 10).floor.toNat

/-- Follow the sources: PWR_TARGET shows T and its source; a changed T becomes T_i at once (R381, R387). -/
def retarget (s : State) : State :=
  let t := targetOf s
  let old := rf s K.pwrTarget 9 0
  let s := wr s K.pwrTarget (t.1 + 2 ^ 12 * t.2)
  if t.1 = old then s else setInner s (10 * t.1)

/-! ### THERMAL messages (R408) -/

/-- Post a THERMAL message: every event to MF, THROTTLE_ON, BRAKE_ON and SHUTDOWN to every enabled tenant as well. -/
def postThermal (s : State) (event source code value : Nat) : State :=
  let body := toLE 1 event ++ toLE 1 source ++ toLE 2 code ++ toLE 2 value ++ toLE 2 (target s)
    ++ toLE 2 (rf s K.pwrMeas 15 0 / 10)
  let dest := if event = 1 || event = 5 || event = 14 then allLive s else [0]
  dest.foldl (fun s f => postCrit s f 0x0B 3 body) s

/-- M in W, for VALUE. -/
def measW (s : State) : Nat := rf s K.pwrMeas 15 0 / 10

/-! ### Estimate and measurement (R383-R389) -/

/-- P_c in 0.1 W (R383). -/
def controlled (s : State) : Rat :=
  if sensorFault s then s.power.est * 5 / 4
  else if mismatch s then max s.power.est s.power.meas
  else s.power.est

/-- Count the microseconds of CAP_LAG that have passed (R389). -/
def countLag (s : State) : State :=
  if capLag s then
    let n := (s.clock - s.power.lagFrom) / usCycles 1
    satIncr { s with power := { s.power with lagFrom := s.power.lagFrom + usCycles n } } K.pwrLagUs n
  else s

/-- CAP_LAG begins when P_c exceeds T; the time at or below T runs otherwise (R389). -/
def judgeLag (s : State) : State :=
  let s := countLag s
  if controlled s > 10 * target s then
    let s := { s with power := { s.power with lagOk := none } }
    if capLag s then s
    else
      let s := setBit { s with power := { s.power with lagFrom := s.clock } } K.pwrState 1 true
      postThermal (raiseIrq s pgPwr 16) 3 15 eCapLag (measW s)
  else
    match capLag s, s.power.lagOk with
    | true, none => { s with power := { s.power with lagOk := some s.clock } }
    | _, _ => s

/-- Gate level of a field (R386). -/
def gateOf (s : State) (f : Nat) : Nat := rf s (K.fieldGate f) 5 0
def setGate (s : State) (f g : Nat) : State :=
  let s := if g = 0 then s else { s with power := { s.power with fields := s.power.fields.set f { s.power.fields.getD f {} with moved := true } } }
  wf s (K.fieldGate f) 5 0 g
/-- FIELD_FIXED.FIXED and FIELD_FCUR.RELOCKING. -/
def isFixed (s : State) (f : Nat) : Bool := bit (rd s (K.fieldFixed f)) 31
def relocking (s : State) (f : Nat) : Bool := bit (rd s (K.fieldFcur f)) 8

/-- Every word that a field's bays have issued has completed: until then the old clock runs (R34). -/
def fieldDrained (s : State) (f : Nat) : Bool :=
  (List.range 72).all fun i => (bay s (72 * f + i)).issued.isEmpty && (bay s (72 * f + i)).comp.isNone

/-- A field's PLL has left the old clock: messages wait for it (R34). -/
def clockless (s : State) (f : Nat) : Bool := relocking s f && fieldDrained s f

/-- The eight fields. -/
def fieldList : List Nat := List.range 8

/-- Raise gates by one step: the non-FIXED fields, and the FIXED ones only once those are all at 63; a relocking field
holds its g (R386). -/
def raiseGates (s : State) : State :=
  let loose := fieldList.filter fun f => !isFixed s f
  let fixed := fieldList.filter (isFixed s)
  let up := if loose.all fun f => gateOf s f == 63 then fixed else loose
  up.foldl (fun s f => if relocking s f then s else setGate s f (min 63 (gateOf s f + 1))) s

/-- Lower gates by one step, FIXED fields first (R386). -/
def lowerGates (s : State) : State :=
  let fixed := fieldList.filter fun f => isFixed s f && gateOf s f != 0
  let down := if fixed.isEmpty then fieldList.filter fun f => !isFixed s f else fixed
  down.foldl (fun s f => if relocking s f then s else setGate s f (gateOf s f - 1)) s

/-- A brake's first ticks: every field, FIXED included, raises g; with every g at 63 the granary and video limits of the
brake begin (R398). -/
def brakeTick (s : State) : State :=
  let s := fieldList.foldl (fun s f => setGate s f (min 63 (gateOf s f + 1))) s
  if fieldList.all fun f => gateOf s f == 63 then
    { s with power := { s.power with brake := 2, videoDuty := true } }
  else s

/-- E' in 0.1 W from a raw estimate in 0.1 W (R383). -/
def corrected (s : State) (raw : Nat) : Rat :=
  (raw * rf s K.pwrEstGain 15 0 : Nat) / (2 ^ 15 : Rat) + (sgn 16 (rd s K.pwrEstOfs) : Int)

/-- Take the estimate of one microsecond. -/
def noteEst (s : State) (e : Rat) : State :=
  let p := s.power
  { s with power := { p with
      est := e, estSum := p.estSum + e, estN := p.estN + 1, winE := p.winE + e, winEN := p.winEN + 1
      sameLo := min p.sameLo e, sameHi := max p.sameHi e } }

/-- One tick of the fast loop (R386): raw estimate, and the loop's estimate of the power that one step down adds, both in
0.1 W. -/
def fastLoop (raw add : Nat) (s : State) : State :=
  let s := judgeLag (noteEst s (corrected s raw))
  if s.power.brake = 1 then brakeTick s
  else if controlled s > s.power.ti then raiseGates s
  else if controlled s + add ≤ s.power.ti then lowerGates s
  else s

def execFastLoop (raw add : Nat) (s : State) : Host.Outcome State Fault Refusal := .next (fastLoop raw add s)

/-- CAP_LAG ends once P_c has stayed at or below T for 100 us (R389). -/
def execCapMet (s : State) : Host.Outcome State Fault Refusal :=
  match capLag s, s.power.lagOk with
  | true, some t =>
    if t + usCycles 100 ≤ s.clock then
      let s := setBit (countLag s) K.pwrState 1 false
      .next (postThermal { s with power := { s.power with lagOk := none } } 4 15 0 (measW s))
    else .next s
  | _, _ => .next s

/-- M in 0.1 W from the input voltage in 10 mV and the current in mA (R383, R481). -/
def measured (s : State) (vin : Nat) (ma : Int) : Rat :=
  let vi : Rat := (vin : Rat) * ma / 10000
  (vi * rf s K.calFacPgain 15 0 / (2 ^ 15 : Rat) + (sgn 16 (rd s K.calFacPofs) : Int))
    * (1 + (sgn 10 (rd s K.calUsrPgain) : Int) / (10000 : Rat))

/-- Whether a sample is implausible (R385): the code has stood for 100 samples while E' moved by more than 50 W, and the
other cases. -/
def implausible (s : State) (vin : Nat) (ma : Int) (m : Rat) (atEnd : Bool) : Bool :=
  decide (vin < 3000) || decide (8500 < vin) || decide (ma < -1000) || decide (25000 < ma) || atEnd
    || (s.tray.rails && decide (m < 50))
    || (decide (100 ≤ s.power.same) && decide (500 < s.power.sameHi - s.power.sameLo))

/-- Follow the run of equal current codes (R385). -/
def noteCode (s : State) (code : Nat) : State :=
  let p := s.power
  { s with power := if p.code = code && p.same ≠ 0 then { p with same := p.same + 1 }
                    else { p with code := code, same := 1, sameLo := p.est, sameHi := p.est } }

/-- Show and accumulate a plausible measurement. -/
def takeSample (s : State) (m : Rat) : State :=
  let e := s.power.energy + m.floor.toNat
  let s := { s with power := { s.power with meas := m, energy := e, winM := s.power.winM + m, winMN := s.power.winMN + 1 } }
  wr64 (wf s K.pwrMeas 15 0 (fieldOfRat 16 m)) K.pwrEnergyLo (e / 100000)

/-- The outer loop (R387). -/
def outerLoop (s : State) (m : Rat) : State :=
  let t : Rat := 10 * target s
  if braking s then s else setInner s (clampR (s.power.ti - (m - t) / 2) (t * 85 / 100) t)

/-- One measurement (R383, R385, R387): input voltage in 10 mV, current in mA, its raw code and whether the reading sits at
an end of the converter's range. -/
def powerSample (vin : Nat) (ma : Int) (code : Nat) (atEnd : Bool) (s : State) : State :=
  let s := noteCode s code
  let m := measured s vin ma
  let s := wr s K.pwrVin (vin % 2 ^ 16 + 2 ^ 16 * unsgn 16 ma)
  let s := { s with tray := { s.tray with vin := 10 * vin, highFrom := if vin ≤ 6000 then none else s.tray.highFrom } }
  if implausible s vin ma m atEnd then
    let s := { s with power := { s.power with plausible := 0 } }
    if sensorFault s then s
    else
      let s := setBit s K.pwrState 3 true
      let s := if braking s then s else setInner s (10 * target s)
      postThermal (raiseIrq s pgPwr 18) 9 15 eSensorFault (measW s)
  else
    let s := takeSample s m
    if sensorFault s then { s with power := { s.power with plausible := s.power.plausible + 1 } } else outerLoop s m

def execPowerSample (vin : Nat) (ma : Int) (code : Nat) (atEnd : Bool) (s : State) : Host.Outcome State Fault Refusal :=
  .next (powerSample vin ma code atEnd s)

/-- SENSOR_FAULT ends after 1 s of plausible samples, 10,000 of them (R385). -/
def execSensorOk (s : State) : Host.Outcome State Fault Refusal :=
  if sensorFault s && decide (10000 ≤ s.power.plausible) then
    let s := setBit s K.pwrState 3 false
    .next (postThermal { s with power := { s.power with plausible := 0 } } 10 15 0 (measW s))
  else .next s

/-- The mean of some samples; 0 of none. -/
def meanOf (sum : Rat) (n : Nat) : Rat := if n = 0 then 0 else sum / n

/-- Whether two means differ by more than 15 % of the larger (R384). -/
def windowDiffers (m e : Rat) : Bool := decide (3 * max m e < 20 * (max m e - min m e))

/-- A 1 ms window ends: the means of M and E' over it (R384). -/
def estimateWindow (s : State) : State :=
  let p := s.power
  let p := if windowDiffers (meanOf p.winM p.winMN) (meanOf p.winE p.winEN) then { p with differ := p.differ + 1, agree := 0 }
    else { p with agree := p.agree + 1, differ := 0 }
  { s with power := { p with winM := 0, winMN := 0, winE := 0, winEN := 0 } }

def execEstimateWindow (s : State) : Host.Outcome State Fault Refusal := .next (estimateWindow s)

/-- ESTIMATOR_MISMATCH begins (R384). -/
def execMismatchOn (s : State) : Host.Outcome State Fault Refusal :=
  if !mismatch s && decide (10 ≤ s.power.differ) then
    .next (postThermal (raiseIrq (setBit s K.pwrState 2 true) pgPwr 18) 7 15 eMismatch (measW s))
  else .next s

/-- ESTIMATOR_MISMATCH ends (R384). -/
def execMismatchOff (s : State) : Host.Outcome State Fault Refusal :=
  if mismatch s && decide (100 ≤ s.power.agree) then
    .next (postThermal (setBit s K.pwrState 2 false) 8 15 0 (measW s))
  else .next s

/-- PWR_SET_CAP (R382). -/
def execPwrSetCap (src : Nat) (s : State) : Host.Outcome State Fault Refusal :=
  .next (withCmd s src 0x90 fun s c =>
    let cap := arg c 0x10 2
    if cap < rf s K.pwrBounds 9 0 || rf s K.pwrBounds 25 16 < cap then finish s c ePwrRange
    else
      let s := wf s K.pwrCap 9 0 cap
      let s := wrStaged s K.pwrCap (putFld (rdStaged s K.pwrCap) 9 0 cap)
      finish (judgeLag (retarget (bumpVer s pgPwr))) c 0)

/-! ### Voltage, clocks and ceilings (R34, R390-R393) -/

def fctl (s : State) (f : Nat) : FieldCtl := s.power.fields.getD f {}
def setFctl (s : State) (f : Nat) (x : FieldCtl) : State :=
  { s with power := { s.power with fields := s.power.fields.set f x } }

/-- Guard band G in mV. -/
def guardBand (s : State) : Nat := rf s K.calUsrGuard 5 0

/-- Fused voltage of the point that serves a step (R390). -/
def fusedMv (s : State) (f step : Nat) : Nat :=
  let mhz := 25 * step
  rf s (K.fieldVf f (if mhz ≤ 500 then 0 else min 15 (cdiv (mhz - 500) 100))) 9 0

/-- Rail voltage of a step (R390). -/
def railMv (s : State) (f step : Nat) : Nat := max 550 (5 * cdiv (fusedMv s f step + guardBand s) 5)

/-- The highest step whose voltage plus G is at most 0.85 V (R390). -/
def voltLimit (s : State) (f : Nat) : Nat :=
  (List.range 65).foldl (fun m i => if fusedMv s f (16 + i) + guardBand s ≤ 850 then 16 + i else m) 16

/-- The ceiling of a field and its source (R393; REASON of R414). -/
def fieldCeil (s : State) (f : Nat) : Nat × Nat :=
  let x := fctl s f
  let base := if isFixed s f then rf s (K.fieldFixed f) 6 0 else rf s (K.fieldFreq f) 6 0
  let cs := (if x.opp = 0 then [] else [(x.opp, 1)])
    ++ (match x.jceil with | some j => [(j, 2)] | none => []) ++ [(voltLimit s f, 3)]
    ++ (if s.power.brake = 3 then [(16, 4)] else [])
  cs.foldl (fun a c => if c.1 < a.1 then c else a) (base, 0)

/-- Show a field's clock, rail and relock state. -/
def showClock (s : State) (f step mv : Nat) (rel : Bool) : State :=
  wr s (K.fieldFcur f) (step + 2 ^ 8 * b2n rel + 2 ^ 16 * mv)

def fcur (s : State) (f : Nat) : Nat := rf s (K.fieldFcur f) 6 0
def vcur (s : State) (f : Nat) : Nat := rf s (K.fieldFcur f) 31 16

/-- Start a field's PLL relock (R34). -/
def startRelock (s : State) (f : Nat) : State :=
  let s := setFctl s f { fctl s f with phase := 2 }
  setBit (showClock s f (fcur s f) (vcur s f) true) K.clkLock f false

/-- Begin the change a field wants, if none is under way: a raise starts with the rail, a lowering with the relock, a
changed voltage alone with the rail (R391, R392). -/
def startChange (s : State) (f : Nat) : State :=
  let x := fctl s f
  let mv := railMv s f x.want
  if x.phase ≠ 0 then s
  else if x.want = fcur s f then
    (if mv = vcur s f then s
     else setFctl s f { x with target := x.want, volt := mv, phase := if vcur s f < mv then 1 else 3 })
  else
    let s := setFctl s f { x with target := x.want, volt := mv }
    if fcur s f < x.want && decide (vcur s f < mv) then setFctl s f { fctl s f with phase := 1 }
    else startRelock s f

/-- Set a field's clock (R392). -/
def setClock (s : State) (f step : Nat) : State := startChange (setFctl s f { fctl s f with want := step }) f

/-- A field PLL has relocked, which it can only once the words issued at the old clock have completed (R34): issue resumes at the new clock, and a rail above what it needs falls (R392). -/
def execPllRelockDone (f : Nat) (s : State) : Host.Outcome State Fault Refusal :=
  let x := fctl s f
  if x.phase = 2 && decide (f < 8) && fieldDrained s f then
    let s := showClock s f x.target (vcur s f) false
    let s := setBit (wf s (K.fieldRelocks f) 15 0 (rf s (K.fieldRelocks f) 15 0 + 1)) K.clkLock f true
    let x := { x with moved := true }
    if x.volt < vcur s f then .next (setFctl s f { x with phase := 3 })
    else .next (startChange (setFctl s f { x with phase := 0 }) f)
  else .next s

/-- A field's core rail has reached its new voltage (R392): a raise goes on with the relock. -/
def execRailRampDone (f : Nat) (s : State) : Host.Outcome State Fault Refusal :=
  let x := fctl s f
  if decide (f < 8) && (x.phase = 1 || x.phase = 3) then
    let s := showClock s f (fcur s f) x.volt false
    if x.phase = 1 && decide (fcur s f ≠ x.target) then .next (startRelock s f)
    else .next (startChange (setFctl s f { x with phase := 0 }) f)
  else .next s

/-- A field clock is held at or below its ceiling at once. -/
def enforceCeil (s : State) (f : Nat) : State :=
  let c := (fieldCeil s f).1
  if c < (fctl s f).want then setClock s f c else s

/-! ### Learner (R394, R395) -/

/-- Place of a table entry. -/
def learnKey (phase f step : Nat) : Nat := 2048 * phase + 128 * f + step

/-- W of an entry in 10 mW (R395). -/
def learnW (s : State) (phase f step : Nat) : Rat :=
  match mget (fun _ => none) s.power.learned (learnKey phase f step) with
  | some w => w
  | none => Config.factoryW phase f step

/-- One field of an allocation: its phase, ceiling, busy fraction, whether FIXED, and the step so far. -/
structure Alloc where
  phase : Nat
  hi : Nat
  u : Rat
  fixed : Bool
  fr : Nat
deriving DecidableEq, Repr

/-- Score of one step more for a field, if it may be taken (R394). -/
def allocScore (s : State) (b : Rat) (f : Nat) (a : Alloc) : Option Rat :=
  let dP := learnW s a.phase f (a.fr + 1) - learnW s a.phase f a.fr
  if a.fixed || decide (a.hi ≤ a.fr) || decide (b < dP) then none else some (a.u / max dP (1 / 10))

/-- The best field of a round: the highest score, the lowest field among equals (R394). -/
def allocBest (s : State) (b : Rat) (l : List Alloc) : Option (Nat × Rat) :=
  (List.range l.length).foldl (fun best f =>
    match (l[f]?).bind (allocScore s b f), best with
    | some x, some (_, y) => if y < x then some (f, x) else best
    | some x, none => some (f, x)
    | none, _ => best) none

/-- The allocation loop (R394). -/
def allocLoop (s : State) : Nat → Rat → List Alloc → List Alloc
  | 0, _, l => l
  | n + 1, b, l =>
    match allocBest s b l with
    | none => l
    | some (f, _) =>
      match l[f]? with
      | none => l
      | some a =>
        allocLoop s n (b - (learnW s a.phase f (a.fr + 1) - learnW s a.phase f a.fr)) (l.set f { a with fr := a.fr + 1 })

/-- What the counters of a field showed over the last allocation period (R394, R395): the phase with most words, whether it issued at
least 75 % of them, the phases that issued any, the busy fraction u, the field's share of E' in 10 mW, and whether the field stayed at
one step with g = 0. -/
structure FieldObs where
  phase : Nat
  dominant : Bool
  phases : List Nat
  u : Rat
  power : Nat
  steady : Bool
deriving DecidableEq, Repr

/-- Words that a field's bays issued with a phase. -/
def phaseWords (x : FieldCtl) (p : Nat) : Nat := mget (fun _ => 0) x.words p

/-- The phase with most words, the lowest among equals (notes/assumptions/193). -/
def topPhase (x : FieldCtl) : Nat :=
  (List.range 16).foldl (fun m p => if phaseWords x m < phaseWords x p then p else m) 0

/-- A field's observation, with its share of E' from the estimator. -/
def observe (s : State) (f power : Nat) : FieldObs :=
  let x := fctl s f
  let all := ((List.range 16).map (phaseWords x)).sum
  let cycles := (s.clock - s.power.periodFrom) * fcur s f / 4
  { phase := topPhase x, dominant := decide (0 < all) && decide (3 * all ≤ 4 * phaseWords x (topPhase x))
    phases := (List.range 16).filter fun p => phaseWords x p != 0
    u := if cycles = 0 then 0 else mkRat x.busy (72 * cycles), power := power, steady := !x.moved }

/-- A field's counts begin again. -/
def newPeriod (s : State) (f : Nat) : State :=
  let x := fctl s f
  setFctl s f { x with words := [], busy := 0, moved := gateOf s f != 0 || x.phase != 0 }

/-- Count a word that a bay of a field issues. -/
def countWord (s : State) (f p : Nat) : State :=
  let x := fctl s f
  setFctl s f { x with words := mset (fun _ => 0) x.words p (phaseWords x p + 1) }

/-- Count cycles in which a bay of a field ran and waited for no token or credit. -/
def countBusy (s : State) (f n : Nat) : State := setFctl s f { fctl s f with busy := (fctl s f).busy + n }

/-- Update the table from a period in which a field stayed at one step with g = 0 (R395). -/
def learn (s : State) (f : Nat) (o : FieldObs) : State :=
  if o.steady && o.dominant && !bit (rd s K.pwrLearnCtrl) 0 then
    let w := learnW s o.phase f (fcur s f)
    let k := learnKey o.phase f (fcur s f)
    { s with power := { s.power with
      learned := mset (fun _ => none) s.power.learned k (some (w + (o.power - w) / 8)) } }
  else s

/-- The preferred clock of a field: the largest non-zero OPP of the phases it issued (R393). -/
def oppOf (s : State) (o : FieldObs) : Nat :=
  o.phases.foldl (fun m p => max m (rf s (K.pwrPhaseOpp (p % 16)) 6 0)) 0

/-- Whether an HBM stack's temperature limits its grants (R404). -/
def hbmThrottled (s : State) : Bool := s.power.hbmThrottle.any id

/-- A FIXED field's clock: its ceiling, or a lower step while an HBM throttle lasts (R63; how low the spec leaves open,
notes/assumptions/169). -/
def fixedStep (s : State) (f hi : Nat) : Nat :=
  if hbmThrottled s && decide (16 < hi) then 16 + Config.hbmFixedStep f hi % (hi - 16) else hi

/-- Start of an allocation for a field. -/
def allocStart (s : State) (f : Nat) (o : FieldObs) : Alloc :=
  let hi := if isFixed s f then fixedStep s f (fieldCeil s f).1 else (fieldCeil s f).1
  { phase := o.phase, hi := hi, u := o.u
    fixed := isFixed s f, fr := if isFixed s f then hi else min 16 hi }

/-- The FIXED field that a cap that cannot otherwise be met lowers next: the one at the highest step, the lowest field among
equals (R63; the order is a DESIGN CHOICE, notes/assumptions/169). -/
def fixedHighest (l : List Alloc) : Option Nat :=
  (List.range l.length).foldl (fun best f =>
    match l[f]?, best.bind (l[·]?) with
    | some a, some b => if a.fixed && decide (b.fr < a.fr) then some f else best
    | some a, none => if a.fixed && decide (16 < a.fr) then some f else best
    | none, _ => best) none

/-- Lower FIXED fields step by step while the target is exceeded with everything else at its floor (R63). -/
def lowerFixed (s : State) : Nat → Rat → List Alloc → List Alloc
  | 0, _, l => l
  | n + 1, b, l =>
    if 0 ≤ b then l
    else
      match fixedHighest l with
      | none => l
      | some f =>
        match l[f]? with
        | none => l
        | some a =>
          lowerFixed s n (b + (learnW s a.phase f a.fr - learnW s a.phase f (a.fr - 1))) (l.set f { a with fr := a.fr - 1 })

/-- Granary grant limit of an allocation (R394). -/
def learnGrants (dg gb : Rat) : Nat :=
  if gb = dg || dg = 0 then 100 else max 50 (10 * (10 * gb / dg).floor.toNat)

/-- The allocation of a period (R394): power outside fields, granary and video, granary power at full grant rate and video
power, in 10 mW, and what each field's counters showed. -/
def allocate (s : State) (pfix dg dv : Nat) (obs : List FieldObs) : State :=
  let l := (List.range obs.length).zip obs |>.map fun o => allocStart s o.1 o.2
  let used : Rat := ((List.range l.length).zip l).foldl (fun t a => t + learnW s a.2.phase a.1 a.2.fr) 0
  let b : Rat := 10 * s.power.ti - pfix - used
  let want : Rat := dg + dv
  let k : Rat := if want ≤ b || want = 0 then 1 else max b 0 / want
  let l := lowerFixed s 520 b (allocLoop s 520 (if want ≤ b then b - want else 0) l)
  let s := { s with power := { s.power with granLimit := learnGrants dg (k * dg), videoHeld := decide (k * dv < (dv : Rat)) } }
  if braking s then s
  else ((List.range l.length).zip l).foldl (fun s a => setClock s a.1 a.2.fr) s

/-- What a period's counters change before it is allocated. -/
def noteObs (s : State) (f : Nat) (o : FieldObs) : State :=
  let s := learn s f o
  let s := setFctl s f { fctl s f with opp := oppOf s o }
  wf s (K.fieldPwr f) 15 0 o.power

/-- The learner's period (R394, R395): the estimator gives the power outside fields, granary and video, granary power at full grant
rate, video power and each field's power, in 10 mW. -/
def learnerPeriod (pfix dg dv : Nat) (fields : List Nat) (s : State) : State :=
  let obs := fieldList.map fun f => observe s f (fields.getD f 0)
  let p := s.power
  let s := if p.estN = 0 then s else wf s K.pwrEst 15 0 (fieldOfRat 16 (p.estSum / p.estN))
  let s := fieldList.foldl newPeriod { s with power := { s.power with estSum := 0, estN := 0, periodFrom := s.clock } }
  let s := ((List.range obs.length).zip obs).foldl (fun s o => noteObs s o.1 o.2) s
  allocate s pfix dg dv obs

def execLearnerPeriod (pfix dg dv : Nat) (fields : List Nat) (s : State) : Host.Outcome State Fault Refusal :=
  .next (learnerPeriod pfix dg dv fields s)

/-- A write to PWR_LEARN_CTRL: RESET returns every entry to the factory model, FREEZE is stored (R395, R412). -/
def execLearnReset (a : Access) (v : Nat) (s : State) : Host.Outcome State Fault Refusal :=
  .next (atPlace s a fun s pl =>
    if pl.key = K.pwrLearnCtrl then
      let s := storeReg s pl.key v
      if bit v 1 then { s with power := { s.power with learned := [] } } else s
    else s)

/-! ### Droop (R396) -/

def execDroop (f : Nat) (s : State) : Host.Outcome State Fault Refusal :=
  if f < 8 then .next (setFctl s f { fctl s f with droop := true }) else .next s

/-- The rail has recovered: the stretched cycles are counted (R60, R396). -/
def execDroopRecovered (f cycles : Nat) (s : State) : Host.Outcome State Fault Refusal :=
  if f < 8 && (fctl s f).droop then
    .next (satIncr (setFctl s f { fctl s f with droop := false }) (K.fieldStretch f) cycles)
  else .next s

/-! ### Brake (R398, R399) -/

/-- T_i while the brake is in force, in 0.1 W (R398). -/
def brakeInner : Rat := 1620

def execBrakeOn (s : State) : Host.Outcome State Fault Refusal :=
  if braking s then .next s
  else
    let s := satIncr (setBit s K.pwrState 0 true) K.pwrBrakes 1
    let s := { s with power := { s.power with brake := 1, brakeFrom := s.clock } }
    let s := setInner (retarget s) brakeInner
    .next (judgeLag (postThermal (raiseIrq s pgPwr 17) 5 15 0 (measW s)))

/-- 20 us after the falling edge, 19.5 us into the brake (R398). -/
def execBrakeClockDrop (s : State) : Host.Outcome State Fault Refusal :=
  if braking s && decide (s.power.brake ≠ 3) && decide (s.power.brakeFrom + 1950 ≤ s.clock) then
    let s := { s with power := { s.power with brake := 3, videoDuty := true } }
    .next (fieldList.foldl (fun s f => setClock s f 16) s)
  else .next s

def execBrakeOff (s : State) : Host.Outcome State Fault Refusal :=
  if braking s then
    let s := setBit s K.pwrState 0 false
    let s := retarget { s with power := { s.power with brake := 0, videoDuty := false } }
    .next (judgeLag (postThermal s 6 15 0 (measW s)))
  else .next s

/-! ### Junction and HBM temperature (R403-R405) -/

/-- Bounds in 1/16 C. -/
@[reducible] def c45 : Int := 720
@[reducible] def c97 : Int := 1552
@[reducible] def c100 : Int := 1600
@[reducible] def c115 : Int := 1840

/-- User thermal offsets U_J, U_H, U_C in 1/16 C (R481). -/
def uJunc (s : State) : Int := sgn 8 (rf s K.calUsrTofs 7 0)
def uHbm (s : State) : Int := sgn 8 (rf s K.calUsrTofs 15 8)
def uCool (s : State) : Int := sgn 8 (rf s K.calUsrTofs 23 16)

/-- Effective readings of a field's nine junction sensors (R403). -/
def junction (s : State) (raw : List Int) (f : Nat) : List Int :=
  ((raw.drop (9 * f)).take 9).map fun r => r + sgn 16 (rd s (K.calFacTj f)) + uJunc s

/-- The hottest reading. -/
def hottest : List Int → Option Int
  | [] => none
  | x :: xs => some (xs.foldl max x)

/-- Bits of the sensors at or above 115 C. -/
def hotMask (l : List Int) : Nat :=
  ((List.range l.length).zip l).foldl (fun m e => if c115 ≤ e.2 then m + 2 ^ e.1 else m) 0

/-- A junction throttle ends once it no longer lowers the ceiling (R403). -/
def endThrottle (s : State) (f : Nat) (temp : Int) : State :=
  let x := fctl s f
  match x.jceil with
  | none => s
  | some j =>
    let bare := setFctl s f { x with jceil := none }
    if temp ≤ c97 && (fieldCeil bare f).1 ≤ j then
      postThermal (setBit bare (K.thmTj f) 16 false) 2 f eThermalThrottle (unsgn 16 temp)
    else s

/-- One field of a junction sample (R403, R405). -/
def junctionField (s : State) (f : Nat) (l : List Int) : State :=
  match hottest l with
  | none => s
  | some temp =>
    let s := wf s (K.thmTj f) 15 0 (unsgn 16 temp)
    let hot := hotMask l
    let s := if Nat.land hot (fctl s f).hot = 0 then s else { s with power := { s.power with hotTwice := true } }
    let s := setFctl s f { fctl s f with hot := hot }
    match (fctl s f).jceil with
    | some _ => endThrottle (satIncr s K.thmThrottleUs 10) f temp
    | none =>
      if c100 ≤ temp then
        let s := setFctl s f { fctl s f with jceil := some (max 16 ((fieldCeil s f).1 - 4)), coolMs := 0 }
        enforceCeil (postThermal (setBit s (K.thmTj f) 16 true) 1 f eThermalThrottle (unsgn 16 temp)) f
      else s

def execJunctionSample (raw : List Int) (s : State) : Host.Outcome State Fault Refusal :=
  let s := { s with power := { s.power with hotTwice := false } }
  .next (fieldList.foldl (fun s f => junctionField s f (junction s raw f)) s)

/-- One millisecond of a throttled field (R403). -/
def throttleField (s : State) (f : Nat) : State :=
  let x := fctl s f
  let temp := sgn 16 (rf s (K.thmTj f) 15 0)
  match x.jceil with
  | none => s
  | some j =>
    if c100 ≤ temp then enforceCeil (setFctl s f { x with jceil := some (max 16 (j - 4)), coolMs := 0 }) f
    else if temp ≤ c97 then
      if x.coolMs + 1 < 10 then setFctl s f { x with coolMs := x.coolMs + 1 }
      else endThrottle (setFctl s f { x with jceil := some (min 80 (j + 1)), coolMs := 0 }) f temp
    else setFctl s f { x with coolMs := 0 }

def execThermalThrottleStep (s : State) : Host.Outcome State Fault Refusal := .next (fieldList.foldl throttleField s)

/-- Thermal grant limit of a stack (R404). -/
def hbmLimit (s : State) (k : Nat) : Nat := rf s (K.thmHbm k) 22 16

/-- The grant limit in force: the lowest of the thermal limit, the learner's and the brake's (R404). -/
def grantLimit (s : State) (k : Nat) : Nat :=
  min (hbmLimit s k) (min s.power.granLimit (if 2 ≤ s.power.brake then 20 else 100))

/-- One stack of a sample (R404, R405). -/
def hbmStack (s : State) (k : Nat) (temp : Int) : State :=
  let n := hbmLimit s k
  let stopped := (s.power.hbmHot.getD k none).isSome || n = 0
  let throttled := s.power.hbmThrottle.getD k false
  let n' := if 1520 ≤ temp then 0
    else if n = 0 then (if temp ≤ 1488 then 20 else 0)
    else if 1440 ≤ temp then max 20 (n - 10)
    else if temp ≤ 1408 then min 100 (n + 10)
    else n
  let s := wr s (K.thmHbm k) (unsgn 16 temp + 2 ^ 16 * n')
  let since := if 1520 ≤ temp then some ((s.power.hbmHot.getD k none).getD s.clock) else none
  let s := { s with power := { s.power with
    hbmHot := s.power.hbmHot.set k since, hbmThrottle := s.power.hbmThrottle.set k (decide (n' < 100)) } }
  if 1520 ≤ temp && !stopped then postThermal s 1 (8 + k) eHbmLimit (unsgn 16 temp)
  else if n' < 100 && !throttled then postThermal s 1 (8 + k) eHbmThrottle (unsgn 16 temp)
  else if n' = 100 && throttled then postThermal s 2 (8 + k) eHbmThrottle (unsgn 16 temp)
  else s

def execHbmTempSample (raw : List Int) (s : State) : Host.Outcome State Fault Refusal :=
  .next (((List.range 4).zip raw).foldl (fun s e => hbmStack s e.1 (e.2 + sgn 16 (rd s (K.calFacHbm e.1)) + uHbm s)) s)

/-! ### Coolant and leaks (R406, R407) -/

/-- A coolant sensor: a faulty lead is marked and reported once; a good one shows its temperature (R407). -/
def coolSensor (s : State) (key source : Nat) (t : Int) (fault : Bool) : State :=
  if fault then
    (if bit (rd s key) 16 then s else postThermal (setBit s key 16 true) 11 source eCoolantSensor (rf s key 15 0))
  else wr s key (unsgn 16 t)

/-- The coolant ceiling (R406). -/
def coolantCeiling (t : Int) : Option Nat :=
  if t ≤ c45 then none else some (max 250 ((900 : Rat) - 25 * (t - c45 : Int) / 16).floor.toNat)

/-- The inlet's rules: ceiling, COOLANT_HOT and COOLANT_COLD, each posted once per excursion (R406). -/
def inletRules (s : State) (t : Int) : State :=
  let p := s.power
  let s := { s with power := { p with
    coolCeil := coolantCeiling t, coolHot := decide (c45 < t), coolCold := decide (t < 80) } }
  let s := if c45 < t && !p.coolHot then postThermal s 11 12 eCoolantHot (unsgn 16 t) else s
  if t < 80 && !p.coolCold then postThermal s 11 12 eCoolantCold (unsgn 16 t) else s

/-- Estimated flow in mL/min (R406). -/
def flowOf (s : State) (tin tout : Int) : Rat :=
  91200 * s.power.meas / ((rf s K.thmCpvol 15 0 : Nat) * (tout - tin : Int) : Rat)

/-- The flow estimate and the time it has been low. -/
def flowRules (s : State) (tin tout : Int) (ok : Bool) : State :=
  if ok && decide (2000 ≤ s.power.meas) && decide (16 ≤ tout - tin) then
    let q := flowOf s tin tout
    let s := wr s K.thmFlow (fieldOfRat 16 q + 2 ^ 16)
    if q < 1500 then { s with power := { s.power with flowLowFrom := some (s.power.flowLowFrom.getD s.clock) } }
    else { s with power := { s.power with flowLowFrom := none, flowPosted := false } }
  else
    { wr s K.thmFlow (rf s K.thmFlow 15 0) with power := { s.power with flowLowFrom := none, flowPosted := false } }

def coolantSample (tin tout : Int) (fin fout : Bool) (s : State) : State :=
  let tin := tin + uCool s
  let tout := tout + uCool s
  let s := coolSensor (coolSensor s K.thmCoolIn 12 tin fin) K.thmCoolOut 13 tout fout
  let s := if fin then s else inletRules s tin
  retarget (flowRules s tin tout (!fin && !fout))

def execCoolantSample (tin tout : Int) (fin fout : Bool) (s : State) : Host.Outcome State Fault Refusal :=
  .next (coolantSample tin tout fin fout s)

/-- FLOW_LOW after 1 s below 1.5 L/min (R406). -/
def execFlowLow (s : State) : Host.Outcome State Fault Refusal :=
  match s.power.flowLowFrom with
  | some t =>
    if t + usCycles 1000000 ≤ s.clock && !s.power.flowPosted then
      .next (postThermal { s with power := { s.power with flowPosted := true } } 11 12 eFlowLow (rf s K.thmCoolIn 15 0))
    else .next s
  | none => .next s

/-- A leak sample every 10 ms: an open or shorted lead is reported and is no leak (R407). -/
def execLeakSample (wet lead : Bool) (s : State) : Host.Outcome State Fault Refusal :=
  if lead then
    let s' := { wf s K.thmLeak 1 0 2 with power := { s.power with wet := 0 } }
    .next (if bit (rd s K.thmLeak) 1 then s' else postThermal s' 12 14 eLeakSensor 0)
  else
    .next { wf s K.thmLeak 1 0 (b2n wet) with power := { s.power with wet := if wet then s.power.wet + 1 else 0 } }

def execLeak (s : State) : Host.Outcome State Fault Refusal :=
  if 3 ≤ s.power.wet && !bit (rd s K.thmLeak) 2 then
    .next (retarget (postThermal (setBit s K.thmLeak 2 true) 12 14 eLeak 0))
  else .next s

def execThmLeakClr (a : Access) (v : Nat) (s : State) : Host.Outcome State Fault Refusal :=
  .next (atPlace s a fun s pl =>
    if pl.key = K.thmLeakClr && bit v 0 && !bit (rd s K.thmLeak) 0 then retarget (setBit s K.thmLeak 2 false) else s)

/-! ### Pool shares (R401, R402) -/

/-- Spend a surplus one watt at a time over the members in an order, as long as bounds allow (R401). -/
def spread (bound : PoolRec → Nat) (up : Bool) : List (PoolRec × Nat) → Nat → List (PoolRec × Nat) × Nat
  | [], r => ([], r)
  | (m, t) :: l, r =>
    if r ≠ 0 && (if up then decide (t < bound m) else decide (bound m < t)) then
      let (l', r') := spread bound up l (r - 1)
      ((m, if up then t + 1 else t - 1) :: l', r')
    else
      let (l', r') := spread bound up l r
      ((m, t) :: l', r')

/-- Rounds of spreading until nothing is left or no member can move (R401). -/
def spreadAll (bound : PoolRec → Nat) (up : Bool) : Nat → List (PoolRec × Nat) → Nat → List (PoolRec × Nat)
  | 0, l, _ => l
  | n + 1, l, r =>
    let (l', r') := spread bound up l r
    if r' = 0 || r' = r then l' else spreadAll bound up n l' r'

/-- Insert by ascending I, then index. -/
def poolInsert (m : PoolRec × Nat) : List (PoolRec × Nat) → List (PoolRec × Nat)
  | [] => [m]
  | x :: xs =>
    if m.1.i < x.1.i || (m.1.i = x.1.i && decide (m.1.index < x.1.index)) then m :: x :: xs else x :: poolInsert m xs

/-- The shares of a round: member index and watts (R401). -/
def poolShares (recs : List PoolRec) (p : Nat) : List (Nat × Nat) :=
  let n := recs.length
  let ibar := (recs.map (·.i)).sum / n
  let start := recs.map fun m =>
    let d : Int := (((ibar : Int) - m.i) * p).tdiv (8 * n * 65536)
    (m, (max (m.l : Int) (min ((m.s : Int) + d) m.u)).toNat)
  let order := start.foldr poolInsert []
  let sum := (start.map (·.2)).sum
  let done := if sum ≤ p then spreadAll (·.u) true (p + 1) order (p - sum)
    else (spreadAll (·.l) false (sum + 1) order.reverse (sum - p))
  done.map fun m => (m.1.index, m.2)

end Sys2Proof.Machine
end

