-- ==== Sys2Proof/Machine/Pools.lean ====
section
/-! DEFINITION. Granary regions of the functions (R299, R300) and the geometry and allocator of the KV pools (R178-R180,
R185). -/

namespace Sys2Proof.Machine

/-! ### Regions -/

/-- 2 MiB, the unit of FUNC_REGION (R300). -/
@[reducible] def mib2 : Nat := 2097152

/-- The regions of tenant function f (1-8): base address and length in bytes. -/
def regionsOf (s : State) (f : Nat) : List (Nat × Nat) :=
  (List.range 16).filterMap fun k =>
    let n := rf s (K.funcRegionSize (f - 1) k) 16 0
    if n = 0 then none else some (mib2 * rf s (K.funcRegionBase (f - 1) k) 16 0, mib2 * n)

/-- Whether a byte range lies in a set of regions; a range may run from one region into an adjoining one. -/
def insideRegions (rs : List (Nat × Nat)) : Nat → Nat → Nat → Bool
  | 0, _, len => len == 0
  | fuel + 1, a, len =>
    if len = 0 then true
    else
      match rs.find? fun r => decide (r.1 ≤ a) && decide (a < r.1 + r.2) with
      | none => false
      | some r => if a + len ≤ r.1 + r.2 then true else insideRegions rs fuel (r.1 + r.2) (a + len - (r.1 + r.2))

/-- Whether two byte ranges overlap. -/
def overlap (a n b m : Nat) : Bool := decide (a < b + m) && decide (b < a + n)

/-- The channels FUNC_WAINS names for a tenant function. -/
def wainBit (s : State) (f c : Nat) : Bool := bit (rd s (K.funcWains (f - 1))) c

/-- The bays FUNC_BAYMAP names for a tenant function, and those of MSG_BAYMAP. -/
def bayBit (s : State) (f b : Nat) : Bool :=
  if f = 0 then bit (rd s (K.msgBaymap (b / 32))) (b % 32) else bit (rd s (K.funcBaymap (f - 1) (b / 32))) (b % 32)

/-! ### KV pools -/

/-- A pool's geometry (R178, R219). -/
structure Geo where
  l : Nat
  hkv : Nat
  g : Nat
  d : Nat
  fp8 : Bool
  base : Nat
  units : Nat
  maxseq : Nat
deriving DecidableEq, Repr

/-- The active record of a pool. -/
def geoOf (s : State) (n : Nat) : Geo :=
  let g := rd s (K.kvGeo n)
  { l := fld g 7 0, hkv := fld g 13 8 + 1, g := fld g 21 16 + 1, d := 32 * 2 ^ fld g 25 24, fp8 := fld g 31 28 == 3
    base := 512 * (rd s (K.kvBaseLo n) / 512) + 2 ^ 32 * rf s (K.kvBaseHi n) 5 0
    units := rf s (K.kvUnits n) 23 0, maxseq := rf s (K.kvMaxseq n) 12 0 }

/-- Bytes of an element, and the position stride S (R178). -/
def Geo.b (g : Geo) : Nat := if g.fp8 then 1 else 2
def Geo.stride (g : Geo) : Nat := 2 * g.hkv * g.d * g.b
/-- H, the scale header (R179). -/
def Geo.header (g : Geo) : Nat := if g.fp8 then 512 * cdiv (8 * g.l * g.hkv) 512 else 0
/-- U in granules (R180). -/
def Geo.unit (g : Geo) : Nat := cdiv (g.header + 16 * g.l * g.stride) 512
/-- Positions and bytes of a page of size code c (R179). -/
def pagePos (c : Nat) : Nat := 16 * 2 ^ c
def Geo.pageBytes (g : Geo) (c : Nat) : Nat := g.header + pagePos c * g.l * g.stride
/-- Addresses of a unit, of a unit's refcount entry and of a page table (R180, R185). -/
def Geo.unitAddr (g : Geo) (u : Nat) : Nat := g.base + 512 * g.unit * u
def Geo.rcBase (g : Geo) : Nat := g.base + 512 * g.unit * g.units
def Geo.rcAddr (g : Geo) (u : Nat) : Nat := g.rcBase + 8 * u
def Geo.ptAddr (g : Geo) (i : Nat) : Nat := g.rcBase + 8 * g.units + 1088 * i
/-- The footprint in bytes (R180). -/
def Geo.footprint (g : Geo) : Nat := 512 * cdiv (512 * g.unit * g.units + 8 * g.units + 1088 * g.maxseq) 512

/-- Enable, HOSTMGD, HEADROOM and FUNCS of a pool (R219). -/
def kvEnabled (s : State) (n : Nat) : Bool := bit (rd s (K.kvCtrl n)) 0
def kvHostmgd (s : State) (n : Nat) : Bool := bit (rd s (K.kvCtrl n)) 1
def kvHeadroom (s : State) (n : Nat) : Nat := rf s (K.kvCtrl n) 7 4
def kvAllows (s : State) (n f : Nat) : Bool := bit (rd s (K.kvCtrl n)) (16 + f)

/-- Allocated pages of a pool. -/
def blocks (s : State) (n : Nat) : List (Nat × Nat) := mget (fun _ => []) s.kvBlocks n
def setBlocks (s : State) (n : Nat) (l : List (Nat × Nat)) : State :=
  { s with kvBlocks := mset (fun _ => []) s.kvBlocks n l }

/-- Whether 2^k units from u are free of allocated pages. -/
def unitsFree (l : List (Nat × Nat)) (u k : Nat) : Bool := l.all fun p => !overlap u (2 ^ k) p.1 (2 ^ p.2)

/-- Whether the block of 2^k units at u is a whole free block: free, and its buddy not free (blocks go up to 2^7 units;
notes/assumptions/10). -/
def freeBlock (l : List (Nat × Nat)) (u k : Nat) : Bool :=
  unitsFree l u k && (k == 7 || !unitsFree l (if (u / 2 ^ k) % 2 = 0 then u + 2 ^ k else u - 2 ^ k) k)

/-- The lowest free block of exactly 2^k units (k below 7) in the 128-unit groups that hold a page. -/
def lowestPart (l : List (Nat × Nat)) (groups : List Nat) (k : Nat) : Option Nat :=
  groups.findSome? fun g =>
    ((List.range (2 ^ (7 - k))).map fun i => 128 * g + i * 2 ^ k).find? fun u => freeBlock l u k

/-- Insert into an ascending list without repeats. -/
def insertAsc (n : Nat) : List Nat → List Nat
  | [] => [n]
  | x :: xs => if n < x then n :: x :: xs else if n = x then x :: xs else x :: insertAsc n xs

/-- Where an allocation of 2^c units goes (R180): the smallest free block that fits, at the lowest index among its
size. -/
def allocAt (s : State) (n c : Nat) : Option Nat :=
  let l := blocks s n ++ (s.kvPoison.filterMap fun p => if p.1 = n then some p.2 else none)
  let groups := l.foldr (fun p acc => insertAsc (p.1 / 128) acc) []
  match (List.range (7 - c)).findSome? fun i => lowestPart l groups (c + i) with
  | some u => some u
  | none =>
    match (List.range (groups.length + 1)).find? fun g => !groups.contains g with
    | some g => if 128 * g + 128 ≤ (geoOf s n).units then some (128 * g) else none
    | none => none

/-- Take a page of size code c from a pool. -/
def allocPage (s : State) (n c : Nat) : Option (Nat × State) :=
  (allocAt s n c).map fun u => (u, setBlocks s n (blocks s n ++ [(u, c)]))

/-- A page's units return to its pool's allocator (R186). -/
def freePage (s : State) (n u : Nat) : State := setBlocks s n ((blocks s n).filter (·.1 != u))

/-- The pool and unit a refcount address names, in an enabled pool. -/
def rcUnit (s : State) (a : Nat) : Option (Nat × Nat) :=
  ((List.range 8).find? fun n => kvEnabled s n &&
    (let g := geoOf s n
     decide (g.rcBase ≤ a) && decide (a < g.rcBase + 8 * g.units))).map fun n => (n, (a - (geoOf s n).rcBase) / 8)

/-- Whether a function's swap record is in use (R221). -/
def swapInUse (s : State) (f : Nat) : Bool :=
  (f == 0 || funcState s f == 2) &&
    (List.range 8).any fun n => kvEnabled s n && !kvHostmgd s n && kvAllows s n f

/-! ### The size ladder and page-table entries (R182-R184) -/

/-- The entry of a position, its first position and its size code (R182). -/
def ladder (p : Nat) : Nat := if p < 4080 then Nat.log2 (p / 16 + 1) + 1 else 9 + (p - 4080) / 2048
def ladderFirst (e : Nat) : Nat := if e ≤ 8 then 16 * (2 ^ (e - 1) - 1) else 4080 + 2048 * (e - 9)
def ladderSize (e : Nat) : Nat := if e ≤ 8 then e - 1 else 7

/-- Fields of the table header (R183). -/
def ptLen (h : Nat) : Nat := fld h 18 0
def ptFunc (h : Nat) : Nat := fld h 23 20
def ptPool (h : Nat) : Nat := fld h 26 24
def ptPages (h : Nat) : Nat := fld h 39 32

/-- Fields of an entry (R184). -/
def peAddr (v : Nat) : Nat := fld v 28 0
def peSize (v : Nat) : Nat := fld v 31 29
def peValid (v : Nat) : Bool := bit v 32
def peShared (v : Nat) : Bool := bit v 33
def peCow (v : Nat) : Bool := bit v 34
def peSwapped (v : Nat) : Bool := bit v 35
def pePoisoned (v : Nat) : Bool := bit v 36

/-- Byte offset within a page of the scale of a layer, kind (0 K, 1 V) and head, and of an element row (R179). -/
def Geo.scaleOff (g : Geo) (l k h : Nat) : Nat := 4 * ((2 * l + k) * g.hkv + h)
def Geo.rowOff (g : Geo) (c l k h i : Nat) : Nat := g.header + (l * pagePos c + i) * g.stride + (k * g.hkv + h) * g.d * g.b

/-- The unit that a page address names. -/
def Geo.unitOf (g : Geo) (addr : Nat) : Nat := (addr - g.base) / (512 * g.unit)

/-! ### Ranges of a function -/

/-- Byte range of a page of a pool. -/
def pageRange (s : State) (p u c : Nat) : Nat × Nat := ((geoOf s p).unitAddr u, (geoOf s p).pageBytes c)

/-- Ranges that wait for the scrubber, which belong to no function (R377). -/
def scrubRanges (s : State) : List (Nat × Nat) :=
  s.tenants.flatMap (·.2.scrub) ++ s.orphans ++ s.sec.scrubs.map (fun e => (e.1, e.2.1))
    ++ s.sec.kvScrubs.map fun e => pageRange s e.1 e.2.1 e.2.2

/-- Whether a range lies inside a tenant's regions and no line of it is being scrubbed (R299, R377). -/
def inRegions (s : State) (f a len : Nat) : Bool :=
  insideRegions (regionsOf s f) 17 a len && !(scrubRanges s).any fun r => overlap a len r.1 r.2

/-- Whether a function may address a granary range: MF every allocatable line, a tenant its regions (R299). -/
def ownsRange (s : State) (f a len : Nat) : Bool := allocatable a len && (f == 0 || inRegions s f a len)

end Sys2Proof.Machine
end

