-- ==== Sys2Proof/Machine/Tree.lean ====
section
/-! DEFINITION. Adds to tally counters and the messages of tally trees (R432, R434, R435). -/

namespace Sys2Proof.Machine

def tMode (s : State) (c : Nat) : Nat := rf s (K.tallyMode c) 1 0
def tRoot (s : State) (c : Nat) : Bool := bit (rd s (K.tallyMode c)) 2
def tChildren (s : State) (c : Nat) : Nat := min 16 (rf s (K.tallyMode c) 7 3)
def tOwner (s : State) (c : Nat) : Nat := rf s (K.tallyOwner c) 3 0

/-- The partition the module belongs to; 0 none (R417). -/
def partOf (s : State) : Nat := rf s K.fenceState 31 16

/-- Record an event as TALLY_BAD (R432). -/
def tallyBad (s : State) (func off : Nat) : State := recordErr (satIncr s K.tallyBad 1) pgTally eTallyBad func off

/-! ### Outbound messages (R435) -/

/-- A tally message as 64 bytes. -/
def tallyMsg (s : State) (kind ctr index flags round : Nat) (payload : Bytes) : Bytes :=
  toLE 1 kind ++ toLE 1 ctr ++ toLE 1 index ++ toLE 1 flags ++ toLE 4 round ++ toLE 2 (partOf s) ++ toLE 6 0
    ++ toLE 8 (rd64 s K.sysSerialLo) ++ toLE 8 (now s) ++ sub payload 0 32

/-- The port of a message: 0 ANY, 1 A, 2 B, or the other if it is down. -/
def tallyPort (s : State) (sel : Nat) : Option Nat := choosePort s (if sel = 2 then 1 else 0)

/-- Send messages that waited for a link. -/
def flushTally (s : State) : State :=
  s.tallyOut.foldl (fun s m => match tallyPort s m.1 with
    | some p => hostWrite { s with tallyOut := s.tallyOut.drop 1 } p 0 m.2.1 m.2.2
    | none => s) s

/-- Send a message; none leaves while FENCING or FENCED (R423), and with no link up it waits for one. -/
def tallySend (s : State) (sel addr : Nat) (bs : Bytes) : State :=
  if fenceState s ≠ 0 then s else flushTally { s with tallyOut := s.tallyOut ++ [(sel, addr, bs)] }

/-- Send a message to a counter's parent. -/
def sendParent (s : State) (c kind flags : Nat) (payload : Bytes := []) : State :=
  let l := rd s (K.tallyLink c)
  tallySend s (fld l 13 12) (rd64 s (K.tallyParentLo c))
    (tallyMsg s kind (fld l 7 0) (fld l 11 8) flags (rd s (K.tallyRound c)) payload)

/-- Send a message to child k of a counter. -/
def sendChild (s : State) (c kind flags : Nat) (payload : Bytes) (k : Nat) : State :=
  let g := rd s (K.tallyChildCfg c k)
  tallySend s (fld g 9 8) (rd64 s (K.tallyChildLo c k))
    (tallyMsg s kind (fld g 7 0) 0 flags (rd s (K.tallyRound c)) payload)

/-- Send a message to every child. -/
def sendDown (s : State) (c kind flags : Nat) (payload : Bytes := []) : State :=
  (List.range (tChildren s c)).foldl (fun s k => sendChild s c kind flags payload k) s

/-! ### Rounds (R432, R434, R436) -/

/-- COUNT ≥ TARGET and every child has reported UP. -/
def treeReady (s : State) (c : Nat) : Bool :=
  tMode s c == 2 && decide (rd s (K.tallyTarget c) ≤ rd s (K.tallyCount c))
    && (List.range (tChildren s c)).all fun k => bit (rd s (K.tallyUp c)) k

/-- Whether a TREE counter's round is under way here, so that it waits for an UP or a DOWN (R436). -/
def treeWaits (s : State) (c : Nat) : Bool :=
  tMode s c == 2 && (rd s (K.tallyUp c) != 0
    || (rd s (K.tallyTarget c) != 0 && decide (rd s (K.tallyTarget c) ≤ rd s (K.tallyCount c))))

def sinceOf (s : State) (c : Nat) : Nat × Bool := mget (fun _ => (0, false)) s.tallySince c
def setSince (s : State) (c : Nat) (v : Nat × Bool) : State :=
  { s with tallySince := mset (fun _ => (0, false)) s.tallySince c v }

/-- Whether this module's part of a TREE counter's round is complete and the round has not fired (R400). -/
def partDone (s : State) (c : Nat) : Bool :=
  tMode s c == 2 && rd s (K.tallyTarget c) != 0 && decide (rd s (K.tallyTarget c) ≤ rd s (K.tallyCount c))

/-- Follow the time that this module waits for the trees (R400). -/
def noteWait (s : State) : State :=
  let p := s.power
  match (List.range 256).any (partDone s), p.waitFrom with
  | true, none => { s with power := { p with waitFrom := some s.clock } }
  | false, some t => { s with power := { p with waitFrom := none, waited := p.waited + (s.clock - t) } }
  | _, _ => s

/-- Follow a counter's round: its UP goes to the parent when it is due, and the wait for the tree is timed. -/
def treeUpdate (s : State) (c : Nat) : State :=
  let s := noteWait s
  if tMode s c ≠ 2 then setSince s c (0, false)
  else if treeReady s c && !tRoot s c && !bit (rd s (K.tallyUp c)) 16 && !s.joinWait then
    setSince (setBit (sendParent s c 1 0) (K.tallyUp c) 16 true) c (s.clock + 1, false)
  else if treeWaits s c && (sinceOf s c).1 = 0 then setSince s c (s.clock + 1, false)
  else s

/-- Add to a counter, saturating. -/
def addCount (s : State) (c n : Nat) : State := treeUpdate (satIncr s (K.tallyCount c) n) c

/-- An add by a function; from another function or to an OFF counter it is TALLY_BAD (R432). -/
def addTally (s : State) (c func n off : Nat) : State :=
  if tMode s c = 0 || tOwner s c ≠ func then tallyBad s func off else addCount s c n

/-- An add by firmware (R432); none while the module waits to join (R431). -/
def addFirmware (s : State) (c n : Nat) : State :=
  if s.joinWait then s else if tMode s c = 0 then tallyBad s internalFunc 0 else addCount s c n

end Sys2Proof.Machine
end

