-- ==== Sys2Proof/Machine/Mirror.lean ====
section
/-! DEFINITION. FENCE messages (R441) and the elder's side of the mirror ring (R426). -/

namespace Sys2Proof.Machine

/-- Post a FENCE message (R441): FENCED, UNFENCED and the SHADOW events also go to every enabled tenant. -/
def postFence (s : State) (event ctr code : Nat) (step tensor d1 d2 : Nat := 0) : State :=
  let body := toLE 1 event ++ toLE 1 ctr ++ toLE 2 code ++ toLE 2 (rf s K.fenceState 31 16) ++ toLE 2 0 ++ toLE 8 step
    ++ toLE 1 tensor ++ toLE 7 0 ++ toLE 8 d1 ++ toLE 8 d2
  let dest := if [1, 2, 6, 7, 8].contains event then allLive s else [0]
  dest.foldl (fun s f => postCrit s f 0x09 1 body) s

def shadowSt (s : State) : Nat := rf s K.shadowState 2 0
def setShadowSt (s : State) (v : Nat) : State := raiseIrq (wf s K.shadowState 2 0 v) pgFence 17

/-- Bytes of the mirror ring (R416). -/
@[reducible] def mirrorSize : Nat := 16777216

/-- The relation is lost: reported, and mirroring stops (R426, R429). -/
def shadowLost (s : State) : State := postFence (setShadowSt s 5) 8 0 eShadowLost

/-- Whether this module mirrors a function as its elder. -/
def mirrors (s : State) (f : Nat) : Bool := shadowSt s == 1 && s.shadow.func == f && fenceState s == 0

/-- Write bytes at the elder's place in the shadow's ring, split at the ring's end. -/
def ringWrite (s : State) (bs : Bytes) : State :=
  match choosePort s 0 with
  | none => s
  | some p =>
    let at' := s.shadow.wrote % mirrorSize
    let base := s.shadow.host + s.shadow.ring
    let n := mirrorSize - at'
    let s := hostWrite s p 0 (base + at') (bs.take n)
    if bs.length ≤ n then s else hostWrite s p 0 base (bs.drop n)

/-- Mirror one record (R426): header and body padded to 64 bytes; less than 1 MiB free ends the mirroring. -/
def mirror (s : State) (f kind addr : Nat) (body : Bytes) : State :=
  if !mirrors s f then s
  else
    let len := 64 * cdiv (32 + body.length) 64
    if mirrorSize < s.shadow.wrote - s.shadow.consumed + len + 1048576 then shadowLost s
    else
      let bs := toLE 1 kind ++ toLE 3 0 ++ toLE 4 body.length ++ toLE 8 addr ++ toLE 8 (now s) ++ toLE 8 0
        ++ body ++ List.replicate (len - 32 - body.length) 0
      let s := ringWrite s bs
      { s with shadow := { s.shadow with wrote := s.shadow.wrote + len } }

/-- Whether an address belongs to the mirrored function: its regions, or for MF the lines of no enabled tenant (R299,
R426). -/
def mirroredAt (s : State) (a : Nat) : Bool :=
  let f := s.shadow.func
  if f = 0 then
    !((List.range 8).any fun t => funcState s (t + 1) != 0 && insideRegions (regionsOf s (t + 1)) 17 a 1)
  else insideRegions (regionsOf s f) 17 a 1

/-- A wain's or a host's write has been acknowledged: the elder mirrors it as DATA (R426). -/
def mirrorWrite (s : State) (w : GWrite) : State :=
  match w.cells with
  | [] => s
  | c :: _ => if uHost 0 ≤ w.unit && w.unit < uCore 0 && mirroredAt s c.1 then mirror s s.shadow.func 1 c.1 (w.cells.map (·.2)) else s

end Sys2Proof.Machine
end

