-- ==== Sys2Proof/Machine/Residents.lean ====
section
/-! DEFINITION. What lives in a function beside its registers: sequences (R224, R225), bundles, jobs, sessions and key slots
(R366-R375), stream contexts (R266), step digests (R427) and ranges under scrub (R377); and what each does when its function,
its bays or the module stop. -/

namespace Sys2Proof.Machine

/-! ### Sequences (R224, R225, R230) -/

def seqOf (s : State) (i : Nat) : Seq := mget (fun _ => {}) s.seqs i
def setSeq (s : State) (i : Nat) (q : Seq) : State := { s with seqs := mset (fun _ => {}) s.seqs i q }

/-- The handle of an entry (R224). -/
def handleOf (i : Nat) (q : Seq) : Nat := i + 2 ^ 12 * (q.gen % 2 ^ 20)

/-- Entries that satisfy a test, by index. -/
def seqsWith (s : State) (p : Seq → Bool) : List Nat := (s.seqs.filter fun e => p e.2).map (·.1)

/-- States in which a sequence has more to do (R312): QUEUED, PREFILL, DECODE, WAIT_MASK, PREEMPTED. -/
def seqWorks (q : Seq) : Bool := [1, 2, 3, 4, 6].contains q.st

/-- States that end only by CANCEL, a deadline or a failure: any but FREE, CANCELLED and ENDED (R230). -/
def seqLives (q : Seq) : Bool := [1, 2, 3, 4, 5, 6].contains q.st

/-- Whether a drain waits for a sequence of the function (R312). -/
def seqBusy (s : State) (f : Nat) : Bool := s.seqs.any fun e => e.2.func == f && seqWorks e.2

/-- Whether a sequence of the function still holds its entry: step 6 waits for the next boundary (R313). -/
def seqHeld (s : State) (f : Nat) : Bool := s.seqs.any fun e => e.2.func == f && e.2.st != 0

/-- Handles of a function's sequences that are not FREE (R493). -/
def seqHandles (s : State) (f : Nat) : List Nat :=
  (s.seqs.filter fun e => e.2.func == f && e.2.st != 0).map fun e => handleOf e.1 e.2

/-- A field of the request block (R226). -/
def reqNum (q : Seq) (off len : Nat) : Nat := num q.req off len
def promptLen (q : Seq) : Nat := reqNum q 0x20 4
def maxNew (q : Seq) : Nat := reqNum q 0x24 4
def reqPrio (q : Seq) : Nat := reqNum q 0x50 1 % 8
def reqDrop (q : Seq) : Bool := bit (reqNum q 0x51 1) 0
def reqMasked (q : Seq) : Bool := bit (reqNum q 0x51 1) 1
def reqPenPrompt (q : Seq) : Bool := bit (reqNum q 0x51 1) 2
def reqPool (q : Seq) : Nat := reqNum q 0x55 1 % 8
def reqTokrec (q : Seq) : Nat := reqNum q 0x10 8
def specMax (q : Seq) : Nat := reqNum q 0x54 1 % 64
def reqGreedy (q : Seq) : Bool := reqNum q 0x2C 4 == 0

/-- The 128 bytes of an entry (R225). -/
def entryBytes (i : Nat) (q : Seq) : Bytes :=
  toLE 4 (handleOf i q) ++ toLE 1 q.st ++ toLE 1 (q.func + 16 * q.bundle) ++ toLE 1 q.specN ++ toLE 1 (q.misses + 16 * q.hits)
    ++ toLE 8 q.admitNo ++ toLE 4 q.genTok ++ toLE 2 q.pt ++ toLE 2 q.endCode ++ toLE 4 q.user ++ toLE 4 q.lastStep
    ++ sub q.req 0 86 ++ toLE 1 q.probe ++ toLE 9 0

/-- Address of a sequence's page table (R180), and the pages it names (R183). -/
def tabAddr (s : State) (q : Seq) : Nat := (geoOf s (reqPool q)).ptAddr q.pt
def seqPages (s : State) (q : Seq) : Nat := if q.table then ptPages (gnum s (tabAddr s q) 8) else 0

/-- Where the sequence table lies, in the reserved range (R225; notes/assumptions/179). -/
def seqTabAt : Nat := granReserved + 64 * (Config.seqTab % (2 ^ 26 - 2 ^ 13))

/-- Word i of SRV_SEQ_WIN: the selected entry as published at the last boundary (R258). -/
def seqWindow (s : State) (i : Nat) : Nat :=
  let n := rf s K.srvSeqSel 11 0
  num (entryBytes n (mget (fun _ => {}) s.seqPub n)) (4 * i) 4

/-- Steps are stopped: PAUSE, HALT_ON_ERR (R43), a rebuild of the KV tables (R191), or a snapshot that waits for its fire (R437). -/
def paused (s : State) : Bool :=
  s.srv.pause || haltedOnErr s pgSrv || rf s K.kvmState 1 0 == 1 || s.tallyWaits.any fun w => w.kind == 0 && w.phase != 0
/-- SRV_STATE: RUNNING while a step runs, PAUSED while something stops the steps, else IDLE; and the entries not FREE
(R256, R257). -/
def srvMode (s : State) : Nat := if s.srv.running then 1 else if paused s then 2 else 0
def srvState (s : State) : Nat := srvMode s + 2 ^ 16 * (seqsWith s (·.st != 0)).length

/-- Free units of a pool (R180, R218): those neither in a page nor held out. -/
def kvFree (s : State) (n : Nat) : Nat :=
  if !kvEnabled s n || kvHostmgd s n then 0
  else (geoOf s n).units - ((blocks s n).map fun p => 2 ^ p.2).sum
    - ((s.kvPoison.filter (·.1 == n)).map fun p => 2 ^ p.2.2).sum

/-- Units held out under R217. -/
def kvPoisoned (s : State) : Nat := (s.kvPoison.map fun p => 2 ^ p.2.2).sum

/-- A sequence is CANCELLED at request level (R252, R253). -/
def cancelSeq (s : State) (i : Nat) : State :=
  satIncr (setSeq s i { seqOf s i with st := 7, result := none }) K.srvCancelled 1

def area (s : State) (f : Nat) : Area := mget (fun _ => { addr := 0, size := 0, ring := 0 }) s.srv.areas f
def setArea (s : State) (f : Nat) (x : Area) : State :=
  { s with srv := { s.srv with areas := mset (fun _ => { addr := 0, size := 0, ring := 0 }) s.srv.areas f x } }

/-- Step 2 of R313: a function's sequences are cancelled and its held batch records discarded. -/
def cancelSeqs (s : State) (f : Nat) : State :=
  let s := (seqsWith s fun q => q.func == f && seqLives q).foldl cancelSeq s
  setArea s f { area s f with held := [] }

/-- Every sequence that is not FREE is ENDED with a code, and the running step is abandoned (R423). -/
def endSeqs (s : State) (code : Nat) : State :=
  let s := (seqsWith s (·.st != 0)).foldl (fun s i =>
    setSeq s i { seqOf s i with st := 8, endCode := code, inStep := false, result := none, tree := [] }) s
  { s with srv := { s.srv with running := false, bays := [], mid := none }, stepEpoch := none }

/-- The space of the oldest record of a length is released (R251). -/
def batchGone (s : State) (f n : Nat) : State :=
  let x := area s f
  setArea s f { x with used := dropFirst (· == n) x.used }

/-! ### Bays that change owner or stop (R116, R234, R373) -/

/-- A bay goes to an owner: written bits and token counters clear (R116, R124). -/
def assignBay (s : State) (b owner : Nat) : State :=
  setBay s b { clearWritten (bay s b) with owner := owner, tokens := [] }

/-- Halt a bay: a running one issues nothing more (R132). -/
def haltBay (s : State) (b : Nat) : State :=
  if (bay s b).st = .running then setBay s b { bay s b with halting := true } else s

/-- Halt a bay for good: a composite that an ERROR left running stops too (R121, R313). -/
def stopBay (s : State) (b : Nat) : State :=
  if (bay s b).st = .running || (bay s b).comp.isSome then setBay s b { bay s b with halting := true } else s

/-- Whether every output of a job is empty (R159, R309). -/
def jobEmpty (s : State) (j : Job) : Bool :=
  let outs := j.bays.filterMap fun b => (bay s b).outs
  !outs.isEmpty && outs.all id

/-! ### Bundles and step digests (R373, R427) -/

def bundleKey (f n : Nat) : Nat := 16 * f + n
def bundle? (s : State) (f n : Nat) : Option Bundle := (s.sec.bundles.find? fun e => e.1 == bundleKey f n).map (·.2)
def bundlesOf (s : State) (f : Nat) : List (Nat × Bundle) := s.sec.bundles.filter fun e => e.1 / 16 == f

/-- The digested tensors of a function: first line and lines, in bundle order (R427). -/
def digested (s : State) (f : Nat) : List (Nat × Nat) := ((bundlesOf s f).flatMap fun e => e.2.info.digested).take 64

/-- Whether a function takes part in a shadow relation, on this module's side. -/
def inRelation (s : State) (f : Nat) : Bool := [1, 2, 3].contains (shadowSt s) && s.shadow.func == f

/-- Whether this module is the shadow of a function's relation: it writes nothing to host memory for it (R426). -/
def shadows (s : State) (f : Nat) : Bool := (shadowSt s == 2 || shadowSt s == 3) && s.shadow.func == f

def sumKey (f t : Nat) : Nat := 64 * f + t

/-- Fold a line that a STORE writes into the digested tensors of a function (R427). -/
def foldLine (s : State) (f line : Nat) (bs : Bytes) : State :=
  if !inRelation s f then s
  else
    let ts := digested s f
    ((List.range ts.length).zip ts).foldl (fun s e =>
      if e.2.1 ≤ line && line < e.2.1 + e.2.2 then
        let k := sumKey f e.1
        let v := m64 (mget (fun _ => 0) s.srv.sums k + lineHash e.1 (line - e.2.1) (lineWords bs))
        { s with srv := { s.srv with sums := mset (fun _ => 0) s.srv.sums k v } }
      else s) s

/-- The digests of a function's step end: the elder writes them to the ring under a step number, the shadow keeps them for
comparison; the sums begin anew (R427). Each entry is 32 bytes (R250). -/
def closeDigest (s : State) (f step : Nat) (entries : List Bytes) : State :=
  if !inRelation s f then s
  else
    let n := (digested s f).length
    let ts := (List.range n).map fun t => mget (fun _ => 0) s.srv.sums (sumKey f t)
    let b := (entries.map fun e => lineHash 64 0 (lineWords e)).foldl (fun a h => m64 (a + h)) 0
    let s := { s with srv := { s.srv with sums := s.srv.sums.filter fun e => e.1 / 64 != f } }
    if shadows s f then { s with shadow := { s.shadow with digests := s.shadow.digests ++ [(b, ts)] } }
    else mirror s f 4 step ((stepDigest step ts b :: ts).flatMap (toLE 8))

/-- Code with which a job completes: that of its first bay that failed, FUNC_DISABLING while its function goes down. -/
def jobCode (s : State) (j : Job) : Nat :=
  if j.code ≠ 0 then j.code else if j.func ≠ 0 && 4 ≤ funcState s j.func then eFuncDisabling else 0

/-- Jobs none of whose bays runs any more complete (R373, R427). -/
def jobsCheck (s : State) : State :=
  let ended := fun (s : State) (j : Job) => j.bays.all fun b => (bay s b).st != .running
  let done := s.sec.jobs.filter (ended s)
  let s := { s with sec := { s.sec with jobs := s.sec.jobs.filter fun j => !ended s j } }
  done.foldl (fun s j =>
    let s := closeDigest s j.func (rd64 s K.srvStepLo + s.srv.jobSteps) []
    let s := { s with srv := { s.srv with jobSteps := s.srv.jobSteps + 1 } }
    match s.cmds.find? (·.id == j.cmd) with
    | some c => finishC s c (jobCode s j) (now s - j.start) 0 (b2n (jobEmpty s j))
    | none => s) s

/-- A job that uses a bay which failed ends with the code of the first one (R373). -/
def failJob (s : State) (b code : Nat) : State :=
  { s with sec := { s.sec with jobs := s.sec.jobs.map fun j => if j.code = 0 && j.bays.contains b then { j with code := code } else j } }

/-- A bay of the running step enters ERROR: the other bays of its function in the step halt, and every sequence of that
function in the step ends with the code at the boundary (R234). A job with the bay may be over. -/
def bayFailed (s : State) (b code : Nat) : State :=
  if s.srv.running && s.srv.bays.contains b then
    let own := (bay s b).owner
    let s := (s.srv.bays.filter fun x => x != b && (bay s x).owner == own).foldl haltBay s
    let s := (seqsWith s fun q => q.func == own && q.inStep && q.fail == 0).foldl (fun s i =>
      setSeq s i { seqOf s i with fail := code }) s
    jobsCheck (failJob s b code)
  else jobsCheck (failJob s b code)

/-! ### Sessions, key slots and the SEC page (R366-R379) -/

/-- End the sessions that satisfy a test. -/
def endSessions (s : State) (p : Session → Bool) : State :=
  { s with sec := { s.sec with sessions := s.sec.sessions.filter fun x => !p x } }

/-- A full slot of a tenant function (R367). -/
def slotFull (s : State) (f k : Nat) : Bool := s.keySlots.any fun e => e.1 == 8 * (f - 1) + k

/-- Bitmap of a tenant function's full slots. -/
def slotMap (s : State) (f : Nat) : Nat := ((List.range 8).map fun k => if slotFull s f k then 2 ^ k else 0).sum

/-- SEC_KEYS: four tenants from function f on. -/
def secKeys (s : State) (f : Nat) : Nat := ((List.range 4).map fun i => 2 ^ (8 * i) * slotMap s (f + i)).sum

/-- Whether a scrub runs or waits (R377, R379). -/
def scrubbing (s : State) : Bool :=
  s.tenants.any (fun e => !e.2.scrub.isEmpty) || !s.orphans.isEmpty || !s.sec.scrubs.isEmpty || !s.sec.kvScrubs.isEmpty

/-- Whether a page holds a line that is still poisoned. -/
def pagePoisoned (s : State) (p u c : Nat) : Bool := poisonedIn s (pageRange s p u c).1 (pageRange s p u c).2

/-- A page leaves its pool's pages: its units are free, or are held out of the allocator while it is poisoned (R217, R489). -/
def freeOrHold (s : State) (p u c : Nat) : State :=
  let s := freePage s p u
  if pagePoisoned s p u c then { s with kvPoison := s.kvPoison ++ [(p, u, c)] } else s

/-- A function's bundles, their loads and jobs are gone with its scrub (R375). -/
def dropBundles (s : State) (f : Nat) : State :=
  { s with sec := { s.sec with
      bundles := s.sec.bundles.filter fun e => e.1 / 16 != f
      jobs := s.sec.jobs.filter (·.func != f)
      load := if (s.sec.load.map (·.func)) = some f then none else s.sec.load } }

/-- Step 6 of R313 for what the security services and the sequencer keep: key slots, sessions, bundles, token area; what the
function's commands still had to do has ended. -/
def forgetFunction (s : State) (f : Nat) : State :=
  let s := (s.cmds.filter fun c => decide (c.src < 0x100) && cmdFunc c == f).foldl (fun s c => finish s c eFuncDisabling) s
  let s := { s with keySlots := s.keySlots.filter fun e => e.1 / 8 + 1 != f }
  setArea (dropBundles (endSessions s fun x => x.func == some f) f) f { addr := 0, size := 0, ring := 0 }

/-- Scopes open once no confidential tenant is left: keys and sessions go, and measurement 4 changes (R376). -/
def openScopes (s : State) : State :=
  if s.sec.unlocks.isEmpty then s
  else if ((List.range 8).map (· + 1)).any fun f => funcState s f != 0 && bit (rd s (K.funcState (f - 1))) 8 then s
  else
    let l := s.sec.unlocks
    let s := endSessions { s with keySlots := [], keysLocked := true, mgmtKey := [] } fun _ => true
    let s := wf (setBit s K.secMgmt 0 false) K.secState 10 8 (l.foldl (fun v e => Nat.lor v e.2) (rf s K.secState 10 8))
    l.foldl (fun s e => finishId s e.1 0) { s with sec := { s.sec with unlocks := [] } }

/-! ### Stream contexts (R266-R275) -/

/-- VENC_LAMBDA_q: λ of a QP, 16.16 fixed point (R279, R288). -/
def lambdaOf (qp : Nat) : Nat := Config.lambda qp % 2 ^ 32

def vctx (s : State) (i : Nat) : VidCtx := mget (fun _ => {}) s.video i
def setVctx (s : State) (i : Nat) (x : VidCtx) : State := { s with video := mset (fun _ => {}) s.video i x }
def vcore (s : State) (c : Nat) : VidCore := mget (fun _ => {}) s.cores c
def setVcore (s : State) (c : Nat) (x : VidCore) : State := { s with cores := mset (fun _ => {}) s.cores c x }

/-- An encode stream, and its DROP policy (R267). -/
def vidEncode (x : VidCtx) : Bool := bit (num x.block 0 1) 2
def vidDrop (x : VidCtx) : Bool := bit (num x.block 1 1) 3

/-- Whether a drain waits for a context of the function: RUNNING, STALLED or FLUSHING (R312). -/
def videoBusy (s : State) (f : Nat) : Bool := s.video.any fun e => e.2.func == f && [2, 3, 4].contains e.2.st

/-- Whether a context of the function is not FREE (R313, step 5). -/
def videoOpen (s : State) (f : Nat) : Bool := s.video.any fun e => e.2.func == f && e.2.st != 0

/-- Whether a decode or encode context is not FREE (R287). -/
def ctxLive (s : State) (enc : Bool) : Bool := s.video.any fun e => e.2.st != 0 && vidEncode e.2 == enc

/-- Whether a stream or tap of the function drops frames (R425). -/
def videoDrops (s : State) (f : Nat) : Bool :=
  s.video.any fun e => e.2.func == f && e.2.st != 0 && (vidDrop e.2 || e.2.taps.any fun t => bit (num t 0x3A 1) 0)

/-- A function's contexts close (R271). -/
def closeVideo (s : State) (f : Nat) : State :=
  s.video.foldl (fun s e =>
    if e.2.func == f && e.2.st != 0 && e.2.st != 6 then setVctx s e.1 { vctx s e.1 with st := 6 } else s) s

/-- The unit a core runs is abandoned and runs again from its start (R476): its context is free to be chosen. -/
def abandonCore (s : State) (core : Nat) : State :=
  match (vcore s core).ctx with
  | some i => setVcore (setVctx s i { vctx s i with onCore := none }) core { vcore s core with ctx := none }
  | none => s

end Sys2Proof.Machine
end

