-- ==== Sys2Proof/Machine/Rules.lean ====
section
/-! DEFINITION. What a page's values must satisfy, and what new values do at once: the rules of the blocks that a page
commit (R50) and a raised bent (R73) are checked against. -/

namespace Sys2Proof.Machine

/-! ### Checks per page type -/

def pwrOk (s : State) : Bool :=
  let lo := rf s K.pwrBounds 9 0
  let hi := rf s K.pwrBounds 25 16
  let cap := rf s K.pwrCap 9 0
  let slope := rf s K.pwrSlope 6 0
  decide (250 ≤ lo) && decide (hi ≤ 900) && decide (lo ≤ hi) && decide (lo ≤ cap) && decide (cap ≤ hi)
    && decide (2 ≤ slope) && decide (slope ≤ 64)
    && (List.range 16).all fun p =>
      let o := rf s (K.pwrPhaseOpp p) 6 0
      o == 0 || (decide (16 ≤ o) && decide (o ≤ 80))

def thmOk (s : State) : Bool := let v := rf s K.thmCpvol 15 0; decide (3000 ≤ v) && decide (v ≤ 4300)

/-- Whether a signed value lies within plus or minus a bound. -/
def within (b : Int) (i : Int) : Bool := decide (-b ≤ i) && decide (i ≤ b)

def calOk (s : State) : Bool :=
  within 32 (uJunc s) && within 32 (uHbm s) && within 32 (uCool s) && within 200 (sgn 10 (rd s K.calUsrPgain))
    && decide (guardBand s ≤ 40)

def claimOk (s : State) : Bool :=
  let i := rf s K.claimCfg 9 0
  decide (1 ≤ i) && decide (i ≤ 1000) && decide (rf s K.claimCfg 31 16 ≤ 60000)

def fieldOk (s : State) (page : Nat) : Bool :=
  let ok := fun n => decide (16 ≤ n) && decide (n ≤ 80)
  ok (rf s (K.fieldFreq (page - 0x340)) 6 0) && ok (rf s (K.fieldFixed (page - 0x340)) 6 0)

/-- The host slots a function may hold (R80). -/
def quota (s : State) (f : Nat) : Nat :=
  if f = 8 then rf s K.txnQuotaHi 3 0 else rf s K.txnQuotaLo (4 * f + 3) (4 * f)

def txnOk (s : State) : Bool := decide (((List.range 9).map (quota s)).sum ≤ 24)

def grnOk (s : State) (page : Nat) : Bool :=
  let w := rd s (K.grnWeight (page - 0x40))
  fld w 7 0 + fld w 15 8 + fld w 23 16 + fld w 31 24 == 100

/-- Rules of one tally counter (R443). -/
def counterOk (s : State) (c : Nat) : Bool :=
  let m := rd s (K.tallyMode c)
  let mode := fld m 1 0
  let owner := rf s (K.tallyOwner c) 3 0
  let sub := rd s (K.tallySub c)
  let b0 := fld sub 9 0
  let b1 := fld sub 19 10
  decide (mode ≠ 3) && !(decide (9 ≤ owner) && decide (owner ≤ 14))
    && !(mode == 1 && rd s (K.tallyTarget c) == 0)
    && !(mode == 2 && decide (16 < fld m 7 3))
    && !(mode == 2 && !bit m 2 && rd s (K.tallyParentLo c) == 0 && rd s (K.tallyParentHi c) == 0)
    && !(mode == 2 && ((List.range (min 16 (fld m 7 3))).any fun k => !bit (rd s (K.tallyChildCfg c k)) 16))
    && (b0 == 0x3FF || (decide (b0 ≤ 575) && decide (b1 ≤ 575) && decide (b0 ≤ b1)))
    && decide (fld sub 31 24 ≠ 0)

def tallyOk (s : State) : Bool := (List.range 256).all (counterOk s)

/-- Whether a counter's staged registers differ between two states (R443). -/
def counterChanged (old new : State) (c : Nat) : Bool :=
  let k := fun k => rd old k != rd new k
  k (K.tallyOwner c) || k (K.tallyTarget c) || k (K.tallyMode c) || k (K.tallyParentLo c) || k (K.tallyParentHi c)
    || k (K.tallyLink c) || k (K.tallySub c)
    || (List.range 16).any fun i => k (K.tallyChildLo c i) || k (K.tallyChildHi c i) || k (K.tallyChildCfg c i)

/-- Counters that armed bents name. -/
def armedCounters (s : State) : List Nat :=
  s.slots.filterMap fun e => if e.2.st = .armed && e.2.mode == 2 then some e.2.tally else none

/-- The resource registers of a FUNC page (R300). -/
def resourceKeys (t : Nat) : List Nat :=
  [K.funcCfg t, K.funcWains t] ++ (List.range 18).map (K.funcBaymap t)
    ++ (List.range 16).map (K.funcRegionBase t) ++ (List.range 16).map (K.funcRegionSize t)

def funcOk (old new : State) (page : Nat) : Bool :=
  let t := page - 0x10
  decide (1 ≤ rf new (K.funcDrainTimeout t) 15 0) && (resourceKeys t).all fun k => rd old k == rd new k

/-- Whether a number is a power of two from 64 to 65,536 (R178). -/
def strideOk (n : Nat) : Bool := (List.range 11).any fun i => n == 64 * 2 ^ i

/-- Rules of one enabled pool by itself (R221). -/
def poolOk (s : State) (n : Nat) : Bool :=
  let g := geoOf s n
  let funcs := (List.range 9).filter (kvAllows s n)
  let fmt := rf s (K.kvGeo n) 31 28
  decide (g.units % 128 = 0) && strideOk g.stride && decide (g.l ≠ 0) && (fmt == 3 || fmt == 1)
    && decide (kvHeadroom s n ≤ 8) && decide (g.maxseq ≤ 4096) && allocatable g.base g.footprint
    && (!kvHostmgd s n || (match funcs with | [f] => ownsRange s f g.base g.footprint | _ => false))

/-- The pool fields that may not change while the pool is enabled (R221). -/
def poolFixed (old new : State) (n : Nat) : Bool :=
  [K.kvBaseLo n, K.kvBaseHi n, K.kvUnits n, K.kvGeo n, K.kvMaxseq n, K.kvTagLo n, K.kvTagHi n].all
    fun k => rd old k == rd new k

/-- Rules of one swap record in use (R221). -/
def swapOk (s : State) (f : Nat) : Bool :=
  let c := rd s (K.kvSwapCfg f)
  rf s (K.wainOwner (fld c 4 0)) 3 0 == f
    && !(f != 0 && bit (rd s (K.funcCfg (f - 1))) 0 && !bit c 11) && !(f == 0 && bit c 11)

def kvmOk (old new : State) : Bool :=
  let on := (List.range 8).filter (kvEnabled new)
  on.all (poolOk new)
    && (on.all fun n => on.all fun m => n == m ||
      !overlap (geoOf new n).base (geoOf new n).footprint (geoOf new m).base (geoOf new m).footprint)
    && ((List.range 8).all fun n => !kvEnabled old n || poolFixed old new n)
    && ((List.range 8).all fun n => !kvEnabled old n || kvEnabled new n || (blocks old n).isEmpty)
    && (List.range 9).all fun f => !swapInUse new f || swapOk new f

def srvOk (s : State) : Bool :=
  let m := rf s K.srvMaxbatch 10 0
  decide (1 ≤ m) && decide (m ≤ 1024) && decide (rf s K.srvPrefill 18 0 ≤ 262144)

def vidOk (s : State) : Bool :=
  let c := rd s K.vidCoreEn
  !(fld c 3 0 == 0 && ctxLive s false) && !(fld c 5 4 == 0 && ctxLive s true)

/-- MSG_BAYMAP (R299): no bay of a tenant that is not DISABLED, no BIST-disabled bay, no RUNNING bay that would change
owner. -/
def baymapOk (s : State) : Bool :=
  (List.range nBays).all fun b =>
    let x := bay s b
    let mine := bayBit s 0 b
    !(mine && (x.off || (List.range 8).any fun t => funcState s (t + 1) != 0 && bayBit s (t + 1) b))
      && !(x.st == .running && (mine && x.owner != 0 || !mine && x.owner == 0))

/-- The rules of a page's block on the values that would be active: the code of the first breach, or 0. -/
def pageCode (old new : State) (page : Nat) : Nat :=
  let bad := fun (ok : Bool) => if ok then 0 else eTxnInvalid
  match pageType page with
  | 0x3 => bad (pwrOk new)
  | 0x4 => bad (thmOk new)
  | 0x5 => bad (calOk new)
  | 0x8 => if baymapOk new then 0 else eFuncResource
  | 0x9 => bad (claimOk new)
  | 0xA => bad (txnOk new)
  | 0xB => bad (rf new K.shadowProof 15 0 != 0)
  | 0xC => bad (tallyOk new)
  | 0xD => bad (!(bit (rd new K.mgmtCtrl) 0 && new.mgmtKey.isEmpty))
  | 0x10 => bad (funcOk old new page)
  | 0x12 => bad (grnOk new page)
  | 0x13 => bad (kvmOk old new)
  | 0x16 => bad (srvOk new)
  | 0x18 => bad (vidOk new)
  | 0x21 => bad (fieldOk new page)
  | _ => 0

/-! ### What new values do at once -/

/-- Bays that MSG_BAYMAP gives to MF or takes from it are assigned (R116, R124, R299). -/
def assignMfBays (s : State) : State :=
  (List.range nBays).foldl (fun s b =>
    if bayBit s 0 b && (bay s b).owner != 0 then assignBay s b 0
    else if !bayBit s 0 b && (bay s b).owner == 0 then assignBay s b 15
    else s) s

/-- The active fence table as flash keeps it (R418). -/
def fenceTable (s : State) : Map Nat :=
  (List.range 64).filterMap fun i => let v := rd s (K.fenceRid i); if v = 0 then none else some (i, v)

/-- A change of user calibration values starts a save, or repeats it (R482). -/
def startSave (s : State) : State :=
  if s.flash.calSaving then { s with flash := { s.flash with calAgain := true } }
  else setBit { s with flash := { s.flash with calSaving := true } } K.calState 0 true

/-- The three words of the user calibration set. -/
def userSet (s : State) : List Nat := [rd s K.calUsrTofs, rd s K.calUsrPgain, rd s K.calUsrGuard]

/-- The read-only registers of a pool's active record (R180, R219). -/
def showPool (s : State) (n : Nat) : State :=
  let g := geoOf s n
  wr64 (wr64 (wr s (K.kvUnitsz n) g.unit) (K.kvRcLo n) g.rcBase) (K.kvPtLo n) (g.ptAddr 0)

/-- A changed SEC_TID ends every session bound to that tenant (R366). -/
def endMovedSessions (old s : State) : State :=
  endSessions s fun x => match x.func with
    | some f => (List.range 12).any fun j => rd old (K.secTid (f - 1) j) != rd s (K.secTid (f - 1) j)
    | none => false

/-- What a page's new active values do at once. -/
def afterApply (old s : State) (page : Nat) : State :=
  match pageType page with
  | 0x3 => judgeLag (retarget s)
  | 0x6 => endMovedSessions old s
  | 0x5 => if userSet old = userSet s then s else startSave s
  | 0x8 => assignMfBays s
  | 0xB => { s with flash := { s.flash with fenceTable := fenceTable s } }
  | 0xC => (List.range 256).foldl treeUpdate s
  | 0x10 =>
    let t := page - 0x10
    if bit (rd old (K.funcExpertAllow t)) 0 && !bit (rd s (K.funcExpertAllow t)) 0 then relockFunc s (t + 1) else s
  | 0x13 => (List.range 8).foldl showPool s
  | 0x21 => enforceCeil s (page - 0x340)
  | _ => s

/-- Steps of a page's version while a slot holds actions for it (R53). -/
def markClash (s : State) (page : Nat) : State :=
  { s with slots := s.slots.map fun e =>
      if e.2.actions.any fun a => a.kind == 1 && homePage (a.target / 0x1000) == page then
        (e.1, { e.2 with clash := page :: e.2.clash })
      else e }

/-! ### Page commit (R50) -/

/-- Pages whose commits are control-plane acts (R317). -/
def controlPage (page : Nat) : Bool := [0x3, 0x4, 0x5, 0x6, 0x8, 0x9, 0xB, 0xC, 0xD, 0x13, 0x10].contains (pageType page)

/-- The last value written to CLAIM_KEY through a port (R326). -/
def claimKey (s : State) (p : Nat) : Nat := s.claimKeys.getD p 0

/-- The code that a commit of a page fails with, or 0. -/
def commitCode (s : State) (page v : Nat) : Nat :=
  if !bit v 29 && fld v 15 0 ≠ rf s (K.blkPagever page) 15 0 then eTxnConflict
  else
    let new := applyStaged s page
    let code := pageCode s new page
    if code ≠ 0 then code
    else if page = pgTally && (armedCounters s).any (counterChanged s new) then eTxnInvalid
    else 0

/-- A commit of a page by a function through a port. -/
def commit (s : State) (page : Nat) (a : Access) (v : Nat) : State :=
  let claim := if controlPage page then claimCode s (claimKey s a.port) else 0
  if claim ≠ 0 then raiseIrq (recordErr (refuseAct s (claimKey s a.port) claim 0) page claim a.func 0x30) page 1
  else
    let code := commitCode s page v
    if code ≠ 0 then raiseIrq (recordErr s page code a.func 0x30) page 1
    else
      let s' := markClash (bumpVer (applyStaged s page) page) page
      raiseIrq (afterApply s s' page) page 1

/-- BLK_COMMIT with GO and without DISCARD (R50). -/
def execPageCommit (a : Access) (v : Nat) (s : State) : Host.Outcome State Fault Refusal :=
  .next (atPlace s a fun s pl =>
    if pl.off = 0x30 && bit v 31 && !bit v 30 then commit s pl.page a v else s)

/-- BLK_COMMIT with DISCARD (R50). -/
def execPageDiscard (a : Access) (v : Nat) (s : State) : Host.Outcome State Fault Refusal :=
  .next (atPlace s a fun s pl =>
    if pl.off = 0x30 && bit v 30 then raiseIrq (discardStaged s pl.page) pl.page 1 else s)

end Sys2Proof.Machine
end

