-- ==== Sys2Proof/Machine/Wain.lean ====
section
/-! DEFINITION. Wains, the DMA engine (R335-R357): post queues, descriptor checks, bursts, encryption, completion records,
aborts, and the chains that firmware posts on a function's channel (R355). -/

namespace Sys2Proof.Machine

def wain (s : State) (c : Nat) : Wain := mget (fun _ => {}) s.wains c
def setWain (s : State) (c : Nat) (x : Wain) : State := { s with wains := mset (fun _ => {}) s.wains c x }

/-- WAIN_STATE.STATE: 0 IDLE, 1 ACTIVE, 2 STOPPED, 3 ABORTING (R350). -/
def wainSt (s : State) (c : Nat) : Nat := rf s (K.wainState c) 1 0
def setWainSt (s : State) (c v : Nat) : State := wf s (K.wainState c) 1 0 v
def wainOwnerOf (s : State) (c : Nat) : Nat := rf s (K.wainOwner c) 3 0

/-- Show POSTED. -/
def showPosted (s : State) (c : Nat) : State := wf s (K.wainState c) 14 8 (wain s c).posts.length

/-- Firmware's waiting chains enter a channel's post queue as far as it has room, and none while it is ABORTING (R350, R355;
notes/assumptions/175). -/
def pourFirmware (s : State) (c : Nat) : State :=
  let x := wain s c
  if wainSt s c = 3 then s
  else
    let go := (s.fwWait.filter (·.1 == c)).take (64 - x.posts.length)
    let left := (s.fwWait.filter (·.1 == c)).drop (64 - x.posts.length)
    { setWain s c { x with posts := x.posts ++ go.map (·.2) } with fwWait := s.fwWait.filter (·.1 != c) ++ left }

/-- Start the next chain of an active channel (R337, R350). -/
def startChain (s : State) (c : Nat) : State :=
  let s := if s.fwWait.isEmpty then s else showPosted (pourFirmware s c) c
  let x := wain s c
  if (wainSt s c ≠ 0 && wainSt s c ≠ 1) || x.next.isSome || x.desc.isSome || haltedOnErr s (pgWain c) then s
  else
    match x.posts with
    | [] => setWainSt s c 0
    | p :: rest => showPosted (setWainSt (setWain s c { x with posts := rest, next := some p }) c 1) c

/-- Post a chain (R337, R350): discarded while ABORTING, or when the queue is full. -/
def postChain (s : State) (c func : Nat) (ch : Chain) (off : Nat) : State :=
  let x := wain s c
  if wainSt s c = 3 then recordErr s (pgWain c) eWainState func off
  else if 64 ≤ x.posts.length then recordErr s (pgWain c) eWainPostFull func off
  else startChain (showPosted (setWain s c { x with posts := x.posts ++ [ch] }) c) c

/-- Firmware posts descriptors as one chain of a copy (R355). -/
def postFirmware (s : State) (c job : Nat) (descs : List Bytes) : State :=
  if descs.isEmpty then s
  else startChain { s with fwWait := s.fwWait ++ [(c, { addr := 0, gran := true, firmware := true, descs := descs, job := job })] } c

/-- A descriptor of firmware (R338): source, destination, length, flags, key slot and NONCE. -/
def fwDesc (src dst len flags : Nat) (slot : Nat := 0) (nonce : Nat := 0) : Bytes :=
  toLE 8 0 ++ toLE 8 src ++ toLE 8 dst ++ toLE 4 len ++ toLE 4 flags ++ toLE 16 0 ++ toLE 1 slot ++ toLE 3 0 ++ toLE 8 nonce
    ++ toLE 4 0

/-- A DURABLE descriptor from granary to granary (R189, R246). -/
def copyDesc (src dst len : Nat) : Bytes := fwDesc src dst len 0x308

/-- Codes with which a copy's descriptors have ended so far, in order. -/
def jobCodes (s : State) (job : Nat) : List Nat := (s.fwDone.filter (·.1 == job)).map (·.2)

/-- Whether all n descriptors of a copy have ended. -/
def jobOver (s : State) (job n : Nat) : Bool := decide (n ≤ (jobCodes s job).length)

/-- A new copy on a channel; its number. -/
def startCopy (s : State) (c : Nat) (descs : List Bytes) : Nat × State :=
  (s.nextId, postFirmware { s with nextId := s.nextId + 1 } c s.nextId descs)

/-! ### Descriptor fields (R338, R339) -/

/-- FLAGS of a descriptor. -/
def dFlag (b : Bytes) (i : Nat) : Bool := bit (num b 0x1C 4) i
def dLen (b : Bytes) : Nat := num b 0x18 4
def dSrc (b : Bytes) : Nat := num b 0x08 8
def dDst (b : Bytes) : Nat := num b 0x10 8
def dEsize (b : Bytes) : Nat := num b 0x28 2 + 1
def dPort (b : Bytes) : Nat := fld (num b 0x1C 4) 7 6
def dGather (b : Bytes) : Bool := dFlag b 0
def dScatter (b : Bytes) : Bool := dFlag b 1
def dCrypt (b : Bytes) : Bool := dFlag b 2
def dDurable (b : Bytes) : Bool := dFlag b 3
def dCq (b : Bytes) : Bool := dFlag b 4
def dTxn (b : Bytes) : Bool := dFlag b 5
def dSrcGrn (b : Bytes) : Bool := dFlag b 8
def dDstGrn (b : Bytes) : Bool := dFlag b 9
def dMsg (b : Bytes) : Bool := dFlag b 11
def dIndexed (b : Bytes) : Bool := dGather b || dScatter b

/-- Address of the index table and bytes of one entry. -/
def indexBase (b : Bytes) : Nat := 8 * (num b 0x20 8 / 8)
def indexWidth (b : Bytes) : Nat := if dFlag b 10 then 8 else 4

/-- Whether the channel's completion queue is enabled. -/
def cqOn (s : State) (c : Nat) : Bool := bit (rd s (K.wainCqCfg c)) 8

/-- The malformed descriptors of R340. -/
def descBad (s : State) (c : Nat) (b : Bytes) (firmware : Bool) : Bool :=
  fld (num b 0 8) 5 2 != 0 || num b 0x1C 4 / 2 ^ 12 != 0 || dPort b == 3 || num b 0x2A 2 != 0 || num b 0x30 1 / 8 != 0
    || num b 0x31 3 != 0 || fld (num b 0x20 8) 2 1 != 0
    || dLen b == 0 || (!dSrcGrn b && !dDstGrn b) || (dGather b && dScatter b)
    || (dIndexed b && dLen b != dEsize b * num b 0x2C 4)
    || (dCrypt b && (dIndexed b || (dSrcGrn b && dDstGrn b)))
    || (dTxn b && (!dCrypt b || dSrcGrn b || decide (16777216 < dLen b)))
    || (dCq b && !firmware && !cqOn s c)

/-- The key of a tenant function's slot, if it is full and for CRYPT (R367). -/
def cryptKey (s : State) (f k : Nat) : Option Bytes :=
  (s.keySlots.find? fun e => e.1 == 8 * (f - 1) + k && bit e.2.1 0).map (·.2.2)

/-- The key of a descriptor's slot (R340). -/
def descKey (s : State) (c : Nat) (b : Bytes) : Option Bytes :=
  let f := wainOwnerOf s c
  if f = 0 then none
  else
    cryptKey s f (num b 0x30 1 % 8)

/-- The code of a granary range (R340): firmware may use the reserved range (R17). -/
def rangeCode (s : State) (c a n : Nat) (firmware : Bool) : Nat :=
  if firmware then (if granEnd < a + n then eMemRange else 0)
  else if granReserved < a + n then eMemRange
  else
    let f := wainOwnerOf s c
    if f ≠ 0 && !inRegions s f a n then eWainRegion else 0

/-- The owner runs in confidential mode (R354). -/
def confOwner (s : State) (c : Nat) : Bool :=
  let f := wainOwnerOf s c
  f != 0 && bit (rd s (K.funcState (f - 1))) 8

/-- The code a descriptor fails with at fetch, or 0 (R340). -/
def descCode (s : State) (c : Nat) (b : Bytes) (firmware : Bool) : Nat :=
  if descBad s c b firmware then eWainDesc
  else if dCrypt b && (descKey s c b).isNone then eWainKey
  else
    let src := if dSrcGrn b && !dGather b then rangeCode s c (dSrc b) (dLen b) firmware else 0
    let dst := if dDstGrn b && !dScatter b then rangeCode s c (dDst b) (dLen b) firmware else 0
    let tab := if dIndexed b && bit (num b 0x20 8) 0 then rangeCode s c (indexBase b) (indexWidth b * num b 0x2C 4) firmware else 0
    if src = eMemRange || dst = eMemRange || tab = eMemRange then eMemRange
    else if src ≠ 0 || dst ≠ 0 || tab ≠ 0 then eWainRegion
    else if confOwner s c && !dCrypt b && !(dSrcGrn b && dDstGrn b) && !firmware then eConfViolation
    else 0

/-! ### Units of a descriptor: bursts (R343), elements (R341) or frames (R352) -/

/-- The address that windows the bursts of a plain descriptor. -/
def burstBase (b : Bytes) : Nat := if !dSrcGrn b then dSrc b else if !dDstGrn b then dDst b else dSrc b

/-- Number of units. -/
def units (b : Bytes) : Nat :=
  if dIndexed b then num b 0x2C 4
  else if dCrypt b then cdiv (dLen b) 4096
  else cdiv (burstBase b % 4096 + dLen b) 4096

/-- Offset and length of unit i on the granary side. -/
def unitAt (b : Bytes) (i : Nat) : Nat × Nat :=
  if dIndexed b then (i * dEsize b, dEsize b)
  else if dCrypt b then (4096 * i, min 4096 (dLen b - 4096 * i))
  else
    let off := if i = 0 then 0 else 4096 * i - burstBase b % 4096
    (off, min (4096 * (i + 1) - burstBase b % 4096) (dLen b) - off)

/-- Units done without a gap from the first. -/
def prefixUnits (d : RunDesc) : Nat → Nat
  | 0 => 0
  | n + 1 => let k := prefixUnits d n
             if k = n && d.bursts.contains n then n + 1 else k

/-- RESIDUE (R346, R353). -/
def residue (d : RunDesc) : Nat :=
  if dTxn d.body then dLen d.body
  else
    let k := prefixUnits d (units d.body)
    dLen d.body - (if k = 0 then 0 else (unitAt d.body (k - 1)).1 + (unitAt d.body (k - 1)).2)

/-- All units done. -/
def allMoved (d : RunDesc) : Bool := prefixUnits d (units d.body) == units d.body

/-! ### Host-side accesses (R342) -/

/-- Host accesses that carry a run of bytes: a head up to the next 64-byte boundary, bodies of whole 64 bytes up to a limit, a tail; none
crosses a 4 KiB boundary. -/
def hostRuns (limit : Nat) : Nat → Nat → Bytes → List (Nat × Bytes)
  | 0, _, _ => []
  | k + 1, a, bs =>
    if bs.isEmpty then []
    else
      let n := if a % 64 ≠ 0 then min bs.length (64 - a % 64)
        else if bs.length < 64 then bs.length
        else min (64 * (bs.length / 64)) (min limit (4096 - a % 4096))
      (a, bs.take n) :: hostRuns limit k (a + n) (bs.drop n)

/-- The address that a channel uses for a host address: on a tenant channel with WAIN_CFG.ATS it is translated first. -/
def hostAddr (s : State) (c p a : Nat) : State × Nat :=
  let f := wainOwnerOf s c
  if f ≠ 0 && bit (rd s (K.wainCfg c)) 8 then
    (emit s (.translation p f (a / 4096)), 4096 * Config.translated f (a / 4096) + a % 4096)
  else (s, a)

/-- Write bytes to host memory. -/
def hostOut (s : State) (c p a : Nat) (bs : Bytes) : State :=
  (hostRuns (port s p).maxPayload (bs.length / 64 + 3) a bs).foldl (fun s e =>
    let (s, x) := hostAddr s c p e.1
    hostWrite s p (wainOwnerOf s c) x e.2) s

/-- Bytes have been read from host memory, in one page or across a page boundary. -/
def hostIn (s : State) (c p a n : Nat) : State :=
  (List.range (cdiv (a % 4096 + n) 4096)).foldl (fun s k => (hostAddr s c p (a + 4096 * k)).1) (countRx s p n)

/-! ### Completion (R346-R349) -/

/-- Write a completion record (R346, R348); none enters the reserved range or a granary line outside the owner's regions, which
records the range's code instead (R17; notes/assumptions/170). -/
def wainRecord (s : State) (c : Nat) (d : RunDesc) (status res detail : Nat) : State :=
  if d.firmware || !cqOn s c then s
  else
    let x := wain s c
    let tail := rf s (K.wainCqTail c) 15 0
    let size := 2 ^ rf s (K.wainCqCfg c) 3 0
    let lo := rd s (K.wainCqLo c)
    let addr := 32 * (lo / 32) + 2 ^ 32 * rd s (K.wainCqHi c) + 32 * tail
    let bad := if bit lo 0 then rangeCode s c addr 32 false else 0
    let bs := toLE 2 status ++ toLE 1 c ++ toLE 1 (b2n x.phase) ++ toLE 4 res ++ toLE 8 (d.addr + b2n d.gran)
      ++ toLE 8 (now s) ++ sub d.body 0x3C 4 ++ toLE 4 detail
    let tail' := (tail + 1) % size
    if bad ≠ 0 then recordErr s (pgWain c) bad (wainOwnerOf s c) 0x60
    else
    let s := wf (setWain s c { x with phase := if tail' = 0 then !x.phase else x.phase }) (K.wainCqTail c) 15 0 tail'
    if bit lo 0 then gwrite s (uWain c) addr bs
    else
      match choosePort s d.port with
      | some p => hostOut s c p addr bs
      | none => s

/-- Post a WAIN message (R349). -/
def wainMsg (s : State) (c : Nat) (d : RunDesc) (event status res detail : Nat) : State :=
  if d.firmware then s
  else
    let f := wainOwnerOf s c
    post s f (rf s (K.wainCfg c) 3 0) false
      { type := 0x20, func := f, flags := 0, mtime := now s,
        payload := toLE 1 c ++ toLE 1 event ++ toLE 2 status ++ toLE 4 res ++ toLE 8 (d.addr + b2n d.gran)
          ++ sub d.body 0x3C 4 ++ toLE 4 detail }

/-! ### The funnel (R342) -/

/-- Add a cell to cells in address order. -/
def cellInsert (c : Host.Cell) : List Host.Cell → List Host.Cell
  | [] => [c]
  | x :: l => if c.1 < x.1 then c :: x :: l else if c.1 = x.1 then c :: l else x :: cellInsert c l

/-- The bytes of a range, if the cells hold all of them. -/
def heldRange (l : List Host.Cell) (a n : Nat) : Option Bytes :=
  let bs := (l.filter fun c => decide (a ≤ c.1) && decide (c.1 < a + n)).map (·.2)
  if bs.length = n then some bs else none

/-- A unit's bytes at a join those in the funnel, for the destination run from r.1 to r.2: address and bytes of what is now complete
line by line, and what stays until other elements, bursts or frames complete its line (R342). -/
def funnelStep (l : List Host.Cell) (r : Nat × Nat) (a : Nat) (bs : Bytes) : Nat × Bytes × List Host.Cell :=
  let e := a + bs.length
  let first := max r.1 (64 * (a / 64))
  let last := min r.2 (64 * cdiv e 64)
  let low := heldRange l first (a - first)
  let high := heldRange l e (last - e)
  let lo := if low.isSome then first else 64 * (a / 64) + 64
  let hi := if high.isSome then last else 64 * (e / 64)
  let whole := low.getD [] ++ bs ++ high.getD []
  let keep := fun (c : Host.Cell) => !(decide (lo ≤ c.1) && decide (c.1 < hi))
  (lo, (whole.drop (lo - if low.isSome then first else a)).take (hi - lo),
    ((cellsAt a bs).filter keep).foldl (fun l c => cellInsert c l) (l.filter keep))

/-- The destination run that a unit's bytes at a belong to: the descriptor's, and each element's own for SCATTER. While ABORTING
nothing waits for other units (R351). -/
def destRun (s : State) (c : Nat) (d : RunDesc) (a n : Nat) : Nat × Nat :=
  let b := d.body
  if wainSt s c = 3 || dScatter b then (a, a + n)
  else (dDst b, dDst b + dLen b + if dCrypt b && !dDstGrn b then 16 * cdiv (dLen b) 4096 else 0)

/-- Cells in address order, line by line. -/
def lineGroups : List Host.Cell → List (List Host.Cell)
  | [] => []
  | c :: l =>
    match lineGroups l with
    | (e :: g) :: rest => if e.1 / 64 = c.1 / 64 then (c :: e :: g) :: rest else [c] :: (e :: g) :: rest
    | rest => [c] :: rest

/-- Runs of cells in address order: address and bytes. -/
def cellRuns : List Host.Cell → List (Nat × Bytes)
  | [] => []
  | c :: l =>
    match cellRuns l with
    | (a, bs) :: rest => if a = c.1 + 1 then (c.1, c.2 :: bs) :: rest else (c.1, [c.2]) :: (a, bs) :: rest
    | [] => [(c.1, [c.2])]

/-- Write what the funnel holds when no unit will complete it: a masked write for each line. -/
def drainFunnel (s : State) (c : Nat) (d : RunDesc) : State :=
  if dDstGrn d.body then (lineGroups d.funnel).foldl (fun s g => queueWrite s (uWain c) g) s
  else (cellRuns d.funnel).foldl (fun s r => hostOut s c d.port r.1 r.2) s

/-- Go on after a descriptor: the next of its chain, or the next chain (R337). -/
def wainNext (s : State) (c : Nat) (d : RunDesc) : State :=
  let nx := num d.body 0 8
  let x := { wain s c with desc := none }
  let x := if d.firmware then
      (if d.rest.isEmpty then { x with next := none }
       else { x with next := some { addr := 0, gran := true, firmware := true, descs := d.rest, job := d.job } })
    else if bit nx 0 then { x with next := some { addr := 64 * (nx / 64), gran := bit nx 1, port := d.port } }
    else { x with next := none }
  startChain (wf (setWain s c x) (K.wainState c) 3 3 0) c

/-- A failed descriptor ends (R350): record, message, STOPPED with the code. A firmware descriptor ends for firmware alone, and the
next of its copy follows (R355). -/
def endFailed (s : State) (c : Nat) (d : RunDesc) (code detail : Nat) : State :=
  if d.firmware then
    let s := if code = eAuthFail then satIncr s (K.wainAuthfail c) 1 else s
    wainNext { s with fwDone := s.fwDone ++ [(d.job, code)] } c d
  else
    let s := if code = eAuthFail then satIncr s (K.wainAuthfail c) 1 else s
    let s := wainMsg (wainRecord s c d code (residue d) detail) c d 2 code (residue d) detail
    let s := setWain s c { wain s c with desc := none, next := none }
    let s := wf (wf (setWainSt s c 2) (K.wainState c) 31 16 code) (K.wainState c) 3 3 0
    raiseIrq s (pgWain c) 17

/-- A descriptor fails (R345, R350): no unit moves any more, and it ends once its writes are acknowledged (R347). While the channel is
ABORTING the abort alone ends it (R351). -/
def failDesc (s : State) (c : Nat) (d : RunDesc) (code detail : Nat) : State :=
  if wainSt s c = 3 then s
  else
    let s := drainFunnel s c d
    let d := { d with funnel := [], failed := some (code, detail), waitCq := false }
    if writing s (uWain c) then setWain s c { wain s c with desc := some d } else endFailed s c d code detail

/-! ### Descriptor start (R340, R344, R348) -/

/-- Bytes outstanding on a port (R344). -/
def portLoad (s : State) (p : Nat) : Nat :=
  (s.wains.map fun e => match e.2.desc with
    | some d => if d.port = p && !d.waitCq then residue d else 0
    | none => 0).sum

/-- The port of a descriptor: none when the named port is down and the host is needed (R344). -/
def descPort (s : State) (b : Bytes) : Option Nat :=
  let any := if portUp s 0 && portUp s 1 then some (if portLoad s 1 < portLoad s 0 then 1 else 0) else choosePort s 0
  if dSrcGrn b && dDstGrn b && !(dIndexed b && num b 0x20 8 % 2 = 0) then some (any.getD 0)
  else if dPort b = 0 then any
  else if portUp s (dPort b - 1) then some (dPort b - 1) else none

/-- No entry of the completion queue is free (R348). -/
def cqFull (s : State) (c : Nat) : Bool :=
  cqOn s c && (rf s (K.wainCqTail c) 15 0 + 1) % 2 ^ rf s (K.wainCqCfg c) 3 0 == rf s (K.wainCqHead c) 15 0

/-- Start a checked descriptor, with the key it takes now (R368), or wait for a completion entry, without which a descriptor that
failed its checks cannot end either (R348). -/
def startDesc (s : State) (c : Nat) (d : RunDesc) : State :=
  if !d.firmware && cqFull s c then wf (setWain s c { wain s c with desc := some { d with waitCq := true } }) (K.wainState c) 3 3 1
  else
    match d.failed, descPort s d.body with
    | some f, _ => failDesc s c d f.1 f.2
    | none, none => failDesc s c d eWainPortDown 0
    | none, some p =>
      if dCrypt d.body && (descKey s c d.body).isNone then failDesc s c d eWainKey 0
      else
        let s := wf (wf s (K.wainState c) 3 3 0) (K.wainState c) 2 2 p
        setWain s c { wain s c with desc := some { d with port := p, waitCq := false, key := (descKey s c d.body).getD [] } }

/-- A descriptor has been fetched, and it starts once the previous one's record is written (R337, R340, R343): ok is false when the
host read failed. -/
def descFetched (c : Nat) (ok : Bool) (data : Bytes) (s : State) : State :=
  match (wain s c).next with
  | none => s
  | some ch =>
    if wainSt s c ≠ 1 || (wain s c).desc.isSome || writing s (uWain c) then s
    else
      let body := if ch.firmware then sub (ch.descs.headD []) 0 64 else if ch.gran then greadOf s (uWain c) ch.addr 64 else sub data 0 64
      let d : RunDesc := {
        addr := ch.addr, gran := ch.gran, body := body, port := ch.port, firmware := ch.firmware, rest := ch.descs.drop 1, job := ch.job }
      let s := wr64 (setWain s c { wain s c with next := none }) (K.wainCurLo c) ch.addr
      let code := if ch.firmware then descCode s c body true
        else if ch.gran then
          (if rangeCode s c ch.addr 64 false ≠ 0 then rangeCode s c ch.addr 64 false
           else if poisonedIn s ch.addr 64 then ePoison else descCode s c body false)
        else if !ok then eWainHostErr else descCode s c body false
      let s := if ch.gran then s else match choosePort s ch.port with
        | some p => hostIn s c p ch.addr 64
        | none => s
      startDesc s c (if code ≠ 0 then { d with failed := some (code, 0) } else d)

def execDescriptorFetchReturn (c : Nat) (ok : Bool) (data : Bytes) (s : State) : Host.Outcome State Fault Refusal :=
  .next (if c < 32 then descFetched c ok data s else s)

/-! ### Bursts (R341-R345, R352, R353) -/

/-- Count granary-side bytes (R356). -/
def wainBytes (s : State) (c n : Nat) : State := wr64 s (K.wainBytesLo c) ((rd64 s (K.wainBytesLo c) + n) % 2 ^ 64)

/-- Write bytes at a destination, granary or host. -/
def wainOut (s : State) (c : Nat) (d : RunDesc) (gran : Bool) (a : Nat) (bs : Bytes) : State :=
  if gran then gwrite s (uWain c) a bs
  else hostOut s c d.port a bs

/-- Mark a unit done. -/
def unitDone (s : State) (c : Nat) (d : RunDesc) (i : Nat) : State :=
  setWain s c { wain s c with desc := some { d with bursts := d.bursts ++ [i] } }

/-- A unit's bytes go through the funnel to the destination address a, and the unit is done. -/
def unitOut (s : State) (c : Nat) (d : RunDesc) (i a : Nat) (bs : Bytes) : State :=
  let f := funnelStep d.funnel (destRun s c d a bs.length) a bs
  unitDone (wainOut s c d (dDstGrn d.body) f.1 f.2.1) c { d with funnel := f.2.2 } i

/-- Whether the value of the destination byte at address a, whose source byte lies at address q, is undefined (R341): source and
destination overlap within the descriptor, or scatter elements overlap. -/
def overlapped (d : RunDesc) (q a : Nat) : Bool :=
  let b := d.body
  let n := dEsize b
  let inRun := fun (base x : Nat) => decide (base ≤ x) && decide (x < base + dLen b)
  let inElem := fun (x : Nat) => d.elems.any fun e => decide (e ≤ x) && decide (x < e + n)
  let both := dSrcGrn b && dDstGrn b
  if dGather b then both && (inRun (dDst b) q || inElem a)
  else if dScatter b then inElem a || (both && (inRun (dSrc b) a || inElem q))
  else both && (inRun (dDst b) q || inRun (dSrc b) a)

/-- Bytes of a unit as they are written: those that an overlap leaves undefined are free values. -/
def unitBytes (s : State) (d : RunDesc) (src dst : Nat) (bs : Bytes) : Bytes :=
  ((List.range bs.length).zip bs).map fun e =>
    if overlapped d (src + e.1) (dst + e.1) then BitVec.ofNat 8 (Config.freeValue (s.free + e.1)) else e.2

/-- Copy one unit from src to dst (R341): host bytes are the data that came back. Of a gathered element, bytes that lie in the
destination are undefined too. -/
def copyUnit (s : State) (c : Nat) (d : RunDesc) (i src dst n : Nat) (data : Bytes) : State :=
  if dSrcGrn d.body && poisonedIn s src n then failDesc s c d ePoison i
  else
    let bs := unitBytes s d src dst (if dSrcGrn d.body then greadOf s (uWain c) src n else sub data 0 n)
    let s := if dSrcGrn d.body then s else hostIn s c d.port src n
    let s := wainBytes { s with free := s.free + 2 * n } c n
    let s := if dGather d.body && dSrcGrn d.body && dDstGrn d.body then
        (List.range n).foldl (fun s k =>
          if dDst d.body ≤ src + k && src + k < dDst d.body + dLen d.body then
            gwrite s (uWain c) (src + k) [BitVec.ofNat 8 (Config.freeValue (s.free - n + k))]
          else s) s
      else s
    unitOut s c (if dIndexed d.body then { d with elems := d.elems ++ [if dGather d.body then src else dst] } else d) i dst bs

/-- One element of GATHER or SCATTER (R341): its index from the table, its address checked when reached (R340). -/
def moveElement (s : State) (c : Nat) (d : RunDesc) (i : Nat) (idx data : Bytes) : State :=
  let b := d.body
  let w := indexWidth b
  let ta := indexBase b + i * w
  let tg := num b 0x20 8 % 2 = 1
  let tcode := if tg then rangeCode s c ta w d.firmware else 0
  if tcode ≠ 0 then failDesc s c d tcode i
  else if tg && poisonedIn s ta w then failDesc s c d ePoison i
  else
    let x := if tg then leNat (greadOf s (uWain c) ta w) else num idx 0 w
    let n := dEsize b
    let src := dSrc b + (if dGather b then x else i * n)
    let dst := dDst b + (if dGather b then i * n else x)
    let s := if tg then s else hostIn s c d.port ta w
    let code := if dGather b && dSrcGrn b then rangeCode s c src n d.firmware
      else if dScatter b && dDstGrn b then rangeCode s c dst n d.firmware else 0
    if code ≠ 0 then failDesc s c d code i else copyUnit s c d i src dst n data

/-- DETAIL of an error at byte o of frame i: the burst it lies in (R343, R345). -/
def frameBurst (b : Bytes) (i o : Nat) : Nat := ((if dSrcGrn b then dDst b else dSrc b) % 4096 + i * 4112 + o) / 4096

/-- IV of frame i (R352). -/
def frameIv (b : Bytes) (i : Nat) : Bytes := sub b 0x34 8 ++ toLE 4 i

/-- One encrypted or decrypted frame (R352, R353); frames are taken in order. -/
def moveFrame (s : State) (c : Nat) (d : RunDesc) (i : Nat) (data : Bytes) : State :=
  let b := d.body
  let (off, n) := unitAt b i
  if dSrcGrn b then
    if poisonedIn s (dSrc b + off) n then
      failDesc s c d ePoison (frameBurst b i (((List.range n).find? fun o => poisonedIn s (dSrc b + off + o) 1).getD 0))
    else
      let (ct, tag) := Config.gcmEnc d.key (frameIv b i) (greadOf s (uWain c) (dSrc b + off) n)
      unitOut (wainBytes s c n) c d i (dDst b + i * 4112) (ct ++ tag)
  else
    let s := hostIn s c d.port (dSrc b + i * 4112) (n + 16)
    match Config.gcmDec d.key (frameIv b i) [] (sub data 0 n) (sub data n 16) with
    | none => failDesc s c d eAuthFail i
    | some pt =>
      let s := wainBytes s c n
      if dTxn b then
        let st := d.staging ++ sub pt 0 n
        let d := { d with staging := st }
        if i + 1 = units b then unitOut s c d i (dDst b) st else unitDone s c d i
      else unitOut s c d i (dDst b + off) (sub pt 0 n)

/-- Unit i of the running descriptor completes (R343): a frame only after the earlier ones (R352). -/
def burstDone (c i : Nat) (idx data : Bytes) (s : State) : State :=
  match (wain s c).desc with
  | none => s
  | some d =>
    if d.waitCq || d.failed.isSome || d.bursts.contains i || units d.body ≤ i || (wainSt s c ≠ 1 && wainSt s c ≠ 3) then s
    else if dIndexed d.body then moveElement s c d i idx data
    else if dCrypt d.body then (if i = d.bursts.length then moveFrame s c d i data else s)
    else
      let (off, n) := unitAt d.body i
      copyUnit s c d i (dSrc d.body + off) (dDst d.body + off) n data

def execBurstDone (c i : Nat) (idx data : Bytes) (s : State) : Host.Outcome State Fault Refusal :=
  .next (if c < 32 then burstDone c i idx data s else s)

/-- A host read of the running descriptor failed (R345). -/
def execWainHostErr (c i : Nat) (s : State) : Host.Outcome State Fault Refusal :=
  match (wain s c).desc with
  | some d => if d.waitCq || d.failed.isSome || wainSt s c ≠ 1 then .next s else .next (failDesc s c d eWainHostErr i)
  | none => .next s

/-- A descriptor ends well (R347-R349). -/
def succeed (s : State) (c : Nat) (d : RunDesc) : State :=
  let s := satIncr s (K.wainDescs c) 1
  if d.firmware then wainNext { s with fwDone := s.fwDone ++ [(d.job, 0)] } c d
  else
    let s := if dCq d.body then wainRecord s c d 0 0 0 else s
    let s := if dMsg d.body then raiseIrq (wainMsg s c d 1 0 0 0) (pgWain c) 16 else s
    wainNext s c d

/-- The host addresses of the last byte range written (R347). -/
def lastWritten (d : RunDesc) : Nat :=
  let b := d.body
  if dScatter b then d.elems.getLastD 0 + dEsize b - 4
  else if dCrypt b then dDst b + dLen b + 16 * units b - 4
  else dDst b + dLen b - 4

/-- Step 2 of R347: the 4-byte read-back of a DURABLE descriptor to host memory, then the end. -/
def readBack (s : State) (c : Nat) (d : RunDesc) (readOk : Bool) : State :=
  if dDurable d.body && !dDstGrn d.body then
    (if readOk then succeed (hostIn s c d.port (lastWritten d) 4) c d
     else failDesc s c d eWainHostErr (if dCrypt d.body then frameBurst d.body 0 (lastWritten d + 3 - dDst d.body) else units d.body - 1))
  else succeed s c d

/-- Every data write has completed (R347), granary writes acknowledged: the descriptor ends; readOk is the result of a DURABLE
read-back. -/
def execDescriptorComplete (c : Nat) (readOk : Bool) (s : State) : Host.Outcome State Fault Refusal :=
  match (wain s c).desc with
  | some d =>
    if d.waitCq || wainSt s c ≠ 1 || writing s (uWain c) then .next s
    else
      match d.failed with
      | some f => .next (endFailed s c d f.1 f.2)
      | none => .next (if allMoved d then readBack s c d readOk else s)
  | none => .next s

/-! ### Commands of the page (R337, R350, R351, R356) -/

/-- Start an abort (R351): no unit will complete what the funnel holds. -/
def abortWain (s : State) (c code : Nat) : State :=
  if wainSt s c = 1 || wainSt s c = 2 then
    let s := match (wain s c).desc with
      | some d => drainFunnel s c d
      | none => s
    let x := wain s c
    setWainSt (setWain s c { x with abortCode := code, desc := x.desc.map fun d => { d with funnel := [] } }) c 3
  else s

/-- The page returns to reset values; the owner stays or changes (R335, R476). -/
def resetWain (s : State) (c owner : Nat) : State :=
  let s := resetPage s (pgWain c)
  let s := wr s (K.wainOwner c) owner
  let s := relockPage { s with irqHigh := s.irqHigh.filter (· != pgWain c), lockSeen := s.lockSeen.filter (· != pgWain c) } (pgWain c)
  setWain s c {}

/-- Give a channel to an owner: its page returns to reset values, interrupt enables included (R335); copies that firmware has yet
to post there for the old owner end. -/
def assignWain (s : State) (c owner : Nat) : State :=
  if wainOwnerOf s c = owner then s
  else
    let lost := (s.fwWait.filter (·.1 == c)).flatMap fun e => e.2.descs.map fun _ => (e.2.job, eWainAborted)
    let s := { s with fwWait := s.fwWait.filter (·.1 != c), fwDone := s.fwDone ++ lost }
    wr (resetWain s c owner) (K.blkIrqEn (pgWain c)) 0

/-- Bursts in flight have completed: abort record and message, IDLE with an empty queue (R350, R351). -/
def abortDone (c : Nat) (s : State) : State :=
  if wainSt s c ≠ 3 || writing s (uWain c) then s
  else
    let x := wain s c
    let s := match x.desc with
      | some d =>
        if d.waitCq then s
        else wainMsg (wainRecord s c d x.abortCode (residue d) 0) c d 3 x.abortCode (residue d) 0
      | none => s
    let s := raiseIrq s (pgWain c) 18
    let ended := fun (ch : Chain) => ch.descs.map fun _ => (ch.job, x.abortCode)
    let fw := (match x.desc with | some d => if d.firmware then (d.body :: d.rest).map (fun _ => (d.job, x.abortCode)) else [] | none => [])
      ++ x.next.toList.flatMap ended ++ x.posts.flatMap ended
    let s := setWain { s with fwDone := s.fwDone ++ fw } c { phase := (wain s c).phase }
    let s := wf (showPosted (setWainSt s c 0) c) (K.wainState c) 3 3 0
    let s := if x.resetAfter then resetWain s c (wainOwnerOf s c) else s
    startChain (match x.newOwner with
      | some o => assignWain s c o
      | none => s) c

def execAbortDone (c : Nat) (s : State) : Host.Outcome State Fault Refusal := .next (if c < 32 then abortDone c s else s)

/-- The channel of a WAIN page. -/
def wainOf (page : Nat) : Nat := page - 0x20

/-- A write to WAIN_POST_HI, alone or as the high word of an 8-byte write (R337, R356). -/
def execWainPost (a : Access) (wide : Bool) (v : Nat) (s : State) : Host.Outcome State Fault Refusal :=
  .next (atPlace s a fun s pl =>
    let c := wainOf pl.page
    let low := pl.off == 0x48 && wide
    if pageType pl.page = 0x11 && (low || pl.off == 0x4C) then
      let s := if low then storeReg s (K.wainPostLo c) (v % 2 ^ 32) else s
      let hi := if low then v / 2 ^ 32 else v % 2 ^ 32
      let lo := rd s (K.wainPostLo c)
      if fenceState s ≠ 0 then recordErr s pl.page eFenced a.func 0x4C
      else postChain s c a.func { addr := 64 * (lo / 64) + 2 ^ 32 * hi, gran := bit lo 0, port := a.port } 0x4C
    else s)

/-- WAIN_CTRL.ABORT (R351). -/
def execAbort (a : Access) (v : Nat) (s : State) : Host.Outcome State Fault Refusal :=
  .next (atPlace s a fun s pl =>
    if pageType pl.page = 0x11 && pl.off == 0x50 && bit v 0 then abortWain s (wainOf pl.page) eWainAborted else s)

/-- WAIN_CTRL.RESUME without ABORT (R350). -/
def execResume (a : Access) (v : Nat) (s : State) : Host.Outcome State Fault Refusal :=
  .next (atPlace s a fun s pl =>
    let c := wainOf pl.page
    if pageType pl.page = 0x11 && pl.off == 0x50 && bit v 1 && !bit v 0 then
      (if wainSt s c = 2 then startChain (setWainSt s c 1) c else recordErr s pl.page eWainState a.func 0x50)
    else s)

/-- A write to WAIN_CQ_HEAD frees entries; a waiting channel starts its descriptor (R348). -/
def execWainCqHead (a : Access) (v : Nat) (s : State) : Host.Outcome State Fault Refusal :=
  .next (atPlace s a fun s pl =>
    let c := wainOf pl.page
    if pageType pl.page = 0x11 && pl.off == 0x70 then
      let s := storeReg s pl.key v
      match (wain s c).desc with
      | some d => if d.waitCq && decide (wainSt s c = 1) then startDesc s c d else s
      | none => s
    else s)

/-- A port went down: bursts of an ANY descriptor move to the other port, a named port's descriptor ends with
WAIN_PORT_DOWN (R344). -/
def wainLinkDown (s : State) (p c : Nat) : State :=
  match (wain s c).desc with
  | none => s
  | some d =>
    if d.waitCq || d.failed.isSome || d.port ≠ p || (dSrcGrn d.body && dDstGrn d.body) || wainSt s c ≠ 1 then s
    else if dPort d.body = 0 then
      wf (setWain s c { wain s c with desc := some { d with port := 1 - p } }) (K.wainState c) 2 2 (1 - p)
    else failDesc s c d eWainPortDown 0

end Sys2Proof.Machine
end

