-- ==== Sys2Proof/Machine/Txn.lean ====
section
/-! DEFINITION. Transaction groups, bents (R64-R82): slots, staging lists, versions, taking effect, epochs, retained lines
and retirement. -/

namespace Sys2Proof.Machine

def slot (s : State) (n : Nat) : Slot := mget (fun _ => {}) s.slots n
def setSlot (s : State) (n : Nat) (x : Slot) : State := { s with slots := mset (fun _ => {}) s.slots n x }

/-! ### Epochs and retirement (R76-R78) -/

/-- Serial-number comparison: epoch a is at or after epoch b (R78). -/
def atOrAfter (a b : Nat) : Bool := decide ((a + 2 ^ 32 - b % 2 ^ 32) % 2 ^ 32 < 2 ^ 31)

/-- Epochs that holders hold: bays, and the serving step (R76). -/
def heldEpochs (s : State) : List Nat :=
  s.bays.filterMap (fun e => e.2.epoch) ++ s.stepEpoch.toList

/-- The oldest epoch held; EPOCH when there is no holder (R80). -/
def oldest (s : State) : Nat :=
  (heldEpochs s).foldl (fun o e => if atOrAfter o e then e else o) (rd s K.txnEpoch)

/-- Follow TXN_OLDEST and the time since which it has stalled (R78). -/
def noteOldest (s : State) : State :=
  let o := oldest s
  let prev := rd s K.txnOldest
  let s := wr s K.txnOldest o
  { s with stallFrom := if o = rd s K.txnEpoch then none
                        else if o = prev && s.stallFrom.isSome then s.stallFrom else some s.clock }

/-- A line as a holder of epoch e sees it through the table path (R76, R77). -/
def tpLine (s : State) (e line : Nat) : Bytes :=
  match s.retained.find? fun r => r.line == line && !atOrAfter e r.epoch with
  | some r => r.content
  | none => gread s (64 * line) 64

/-- Bytes through the table path. -/
def tpRead (s : State) (e a n : Nat) : Bytes :=
  let first := a / 64
  let last := (a + n - 1) / 64
  (((List.range (last + 1 - first)).flatMap fun i => tpLine s e (first + i)).drop (a % 64)).take n

/-- Whether the table path meets a poisoned line. -/
def tpPoisoned (s : State) (a n : Nat) : Bool := poisonedIn s a n

/-- Lines of the retained-line store (R77). -/
@[reducible] def retainLines : Nat := 1048576

/-! ### Ends of a bent (R73, R79) -/

/-- The message and interrupt of a host bent that became RAISED or STRUCK (R80, R307). -/
def txnDone (s : State) (n : Nat) : State :=
  let x := slot s n
  if n < 8 then s
  else
    let s := raiseIrq s pgTxn 16
    if x.notify then
      post s x.owner (rf s (K.ringRoute x.owner) 11 8) false
        { type := 0x10, func := x.owner, flags := 0, mtime := x.doneAt,
          payload := toLE 1 n ++ toLE 1 (if x.st = .raised then 4 else 5) ++ toLE 2 x.code ++ toLE 4 x.epochAt }
    else s

/-- Strike a bent (R73). ACTIONS keeps its count (DESIGN CHOICE, notes/assumptions/177), and INDEX is 0 where no record is the
cause (DESIGN CHOICE, notes/assumptions/172). -/
def strikeSlot (s : State) (n code index : Nat) : State :=
  let x := slot s n
  let s := setSlot s n { x with st := .struck, code := code, index := index, doneAt := now s, raisePend := false, toFetch := 0 }
  txnDone (incr s K.txnStruck 1) n

/-- States from which a bent can be struck (R79). -/
def strikable (x : Slot) : Bool := x.st = .opened || x.st = .fetching || x.st = .armed

/-- Strike every bent of a function in a state short of RAISED (R73). -/
def strikeFunc (s : State) (f code : Nat) : State :=
  (List.range 32).foldl (fun s n => if (slot s n).owner = f && strikable (slot s n) then strikeSlot s n code 0 else s) s

/-- Every slot of a function returns to FREE (R79; R313, step 7). -/
def freeSlots (s : State) (f : Nat) : State :=
  { s with slots := s.slots.filter fun e => e.2.owner != f }

/-- MF bents opened under another claim than A are struck (R73, R324). -/
def strikeClaim (s : State) : State :=
  (List.range 32).foldl (fun s n =>
    if (slot s n).owner = 0 && strikable (slot s n) && decide ((slot s n).claimAt ≠ claimA s) then
      strikeSlot s n eTxnClaimLost 0
    else s) s

/-! ### Checks of a record at fetch (R65, R66, R68) -/

/-- The key a REG_WRITE target names for its owner: a per-counter TALLY register acts on the selected counter (R443). -/
def targetKey (s : State) (f off : Nat) : Nat := placeKey s f (off / 0x1000) (off % 0x1000)

/-- Whether a function may target a register offset of MF BAR0 (R65). -/
def mayTarget (s : State) (f off : Nat) : Bool :=
  off % 4 == 0 && decide (off / 0x1000 < 0x1000) && decide (pageType (off / 0x1000) ≠ 0)
    && (f == 0 || (List.range 8).any fun k =>
      let ap := rd s (K.funcAperture (f - 1) k)
      bit ap 31 && fld ap 12 0 == off / 0x1000 && tenantMapType (pageType (off / 0x1000)) && pageAssigned s f (off / 0x1000))

/-- The version of an action's target now (R69). -/
def targetVer (s : State) (a : Action) : Nat :=
  if a.kind = 1 then rf s (K.blkPagever (homePage (a.target / 0x1000))) 15 0
  else mget (fun _ => 0) s.lineVer (a.target / 64)

/-- The action a record spells, with EXPECT captured at fetch (R66). -/
def recAction (s : State) (f : Nat) (r : Bytes) : Action :=
  let kind := num r 0 1
  let a : Action := {
    kind := kind, anyver := bit (num r 1 1) 1, expect := num r 2 2, len := num r 4 1
    target := if kind = 1 then targetKey s f (num r 8 8) else num r 8 8
    value := num r 0x10 4, mask := num r 0x14 4, data := sub r 0x20 64 }
  if bit (num r 1 1) 0 then { a with expect := targetVer s a } else a

/-- Whether a record is well formed for its owner (R68). -/
def recOk (s : State) (f : Nat) (r : Bytes) : Bool :=
  let kind := num r 0 1
  let t := num r 8 8
  let len := num r 4 1
  let amount := num r 0x10 2
  decide (num r 1 1 < 4) && (
    match kind with
    | 1 => mayTarget s f t && decide (Nat.land (num r 0x14 4) (rwsMask (targetKey s f t)) = num r 0x14 4)
    | 2 => decide (1 ≤ len) && decide (len ≤ 64) && decide (t % 64 + len ≤ 64) && ownsRange s f t len
    | 3 => t % 8 == 0 && ownsRange s f t 8 && amount != 0
    | 4 => t % 8 == 0 && ownsRange s f t 8 && amount != 0
    | 5 => t % 64 == 0 && ownsRange s f t 64 && (f == 0 || wainOwnerOf s (fld (num r 0x10 4) 4 0) == f)
    | _ => false)

/-! ### Taking effect (R70-R73, R76, R77) -/

/-- NEXT of a descriptor that a bent links to the next (R67). -/
def linkNext (data : Bytes) (target : Nat) : Bytes := toLE 8 (target + 3) ++ data.drop 8

/-- The bytes that TABLE_WRITE or WAIN_POST action i of a bent writes at its target: a descriptor is linked to the next one that
the bent posts on its channel (R67). -/
def writtenBy (l : List Action) (i : Nat) (a : Action) : Bytes :=
  match a.kind with
  | 2 => a.data.take a.len
  | 5 =>
    match (l.drop (i + 1)).find? fun b => b.kind == 5 && b.value % 32 == a.value % 32 with
    | some b => linkNext a.data b.target
    | none => a.data
  | _ => []

/-- A byte string at an address after bytes were written at another. -/
def overlay (addr : Nat) (old : Bytes) (a : Nat) (bs : Bytes) : Bytes :=
  ((List.range old.length).zip old).map fun e => if a ≤ addr + e.1 then (bs[addr + e.1 - a]?).getD e.2 else e.2

/-- The count at a refcount address after the first n actions of a bent, in record order (R67, R70); none once it leaves its
range. -/
def refAfter (s : State) (addr : Nat) (l : List Action) (n : Nat) : Option Nat :=
  (((List.range l.length).zip l).take n).foldl (fun c e =>
    let a := e.2
    match c with
    | none => none
    | some v =>
      if a.kind = 2 || a.kind = 5 then some (leNat (overlay addr (toLE 4 v) a.target (writtenBy l e.1 a)))
      else if a.target ≠ addr then some v
      else if a.kind = 3 then (if v + a.value % 2 ^ 16 < 2 ^ 32 then some (v + a.value % 2 ^ 16) else none)
      else if a.kind = 4 then (if a.value % 2 ^ 16 ≤ v then some (v - a.value % 2 ^ 16) else none)
      else some v) (some (gnum s addr 4))

/-- The register writes of a bent, in record order, into active and staged values (R52). -/
def applyRegs (s : State) (l : List Action) : State :=
  l.foldl (fun s a =>
    if a.kind = 1 then
      wrStaged (wr s a.target (merge (rd s a.target) a.value a.mask)) a.target (merge (rdStaged s a.target) a.value a.mask)
    else s) s

/-- Pages a bent writes, in record order. -/
def bentPages (l : List Action) : List Nat :=
  (l.filterMap fun a => if a.kind = 1 then some (homePage (a.target / 0x1000)) else none).dedup

/-- Granary lines a bent touches. -/
def bentLines (l : List Action) : List Nat :=
  (l.filterMap fun a => if a.kind = 1 then none else some (a.target / 64)).dedup

/-- The code record i fails with on taking effect, or 0 (R73). -/
def actionCode (s : State) (x : Slot) (new : State) (i : Nat) (a : Action) : Nat :=
  let page := homePage (a.target / 0x1000)
  if a.kind = 1 && x.clash.contains page then eTxnConflict
  else if !a.anyver && decide (targetVer s a ≠ a.expect) then eTxnConflict
  else if (a.kind = 3 || a.kind = 4) && (refAfter s a.target x.actions (i + 1)).isNone then eTxnInvalid
  else if a.kind = 1 && pageCode s new page ≠ 0 then eTxnInvalid
  else if a.kind = 5 && !(x.owner == 0 || x.owner == 9 || wainOwnerOf s (a.value % 32) == x.owner) then eTxnInvalid
  else 0

/-- Whether a bent changes granary content: such a raise publishes an epoch (R76). -/
def publishes (l : List Action) : Bool := l.any (·.kind != 1)

/-- Whether a raise would take TXN_EPOCH beyond 2^31 - 1 of TXN_OLDEST (R78). -/
def spanFull (s : State) : Bool := decide (2 ^ 31 - 1 < (rd s K.txnEpoch + 1 + 2 ^ 32 - oldest s) % 2 ^ 32)

/-- Whether a bent's tally is not assigned to its owner (R73). -/
def tallyForeign (s : State) (x : Slot) : Bool := x.mode == 2 && rf s (K.tallyOwner x.tally) 3 0 != x.owner

/-- Causes that concern the whole bent, in the order of the table of R73 (the tally's among them: DEDUCED,
notes/assumptions/172). -/
def wholeCode (s : State) (x : Slot) : Nat :=
  let lines := bentLines x.actions
  let holders := !(heldEpochs s).isEmpty
  if publishes x.actions && holders && decide (retainLines < s.retained.length + lines.length) then eTxnCapacity
  else if publishes x.actions && spanFull s then eTxnCapacity
  else if tallyForeign s x then eTxnInvalid
  else if x.owner = 0 && x.claimAt ≠ claimA s then eTxnClaimLost
  else 0

/-- The first failing record and its code. -/
def firstFail (s : State) (x : Slot) : Option (Nat × Nat) :=
  let new := applyRegs s x.actions
  ((List.range x.actions.length).zip x.actions).findSome? fun e =>
    let c := actionCode s x new e.1 e.2
    if c = 0 then none else some (e.1, c)

/-- Keep the content lines held before a raise, for as long as an older epoch is held (R77). -/
def retain (s : State) (lines : List Nat) (epoch : Nat) : State :=
  if (heldEpochs s).isEmpty then s
  else { s with retained := s.retained ++ lines.map fun l => ⟨l, epoch, gread s (64 * l) 64⟩ }

/-- A page that a bent left with COUNT 0: it waits for TXN_OLDEST to reach the epoch of the last such bent (R78, R186). -/
def dropStorage (s : State) (addr epoch : Nat) : State :=
  match rcUnit s addr with
  | some (p, u) =>
    if kvHostmgd s p then s
    else
      let e := gnum s addr 8
      if bit e 35 && decide (fld e 31 0 = 0) then
        { s with deferred := (s.deferred.filter fun d => d.a != p || d.b != u) ++ [⟨epoch, 0, p, u, fld e 34 32⟩] }
      else s
  | none => s

/-- The granary effect of one action (R67). -/
def applyAction (s : State) (l : List Action) (i : Nat) (a : Action) : State :=
  match a.kind with
  | 1 => s
  | 3 => poke s a.target (toLE 4 (gnum s a.target 4 + a.value % 2 ^ 16))
  | 4 => poke s a.target (toLE 4 (gnum s a.target 4 - a.value % 2 ^ 16))
  | _ => poke s a.target (writtenBy l i a)

/-- Refcount addresses that a bent takes from. -/
def bentDrops (l : List Action) : List Nat := (l.filterMap fun a => if a.kind = 4 then some a.target else none).dedup

/-- The chains of a bent, by ascending channel (R67, R337). -/
def postBentChains (s : State) (x : Slot) : State :=
  (List.range 32).foldl (fun s c =>
    match x.actions.find? fun a => a.kind == 5 && a.value % 32 == c with
    | some a => postChain s c (if x.owner = 9 then internalFunc else x.owner) { addr := a.target, gran := true, port := 0, firmware := x.owner == 9 } 0
    | none => s) s

/-- Step the version of a line (R70). -/
def bumpLine (s : State) (l : Nat) : State :=
  { s with lineVer := mset (fun _ => 0) s.lineVer l ((mget (fun _ => 0) s.lineVer l + 1) % 2 ^ 16) }

/-- Apply a bent whose checks have passed: register targets, granary lines, versions and epoch, all in one cycle. -/
def applyBent (s : State) (x : Slot) : State :=
  let l := x.actions
  let old := s
  let lines := bentLines l
  let epoch := if publishes l then (rd s K.txnEpoch + 1) % 2 ^ 32 else rd s K.txnEpoch
  let s := if publishes l then retain s lines epoch else s
  let s := applyRegs s l
  let s := ((List.range l.length).zip l).foldl (fun s e => applyAction s l e.1 e.2) s
  let s := (bentDrops l).foldl (fun s a => dropStorage s a epoch) s
  let s := wr s K.txnEpoch epoch
  let s := (bentPages l).foldl bumpVer s
  let s := lines.foldl bumpLine s
  noteOldest ((bentPages l).foldl (fun s p => afterApply old s p) s)

/-- Show the retained lines in use (R80). -/
def showRetain (s : State) : State := wf s K.txnRetain 20 0 s.retained.length

/-- A bent takes effect: raised, or struck (R70, R72, R73). One that publishes no epoch shows the present one in TXN_EPOCH_AT
(DESIGN CHOICE, notes/assumptions/176). -/
def takeEffect (s : State) (n : Nat) : State :=
  let x := slot s n
  match firstFail s x with
  | some (i, code) => strikeSlot s n code i
  | none =>
    let code := wholeCode s x
    if code ≠ 0 then
      let s := strikeSlot s n code 0
      if code = eTxnCapacity && spanFull s then raiseIrq s pgTxn 17 else s
    else
      let s := applyBent s x
      let s := setSlot s n { slot s n with st := .raised, code := 0, epochAt := rd s K.txnEpoch, doneAt := now s }
      postBentChains (txnDone (showRetain (incr s K.txnRaised 1)) n) x

/-- Armed bents of a mode take effect in ascending slot order (R71): a step boundary, or the fire of a tally. -/
def runArmed (s : State) (mode tally : Nat) : State :=
  (List.range 32).foldl (fun s n =>
    let x := slot s n
    if x.st = .armed && x.mode == mode && (mode == 1 || x.tally == tally) then takeEffect s n else s) s

/-- A bent of the module's firmware (R64): staged in the lowest free slot of 0-7 and raised at once, under every check of R73;
the slot is then free again. The answer tells whether TXN_CAPACITY struck it. -/
def fwRaise (s : State) (l : List Action) : State × Bool :=
  match (List.range 8).find? fun n => (slot s n).st == .free with
  | none => (s, true)
  | some n =>
    let s := takeEffect (setSlot s n { owner := 9, st := .armed, actions := l }) n
    (setSlot s n {}, (slot s n).st == .struck && (slot s n).code == eTxnCapacity)

/-- Firmware raises a bent; one that TXN_CAPACITY strikes, and those behind it, wait to be raised again (notes/assumptions/173). -/
def fwBent (s : State) (l : List Action) : State :=
  if l.isEmpty then s
  else if !s.fwAgain.isEmpty then { s with fwAgain := s.fwAgain ++ [l] }
  else
    let (s, full) := fwRaise s l
    if full then { s with fwAgain := s.fwAgain ++ [l] } else s

/-- Firmware raises again, in order, what TXN_CAPACITY struck. -/
def fwRetry (s : State) : State := s.fwAgain.foldl fwBent { s with fwAgain := [] }

/-- A TABLE_WRITE action of firmware, within one line. -/
def tableWrite (a : Nat) (bs : Bytes) : Action :=
  { kind := 2, anyver := true, expect := 0, len := bs.length, target := a, value := 0, mask := 0, data := bs }

/-- REF_INC and REF_DEC of firmware. -/
def refInc (a n : Nat) : Action := { kind := 3, anyver := true, expect := 0, len := 0, target := a, value := n, mask := 0, data := [] }
def refDec (a n : Nat) : Action := { kind := 4, anyver := true, expect := 0, len := 0, target := a, value := n, mask := 0, data := [] }

/-- Cut a list into parts of at most 256. -/
def cut256 : Nat → List Action → List (List Action)
  | 0, _ => []
  | fuel + 1, l => if l.length ≤ 256 then [l] else l.take 256 :: cut256 fuel (l.drop 256)

/-- The firmware action that sets HEAD and POISONED of a page's refcount entry (R185, R186). -/
def headWrite (s : State) (p u : Nat) (head poisoned : Bool) : Action :=
  let a := (geoOf s p).rcAddr u + 4
  tableWrite a (toLE 1 (gnum s a 1 % 8 + 8 * b2n head + 16 * b2n poisoned))

/-- Pages (pool, first unit, size code) return to their allocators, HEAD cleared, or, while poisoned, are held out with POISONED
set; the refcount entries change in bents (R186, R215, R217). -/
def returnPages (s : State) (l : List (Nat × Nat × Nat)) : State :=
  let acts := l.map fun e => let bad := pagePoisoned s e.1 e.2.1 e.2.2
    headWrite s e.1 e.2.1 bad bad
  (cut256 (acts.length / 256 + 1) acts).foldl fwBent (l.foldl (fun s e => freeOrHold s e.1 e.2.1 e.2.2) s)

/-- KV pages held out under R217 return once none of their lines is poisoned. -/
def releaseHeldPages (s : State) : State :=
  let l := s.kvPoison.filter fun e => !pagePoisoned s e.1 e.2.1 e.2.2
  returnPages { s with kvPoison := s.kvPoison.filter fun e => pagePoisoned s e.1 e.2.1 e.2.2 } l

/-! ### Raising, fetching and the commands of the page (R68, R72, R79, R82) -/

/-- RAISE of a slot that is OPEN, written now or while it was FETCHING (pend): the mode and the tally are checked, and the bent is
armed, in the order of the RAISE writes (R71-R73, R79). -/
def raiseSlot (s : State) (n : Nat) (pend : Bool) : State :=
  let x := slot s n
  if x.mode = 3 || tallyForeign s x then strikeSlot s n eTxnInvalid 0
  else
    let s' := if pend then s else { s with raises := s.raises + 1 }
    setSlot s' n { x with st := .armed, armSeq := if pend then x.armSeq else s.raises, raisePend := false }

/-- A fetch ended: OPEN, or the pending RAISE acts (R79). -/
def fetchEnds (s : State) (n : Nat) : State :=
  let x := slot s n
  let s := setSlot s n { x with st := .opened }
  if x.raisePend then raiseSlot s n true else s

/-- Take the whole records fetched so far (R68). -/
def takeRecords : Nat → State → Nat → State
  | 0, s, _ => s
  | k + 1, s, n =>
    let x := slot s n
    if x.toFetch = 0 then fetchEnds s n
    else if x.fetchBuf.length < 96 then s
    else
      let r := x.fetchBuf.take 96
      if 256 ≤ x.actions.length then strikeSlot s n eTxnCapacity 255
      else if !recOk s x.owner r then strikeSlot s n eTxnInvalid x.actions.length
      else
        let x := { x with
          actions := x.actions ++ [recAction s x.owner r], toFetch := x.toFetch - 1, fetchBuf := x.fetchBuf.drop 96 }
        takeRecords k (setSlot s n x) n

/-- The line a slot waits for. -/
def listLine (x : Slot) : Nat := 64 * (x.fetchAddr / 64)

/-- INDEX of the first record not fetched; 255 where it is the 257th, which the field cannot hold (DESIGN CHOICE,
notes/assumptions/171). -/
def failIndex (x : Slot) : Nat := min 255 x.actions.length

/-- Whether a slot's next line may be read at all (R68). -/
def listReadable (s : State) (x : Slot) : Bool :=
  if x.fetchGran then ownsRange s x.owner (listLine x) 64 else portUp s 0 || portUp s 1

/-- A 64-byte line of a staging list returns (R68), from the host through the port of TXN_LIST_CMD or the other one: ok is false
for an error completion or poisoned data. -/
def listReturn (n : Nat) (ok : Bool) (data : Bytes) (s : State) : State :=
  let x := slot s n
  if x.st ≠ .fetching then s
  else
    let good := listReadable s x && (if x.fetchGran then !poisonedIn s (listLine x) 64 else ok)
    if !good then strikeSlot s n eTxnInvalid (failIndex x)
    else
      let s := match choosePort s x.fetchPort with
        | some p => if x.fetchGran then s else countRx s p 64
        | none => s
      let bs := if x.fetchGran then gread s (listLine x) 64 else sub data 0 64
      let x := { x with fetchBuf := x.fetchBuf ++ bs.drop (x.fetchAddr % 64), fetchAddr := listLine x + 64 }
      takeRecords 3 (setSlot s n x) n

def execTxnListLineReturn (n : Nat) (ok : Bool) (data : Bytes) (s : State) : Host.Outcome State Fault Refusal :=
  .next (listReturn n ok data s)

/-- A host read of the list got no completion for 50 us (R68). -/
def execTxnListReadTimeout (n : Nat) (s : State) : Host.Outcome State Fault Refusal :=
  let x := slot s n
  .next (if x.st = .fetching && !x.fetchGran then strikeSlot s n eTxnInvalid (failIndex x) else s)

/-- Host slots a function holds. -/
def slotsHeld (s : State) (f : Nat) : Nat :=
  ((List.range 24).filter fun i => (slot s (8 + i)).st != .free && (slot s (8 + i)).owner == f).length

/-- The lowest free host slot. -/
def freeSlot (s : State) : Option Nat := ((List.range 24).map (8 + ·)).find? fun n => (slot s n).st == .free

/-- Reading TXN_OPEN (R82): the claim check for MF (R326), the quota, the lowest free slot. Answers the value read. -/
def txnOpen (s : State) (a : Access) : State × Nat :=
  let f := a.func
  let code := if f = 0 then claimCode s (claimKey s a.port) else 0
  if code ≠ 0 then (refuseAct s (claimKey s a.port) code 0, 0)
  else
    match freeSlot s with
    | some n =>
      if slotsHeld s f < quota s f then
        let s := setSlot s n { owner := f, st := .opened, claimAt := claimA s }
        (wr s (K.txnSel f) n, n + 2 ^ 31)
      else (s, 0)
    | none => (s, 0)

/-- Return a register's value to the reader. -/
def answerWord (a : Access) (r : State × Nat) : State := emit r.1 (.readData a.port a.func a.off (toLE 4 r.2))

/-- A read of TXN_OPEN; behind a locked expert range it reads zero (R47). -/
def execTxnOpen (a : Access) (s : State) : Host.Outcome State Fault Refusal :=
  match place s a with
  | none => .next s
  | some pl =>
    if pl.page ≠ pgTxn || pl.off ≠ 0x400 then .next s
    else if expertLocked s pl a.func then .next (answerWord a (noteLocked s pl a.func, 0))
    else .next (answerWord a (txnOpen s a))

/-- Record TXN_STATE in the TXN page (R79, R82). -/
def txnState (s : State) (func off : Nat) : State := recordErr s pgTxn eTxnState func off

/-- Act on the function's selected slot if it is the function's own (R82). -/
def onSlot (s : State) (a : Access) (pl : Place) (f : State → Nat → Slot → State) : State :=
  let n := rd s (K.txnSel a.func) % 32
  let x := slot s n
  if x.st = .free || x.owner ≠ a.func then txnState s a.func pl.off else f s n x

/-- TXN_LIST_CMD (R82). -/
def execTxnListCmd (a : Access) (v : Nat) (s : State) : Host.Outcome State Fault Refusal :=
  .next (atPlace s a fun s pl =>
    if pl.page = pgTxn && pl.off == 0x418 then
      onSlot s a pl fun s n x =>
        if !bit v 31 || fld v 8 0 = 0 then s
        else if x.st ≠ .opened then txnState s a.func 0x418
        else
          let addr := x.listLo + 2 ^ 32 * (x.listHi % 2 ^ 31)
          let x := { x with st := .fetching, toFetch := fld v 8 0, fetchAddr := addr, fetchGran := bit x.listHi 31, fetchBuf := [], fetchPort := a.port }
          if listReadable s x then setSlot s n x else strikeSlot (setSlot s n x) n eTxnInvalid (failIndex x)
    else s)

/-- TXN_ACTION with an OP, on the selected slot. -/
def txnAction (a : Access) (v op : Nat) (s : State) (f : State → Nat → Slot → State) : State :=
  atPlace s a fun s pl =>
    if pl.page = pgTxn && pl.off == 0x41C && fld v 1 0 == op then onSlot s a pl f else s

/-- TXN_ACTION RAISE (R79). -/
def execRaise (a : Access) (v : Nat) (s : State) : Host.Outcome State Fault Refusal :=
  .next (txnAction a v 1 s fun s n x =>
    if x.st = .opened then raiseSlot s n false
    else if x.st = .fetching && !x.raisePend then
      setSlot { s with raises := s.raises + 1 } n { x with raisePend := true, armSeq := s.raises }
    else txnState s a.func 0x41C)

/-- TXN_ACTION STRIKE (R79). -/
def execStrike (a : Access) (v : Nat) (s : State) : Host.Outcome State Fault Refusal :=
  .next (txnAction a v 2 s fun s n x => if strikable x then strikeSlot s n 0 0 else txnState s a.func 0x41C)

/-- TXN_ACTION RELEASE (R79). -/
def execRelease (a : Access) (v : Nat) (s : State) : Host.Outcome State Fault Refusal :=
  .next (txnAction a v 3 s fun s n x =>
    if x.st = .raised || x.st = .struck then setSlot s n {} else txnState s a.func 0x41C)

/-- Whether a slot is the armed IMMEDIATE bent whose RAISE came first (R71). -/
def firstArmed (s : State) (n : Nat) : Bool :=
  let x := slot s n
  x.st == .armed && x.mode == 0 &&
    s.slots.all fun e => !(e.2.st == .armed && e.2.mode == 0 && decide (e.2.armSeq < x.armSeq))

/-- The time of an IMMEDIATE bent arrives (R72). -/
def execBentTakeEffect (n : Nat) (s : State) : Host.Outcome State Fault Refusal :=
  .next (if firstArmed s n then takeEffect s n else s)

/-- Whether no table names a page that a bent dropped: its COUNT is still 0 (R186). -/
def stillDropped (s : State) (d : Deferred) : Bool := gnum s ((geoOf s d.a).rcAddr d.b) 4 == 0

/-- Pages whose references are gone return to their allocators, from a pool of several functions only once they are scrubbed
(R78, R377). -/
def pagesReturn (s : State) (l : List (Nat × Nat × Nat)) : State :=
  let many := fun (e : Nat × Nat × Nat) => decide (1 < ((List.range 9).filter (kvAllows s e.1)).length)
  returnPages { s with sec := { s.sec with kvScrubs := s.sec.kvScrubs ++ l.filter many } } (l.filter fun e => !many e)

/-- Storage and retained lines whose epoch TXN_OLDEST has reached return (R78); a page that a later bent refers to again stays. -/
def retire (s : State) : State :=
  let o := oldest s
  let done := s.deferred.filter fun d => atOrAfter o d.epoch
  let s := { s with
    deferred := s.deferred.filter fun d => !atOrAfter o d.epoch
    retained := s.retained.filter fun r => !atOrAfter o r.epoch }
  showRetain (pagesReturn (fwRetry s) ((done.filter (stillDropped s)).map fun d => (d.a, d.b, d.c)))

def execRetiredStorageFree (s : State) : Host.Outcome State Fault Refusal := .next (retire (noteOldest s))

/-- Each millisecond the stall is compared with TXN_RETIRE_WARN (R78). -/
def execRetireStall (s : State) : Host.Outcome State Fault Refusal :=
  .next (match s.stallFrom with
    | some t => if t + usCycles (1000 * rf s K.txnRetireWarn 15 0) < s.clock then raiseIrq s pgTxn 17 else s
    | none => s)

end Sys2Proof.Machine
end

