-- ==== Sys2Proof/Machine/Wiring.lean ====
section
/-! DEFINITION. EJECT messages (R468) and the wiring check (R439-R441). -/

namespace Sys2Proof.Machine

/-- Functions an EJECT message goes to (R468). -/
def ejectDest (s : State) (event : Nat) : List Nat := if [1, 2, 3, 5].contains event then allLive s else [0]

/-- Post an EJECT message (R468). -/
def postEject (s : State) (event source code : Nat) (deadline : Nat := 0) (step : Nat := rd64 s K.srvStepLo)
    (moment : Nat := 0) : State :=
  let body := toLE 1 event ++ toLE 1 source ++ toLE 2 code ++ toLE 4 0 ++ toLE 8 deadline ++ toLE 8 step ++ toLE 8 moment
    ++ toLE 2 (s.tray.vin / 10)
  (ejectDest s event).foldl (fun s f => postCrit s f 0x0A 2 body) s

/-! ### Slot and wiring (R439) -/

def slotPins (s : State) : Nat := rf s K.sysSlot 5 0
def parityOk (s : State) : Bool := bit (rd s K.sysSlot) 6
def eepromOk (s : State) : Bool := bit (rd s K.sysSlot) 7

/-- The effective slot: the pins, else the EEPROM, else unknown. -/
def effectiveSlot (s : State) : Option Nat :=
  if parityOk s then some (slotPins s) else if eepromOk s then some (s.wiring.eeprom % 64) else none

/-- WIRING_STATE shows the effective slot. -/
def showSlot (s : State) : State :=
  wf s K.wiringState 22 16 ((effectiveSlot s).getD 0 + 64 * b2n (effectiveSlot s).isNone)

/-- WIRING_MISMATCH against the planned slot. -/
def wiringBad (s : State) : Bool :=
  effectiveSlot s != some (rf s K.wiringState 5 0)
    || (parityOk s && eepromOk s && slotPins s != s.wiring.eeprom % 64)

/-- Crossed ports: the planned record's CLAIM_HB writes come on port B, or the other record's on port A. -/
def crossed (s : State) : Bool :=
  let k := s.wiring.plan
  decide (k < 2) && (s.wiring.seen.getD k none == some 1 || s.wiring.seen.getD (1 - k) none == some 0)

/-- A WIRING message on MF's ring (R441). -/
def postWiring (s : State) (event : Nat) : State :=
  let body := toLE 1 event ++ toLE 1 (rf s K.wiringState 5 0) ++ toLE 1 (slotPins s + 64 * b2n (parityOk s))
    ++ toLE 1 (s.wiring.eeprom % 64 + 64 * b2n (eepromOk s)) ++ toLE 1 s.wiring.seenA
  postAsync (setSticky s 0 4) 0 0x0C 0 0 body

/-- Report an outcome: MISMATCH, CROSSED, both, or MATCH. -/
def reportWiring (s : State) (bad cross : Bool) : State :=
  let s := raiseIrq s pgFence 18
  let s := if bad then postWiring s 2 else s
  let s := if cross then postWiring s 3 else s
  if bad || cross then s else postWiring s 1

/-- The wiring check (R439): it makes a comparison once a plan is held, and reports an outcome that differs from the
last. -/
def wiringCheck (s : State) : State :=
  let s := showSlot s
  if !bit (rd s K.wiringState) 6 then s
  else
    let o := (wiringBad s, crossed s)
    let s := wf s K.wiringState 9 8 (b2n o.1 + 2 * b2n o.2)
    if s.wiring.told = some o then s
    else reportWiring { s with wiring := { s.wiring with told := some o } } o.1 o.2

/-- WIRING_PLAN (R416, R439). -/
def wiringPlan (s : State) (c : Cmd) : State :=
  let k := arg c 0x12 1
  if 1 < k && k ≠ 0xFF then finish s c eCmdReserved
  else
    let s := wf s K.wiringState 7 0 (arg c 0x10 1 + 64 + 128 * arg c 0x11 1)
    finish (wiringCheck { s with wiring := { s.wiring with plan := k } }) c 0

def execWiringPlan (src : Nat) (s : State) : Host.Outcome State Fault Refusal := .next (withCmd s src 0xB8 wiringPlan)

/-- A CLAIM_HB write of a record arrives on a port. -/
def wiringSeen (s : State) (k p : Nat) : State :=
  wiringCheck { s with wiring := { s.wiring with
    seen := s.wiring.seen.set k (some p)
    seenA := if p = 0 then k else if s.wiring.seenA = k then 0xFF else s.wiring.seenA } }

end Sys2Proof.Machine
end

