-- ==== Sys2Proof/Machine/Claim.lean ====
section
/-! DEFINITION. The control claim (R317-R333): heartbeats and requests, liveness, acceptance, the management links and
PTP. -/

namespace Sys2Proof.Machine

/-! ### Liveness (R322, R323) -/

/-- A path of a record: 0 PCIe, 1 management. -/
def pathLive (s : State) (k path : Nat) : Bool := bit (rd s (K.claimHost k)) (9 + path)

def setPathLive (s : State) (k path : Nat) (b : Bool) : State := setBit s (K.claimHost k) (9 + path) b

/-- The place of the claim that a path reports. -/
def reportKey (k path : Nat) : Nat := if path = 0 then K.claimPcieClaimLo k else K.claimMgmtClaimLo k

/-- CLAIM_STATE.SPLIT follows the paths. -/
def showSplit (s : State) : State := setBit s K.claimState 5 (splitNow s)

/-- When a path last heard its host, and whether it has ever been live. -/
def lastOf (h : HostRec) (path : Nat) : Option Nat := if path = 0 then h.lastPcie else h.lastMgmt
def everOf (h : HostRec) (path : Nat) : Bool := if path = 0 then h.everPcie else h.everMgmt
def noteHeard (h : HostRec) (path now' : Nat) : HostRec :=
  if path = 0 then { h with lastPcie := some now', everPcie := true } else { h with lastMgmt := some now', everMgmt := true }

/-- Something valid arrives on a path: it is live, and RECOVERED is reported when it is live again (R322, R323). -/
def arrives (s : State) (k path : Nat) (claim : Option Nat) : State :=
  let h := host s k
  let was := pathLive s k path
  let any := pathLive s k 0 || pathLive s k 1
  let h' := noteHeard h path s.clock
  let s := setHost s k { h' with liveSince := if any then h.liveSince else some s.clock }
  let s := match claim with
    | some c => wr64 s (reportKey k path) c
    | none => s
  let s := showSplit (setPathLive s k path true)
  if !was && everOf h path then
    let s := if claimA s ≠ 0 && holder s = k && rf s K.claimState 1 0 = 2 then wf s K.claimState 1 0 1 else s
    claimEvent s 6 k 0 0 0
  else s

/-- Whether a live path has heard nothing for 3 times INTERVAL. -/
def pathSilent (s : State) (k path : Nat) : Bool :=
  pathLive s k path && (match lastOf (host s k) path with
    | some t => decide (t + 3 * intervalCycles s ≤ s.clock)
    | none => true)

/-- Paths of a record that fall silent: PATH_LOST while the other lives, SILENT for the holder with neither (R323). -/
def silentRecord (s : State) (k : Nat) : State :=
  let lost := (List.range 2).filter (pathSilent s k)
  if lost.isEmpty then s
  else
    let s := lost.foldl (fun s p => wr64 (setPathLive s k p false) (reportKey k p) 0) s
    let s := showSplit s
    if pathLive s k 0 || pathLive s k 1 then claimEvent s 5 k 0 0 0
    else
      let s := setHost s k { host s k with liveSince := none }
      if claimA s ≠ 0 && holder s = k then
        claimEvent (raiseIrq (wf s K.claimState 1 0 2) pgClaim 17) 3 k eControllerSilent 0 0
      else s

/-- The evaluation of liveness every 1 ms (R322). -/
def execLivenessTick (s : State) : Host.Outcome State Fault Refusal := .next (silentRecord (silentRecord s 0) 1)

/-- Every INTERVAL the module sends its heartbeats (R320, R39). -/
def execHeartbeatTimer (s : State) : Host.Outcome State Fault Refusal :=
  .next (if s.tray.hs = .unpowered then s else sendHeartbeats s)

/-! ### Claims (R318, R319, R324) -/

/-- After the first claim an UNCLEAN_RECORD that is due is posted (R465). -/
def postUnclean (s : State) : State :=
  match s.tray.uncleanDue with
  | some (step, t) => postEject { s with tray := { s.tray with uncleanDue := none } } 6 0 eTrayUnclean 0 step t
  | none => s

/-- Accept a claim (R324). -/
def acceptClaim (s : State) (k claim : Nat) : State :=
  let old := claimA s
  let s := incr (wr64 s K.claimCurLo claim) K.claimChanges 1
  let s := showSplit (wf s K.claimState 4 0 (1 + 16 * k))
  let s := strikeClaim { s with everClaimed := true }
  postUnclean (claimEvent (raiseIrq s pgClaim 16) 1 k 0 old 0)

/-- Whether a record has had a live path without a break for SETTLE (R324). -/
def settled (s : State) (k : Nat) : Bool :=
  match (host s k).liveSince with
  | some t => decide (t + usCycles (1000 * rf s K.claimCfg 31 16) ≤ s.clock)
  | none => false

/-- A valid heartbeat as a claim request (R324). -/
def requestClaim (s : State) (k claim : Nat) : State :=
  if claim ≤ claimA s then s
  else if settled s k then acceptClaim s k claim
  else incr s (K.claimEarly k) 1

/-- Whether a record may carry a host id: its own, or one it learns that the other does not hold (R319). -/
def idOk (s : State) (k id : Nat) : Bool :=
  if bit (rd s (K.claimHost k)) 8 then rf s (K.claimHost k) 7 0 == id
  else !(bit (rd s (K.claimHost (1 - k))) 8 && rf s (K.claimHost (1 - k)) 7 0 == id)

/-- A heartbeat that R318 and R319 let through: it teaches the id, keeps the path live and may request the claim. -/
def heartbeat (s : State) (k path claim : Nat) : State :=
  let s := wf s (K.claimHost k) 8 0 (256 + claim % 256)
  requestClaim (arrives s k path (some claim)) k claim

/-- A claim's generation (R318). -/
def generation (claim : Nat) : Nat := claim / 2 ^ 16

/-- A CLAIM_HB write that completes a heartbeat (R319, R320, R439). -/
def pcieHeartbeat (s : State) (k p claim : Nat) : State :=
  let s := wiringSeen (setHost s k { host s k with port := p }) k p
  if generation claim = 0 then s
  else if !idOk s k (claim % 256) then recordErr s pgClaim eClaimHost 0 (0x84 + 0x40 * k)
  else heartbeat s k 0 claim

/-- A write of HB_HI, alone or as the upper half of an 8-byte write (R320, R332). -/
def hbHi (a : Access) (wide : Bool) (v : Nat) (s : State) : State :=
  atPlace s a fun s pl =>
    let base := if wide then pl.off else pl.off - 4
    if pl.page ≠ pgClaim || !(base = 0x80 || base = 0xC0) then s
    else
      let k := (base - 0x80) / 0x40
      pcieHeartbeat s k a.port (if wide then v % 2 ^ 64 else (host s k).hbLo + 2 ^ 32 * (v % 2 ^ 32))

def execHbHi (a : Access) (wide : Bool) (v : Nat) (s : State) : Host.Outcome State Fault Refusal := .next (hbHi a wide v s)

/-! ### Frames (R328-R330) -/

def fKind (f : Bytes) : Nat := num f 1 1
def fLength (f : Bytes) : Nat := num f 2 2
def fSeq (f : Bytes) : Nat := num f 4 4
def fBody (f : Bytes) : Bytes := (f.drop 0x28).take (fLength f)

/-- Whether SEQ is above the last accepted one, modulo 2^32 within 2^31 (R330). -/
def seqOk (h : HostRec) (mac seq : Nat) : Bool :=
  let last := mget (fun _ => 0) h.rxSeq mac
  last == 0 || (let d := (seq + 2 ^ 32 - (last - 1)) % 2 ^ 32; d != 0 && decide (d < 2 ^ 31))

/-- Whether the TAG is right (R330). -/
def tagOk (s : State) (f : Bytes) : Bool :=
  !s.mgmtKey.isEmpty && decide (sub f 0x18 16 = (Config.hmac384 s.mgmtKey (f.take 0x18 ++ fBody f)).take 16)

/-- Whether the module keeps a frame of a KIND that hosts send (R328-R330). -/
def frameOk (s : State) (k mac kind : Nat) (f : Bytes) : Bool :=
  decide (0x28 + fLength f ≤ f.length) && num f 0 1 == 1 && fKind f == kind && !(kind == 3 && decide (fLength f < 64))
    && (!bit (rd s K.mgmtCtrl) 0 || (tagOk s f && seqOk (host s k) mac (fSeq f)))

/-- A frame is discarded (R328). -/
def dropFrame (s : State) (k : Nat) : State := satIncr s (K.mgmtDrop k) 1

/-- A frame is accepted (R328, R330, R333). -/
def takeFrame (s : State) (k mac : Nat) (f : Bytes) : State :=
  let h := host s k
  satIncr (setHost s k { h with peerMac := some mac, rxSeq := mset (fun _ => 0) h.rxSeq mac (fSeq f + 1) }) (K.mgmtRx k) 1

/-- A HEARTBEAT frame (R319, R320, R324). -/
def mgmtHeartbeat (k mac : Nat) (f : Bytes) (s : State) : State :=
  let claim := num f 8 8
  if 1 < k || !mgmtUp s k then s
  else if !frameOk s k mac 1 f || generation claim = 0 || !idOk s k (claim % 256) then dropFrame s k
  else heartbeat (takeFrame s k mac f) k 1 claim

def execHeartbeat (k mac : Nat) (f : Bytes) (s : State) : Host.Outcome State Fault Refusal := .next (mgmtHeartbeat k mac f s)

/-- Whether the die cannot serve a REQUEST (R329). -/
def noDie (s : State) : Bool := !serving s || decide (s.tray.hs = .drained)

/-- The code a REQUEST completes with at once, or 0 (R302, R329). -/
def requestCode (s : State) (src : Nat) (body : Bytes) : Nat :=
  let op := num body 0 1
  if noDie s && !([0x00, 0x9D, 0x9E].contains op) then eMgmtNoDie
  else if op ≠ 0 && !isControl op then eCmdNotAllowed
  else fetchCode src body

/-- A REQUEST frame (R322, R329): its command starts like one of a ring, and a RESPONSE frame answers it. -/
def mgmtRequest (k mac : Nat) (f : Bytes) (s : State) : State :=
  if 1 < k || !mgmtUp s k then s
  else if !frameOk s k mac 3 f then dropFrame s k
  else
    let s := arrives (takeFrame s k mac f) k 1 none
    let c : Cmd := { id := s.nextId, src := 0x100 + k, body := sub (fBody f) 0 64 }
    let s := { s with cmds := s.cmds ++ [c], nextId := s.nextId + 1 }
    let code := requestCode s c.src c.body
    if code ≠ 0 then finish s c code else s

def execRequest (k mac : Nat) (f : Bytes) (s : State) : Host.Outcome State Fault Refusal := .next (mgmtRequest k mac f s)

/-- MGMT_CTRL.RELEARN (R319, R333); AUTH is staged as any RWS field. -/
def relearn (a : Access) (v : Nat) (s : State) : State :=
  atPlace s a fun s pl =>
    if pl.page ≠ pgMgmt || pl.off ≠ 0x48 then s
    else
      let s := storeReg s pl.key v
      if !bit v 1 then s
      else
        let key := claimKey s a.port
        let code := claimCode s key
        if code ≠ 0 then recordErr (refuseAct s key code 0) pgMgmt code a.func 0x48
        else wf (wf s (K.claimHost 0) 8 0 0) (K.claimHost 1) 8 0 0

def execRelearn (a : Access) (v : Nat) (s : State) : Host.Outcome State Fault Refusal := .next (relearn a v s)

/-- A management link comes up, with its polarity, or goes down (R328, R333). -/
def mgmtLinkChange (k : Nat) (up pol : Bool) (s : State) : State :=
  if 1 < k || s.tray.hs = .unpowered then s
  else
    let downs := rf s (K.mgmtLink k) 31 16
    let downs := if mgmtUp s k && !up then (downs + 1) % 2 ^ 16 else downs
    wr s (K.mgmtLink k) (b2n up + 2 * b2n (up && pol) + 2 ^ 16 * downs)

def execMgmtLinkChange (k : Nat) (up pol : Bool) (s : State) : Host.Outcome State Fault Refusal :=
  .next (mgmtLinkChange k up pol s)

/-! ### PTP (R331, R35, R36) -/

/-- The order of two data sets under the default BMCA (PRESUMED from IEEE 1588-2019, notes/assumptions/15). -/
def ptpRank (m : PtpMaster) : List Nat :=
  [m.priority1, m.clockClass, m.accuracy, m.variance, m.priority2, m.identity, m.steps]

/-- The first list comes before the second. -/
def listLt : List Nat → List Nat → Bool
  | a :: as, b :: bs => decide (a < b) || (a == b && listLt as bs)
  | [], _ :: _ => true
  | _, [] => false

/-- MGMT_PTP shows the link of the best master, if any. -/
def choosePtp (s : State) : State :=
  let a := s.ptp.getD 0 none
  let b := s.ptp.getD 1 none
  let src := match a, b with
    | some x, some y => b2n (listLt (ptpRank y) (ptpRank x))
    | none, some _ => 1
    | _, _ => 0
  let s := if a.isSome || b.isSome then s else setBit s K.clkPtp 0 false
  wf s K.mgmtPtp 9 8 (src + 2 * b2n (a.isSome || b.isSome))

/-- Whether a link's master disciplines MTIME. -/
def ptpSource (s : State) (k : Nat) : Bool := bit (rd s K.mgmtPtp) 9 && rf s K.mgmtPtp 8 8 == k

/-- The nominal increment and 500 ppm of it, as 32.32 fixed-point nanoseconds (R35). -/
@[reducible] def incNominal : Nat := 10 * 2 ^ 32
@[reducible] def incSpan : Nat := 21474836

/-- The servo sets the increment within 500 ppm; how it weighs an offset and when it holds lock are free choices (R35, R331;
notes/assumptions/5). -/
def servo (s : State) : State :=
  let d := draw s
  let inc := incNominal - incSpan + d.1 % (2 * incSpan + 1)
  let l := draw d.2
  setBit (wr (wr l.2 K.clkMtimeIncF (inc % 2 ^ 32)) K.clkMtimeIncI (inc / 2 ^ 32)) K.clkPtp 0 (l.1 % 2 == 1)

/-- A signed number held to 32 bits (R333). -/
def sat32 (n : Int) : Nat :=
  ((max (-2147483648) (min 2147483647 n)) % 4294967296).toNat

/-- A PTP message received on a link (R331, R36). -/
def ptpMessage (k : Nat) (m : PtpMsg) (s : State) : State :=
  if 1 < k || !mgmtUp s k then s
  else
    let dom := rf s K.mgmtPtp 7 0
    match m with
    | .announce p1 cc ac va p2 id st d =>
      if d ≠ dom then s else choosePtp { s with ptp := s.ptp.set k (some ⟨p1, cc, ac, va, p2, id, st⟩) }
    | .offset ns d => if d ≠ dom || !ptpSource s k then s else servo (wr s K.mgmtPtpOfs (sat32 ns))
    | .time ns d =>
      if d ≠ dom || !ptpSource s k || s.everClaimed then s
      else setBit { s with mtime := BitVec.ofNat 96 (2 ^ 32 * ns), lastSample := 0 } K.clkPtp 1 true

def execPtpMessage (k : Nat) (m : PtpMsg) (s : State) : Host.Outcome State Fault Refusal := .next (ptpMessage k m s)

/-- The chosen master has missed 3 Announce intervals (R331). -/
def ptpTimeout (k : Nat) (s : State) : State :=
  if ptpSource s k then choosePtp { s with ptp := s.ptp.set k none } else s

def execPtpAnnounceTimeout (k : Nat) (s : State) : Host.Outcome State Fault Refusal := .next (ptpTimeout k s)

end Sys2Proof.Machine
end

