-- ==== Sys2Proof/Machine/Formats.lean ====
section
/-! DEFINITION. Number formats and the plumb rule (spec/04_number_formats.md, R83-R108): the fourteen formats,
exact arithmetic on their values, the one rounding to FP32, conversions, block quantisers, chunk values and the
fixed-order reduction; and the functions of R142. Values are exact rationals with a sign (the sign of zero is
kept); only the roundings the rules name ever round. -/

namespace Sys2Proof.Machine

/-- A value of a floating-point element: NaN, a signed infinity, or a sign and an exact magnitude (R85, R86). -/
inductive Num where
  | nan
  | inf (neg : Bool)
  | fin (neg : Bool) (q : Rat)
deriving DecidableEq, Repr

/-- 2 to the power e, exactly. -/
def pow2 (e : Int) : Rat :=
  if 0 ≤ e then ((2 ^ e.toNat : Nat) : Rat) else mkRat 1 (2 ^ (-e).toNat)

/-- floor(log2 q) for a positive q. -/
def log2r (q : Rat) : Int :=
  let e : Int := (Nat.log2 q.num.natAbs : Int) - (Nat.log2 q.den : Int)
  if q < pow2 e then e - 1 else e

/-- A magnitude rounded to an integer: to nearest, ties to even, or toward zero (R93, CVT[0]). -/
def roundInt (rtz : Bool) (q : Rat) : Int :=
  let f := q.floor
  let r := q - f
  if rtz then f
  else if mkRat 1 2 < r || (r == mkRat 1 2 && f % 2 != 0) then f + 1 else f

/-- A magnitude rounded to p significant bits, with no exponent below emin (R93). -/
def roundSig (p : Nat) (emin : Int) (rtz : Bool) (q : Rat) : Rat :=
  if q = 0 then 0
  else
    let e := max (log2r q) emin
    let u := pow2 (e - ((p : Int) - 1))
    (roundInt rtz (q / u) : Rat) * u

/-- How a format spells its special values (R85). -/
inductive Special where
  | ieee
  | nanOnly
  | none
deriving DecidableEq, Repr

/-- A floating-point element layout (R85). -/
structure FloatFmt where
  ebits : Nat
  mbits : Nat
  bias : Int
  special : Special
  /-- FP32 and BF16 subnormals are never used (R95). -/
  flush : Bool
deriving DecidableEq, Repr

def fp32 : FloatFmt := ⟨8, 23, 127, .ieee, true⟩
def bf16 : FloatFmt := ⟨8, 7, 127, .ieee, true⟩
def fp16 : FloatFmt := ⟨5, 10, 15, .ieee, false⟩
def e4m3 : FloatFmt := ⟨4, 3, 7, .nanOnly, false⟩
def e5m2 : FloatFmt := ⟨5, 2, 15, .ieee, false⟩
def e3m2 : FloatFmt := ⟨3, 2, 3, .none, false⟩
def e2m3 : FloatFmt := ⟨2, 3, 1, .none, false⟩
def e2m1 : FloatFmt := ⟨2, 1, 1, .none, false⟩

/-- The largest finite magnitude of a layout (R85). -/
def maxFin (f : FloatFmt) : Rat :=
  match f.special with
  | .ieee => (2 - pow2 (-(f.mbits : Int))) * pow2 ((2 ^ f.ebits : Nat) - 2 - f.bias)
  | .nanOnly => (2 - pow2 (1 - (f.mbits : Int))) * pow2 ((2 ^ f.ebits : Nat) - 1 - f.bias)
  | .none => (2 - pow2 (-(f.mbits : Int))) * pow2 ((2 ^ f.ebits : Nat) - 1 - f.bias)

/-- The value of an element's bits (R85, R86; FP32 and BF16 subnormals read as zero, R95). -/
def decFloat (f : FloatFmt) (x : Nat) : Num :=
  let m := x % 2 ^ f.mbits
  let e := (x / 2 ^ f.mbits) % 2 ^ f.ebits
  let s := (x / 2 ^ (f.mbits + f.ebits)) % 2 == 1
  let top := e == 2 ^ f.ebits - 1
  if f.special = .ieee && top then (if m = 0 then .inf s else .nan)
  else if f.special = .nanOnly && top && m == 2 ^ f.mbits - 1 then .nan
  else if e = 0 then
    .fin s (if f.flush then 0 else (m : Rat) * pow2 (1 - f.bias - (f.mbits : Int)))
  else .fin s (((2 ^ f.mbits + m : Nat) : Rat) * pow2 ((e : Int) - f.bias - (f.mbits : Int)))

/-- The canonical NaN's bits (R86). -/
def nanBits (f : FloatFmt) : Nat :=
  match f.special with
  | .ieee => (2 ^ f.ebits - 1) * 2 ^ f.mbits +
      (if f.mbits = 2 then 3 else 2 ^ (f.mbits - 1))
  | _ => 2 ^ (f.ebits + f.mbits) - 1

/-- The bits of a magnitude that the layout holds exactly, with its sign. -/
def encFin (f : FloatFmt) (neg : Bool) (q : Rat) : Nat :=
  let s := b2n neg * 2 ^ (f.mbits + f.ebits)
  if q = 0 then s
  else
    let e := log2r q
    if e < 1 - f.bias then s + (q / pow2 (1 - f.bias - (f.mbits : Int))).floor.toNat
    else
      s + (e + f.bias).toNat * 2 ^ f.mbits
        + ((q / pow2 (e - (f.mbits : Int))).floor.toNat - 2 ^ f.mbits)

/-- The bits of a value the layout holds exactly. -/
def encNum (f : FloatFmt) : Num → Nat
  | .nan => nanBits f
  | .inf s => b2n s * 2 ^ (f.mbits + f.ebits) + (2 ^ f.ebits - 1) * 2 ^ f.mbits
  | .fin s q => encFin f s q

/-- The value of FP32 bits; subnormals read as zero (R95). -/
def dec32 (x : Nat) : Num := decFloat fp32 x

/-- rne32 on a value: rounded as if the exponent were unbounded, below 2^-126 to zero of the same sign, beyond the
range to infinity (R95). -/
def r32 : Num → Num
  | .nan => .nan
  | .inf s => .inf s
  | .fin s q =>
    if q = 0 then .fin s 0
    else
      let r := roundSig 24 (log2r q) false q
      if r < pow2 (-126) then .fin s 0
      else if pow2 128 ≤ r then .inf s
      else .fin s r

/-- FP32 bits of a value, rounded once. -/
def enc32 (v : Num) : Nat := encNum fp32 (r32 v)

/-- The signed value of a finite number. -/
def signedQ (neg : Bool) (q : Rat) : Rat := if neg then -q else q

/-- A signed rational as a number (zero is +0). -/
def ofRat (r : Rat) : Num := .fin (decide (r < 0)) (if r < 0 then -r else r)

/-- The exact sum, with IEEE 754 special values and the RNE sign of zero. -/
def nadd : Num → Num → Num
  | .nan, _ => .nan
  | _, .nan => .nan
  | .inf s, .inf t => if s = t then .inf s else .nan
  | .inf s, _ => .inf s
  | _, .inf t => .inf t
  | .fin s p, .fin t q =>
    if p = 0 && q = 0 then .fin (s && t) 0
    else ofRat (signedQ s p + signedQ t q)

/-- The opposite number. -/
def nneg : Num → Num
  | .nan => .nan
  | .inf s => .inf (!s)
  | .fin s q => .fin (!s) q

/-- The exact product, with IEEE 754 special values. -/
def nmul : Num → Num → Num
  | .nan, _ => .nan
  | _, .nan => .nan
  | .inf s, .inf t => .inf (s != t)
  | .inf s, .fin t q => if q = 0 then .nan else .inf (s != t)
  | .fin s p, .inf t => if p = 0 then .nan else .inf (s != t)
  | .fin s p, .fin t q => .fin (s != t) (p * q)

/-- The exact quotient, with IEEE 754 special values. -/
def ndiv : Num → Num → Num
  | .nan, _ => .nan
  | _, .nan => .nan
  | .inf _, .inf _ => .nan
  | .inf s, .fin t _ => .inf (s != t)
  | .fin s _, .inf t => .fin (s != t) 0
  | .fin s p, .fin t q =>
    if q = 0 then (if p = 0 then .nan else .inf (s != t)) else .fin (s != t) (p / q)

/-- FP32 sum, product, quotient and fused multiply-add on bits, each rounded once (R95). -/
def add32 (a b : Nat) : Nat := enc32 (nadd (dec32 a) (dec32 b))
def sub32 (a b : Nat) : Nat := enc32 (nadd (dec32 a) (nneg (dec32 b)))
def mul32 (a b : Nat) : Nat := enc32 (nmul (dec32 a) (dec32 b))
def div32 (a b : Nat) : Nat := enc32 (ndiv (dec32 a) (dec32 b))
def fma32 (a b c : Nat) : Nat := enc32 (nadd (nmul (dec32 a) (dec32 b)) (dec32 c))

/-- The canonical FP32 NaN (R86). -/
def nan32 : Nat := 0x7FC00000

/-- A number as a signed rational, where it is finite. -/
def finQ : Num → Rat
  | .fin s q => signedQ s q
  | _ => 0

/-- a < b on numbers that are not NaN. -/
def nlt : Num → Num → Bool
  | .inf true, .inf true => false
  | .inf true, .nan => false
  | .inf true, _ => true
  | _, .inf true => false
  | .inf false, _ => false
  | .nan, _ => false
  | _, .nan => false
  | _, .inf false => true
  | .fin s p, .fin t q => decide (signedQ s p < signedQ t q)

def isNan (v : Num) : Bool := v == .nan
def isZeroN : Num → Bool
  | .fin _ q => q == 0
  | _ => false
def negN : Num → Bool
  | .fin s _ => s
  | .inf s => s
  | .nan => false

/-- max of R141: NaN if either is NaN, max(-0, +0) = +0. -/
def nmax (a b : Num) : Num :=
  if isNan a || isNan b then .nan
  else if isZeroN a && isZeroN b then .fin (negN a && negN b) 0
  else if nlt a b then b else a

/-- min of R141: NaN if either is NaN, min(-0, +0) = -0. -/
def nmin (a b : Num) : Num :=
  if isNan a || isNan b then .nan
  else if isZeroN a && isZeroN b then .fin (negN a || negN b) 0
  else if nlt b a then b else a

/-! ### Format codes (R83) -/

/-- The layout of a code's floating-point element, if it has one. -/
def elemFloat : Nat → Option FloatFmt
  | 0x0 => some fp32
  | 0x1 => some bf16
  | 0x2 => some fp16
  | 0x3 => some e4m3
  | 0x4 => some e5m2
  | 0x5 => some e4m3
  | 0x6 => some e3m2
  | 0x7 => some e2m3
  | 0x8 => some e2m1
  | 0xC => some e2m1
  | _ => none

/-- Bits of one stored element (R90; an LQT trit is packed five to a byte and counted apart). -/
def elemBits : Nat → Nat
  | 0x0 => 32
  | 0x1 => 16
  | 0x2 => 16
  | 0x6 => 6
  | 0x7 => 6
  | 0x8 => 4
  | 0xB => 4
  | 0xC => 4
  | _ => 8

/-- Elements per block scale; 0 where the format has none (R83). -/
def blockOf : Nat → Nat
  | 0x5 => 32
  | 0x6 => 32
  | 0x7 => 32
  | 0x8 => 32
  | 0x9 => 32
  | 0xC => 16
  | 0xD => 64
  | _ => 0

/-- Family of R83: 0 FP32, 1 16-bit, 2 FP8-class, 3 4-bit, 4 ternary. -/
def family : Nat → Nat
  | 0x0 => 0
  | 0x1 => 1
  | 0x2 => 1
  | 0x8 => 3
  | 0xB => 3
  | 0xC => 3
  | 0xD => 4
  | _ => 2

/-- A legal format code (R83, R84). -/
def fmtOk (c : Nat) : Bool := decide (c ≤ 0xD)

/-- W of 8 or fewer bits per element (R99). -/
def narrowFmt (c : Nat) : Bool := decide (2 ≤ family c)

/-- The operand pairs a press accepts (R99). -/
def pressPair (w x : Nat) : Bool :=
  fmtOk w && fmtOk x && (family w == family x || (narrowFmt w && (family x == 2 || x == 1)))

/-- The operand pairs a winnower accepts (R99). -/
def winnowPair (w x : Nat) : Bool :=
  fmtOk w && narrowFmt w && (x == 3 || x == 4 || x == 1)

/-- Bytes of n elements along K in the element plane, blocks padded to their end (R89, R90). -/
def rowBytes (c n : Nat) : Nat :=
  if c = 0xD then 13 * cdiv n 64
  else
    let b := blockOf c
    let n' := if b = 0 then n else b * cdiv n b
    cdiv (n' * elemBits c) 8

/-- Bytes of one block scale: 2 for BF16, 1 for E8M0 and E4M3, 0 for none (R92). -/
def scaleBytes (c : Nat) : Nat := if c = 0xD then 2 else if blockOf c = 0 then 0 else 1

/-- A two's-complement number of w bits. -/
def sext (w n : Nat) : Int := if n < 2 ^ (w - 1) then (n : Int) else (n : Int) - 2 ^ w

/-- The trit k of a packed LQT row, and whether its byte was above 242 (R91). -/
def tritAt (row : Bytes) (k : Nat) : Int × Bool :=
  let blk := k / 64
  let i := k % 64
  let v0 := num row (13 * blk + i / 5) 1
  let bad := decide (242 < v0)
  let v := if bad then 121 else v0
  (((v / 3 ^ (i % 5)) % 3 : Nat) - 1, bad)

/-- The stored bits of element k of a row (R90). -/
def rawAt (c : Nat) (row : Bytes) (k : Nat) : Nat :=
  match elemBits c with
  | 32 => num row (4 * k) 4
  | 16 => num row (2 * k) 2
  | 6 => fld (num row (3 * (k / 4)) 3) (6 * (k % 4) + 5) (6 * (k % 4))
  | 4 => fld (num row (k / 2) 1) (4 * (k % 2) + 3) (4 * (k % 2))
  | _ => num row k 1

/-- The value of element k of a row, before its block scale (R85-R87). -/
def elemAt (c : Nat) (row : Bytes) (k : Nat) : Num :=
  if c = 0xD then ofRat (tritAt row k).1
  else
    match elemFloat c with
    | some f => decFloat f (rawAt c row k)
    | none =>
      if c = 0x9 then ofRat ((sext 8 (rawAt c row k) : Rat) * pow2 (-6))
      else if c = 0xB then ofRat (sext 4 (rawAt c row k))
      else ofRat (sext 8 (rawAt c row k))

/-- The value of a block scale (R88): E8M0, E4M3 (LQ4) or BF16 (LQT). -/
def scaleVal (c raw : Nat) : Num :=
  if c = 0xD then decFloat bf16 raw
  else if c = 0xC then decFloat e4m3 raw
  else if raw = 0xFF then .nan
  else .fin false (pow2 ((raw : Int) - 127))

/-- The block scale at element k of row r, K elements to the row (R92). -/
def scaleAt (c : Nat) (plane : Bytes) (r kTot k : Nat) : Num :=
  let b := blockOf c
  if b = 0 then .fin false 1
  else
    let sb := scaleBytes c
    scaleVal c (num plane (sb * (r * cdiv kTot b + k / b)) sb)

/-! ### Chunks (R101-R105) -/

/-- An operand element on the exact path: its element with what is folded into it, the exponent of its power-of-two
scale, and whether an LQT block scale reads as zero there (R102, steps 1 to 3). -/
structure Opd where
  v : Num
  e : Int
  zeroBlk : Bool
deriving DecidableEq, Repr

/-- The exact-path operand of an element and its block scale (R102). -/
def opd (c : Nat) (el sc : Num) : Opd :=
  if c = 0xD then
    match sc with
    | .nan => ⟨.nan, 0, false⟩
    | .inf s => ⟨nmul el (.inf s), 0, false⟩
    | .fin s q =>
      if q = 0 then ⟨.fin false 0, 0, true⟩
      else
        let e := log2r q
        ⟨nmul el (.fin s (q / pow2 e)), e, false⟩
  else if c = 0xC then ⟨nmul el sc, 0, false⟩
  else
    match sc with
    | .fin _ q => ⟨el, log2r q, false⟩
    | _ => ⟨.nan, 0, false⟩

/-- The element step u of R104, as its exponent of two. -/
def stepExp : Nat → Int
  | 0x2 => -24
  | 0x3 => -9
  | 0x4 => -16
  | 0x5 => -9
  | 0x6 => -4
  | 0x7 => -3
  | 0x8 => -1
  | 0x9 => -6
  | 0xC => -10
  | 0xD => -7
  | _ => 0

/-- The largest scaled-element magnitude M of R104. -/
def maxElem : Nat → Rat
  | 0x2 => 65504
  | 0x3 => 448
  | 0x4 => 57344
  | 0x5 => 448
  | 0x6 => 28
  | 0x7 => mkRat 15 2
  | 0x8 => 6
  | 0x9 => 2
  | 0xA => 128
  | 0xB => 8
  | 0xC => 2688
  | 0xD => mkRat 255 128
  | _ => 0

/-- G = 103 - B (R104). -/
def guardBits (w x : Nat) : Int :=
  102 - log2r (maxElem w * maxElem x / pow2 (stepExp w + stepExp x))

/-- R103: the special value of a chunk's products, if they have one. -/
def chunkSpecial (ps : List Num) : Option Num :=
  if ps.any isNan then some .nan
  else if ps.any (· == .inf true) && ps.any (· == .inf false) then some .nan
  else if ps.any (· == .inf true) then some (.inf true)
  else if ps.any (· == .inf false) then some (.inf false)
  else none

/-- A chunk on the exact path (R102, R103): its FP32 bits, and whether a term lost bits (R104). -/
def chunkExact (cw cx : Nat) (ws xs : List Opd) : Nat × Bool :=
  let prs := ws.zip xs
  let ps := prs.map fun p => nmul p.1.v p.2.v
  match chunkSpecial ps with
  | some v => (encNum fp32 v, false)
  | none =>
    let part := prs.filter fun p => !(p.1.zeroBlk || p.2.zeroBlk)
    match part.map (fun p => p.1.e + p.2.e) with
    | [] => (0, false)
    | e0 :: es =>
      let emax := es.foldl max e0
      let g := guardBits cw cx
      let uexp := stepExp cw + stepExp cx
      let terms := part.map fun p =>
        finQ (nmul p.1.v p.2.v) / pow2 uexp * pow2 (p.1.e + p.2.e - emax + g)
      let a : Int := (terms.map Rat.floor).foldl (· + ·) 0
      let lost := terms.any fun t => t.den != 1
      let v := (a : Rat) * pow2 (uexp + emax - g)
      (let r := enc32 (ofRat v); if r % 2 ^ 31 = 0 then 0 else r, lost)

/-- An operand element on the FP32 path (R105, step 1), as FP32 bits. -/
def widenScaled (el sc : Num) : Nat := enc32 (nmul el sc)

/-- A chunk on the FP32 path (R105): a fused sum in ascending order, a padded element last where the chunk is
short. -/
def chunkFma (len : Nat) (ws xs : List Nat) : Nat :=
  let s := (ws.zip xs).foldl (fun s p => fma32 p.1 p.2 s) 0
  if len < 256 then fma32 0 0 s else s

/-- Whether a pair follows the FP32 path (R101). -/
def fp32Path (w x : Nat) : Bool := w == 0 || w == 1 || x == 0 || x == 1

/-- An operand row cut at [k0, k0+n): elements with their block scales. -/
def rowElems (c : Nat) (row plane : Bytes) (r kTot k0 n : Nat) : List (Num × Num) :=
  (List.range n).map fun i => (elemAt c row (k0 + i), scaleAt c plane r kTot (k0 + i))

/-- One chunk of one output element: FP32 bits and the lost-bits flag. -/
def chunkVal (cw cx : Nat) (w x : List (Num × Num)) : Nat × Bool :=
  if fp32Path cw cx then
    (chunkFma w.length (w.map fun p => widenScaled p.1 p.2) (x.map fun p => widenScaled p.1 p.2), false)
  else
    chunkExact cw cx (w.map fun p => opd cw p.1 p.2) (x.map fun p => opd cx p.1 p.2)

/-! ### Fixed-order reduction (R106, R107) -/

/-- A run: its chunks summed in ascending order (R106). -/
def runSum : List Nat → Nat
  | [] => 0
  | c :: cs => cs.foldl add32 c

/-- One level of the pairwise tree; an odd last element is carried (R106). -/
def treeLevel : List Nat → List Nat
  | a :: b :: rest => add32 a b :: treeLevel rest
  | l => l

/-- The pairwise tree, fuel levels at most. -/
def treeFuel : Nat → List Nat → Nat
  | _, [] => 0
  | _, [v] => v
  | 0, v :: _ => v
  | n + 1, l => treeFuel n (treeLevel l)

/-- The pairwise tree of R106 over the run values. -/
def treeSum (l : List Nat) : Nat := treeFuel l.length l

/-- The runs of a list of chunk values (R106). -/
def runsOf (chunks : List Nat) : List Nat := (List.range (cdiv chunks.length 16)).map fun j =>
  runSum ((chunks.drop (16 * j)).take 16)

/-- R106 whole: runs of 16, then the tree. -/
def reduce106 (chunks : List Nat) : Nat := treeSum (runsOf chunks)

/-- An operand's post scale p (R107). -/
def postScale (c : Nat) (hasPost : Bool) (tscale post : Nat) : Nat :=
  if c = 0xC then (if hasPost then mul32 tscale post else tscale)
  else if hasPost then post else 0x3F800000

/-- R107: result times rne32 of the two post scales. -/
def applyPost (result pw px : Nat) : Nat := mul32 result (mul32 pw px)

/-! ### Conversion (R93, R94) and quantisers (R96-R98) -/

/-- A value converted to a floating-point layout under CVT (R93, R94; FP32 is written as it stands but for
saturation). -/
def narrowFloat (f : FloatFmt) (cvt : Nat) (v : Num) : Nat :=
  let rtz := cvt % 2 == 1
  let nonsat := (cvt / 2) % 2 == 1
  match v with
  | .nan => nanBits f
  | .inf s =>
    if f.special = .none then encFin f s (maxFin f)
    else if nonsat then (if f.special = .ieee then encNum f (.inf s) else nanBits f)
    else encFin f s (maxFin f)
  | .fin s q =>
    if q = 0 then encFin f s 0
    else
      let emin := if f.flush then log2r q else 1 - f.bias
      let r := roundSig (f.mbits + 1) emin rtz q
      if f.flush && decide (r < pow2 (1 - f.bias)) then encFin f s 0
      else if maxFin f < r then
        (if f.special = .none || !nonsat || rtz then encFin f s (maxFin f)
         else if f.special = .ieee then encNum f (.inf s) else nanBits f)
      else encFin f s r

/-- A value rounded and clamped to an integer of plus or minus lim (R94, R98); NaN gives 0. -/
def narrowInt (lim : Int) (rtz : Bool) : Num → Int
  | .nan => 0
  | .inf s => if s then -lim else lim
  | .fin s q =>
    let n := min (roundInt rtz q) lim
    if s then -n else n

/-- A two's-complement code of w bits. -/
def twos (w : Nat) (i : Int) : Nat := (i % (2 ^ w : Int)).toNat

/-- The largest finite magnitude of a block (R96, step 1). -/
def amax (xs : List Num) : Rat :=
  xs.foldl (fun m x => match x with
    | .fin _ q => max m q
    | _ => m) 0

/-- An MX block: scale code and element codes (R96). The elements of a block that holds a NaN are written 0 in every MX
format: R94's MX column says so for all but MXFP8, whose E4M3 column says 0x7F (DEDUCED, notes/assumptions/180). -/
def quantMX (c cvt : Nat) (xs : List Num) : Nat × List Nat :=
  if xs.any isNan then (0xFF, xs.map fun _ => 0)
  else
    let emax : Int := if c = 5 then 8 else if c = 6 then 4 else if c = 9 then 0 else 2
    let a := amax xs
    let x : Int := if a = 0 then -127 else max (-127) (min 127 (log2r a - emax))
    let one := fun v =>
      let y := nmul v (.fin false (pow2 (-x)))
      match elemFloat c with
      | some f => narrowFloat f cvt y
      | none => twos 8 (narrowInt 127 (cvt % 2 == 1) (nmul y (.fin false 64)))
    ((x + 127).toNat, xs.map one)

/-- A positive normal FP32 value (R97). -/
def posNormal : Num → Bool
  | .fin false q => decide (0 < q)
  | _ => false

/-- An LQ4 block under tensor scale st (FP32 bits): block scale code and element codes (R97, R94). A NaN element, and a
quotient that is a NaN since rne32(s_b·s_t) flushed to zero, make the block scale a NaN and the elements 0 (R94). Where the
scale is a NaN because st is no positive normal value, R97 gives no element codes; they are written 0 too (DESIGN CHOICE,
notes/assumptions/180). -/
def quantLQ4 (cvt st : Nat) (xs : List Num) : Nat × List Nat :=
  if xs.any isNan || !posNormal (dec32 st) then (0x7F, xs.map fun _ => 0)
  else
    let six := mul32 0x40C00000 st
    let sb := narrowFloat e4m3 0 (dec32 (div32 (encNum fp32 (.fin false (amax xs))) six))
    if sb = 0 then (0, xs.map fun _ => 0)
    else
      let d := enc32 (nmul (decFloat e4m3 sb) (dec32 st))
      let qs := xs.map fun x => r32 (ndiv x (dec32 d))
      if qs.any isNan then (0x7F, xs.map fun _ => 0) else (sb, qs.map (narrowFloat e2m1 cvt))

/-- An LQT block: BF16 scale code and trits (R98, R94). The scale's conversion is non-saturating whatever CVT holds, and an
infinity over an infinite scale gives trit 0 (DESIGN CHOICE, notes/assumptions/180). -/
def quantLQT (xs : List Num) : Nat × List Int :=
  if xs.any isNan then (0x7FC0, xs.map fun _ => 0)
  else
    let mag := fun (v : Num) => match v with
      | .fin _ q => Num.fin false q
      | .inf _ => .inf false
      | .nan => .nan
    let a := xs.foldl (fun s x => add32 s (encNum fp32 (mag x))) 0
    let s := narrowFloat bf16 2 (nmul (dec32 a) (.fin false (pow2 (-6))))
    let sv := decFloat bf16 s
    if isZeroN sv then (s, xs.map fun _ => 0)
    else (s, xs.map fun x => narrowInt 1 false (r32 (ndiv x sv)))

/-- Thirteen packed bytes of 64 trits (R91). -/
def packLQT (ts : List Int) : Bytes :=
  (List.range 13).map fun j =>
    BitVec.ofNat 8 ((List.range 5).foldr (fun i v =>
      3 * v + (if 5 * j + i < 64 then (ts.getD (5 * j + i) 0 + 1).toNat else 1)) 0)

/-- Element codes packed at w bits each, little-endian (R90). -/
def packBits (w : Nat) (cs : List Nat) : Bytes :=
  let n := (cs.foldr (fun c acc => c % 2 ^ w + 2 ^ w * acc) 0 : Nat)
  toLE (cdiv (w * cs.length) 8) n

/-! ### The functions of R142

Each is the exact function rounded once. The exact value is bracketed by a fixed-point evaluation to 768 fraction
bits and that number is rounded (UNVERIFIED, notes/assumptions/6: no proof that 768 bits decide every rounding). -/

/-- Fraction bits of the evaluation. -/
def fbits : Nat := 768

/-- A rational in fixed point, rounded down. -/
def toFix (q : Rat) : Int := (q * (2 ^ fbits : Nat)).floor

/-- The rational a fixed-point number is. -/
def ofFix (n : Int) : Rat := mkRat n (2 ^ fbits)

/-- Fixed-point product. -/
def fmul (a b : Int) : Int := (a * b) / (2 ^ fbits : Nat)

/-- Sum of z^(2k+1)/(2k+1), sign alternating where alt. -/
def oddSeries (alt : Bool) (z2 : Int) : Nat → Nat → Int → Int → Int
  | 0, _, _, acc => acc
  | n + 1, k, t, acc =>
    let term := t / (2 * k + 1 : Nat)
    oddSeries alt z2 n (k + 1) (fmul t z2) (if alt && k % 2 == 1 then acc - term else acc + term)

/-- ln of a rational in [1, 2], in fixed point: 2 atanh((m-1)/(m+1)). -/
def lnFix (m : Rat) : Int :=
  let z := toFix ((m - 1) / (m + 1))
  2 * oddSeries false (fmul z z) 260 0 z 0

/-- ln 2 in fixed point. -/
def ln2Fix : Int := lnFix 2

/-- exp of a fixed-point number in [0, 1), in fixed point. -/
def expSeries (r : Int) : Nat → Nat → Int → Int → Int
  | 0, _, _, acc => acc
  | n + 1, k, t, acc => expSeries r n (k + 1) (fmul t r / (k + 1 : Nat)) (acc + t)

/-- e^y for a rational y. -/
def expR (y : Rat) : Rat :=
  let yf := toFix y
  let n := yf / ln2Fix
  ofFix (expSeries (yf - n * ln2Fix) 160 0 (2 ^ fbits : Nat) 0) * pow2 n

/-- log2 of a positive rational. -/
def log2R (q : Rat) : Rat :=
  let e := log2r q
  (e : Rat) + mkRat (lnFix (q / pow2 e)) 1 / mkRat ln2Fix 1

/-- The square root of a non-negative rational. -/
def sqrtR (q : Rat) : Rat := mkRat (Nat.sqrt (q * (2 ^ (2 * fbits) : Nat)).floor.toNat) (2 ^ fbits)

/-- pi, by Machin's formula. -/
def piFix : Int :=
  let at5 := toFix (mkRat 1 5)
  let at239 := toFix (mkRat 1 239)
  4 * (4 * oddSeries true (fmul at5 at5) 200 0 at5 0 - oddSeries true (fmul at239 at239) 80 0 at239 0)

/-- Sum of 2^n z^(2n+1)/(2n+1)!!. -/
def erfSeries (z2 : Int) : Nat → Nat → Int → Int → Int
  | 0, _, _, acc => acc
  | n + 1, k, t, acc => erfSeries z2 n (k + 1) (2 * fmul t z2 / (2 * k + 3 : Nat)) (acc + t)

/-- erf of a rational below 10 in magnitude. -/
def erfR (z : Rat) : Rat :=
  let zf := toFix (if z < 0 then -z else z)
  let s := ofFix (erfSeries (fmul zf zf) 600 0 zf 0)
  let v := 2 / sqrtR (ofFix piFix) * expR (-(z * z)) * s
  if z < 0 then -v else v

/-- EXP2 (R142). -/
def fExp2 : Num → Num
  | .nan => .nan
  | .inf s => if s then .fin false 0 else .inf false
  | .fin s q =>
    let x := signedQ s q
    if 128 ≤ x then .inf false
    else if x < -126 then .fin false 0
    else if q.den = 1 then .fin false (pow2 x.floor)
    else
      let n := x.floor
      r32 (.fin false (expR ((x - n) * ofFix ln2Fix) * pow2 n))

/-- LOG2 (R142). -/
def fLog2 : Num → Num
  | .nan => .nan
  | .inf s => if s then .nan else .inf false
  | .fin s q =>
    if q = 0 then .inf true
    else if s then .nan
    else if q = pow2 (log2r q) then r32 (ofRat (log2r q))
    else r32 (ofRat (log2R q))

/-- RECIP (R142). -/
def fRecip : Num → Num
  | .nan => .nan
  | .inf s => .fin s 0
  | .fin s q => if q = 0 then .inf s else r32 (.fin s (1 / q))

/-- RSQRT (R142). -/
def fRsqrt : Num → Num
  | .nan => .nan
  | .inf s => if s then .nan else .fin false 0
  | .fin s q => if q = 0 then .inf s else if s then .nan else r32 (.fin false (sqrtR (1 / q)))

/-- TANH (R142). -/
def fTanh : Num → Num
  | .nan => .nan
  | .inf s => .fin s 1
  | .fin s q =>
    if q = 0 then .fin s 0
    else if 9 ≤ q then .fin s 1
    else
      let e := expR (2 * q)
      r32 (.fin s ((e - 1) / (e + 1)))

/-- GELU (R142): 0.5 x (1 + erf(x / sqrt 2)). -/
def fGelu : Num → Num
  | .nan => .nan
  | .inf s => if s then .fin true 0 else .inf false
  | .fin s q =>
    let x := signedQ s q
    if 10 ≤ x then .fin s q
    else if x ≤ -10 then .fin true 0
    else r32 (.fin s (q / 2 * (1 + erfR (x / sqrtR 2))))

/-- SILU (R142): x / (1 + e^-x). -/
def fSilu : Num → Num
  | .nan => .nan
  | .inf s => if s then .fin true 0 else .inf false
  | .fin s q =>
    let x := signedQ s q
    if 88 ≤ x then .fin s q
    else if x ≤ -88 then .fin true 0
    else r32 (.fin s (q / (1 + expR (-x))))

/-- RELU (R141): A if A > 0, else +0; NaN stays NaN. -/
def fRelu : Num → Num
  | .nan => .nan
  | .inf s => if s then .fin false 0 else .inf false
  | .fin s q => if s then .fin false 0 else .fin false q

end Sys2Proof.Machine
end

