-- ==== Sys2Proof/Machine/Granary.lean ====
section
/-! DEFINITION. The granary channels (R18-R26, R404), ECC and poison (R486, R488), and the arrival of tokens and credits
at a bay (R15, R124, R126). -/

namespace Sys2Proof.Machine

/-! ### Arbitration (R20-R25) -/

/-- A class's own grants in a round: its waiting requests up to its share of the N grants the limit allows. -/
def ownGrants (weight n waiting : Nat) : Nat := min waiting (weight * n / 100)

/-- Lend the grants left over one at a time, in rotation after the class that received the last lent grant (R21):
grants left, last class, requests left per class, lent per class. -/
def lend : Nat → Nat → List Nat → List Nat → Nat × List Nat
  | 0, last, _, lent => (last, lent)
  | k + 1, last, left, lent =>
    match ((List.range 4).map fun i => (last + 1 + i) % 4).find? fun c => left.getD c 0 != 0 with
    | none => (last, lent)
    | some c => lend k c (left.set c (left.getD c 0 - 1)) (lent.set c (lent.getD c 0 + 1))

/-- The grants of one round of a channel: own and lent per class, and the class that received the last lent grant; before any
lent grant the rotation starts at class 0 (DESIGN CHOICE, notes/assumptions/168). -/
def roundGrants (s : State) (chan : Nat) (waiting : List Nat) : Nat × List Nat :=
  let n := grantLimit s (chan / 32)
  let w := rd s (K.grnWeight (chan / 32))
  let own := (List.range 4).map fun k => ownGrants (fld w (8 * k + 7) (8 * k)) n (waiting.getD k 0)
  let left := (List.range 4).map fun k => waiting.getD k 0 - own.getD k 0
  let r := lend (n - own.sum) (mget (fun _ => 3) s.lentLast chan) left [0, 0, 0, 0]
  (r.1, (List.range 4).map fun k => own.getD k 0 + r.2.getD k 0)

/-- Waiting requests of a class at a channel in arrival order: the writes that wait for a grant, by identity, and the reads
(none). q says in arrival order which of the requests are writes; writes it does not name came last. -/
def requestOrder : List Bool → List Nat → List (Option Nat)
  | [], ws => ws.map some
  | true :: q, w :: ws => some w :: requestOrder q ws
  | true :: q, [] => requestOrder q []
  | false :: q, ws => none :: requestOrder q ws

/-- Identities of the writes that wait for a grant at a channel in a class, oldest first (R19). -/
def waitingWrites (s : State) (chan c : Nat) : List Nat :=
  (s.gwq.filter fun w => !w.granted && channelOf (64 * w.line) == chan && unitClass w.unit == c).map (·.id)

/-- Grant the first requests of a class: writes may be acknowledged, and reads may return (R20). -/
def grantFirst (s : State) (chan c : Nat) (l : List (Option Nat)) : State :=
  let ids := l.filterMap id
  let k := 4 * chan + c
  { s with
    gwq := s.gwq.map fun w => if ids.contains w.id then { w with granted := true } else w
    readGrants := mset (fun _ => 0) s.readGrants k (mget (fun _ => 0) s.readGrants k + (l.length - ids.length)) }

/-- One arbitration round of a channel with the requests that wait in each class: each class's requests are granted in
arrival order (R20, R21, R24, R25). -/
def granaryRound (s : State) (chan : Nat) (q : List (List Bool)) : State :=
  let k := chan / 32
  let reqs := (List.range 4).map fun c => requestOrder (q.getD c []) (waitingWrites s chan c)
  let waiting := reqs.map (·.length)
  let r := roundGrants s chan waiting
  let s := { s with lentLast := mset (fun _ => 3) s.lentLast chan r.1 }
  (List.range 4).foldl (fun s c =>
    let g := r.2.getD c 0
    let s := grantFirst s chan c ((reqs.getD c []).take g)
    let s := wr64 s (K.grnGrantLo k c) ((rd64 s (K.grnGrantLo k c) + g) % 2 ^ 64)
    if g < waiting.getD c 0 then satIncr s (K.grnStall k c) 1 else s) s

def execGranaryRound (chan : Nat) (q0 q1 q2 q3 : List Bool) (s : State) : Host.Outcome State Fault Refusal :=
  .next (granaryRound s chan [q0, q1, q2, q3])

/-! ### Writes and reads (R26-R28, R486) -/

/-- A channel acknowledges a unit's oldest write to it, once a round has granted it: the line becomes visible, and what
waited for it goes (R20, R26, R27). -/
def writeAck (s : State) (unit chan : Nat) : State :=
  let p := fun (w : GWrite) => w.unit == unit && channelOf (64 * w.line) == chan
  match s.gwq.find? p with
  | none => s
  | some w => if w.granted then releaseHeld (mirrorWrite (applyWrite { s with gwq := dropFirst p s.gwq } w) w) else s

def execGranaryWriteAck (unit chan : Nat) (s : State) : Host.Outcome State Fault Refusal := .next (writeAck s unit chan)

/-- Poison a line found uncorrectable (R486). -/
def poisonLine (s : State) (line : Nat) : State :=
  let k := channelOf (64 * line) / 32
  let s := satIncr s (K.grnEccUe k) 1
  let s := wr (wr s (K.grnPoisonLastLo k) (64 * line % 2 ^ 32)) (K.grnPoisonLastHi k) (64 * line / 2 ^ 32)
  if s.poison.contains line then s else { s with poison := s.poison ++ [line] }

/-- The grant a read takes, by channel and class (R19, R20). -/
def readGrantOf (unit addr : Nat) (weights : Bool) : Nat :=
  4 * channelOf addr + (if weights then winnowClass else unitClass unit)

/-- A granted read of a line returns: what its ECC showed (0 nothing, 1 a correctable error, 2 an uncorrectable one), and for
a bay the read's latency in ns and whether a winnower's weight stream made it (R19, R20, R28, R150, R486). -/
def readReturn (s : State) (unit addr ecc lat : Nat) (weights : Bool) : State :=
  let g := readGrantOf unit addr weights
  if granEnd ≤ addr || mget (fun _ => 0) s.readGrants g == 0 then s
  else
    let k := channelOf addr / 32
    let s := { s with readGrants := mset (fun _ => 0) s.readGrants g (mget (fun _ => 0) s.readGrants g - 1) }
    let s := if ecc = 1 then satIncr s (K.grnEccCe k) 1 else if ecc = 2 then poisonLine s (addr / 64) else s
    if unit < nBays then setBay s unit (addPerf (addPerf (bay s unit) 12 lat) 13 1) else s

/-! ### Tokens and credits (R15, R34, R124, R126) -/

/-- Whether a message takes a route. -/
def onRoute (r : RouterPort × RouterPort) (m : MeshMsg) : Bool := routeOf m.src m.dst == r

/-- The message from one unit to another that is the oldest of its route, if it may leave the mesh: none leaves for a field
whose PLL relocks (R15, R34). -/
def arriving (s : State) (src dst : Nat) : Option MeshMsg :=
  if dst < nBays && clockless s (fieldOf dst) then none
  else (s.mesh.find? (onRoute (routeOf src dst))).filter fun m => m.src == src && m.dst == dst

/-- Take the oldest message of a route off the mesh. -/
def takeMsg (s : State) (src dst : Nat) : State :=
  { s with mesh := dropFirst (onRoute (routeOf src dst)) s.mesh }

/-- Add to a token counter of a bay, at most to 4,095 (R124). -/
def addToken (s : State) (b c n : Nat) : State :=
  let x := bay s b
  let v := tok x c + n
  let s := setBay s b (setTok x c (min v 4095))
  if 4095 < v then recordErr s (bayPage b) eBayTokenOvf internalFunc 0 else s

/-- Add to a credit pool of a bay, at most to 4,095 (R126). -/
def addCredit (s : State) (b c n : Nat) : State :=
  let x := bay s b
  let v := cred x c + n
  let s := setBay s b (setCred x c (min v 4095))
  if 4095 < v then recordErr s (bayPage b) eBayCreditOvf internalFunc 0 else s

/-- Add to a counter of the gleaner (0) or of the serving sequencer (1) (R120, R236). -/
def addUnitToken (s : State) (unit c n : Nat) : State :=
  let k := 16 * unit + c
  { s with unitTokens := mset (fun _ => 0) s.unitTokens k (min (mget (fun _ => 0) s.unitTokens k + n) 4095) }

/-- A token message arrives at a bay, or at the gleaner or serving sequencer. -/
def tokenArrives (s : State) (src dst : Nat) : State :=
  match arriving s src dst with
  | some m =>
    if m.kind ≠ 0 then s
    else if dst < nBays then addToken (takeMsg s src dst) dst m.ctr m.amount
    else addUnitToken (takeMsg s src dst) (dst - uGleaner) m.ctr m.amount
  | none => s

def execTokenArrival (src dst : Nat) (s : State) : Host.Outcome State Fault Refusal := .next (tokenArrives s src dst)

/-- A credit message arrives at a bay. -/
def creditArrives (s : State) (src dst : Nat) : State :=
  match arriving s src dst with
  | some m => if m.kind = 1 && decide (dst < nBays) then addCredit (takeMsg s src dst) dst m.ctr m.amount else s
  | none => s

def execCreditArrival (src dst : Nat) (s : State) : Host.Outcome State Fault Refusal := .next (creditArrives s src dst)

end Sys2Proof.Machine
end

