-- ==== Sys2Proof/Machine/Bay.lean ====
section
/-! DEFINITION. A bay's sequencer (R114-R132, R148-R152, R498): decoding of work words, the operand descriptors, the line
ranges words read and write, issue, completion, errors, starting and halting. -/

namespace Sys2Proof.Machine

/-! ### Work words (R118-R121) -/

def wCls (w : Nat) : Nat := fld w 3 0
def wOp (w : Nat) : Nat := fld w 7 4

/-- The bits from lo to hi set. -/
def maskOf (hi lo : Nat) : Nat := 2 ^ (hi + 1) - 2 ^ lo

/-- The bits of a word that its class defines (R118, R120). -/
def definedBits (cls op : Nat) : Nat :=
  maskOf 30 0 + (match cls with
    | 1 => maskOf 112 32
    | 2 => maskOf 112 32
    | 3 => maskOf 87 32
    | 4 => maskOf 123 32
    | 5 => maskOf 125 32
    | 6 => if op = 1 then maskOf 53 32 + maskOf 67 56 else maskOf 67 32
    | 7 => maskOf 48 32 + maskOf 66 50 + maskOf 84 68 + maskOf 86 86
    | 8 => maskOf 55 32
    | 9 => maskOf 63 32
    | 10 => maskOf 63 32
    | 15 => maskOf 48 32
    | _ => 0)

/-- A legal CLASS and OP (R119, R153, R196). -/
def legalOp (cls op : Nat) : Bool :=
  match cls with
  | 1 => decide (op < 2)
  | 2 => decide (op < 2)
  | 6 => decide (op < 2)
  | 9 => decide (op < 5)
  | 10 => decide (op < 4)
  | 3 => op == 0
  | 4 => op == 0
  | 5 => op == 0
  | 7 => op == 0
  | 8 => op == 0
  | 15 => op == 0
  | _ => false

/-- A listed VOP (R141). -/
def legalVop (v : Nat) : Bool := decide (v ≤ 8) || (decide (0x10 ≤ v) && decide (v ≤ 0x17)) || (decide (0x20 ≤ v) && decide (v ≤ 0x23))

/-- Operands of LOAD and STORE: first line, lines per row, rows, pitch (R120). -/
def mvGline (w : Nat) : Nat := fld w 63 32
def mvBline (w : Nat) : Nat := fld w 76 64 + (if bit w 112 then 8192 else 0)
def mvRowlines (w : Nat) : Nat := fld w 83 77 + 1
def mvRows (w : Nat) : Nat := fld w 95 84 + 1
def mvPitch (w : Nat) : Nat := fld w 111 96

/-- Operands of PRESS. -/
def prC (w : Nat) : Nat := fld w 44 32
def prM (w : Nat) : Nat := fld w 51 45 + 1
def prN (w : Nat) : Nat := fld w 58 52 + 1
def prK (w : Nat) : Nat := fld w 70 59 + 1
def prD (w : Nat) : Nat := fld w 83 71
def prBegin (w : Nat) : Bool := bit w 84
def prEnd (w : Nat) : Bool := bit w 85
def prOut (w : Nat) : Nat := fld w 87 86

/-- Operands of WINNOW. -/
def wnDesc (w : Nat) : Nat := fld w 63 32
def wnRow0 (w : Nat) : Nat := fld w 75 64
def wnRows (w : Nat) : Nat := fld w 87 76 + 1
def wnV (w : Nat) : Nat := fld w 98 88
def wnVecs (w : Nat) : Nat := fld w 104 99 + 1
def wnO (w : Nat) : Nat := fld w 117 105
def wnOut (w : Nat) : Nat := fld w 119 118
def wnFmtx (w : Nat) : Nat := fld w 123 120

/-- Operands of VEC. -/
def vVop (w : Nat) : Nat := fld w 39 32
def vCount (w : Nat) : Nat := fld w 96 79 + 1
def vFin (w : Nat) : Nat := fld w 100 97
def vFout (w : Nat) : Nat := fld w 104 101
def vCvt (w : Nat) : Nat := fld w 106 105
def vRowlen (w : Nat) : Nat := fld w 125 110 + 1
/-- Line of operand i (0 A, 1 B, 2 D), the vector file's lines from 8192 on. -/
def vLine (w i : Nat) : Nat :=
  (match i with | 0 => fld w 52 40 | 1 => fld w 65 53 | _ => fld w 78 66) + (if bit w (107 + i) then 8192 else 0)

/-- Lines of n bytes, at least one. -/
def linesOf (n : Nat) : Nat := max 1 (cdiv n 64)

/-- Rows of a VEC word's elements. -/
def vRows (w : Nat) : Nat := max 1 (cdiv (vCount w) (vRowlen w))

/-- Bytes of n elements in a format, block formats row by row (R89, R90). -/
def planeBytes (c n rowlen : Nat) : Nat :=
  if blockOf c = 0 then rowBytes c n
  else n / rowlen * rowBytes c rowlen + rowBytes c (n % rowlen)

/-- Bytes of the scale plane of a VEC operand, which follows its element plane (notes/assumptions/13). -/
def scalePlaneBytes (c n rowlen : Nat) : Nat :=
  if blockOf c = 0 then 0 else scaleBytes c * cdiv (min n rowlen) (blockOf c) * cdiv n rowlen

/-- Lines of a VEC operand in a format: element plane, then scale plane. -/
def vecLines (c n rowlen : Nat) : Nat :=
  linesOf (planeBytes c n rowlen) + (if blockOf c = 0 then 0 else linesOf (scalePlaneBytes c n rowlen))

/-- Whether a format takes its scales from B in VEC CVT (R497): lines they take there. -/
def cvtScaleLines (c rows : Nat) : Nat := if c = 0xC then 1 else if c = 0xA || c = 0xB then linesOf (4 * rows) else 0

/-- Lines of operands A, B and D of a VEC word; 0 where the operand is not used (R140, R141, R497). -/
def vecSizes (w : Nat) : Nat × Nat × Nat :=
  let n := vCount w
  let rl := vRowlen w
  let a := vecLines (vFin w) n rl
  let d := vecLines (vFout w) n rl
  let rows := vRows w
  match vVop w with
  | 0x00 => (a, cvtScaleLines (vFin w) rows + cvtScaleLines (vFout w) rows, d)
  | 0x07 => (a, 1, d)
  | 0x08 => (a, 1, d)
  | 0x20 => (a, 0, linesOf (rowBytes (vFout w) rows))
  | 0x21 => (a, 0, linesOf (rowBytes (vFout w) rows))
  | 0x22 => (a, 0, linesOf (8 * rows))
  | 0x23 => (rl * linesOf (4 * n), 0, d)
  | v => if v ≤ 6 then (a, a, d) else (a, 0, d)

/-- First row of R121: a reserved value, a count out of range. -/
def badWord (w : Nat) : Bool :=
  let cls := wCls w
  !legalOp cls (wOp w) || decide (Nat.land w (definedBits cls (wOp w)) ≠ w)
    || ((cls == 1 || cls == 2) && decide (1 < mvRows w) && decide (mvPitch w < mvRowlines w))
    || (cls == 3 && prOut w == 3)
    || (cls == 4 && (wnOut w == 0 || wnOut w == 3))
    || (cls == 5 && (!legalVop (vVop w) || decide (131072 < vCount w)
        || ([0x20, 0x21, 0x22].contains (vVop w) && decide (vCount w % vRowlen w ≠ 0))))
    || (cls == 6 && (fld w 63 56 == 0 || (fld w 41 32 != 1023 && decide (fld w 51 42 < fld w 41 32))))
    || (cls == 8 && fld w 55 40 == 0)

/-- A line range in the bay: inclusive bounds, the vector file from 8192 on. -/
abbrev Lines := Nat × Nat

/-- Whether a range stays inside the space its first line lies in. -/
def rangeOk (r : Lines) : Bool := if r.1 < 8192 then decide (r.2 < 8192) else decide (r.2 < 8192 + 2048)

/-- A range from its first line and count. -/
def rng (first n : Nat) : Lines := (first, first + n - 1)

/-- Line ranges known at decode: reads and writes (R121, R130). -/
def staticRanges (w : Nat) : List Lines × List Lines :=
  match wCls w with
  | 1 => ([], [rng (mvBline w) (mvRows w * mvRowlines w)])
  | 2 => ([rng (mvBline w) (mvRows w * mvRowlines w)], [])
  | 3 => ([rng (prD w) 1], if prEnd w && prOut w != 0 then [rng (prC w) (prM w * linesOf (4 * prN w))] else [])
  | 4 => ([rng (8192 + wnV w) (wnVecs w)], [rng (wnO w) (wnVecs w * linesOf (4 * wnRows w))])
  | 5 =>
    let z := vecSizes w
    let a := rng (vLine w 0) z.1
    let b := if z.2.1 = 0 then [] else [rng (vLine w 1) z.2.1]
    let d := rng (vLine w 2) z.2.2
    (a :: b ++ (if vVop w = 4 then [d] else []), [d])
  | _ => ([], [])

/-- Whether some range leaves its space. -/
def outOfStore (rs : List Lines × List Lines) : Bool := !((rs.1 ++ rs.2).all rangeOk)

/-- Third row of R121: a SEND destination that is reserved, BIST-disabled or owned by another function. -/
def badDest (s : State) (b w : Nat) : Bool :=
  wCls w == 6 && (
    let d := fld w 41 32
    let l := fld w 51 42
    if d = 1023 then decide (1 < fld w 67 64)
    else decide (575 < d) || decide (575 < l) ||
      (List.range (l + 1 - d)).any fun i => (bay s (d + i)).off || (bay s (d + i)).owner != (bay s b).owner)

/-- The five formats every VOP but CVT takes (R140). -/
def vecFmt (c : Nat) : Bool := decide (c ≤ 4)

/-- Fourth row of R121: a format not allowed. -/
def badPair (w : Nat) : Bool :=
  (wCls w == 5 && (!fmtOk (vFin w) || !fmtOk (vFout w) || (vVop w != 0 && !(vecFmt (vFin w) && vecFmt (vFout w)))
      || (vVop w == 0x23 && vFin w != 0)))
    || (wCls w == 4 && !(wnFmtx w == 1 || wnFmtx w == 3 || wnFmtx w == 4))

/-- The code that refuses a word at decode, in table order (R121). -/
def decodeCode (s : State) (b w : Nat) : Option Nat :=
  if badWord w then some eBayBadWord
  else if outOfStore (staticRanges w) then some eBayStoreRange
  else if badDest s b w then some eBayDest
  else if badPair w then some eArithPair
  else none

/-! ### Operand descriptors (R133) -/

/-- A 32-byte operand descriptor. -/
structure OpDesc where
  elem : Nat
  scale : Nat
  post : Nat
  tscale : Nat
  k : Nat
  koff : Nat
  pitch : Nat
  fmt : Nat
  hasPost : Bool
  ok : Bool
deriving DecidableEq, Repr

/-- The descriptor 32 bytes spell; ok says that no reserved bit or value is set. -/
def opDesc (d : Bytes) : OpDesc :=
  { elem := num d 0 4, scale := num d 4 4, post := num d 8 4, tscale := num d 0xC 4, k := num d 0x10 4
    koff := num d 0x14 2, pitch := num d 0x16 2, fmt := fld (num d 0x18 1) 3 0, hasPost := bit (num d 0x18 1) 4
    ok := fld (num d 0x18 1) 7 5 == 0 && num d 0x19 7 == 0 && num d 0x14 2 % 16 == 0 }

/-- The W and X descriptors of a PRESS word. -/
def pressDescs (x : Bay) (w : Nat) : OpDesc × OpDesc :=
  (opDesc (bread x (prD w) 32), opDesc ((bread x (prD w) 64).drop 32))

/-- The descriptor of a WINNOW word. -/
def winnowDesc (s : State) (b w : Nat) : OpDesc := opDesc (greadOf s b (64 * wnDesc w) 32)

/-- Bay-store ranges that a press operand names (R130, R133). -/
def operandRanges (d : OpDesc) (rows k : Nat) : List Lines :=
  rng d.elem ((rows - 1) * d.pitch + linesOf (rowBytes d.fmt k))
    :: (if blockOf d.fmt = 0 then [] else [rng d.scale (linesOf (rows * cdiv k (blockOf d.fmt) * scaleBytes d.fmt))])
    ++ (if d.hasPost then [rng d.post (linesOf (4 * rows))] else [])

/-- Runs from a first chunk to a last one (R106). -/
def runsSpan (first n : Nat) : Nat := (first + n - 1) / 16 - first / 16 + 1

/-- First chunk and chunks of the accumulation once a PRESS word is done (R135). -/
def pressSpan (x : Bay) (w : Nat) : Nat × Nat :=
  let n := cdiv (prK w) 256
  if prBegin w then ((pressDescs x w).1.koff, n)
  else match x.acc with
    | some a => (a.koff, (a.chunks.headD []).length + n)
    | none => (0, n)

/-- Lines of a vector in the vector file (R138). -/
def vecPitch (fmtx k : Nat) : Nat := linesOf (rowBytes fmtx k)

/-- The descriptor of an ATTN or CONV word (R154, R197). -/
def compDesc (s : State) (b w : Nat) : Bytes := greadOf s b (64 * fld w 63 32) 128

/-- The line ranges a word reads and writes (R130). A CONV works in its work area (R164); ATTN's operands all lie in the granary
(R199), so it reads nothing of the vector file (DEDUCED, notes/assumptions/178). -/
def wordRanges (s : State) (b : Nat) (x : Bay) (w : Nat) : List Lines × List Lines :=
  if wCls w = 3 then
    let d := pressDescs x w
    let span := pressSpan x w
    let planes := if prOut w = 1 then runsSpan span.1 span.2 else 1
    (rng (prD w) 1 :: operandRanges d.1 (prM w) (prK w) ++ operandRanges d.2 (prN w) (prK w),
      if prEnd w && prOut w != 0 then [rng (prC w) (planes * prM w * linesOf (4 * prN w))] else [])
  else if wCls w = 4 then
    let d := winnowDesc s b w
    let planes := if wnOut w = 1 then runsSpan d.koff (cdiv d.k 256) else 1
    ([rng (8192 + wnV w) (wnVecs w * vecPitch (wnFmtx w) d.k)], [rng (wnO w) (planes * wnVecs w * linesOf (4 * wnRows w))])
  else if wCls w = 10 then
    let d := compDesc s b w
    let work := if num d 0x5A 2 = 0 then [] else [rng (num d 0x58 2) (num d 0x5A 2)]
    (work, work)
  else staticRanges w

/-! ### Issue (R125, R126, R129, R130, R498) -/

/-- The conditions a word places on token counters: counter, threshold, consume (R118, R120). -/
def headCond (w : Nat) : List (Nat × Nat × Bool) :=
  if fld w 23 16 = 0 then [] else [(fld w 15 12, fld w 23 16, bit w 24)]

def waitConds (w : Nat) : List (Nat × Nat × Bool) :=
  if wCls w ≠ 7 then []
  else ([32, 50, 68].map fun lo => (fld w (lo + 3) lo, fld w (lo + 15) (lo + 4), bit w (lo + 16))).filter (·.2.1 != 0)

/-- Conditions hold together (R125): a counter covers the sum of what is consumed from it and each threshold. -/
def condsHold (x : Bay) (cs : List (Nat × Nat × Bool)) : Bool :=
  cs.all fun c => decide (c.2.1 ≤ tok x c.1)
    && decide (((cs.filter fun d => d.1 == c.1 && d.2.2).map (·.2.1)).sum ≤ tok x c.1)

/-- The engine of a class (R114). -/
def engineOf (cls : Nat) : Option Engine :=
  match cls with
  | 1 => some .auger
  | 2 => some .auger
  | 3 => some .press
  | 4 => some .winnow
  | 5 => some .vec
  | 9 => some .composite
  | 10 => some .composite
  | _ => none

/-- Whether an ATTN word's pool holds FP8 (R178). -/
def poolFp8 (s : State) (b w : Nat) : Bool := (geoOf s (num (compDesc s b w) 6 1 % 8)).fp8

/-- Engines a composite uses (R153, R196): DECODE takes the winnower for an FP8 pool and the presses for a BF16 one. -/
def compositeUses (cls op : Nat) (fp8 : Bool) : List Engine :=
  if cls = 10 then (if op = 0 then [.auger, .press, .vec] else [.auger, .vec])
  else match op with
    | 0 => [.press, .vec]
    | 1 => [if fp8 then .winnow else .press, .vec]
    | 2 => [.auger, .vec]
    | 3 => [.press, .vec]
    | _ => [.vec]

/-- Words of an engine that have not completed. -/
def engCount (x : Bay) (e : Engine) : Nat := (x.issued.filter (·.eng == e)).length

/-- Whether a word's engine queue has room; a composite needs all four empty (R129, 3). -/
def engRoom (x : Bay) (cls : Nat) : Bool :=
  match engineOf cls with
  | none => true
  | some .composite => x.issued.isEmpty
  | some e => decide (engCount x e < 8)

/-- Whether two lists of ranges overlap. -/
def meets (a b : List Lines) : Bool := a.any fun p => b.any fun q => decide (p.1 ≤ q.2) && decide (q.1 ≤ p.2)

/-- Earlier words that hold a word (R130), or a composite that has its engine (R129). -/
def hazards (x : Bay) (cls : Nat) (rs : List Lines × List Lines) : List Issued :=
  x.issued.filter fun i => meets rs.1 i.wr || meets rs.2 i.rd || meets rs.2 i.wr ||
    (match engineOf cls with
      | some e => i.uses.contains e
      | none => false)

/-- Whether a bay has issued a STORE that is not acknowledged, or has any write in flight (R27, R123). -/
def storesPending (s : State) (b : Nat) : Bool := writing s b || (bay s b).issued.any (·.cls == 2)

/-- HOLD of the head word: the first unmet condition in the order of R498; 0 when it may issue. -/
def holdCode (s : State) (b w : Nat) : Nat :=
  let x := bay s b
  let cls := wCls w
  if !condsHold x (headCond w) then 1
  else if cred x (fld w 26 25) < fld w 30 27 then 2
  else if !engRoom x cls then 4
  else if !(hazards x cls (wordRanges s b x w)).isEmpty then 3
  else if (cls == 6 || cls == 8) && storesPending s b then 5
  else if cls == 15 && !x.issued.isEmpty then 3
  else if !condsHold x (headCond w ++ waitConds w) then 1
  else if cls == 7 && bit w 86 && !x.issued.isEmpty then 3
  else if relocking s (fieldOf b) then 6
  else 0

/-- HOLD of a bay (R174, R498). -/
def holdNow (s : State) (b : Nat) : Nat :=
  let x := bay s b
  if x.st ≠ .running || x.halting then 0
  else if x.comp.any (·.waiting) then 1
  else match x.queue with
    | [] => 7
    | q :: _ => if q.refused.isSome then 0 else holdCode s b q.word.toNat

/-- FCLK cycles of a bay in one ACLK cycle (R31): none while its field has no clock. -/
def fclkCycles (s : State) (b : Nat) : Nat :=
  let f := fcur s (fieldOf b)
  if clockless s (fieldOf b) then 0 else (s.clock + 1) * f / 4 - s.clock * f / 4

/-- What the cycles of a RUNNING bay count in an ACLK cycle (R150): CYC, and what its head word waits for. -/
def bayCycle (s : State) (b : Nat) : State :=
  let x := bay s b
  if x.st ≠ .running then s
  else
    let n := fclkCycles s b
    let h := holdNow s b
    let load := h = 3 && (match x.queue with
      | q :: _ => (hazards x (wCls q.word.toNat) (wordRanges s b x q.word.toNat)).any (·.cls == 1)
      | [] => false)
    let x := addPerf x 0 n
    let s := if h = 1 || h = 2 then s else countBusy s (fieldOf b) n
    setBay s b (if load then addPerf x 9 n else if h = 1 then addPerf x 10 n else if h = 2 then addPerf x 11 n else x)

/-- One ACLK cycle of the block when no command waits: the clocks, and the counters of the bays that run
(notes/assumptions/4). -/
def oneCycle (s : State) : State :=
  if s.tray.hs = .unpowered then s else s.bays.foldl (fun s e => bayCycle s e.1) (idleCycle s)

/-- Count in a performance counter cycles whose number the spec does not give: a free value (R150; notes/assumptions/38). -/
def freePerf (s : State) (b j : Nat) : State :=
  setBay { s with free := s.free + 1 } b (addPerf (bay s b) j (Config.freeValue s.free))

/-- Words move from the prefetch buffer into the 64-entry queue and are decoded on entry (R121, R128). -/
def refill (s : State) (b : Nat) : State :=
  let x := bay s b
  let n := 64 - x.queue.length
  let ent := fun (q : QWord) => if q.refused.isSome then q else { q with refused := decodeCode s b q.word.toNat }
  setBay s b { x with queue := x.queue ++ (x.prefetch.take n).map ent, prefetch := x.prefetch.drop n }

/-- The epoch a bay shows: the serving step's, or that of its oldest word (R76). -/
def plainEpoch (x : Bay) : Option Nat := if x.stepHeld then x.epoch else x.issued.head?.map (·.epoch)

/-- Subtract what a word consumes from the counters and its credit pool (R125, R126). -/
def consume (x : Bay) (w : Nat) : Bay :=
  let x := (headCond w ++ waitConds w).foldl (fun x c => if c.2.2 then setTok x c.1 (tok x c.1 - c.2.1) else x) x
  setCred x (fld w 26 25) (cred x (fld w 26 25) - fld w 30 27)

/-- The microtile of a pair, height and width (R134). -/
def tileH (fw fx : Nat) : Nat × Nat :=
  if fw = 0 && fx = 0 then (4, 8)
  else if fx = 1 || family fw = 1 then (16, 16)
  else if family fw = 4 && family fx = 4 then (32, 64)
  else if family fw = 3 && family fx = 3 then (16, 64)
  else (16, 32)

def pressesOf (s : State) (b : Nat) (w : Nat) : Nat :=
  if wCls w = 3 then
    let d := pressDescs (bay s b) w
    min 4 (cdiv (prM w) (tileH d.1.fmt d.2.fmt).1)
  else if (wCls w = 9 || wCls w = 10) && (compositeUses (wCls w) (wOp w) (poolFp8 s b w)).contains .press then 4
  else 0

/-- Presses that receive work: an idle one requests admission, one that waits for its release withdraws (R144). -/
def callPresses (x : Bay) (n : Nat) : Bay :=
  { x with presses := (List.range 4).map fun p =>
      let v := x.presses.getD p 0
      if p < n then (if v = 0 then 1 else if v = 3 then 2 else v) else v }

/-- Take the head word off the queue and mark it issued. -/
def issueHead (s : State) (b : Nat) (q : QWord) : State :=
  let x := bay s b
  let w := q.word.toNat
  let ep := if x.stepHeld then x.epoch.getD 0 else rd s K.txnEpoch
  let np := pressesOf s b w
  let ent : Option Issued := (engineOf (wCls w)).map fun e =>
    { eng := e, cls := wCls w, rd := (wordRanges s b x w).1, wr := (wordRanges s b x w).2, epoch := ep, np := np
      uses := if e = .composite then compositeUses (wCls w) (wOp w) (poolFp8 s b w) else [] }
  let x := callPresses (addPerf (consume x w) 1 1) np
  let x := { x with queue := x.queue.drop 1, phase := fld w 11 8, issued := x.issued ++ ent.toList }
  noteOldest (refill (countWord (setBay s b { x with epoch := plainEpoch x }) (fieldOf b) (fld w 11 8)) b)

/-- The last word a bay issued leaves its engine at once: it failed and wrote nothing. -/
def dropIssued (s : State) (b : Nat) : State :=
  let x := bay s b
  let x := { x with issued := x.issued.dropLast }
  setBay s b { x with epoch := plainEpoch x }

/-- The bound below which the last issued word's writes lie (R131). -/
def boundIssued (s : State) (b : Nat) : State :=
  let x := bay s b
  setBay s b { x with issued := (x.issued.dropLast) ++ (x.issued.getLast?.map fun i => { i with bound := s.nextId }).toList }

/-! ### Errors, halting and starting (R121, R132) -/

/-- The epoch goes back on reaching HALTED or ERROR (R132); words already issued complete, a composite among them (R121). -/
def leaveRunning (s : State) (b : Nat) (st : BaySt) (hcode : Nat) : State :=
  noteOldest (setBay s b { bay s b with st := st, hcode := hcode % 2 ^ 16, halting := false, epoch := none, stepHeld := false })

/-- A bay enters ERROR with a code; BAY_ERRPC names the word (R121, R132, R148). In serving, R234 follows. -/
def bayError (s : State) (b code addr : Nat) : State :=
  let s := recordErr s (bayPage b) code (bay s b).owner 0
  if (bay s b).st ≠ .running then s
  else
    let s := setBay s b { bay s b with errpc := addr }
    bayFailed (raiseIrq (leaveRunning s b .error code) (bayPage b) 17) b code

/-- The bay reaches HALTED (R132); a job may be done with it (R373). -/
def bayHalted (s : State) (b hcode : Nat) : State := jobsCheck (leaveRunning s b .halted hcode)

/-- A program starts at BAY_PROG with its credit pools loaded (R126, R128, R132). -/
def startProgram (s : State) (b : Nat) : State :=
  let x := bay s b
  let a := rd s (K.bayCreditInitA b)
  let c := rd s (K.bayCreditInitB b)
  let x := setCred (setCred (setCred (setCred x 0 (fld a 11 0)) 1 (fld a 27 16)) 2 (fld c 11 0)) 3 (fld c 27 16)
  setBay s b { x with
    st := .running, halting := false, queue := [], prefetch := [], outs := none
    fetch := 16 * (rd s (K.bayProgLo b) / 16) + 2 ^ 32 * rf s (K.bayProgHi b) 5 0 }

/-- GO (R132); a bay that HALT_ON_ERR stops starts no program (R43, notes/assumptions/49). -/
def goBay (s : State) (b func : Nat) : State :=
  if (bay s b).off then recordErr s (bayPage b) eBayDisabled func 0x414
  else if (bay s b).st = .running then recordErr s (bayPage b) eBayBusy func 0x414
  else if haltedOnErr s (bayPage b) then s
  else startProgram s b

/-- A tally fired: the bay starts if BAY_START names it with ARM (R132, R433). -/
def tallyStart (s : State) (b tally : Nat) : State :=
  let v := rd s (K.bayStart b)
  if !bit v 8 || fld v 7 0 ≠ tally then s
  else if (bay s b).off then recordErr s (bayPage b) eBayDisabled internalFunc 0
  else if (bay s b).st = .running then setBay s b (addPerf (bay s b) 15 1)
  else if haltedOnErr s (bayPage b) then s
  else startProgram s b

/-! ### Commands of the BAY page (R148, R151) -/

/-- A write of a BAY page register at an offset, past the expert lock. -/
def atBay (s : State) (a : Access) (off : Nat) (f : State → Nat → State) : State :=
  atPlace s a fun s pl => if pageType pl.page = 0x20 && pl.off == off then f s (pl.page - 0x100) else s

/-- BAY_RUN with GO and without HALT; CLEAR comes first (R151). -/
def execBayRunGo (a : Access) (v : Nat) (s : State) : Host.Outcome State Fault Refusal :=
  .next (atBay s a 0x414 fun s b =>
    if bit v 1 || !bit v 0 then s
    else
      let s := if bit v 2 && (bay s b).st ≠ .running then setBay s b (clearWritten (bay s b)) else s
      goBay s b a.func)

/-- BAY_RUN with HALT (R132, R151). -/
def execBayRunHalt (a : Access) (v : Nat) (s : State) : Host.Outcome State Fault Refusal :=
  .next (atBay s a 0x414 fun s b => if bit v 1 then haltBay s b else s)

/-- BAY_RUN with CLEAR alone (R116, R151). -/
def execBayRunClear (a : Access) (v : Nat) (s : State) : Host.Outcome State Fault Refusal :=
  .next (atBay s a 0x414 fun s b =>
    if bit v 2 && !bit v 1 && !bit v 0 && (bay s b).st ≠ .running then setBay s b (clearWritten (bay s b)) else s)

/-- BAY_TOKEN_SET with GO (R151). -/
def execBayTokenSet (a : Access) (v : Nat) (s : State) : Host.Outcome State Fault Refusal :=
  .next (atBay s a 0x418 fun s b => if bit v 31 then setBay s b (setTok (bay s b) (fld v 3 0) (fld v 27 16)) else s)

/-- BLK_CTRL.PERF_CLR of a BAY page (R148). -/
def execPerfClr (a : Access) (v : Nat) (s : State) : Host.Outcome State Fault Refusal :=
  .next (atBay s a 0x10 fun s b => if bit v 16 then setBay s b { bay s b with perf := [] } else s)

/-! ### Fetch, head of the queue, completion (R121, R128, R131, R132) -/

/-- Words of the program line a bay fetches next, with the code that its reading meets (R17, R487). -/
def fetchWords (s : State) (b : Nat) : List QWord :=
  let a := (bay s b).fetch
  let line := a / 64
  let code := if !allocatable (64 * line) 64 then some eMemRange else if s.poison.contains line then some ePoison else none
  (List.range ((64 - a % 64) / 16)).map fun i =>
    { addr := a + 16 * i, word := BitVec.ofNat 128 (leNat (greadOf s b (a + 16 * i) 16)), refused := code }

/-- The next line of a bay program returns (R128). -/
def programFetch (s : State) (b : Nat) : State :=
  let x := bay s b
  let ws := fetchWords s b
  if x.st ≠ .running || decide (512 < x.prefetch.length + ws.length) || decide (granEnd ≤ x.fetch) then s
  else refill (setBay s b { x with prefetch := x.prefetch ++ ws, fetch := 64 * (x.fetch / 64) + 64 }) b

def execProgramFetchReturn (b : Nat) (s : State) : Host.Outcome State Fault Refusal := .next (programFetch s b)

/-- A refused word at the head: the bay enters ERROR (R121). -/
def refusedHead (s : State) (b : Nat) : State :=
  let x := bay s b
  if x.st ≠ .running || x.halting then s
  else match x.queue with
    | q :: _ => (match q.refused with
      | some code => bayError s b code q.addr
      | none => s)
    | [] => s

def execRefusedWordAtHead (b : Nat) (s : State) : Host.Outcome State Fault Refusal := .next (refusedHead s b)

/-- Whether the oldest word of an engine may complete: its presses were admitted (R144), its writes are acknowledged
(R26), its composite has ended (R156, R202). -/
def mayComplete (s : State) (b : Nat) (x : Bay) (i : Issued) : Bool :=
  match i.eng with
  | .press => (List.range i.np).all fun p => 2 ≤ x.presses.getD p 0
  | .auger => i.cls != 2 || !(s.gwq.any fun w => w.unit == b && decide (w.id < i.bound))
  | .composite => x.comp.isNone && !(s.gwq.any fun w => w.unit == b && decide (w.id < i.bound)) &&
      (List.range i.np).all fun p => 2 ≤ x.presses.getD p 0
  | _ => true

/-- Presses that have no next work request their release (R144). -/
def freePresses (x : Bay) : Bay :=
  let need := x.issued.foldl (fun n i => max n i.np) 0
  { x with presses := (List.range 4).map fun p =>
      let v := x.presses.getD p 0
      if need ≤ p && v == 2 then 3 else v }

/-- The engine of a number: 0 auger, 1 presses, 2 winnower, 3 vector unit, 4 a composite. -/
def engineNo : Nat → Engine
  | 0 => .auger
  | 1 => .press
  | 2 => .winnow
  | 3 => .vec
  | _ => .composite

/-- The oldest word of an engine completes (R131). -/
def wordComplete (s : State) (b : Nat) (e : Engine) : State :=
  let x := bay s b
  match x.issued.find? (·.eng == e) with
  | none => s
  | some i =>
    if !mayComplete s b x i then s
    else
      let x := freePresses { x with issued := dropFirst (·.eng == e) x.issued }
      noteOldest (setBay s b { x with epoch := if x.st = .running then plainEpoch x else none })

def execWordComplete (b e : Nat) (s : State) : Host.Outcome State Fault Refusal := .next (wordComplete s b (engineNo e))

/-- Run the head word if it is the one meant, has not been refused and may issue: refusals that its descriptor brings
(R133), then its issue and its effect. An effect that fails writes nothing and puts the bay in ERROR (R122, R487). -/
def runHead (s : State) (b : Nat) (sel : Nat → Bool) (pre : State → Nat → Nat → Nat)
    (eff : State → Nat → QWord → Except Nat State) : State :=
  let x := bay s b
  if x.st ≠ .running || x.halting then s
  else match x.queue with
    | [] => s
    | q :: _ =>
      let w := q.word.toNat
      if q.refused.isSome || !sel w then s
      else
        if holdCode s b w ≠ 0 then s
        else
          let code := pre s b w
          if code ≠ 0 then bayError s b code q.addr
          else
            let s := issueHead s b q
            match eff s b q with
            | .ok s => if (engineOf (wCls w)).isSome then boundIssued s b else s
            | .error code => bayError (dropIssued s b) b code q.addr

/-- A class and OP. -/
def isWord (cls op : Nat) (w : Nat) : Bool := wCls w == cls && wOp w == op

/-- No refusal at issue. -/
def noPre (_ : State) (_ _ : Nat) : Nat := 0

/-! ### Bay-store ECC (R490) -/

/-- Lines of ranges whose written bit is 1. -/
def writtenIn (x : Bay) (rs : List Lines) : List Nat := x.written.filter fun l => rs.any fun r => decide (r.1 ≤ l) && decide (l ≤ r.2)

/-- What the ECC of the lines a word reads showed (0 nothing, 1 a single-bit error, 2 a double-bit error), counted. -/
def storeEcc (s : State) (b ecc : Nat) (rs : List Lines) : State :=
  match writtenIn (bay s b) rs with
  | [] => s
  | l :: _ =>
    let v := rd s (K.bayEcc b)
    let x := bay s b
    let bad := ecc == 2 || meets rs (x.ue.map fun l => (l, l))
    if bad then
      wr (setBay s b { x with ue := if ecc = 2 && !x.ue.contains l then x.ue ++ [l] else x.ue })
        (K.bayEcc b) (putFld v 31 16 (min (fld v 31 16 + 1) 0xFFFF))
    else if ecc = 1 then wr s (K.bayEcc b) (putFld v 15 0 (min (fld v 15 0 + 1) 0xFFFF))
    else s

/-- Whether a range holds a line with an uncorrectable error. -/
def storeBad (s : State) (b : Nat) (rs : List Lines) : Bool := meets rs ((bay s b).ue.map fun l => (l, l))

/-- An effect behind the ECC check of the word's read set: a failed check writes nothing (R490). -/
def behindEcc (rs : Nat → List Lines) (eff : State → Nat → QWord → Except Nat State) : State → Nat → QWord → Except Nat State :=
  fun s b q => if storeBad s b (rs q.word.toNat) then .error eStoreUe else eff s b q

/-- Run the head word with what the ECC of its reads showed. -/
def runReading (s : State) (b ecc : Nat) (sel : Nat → Bool) (pre : State → Nat → Nat → Nat)
    (eff : State → Nat → QWord → Except Nat State) : State :=
  let x := bay s b
  match x.queue with
  | q :: _ =>
    let w := q.word.toNat
    let rs := (wordRanges s b x w).1
    let go := x.st == .running && !x.halting && q.refused.isNone && sel w && holdCode s b w == 0 && pre s b w == 0
    runHead (if go then storeEcc s b ecc rs else s) b sel pre (behindEcc (fun _ => rs) eff)
  | [] => runHead s b sel pre eff

/-! ### LOAD, STORE, SEND, WAIT, TALLY, HALT (R122, R123, R126, R127, R132) -/

/-- Granary lines of a LOAD or STORE, in row order (R122). -/
def moveLines (w : Nat) : List Nat :=
  (List.range (mvRows w)).flatMap fun r => (List.range (mvRowlines w)).map fun i => mvGline w + r * mvPitch w + i

/-- LOAD: granary rows into packed bay lines (R122). -/
def loadEff (s : State) (b : Nat) (q : QWord) : Except Nat State :=
  let w := q.word.toNat
  let ls := moveLines w
  if !(ls.all fun l => allocatable (64 * l) 64) then .error eMemRange
  else if ls.any s.poison.contains then .error ePoison
  else .ok (setBay s b (bwrite (bay s b) (mvBline w) (ls.flatMap fun l => greadOf s b (64 * l) 64)))

def execLoad (b : Nat) (s : State) : Host.Outcome State Fault Refusal := .next (runHead s b (isWord 1 0) noPre loadEff)

/-- The program of a bay has produced an output, empty or not (R159). -/
def noteOut (s : State) (b : Nat) (empty : Bool) : State :=
  setBay s b { bay s b with outs := some (empty && (bay s b).outs.getD true) }

/-- STORE: packed bay lines into granary rows (R122), folded into the step's digests (R427). -/
def storeEff (s : State) (b : Nat) (q : QWord) : Except Nat State :=
  let w := q.word.toNat
  let ls := moveLines w
  if !(ls.all fun l => allocatable (64 * l) 64) then .error eMemRange
  else .ok (noteOut (((List.range ls.length).zip ls).foldl (fun s e =>
    let bs := bline (bay s b) (mvBline w + e.1)
    foldLine (gwrite s b (64 * e.2) bs) (bay s b).owner e.2 bs) s) b false)

def execStore (b ecc : Nat) (s : State) : Host.Outcome State Fault Refusal :=
  .next (runReading s b ecc (isWord 2 0) noPre storeEff)

/-- SEND with OP 0: one token message per bay in ascending order, or one to a unit (R120, R123). -/
def sendEff (s : State) (b : Nat) (q : QWord) : Except Nat State :=
  let w := q.word.toNat
  let d := fld w 41 32
  let msg := fun dst => ({ src := b, dst := dst, kind := wOp w, ctr := if wOp w = 1 then fld w 53 52 else fld w 55 52, amount := fld w 63 56 } : MeshMsg)
  if d = 1023 then .ok (send s (msg (uGleaner + fld w 67 64)))
  else .ok ((List.range (fld w 51 42 + 1 - d)).foldl (fun s i => send s (msg (d + i))) s)

def execSendToken (b : Nat) (s : State) : Host.Outcome State Fault Refusal := .next (runHead s b (isWord 6 0) noPre sendEff)

def execSendCredit (b : Nat) (s : State) : Host.Outcome State Fault Refusal := .next (runHead s b (isWord 6 1) noPre sendEff)

/-- WAIT issues and completes at once (R129). -/
def execWait (b : Nat) (s : State) : Host.Outcome State Fault Refusal :=
  .next (runHead s b (isWord 7 0) noPre fun s _ _ => .ok s)

/-- TALLY: an add on its way to the tally unit, with the bay's owner known there by its source (R127). -/
def tallyEff (s : State) (b : Nat) (q : QWord) : Except Nat State :=
  let w := q.word.toNat
  .ok (send s { src := b, dst := uTally, kind := 2, ctr := fld w 39 32, amount := fld w 55 40 })

def execTally (b : Nat) (s : State) : Host.Outcome State Fault Refusal := .next (runHead s b (isWord 8 0) noPre tallyEff)

/-- HALT: the bay is HALTED with CODE, and HALTED interrupts if IRQ is set (R132, R148). -/
def haltEff (s : State) (b : Nat) (q : QWord) : Except Nat State :=
  let w := q.word.toNat
  let s := bayHalted s b (fld w 47 32)
  .ok (if bit w 48 then raiseIrq s (bayPage b) 16 else s)

def execHalt (b : Nat) (s : State) : Host.Outcome State Fault Refusal := .next (runHead s b (isWord 15 0) noPre haltEff)

end Sys2Proof.Machine
end

