-- ==== Sys2Proof/Machine/Host.lean ====
section
/-! DEFINITION. Ports, rings and messages (R290-R310, R314): configuration and doorbells of the rings, command fetch,
MSI-X, links going down and what moves to the other port. -/

namespace Sys2Proof.Machine

/-- The page that records a function's ring errors: MSG, or the tenant header page (R304). -/
def ringPage (f : Nat) : Nat := if f = 0 then pgMsg else 0xFFF + f

/-! ### Ring configuration (R303, R308) -/

def sqr (s : State) (f n : Nat) : SqRing := mget (fun _ => {}) s.sqs (eqKey f n)
def setSqr (s : State) (f n : Nat) (x : SqRing) : State := { s with sqs := mset (fun _ => {}) s.sqs (eqKey f n) x }
def sqEnabled (s : State) (f n : Nat) : Bool := bit (rd s (K.sqCfg f n)) 16
def sqSize (s : State) (f n : Nat) : Nat := 2 ^ rf s (K.sqCfg f n) 3 0

/-- Disable an event ring: what waits is discarded and counted, and reserved entries are released (R308). -/
def disableEq (s : State) (f n : Nat) : State :=
  let r := eqr s f n
  let s := satIncr s (K.eqLost f n) r.waiting.length
  let s := r.batches.foldl (fun s e => batchGone s e.2.1 e.2.2) s
  let s := r.waiting.foldl (fun s m => if m.batch = 0 then s else batchGone s m.func m.batch) s
  let s := { s with cmds := s.cmds.map fun c => if c.src < 0x100 && c.src / 16 = f && c.eq = n then { c with reserved := false } else c }
  setEqr (setBit s (K.eqCfg f n) 24 false) f n
    { r with waiting := [], batches := [], reserved := 0, armed := false, lost := 0, recent := [], irqs := [], resend := [], reirq := false }

/-- Enable an event ring: tail, head and SEQ 0, PHASE 1 (R303). -/
def enableEq (s : State) (f n : Nat) : State :=
  setEqr (setBit (wr s (K.eqTail f n) 0) (K.eqCfg f n) 24 true) f n { lastPort := (eqr s f n).lastPort }

/-- A write of a ring's configuration register: whether its values are in range, what it changes, and the ring off and
on (R303). -/
def ringCfg (s : State) (f k off v : Nat) (ok : Bool) (enBit mask : Nat) (off? on? : State → State) : State :=
  let old := rd s k
  if !ok then recordErr s (ringPage f) eCmdReserved f off
  else if bit old enBit && bit v enBit then
    (if Nat.land old mask = Nat.land v mask then s else recordErr s (ringPage f) eRingState f off)
  else
    let s := if bit old enBit then off? s else s
    let s := wr s k (Nat.land v mask)
    if bit v enBit then on? s else s

/-- The ring registers an access reaches: function and offset in the header page. -/
def ringAccess (s : State) (a : Access) : Option (Nat × Nat) :=
  match place s a with
  | some pl => if pl.page = pgMsg then some (0, pl.off) else if 0x1000 ≤ pl.page then some (pl.page - 0xFFF, pl.off) else none
  | none => none

/-- A write to SQ_CFG (R303). -/
def sqCfgWrite (a : Access) (v : Nat) (s : State) : State :=
  match ringAccess s a with
  | none => s
  | some (f, o) =>
    if o < 0x100 || 0x200 ≤ o || o % 16 ≠ 8 then s
    else
      let n := (o - 0x100) / 16
      let ok := decide (4 ≤ fld v 3 0) && decide (fld v 3 0 ≤ 12)
      ringCfg s f (K.sqCfg f n) o v ok 16 0xF0F
        (fun s => setSqr (setBit s (K.sqCfg f n) 16 false) f n { sqr s f n with stopped := false })
        (fun s => setSqr (setBit (wr s (K.sqHead f n) 0) (K.sqCfg f n) 16 true) f n { lastPort := (sqr s f n).lastPort })

def execSqCfgWrite (a : Access) (v : Nat) (s : State) : Host.Outcome State Fault Refusal := .next (sqCfgWrite a v s)

/-- A write to EQ_CFG (R303, R308). -/
def eqCfgWrite (a : Access) (v : Nat) (s : State) : State :=
  match ringAccess s a with
  | none => s
  | some (f, o) =>
    if o < 0x200 || 0x300 ≤ o || o % 16 ≠ 8 then s
    else
      let n := (o - 0x200) / 16
      let ok := decide (6 ≤ fld v 4 0) && decide (fld v 4 0 ≤ 16) && fld v 17 16 != 3 && (f == 0 || decide (fld v 15 8 < 64))
      ringCfg s f (K.eqCfg f n) o v ok 24 0x3FF1F (fun s => disableEq s f n) (fun s => enableEq s f n)

def execEqCfgWrite (a : Access) (v : Nat) (s : State) : Host.Outcome State Fault Refusal := .next (eqCfgWrite a v s)

/-! ### Doorbells (R304) -/

/-- The doorbell an access names: function, ring and its offset as recorded; base is 0x300 and 0x1000 for submission,
0x340 and 0x2000 for event rings. -/
def doorbellAt (s : State) (a : Access) (mf tenant : Nat) : Option (Nat × Nat) :=
  if (port s a.port).narrow || !vfHere s a.port a.func then none
  else if a.func = 0 then
    let o := a.off % 0x1000
    if a.off / 0x1000 = pgMsg && mf ≤ o && o < mf + 0x40 && o % 4 = 0 && serving s then some ((o - mf) / 4, o) else none
  else if serving s && funcState s a.func != 0 && decide (tenant ≤ a.off) && decide (a.off < tenant + 0x1000) && a.off % 0x100 == 0 then
    some ((a.off - tenant) / 0x100, a.off)
  else none

/-- The code that discards every doorbell of a function, or 0 (R313, R423). -/
def doorbellCode (s : State) (f : Nat) : Nat :=
  if fenceState s ≠ 0 then eFenced
  else if f ≠ 0 && [3, 4, 5].contains (funcState s f) then eFuncDisabling
  else 0

/-- A doorbell that is not discarded runs its effect. -/
def ring (s : State) (a : Access) (off size v : Nat) (on : Bool) (f : State → State) : State :=
  let code := if doorbellCode s a.func ≠ 0 then doorbellCode s a.func
    else if !on then eRingState else if size ≤ fld v 15 0 then eDoorbellBad else 0
  if code ≠ 0 then recordErr s (ringPage a.func) code a.func off else f s

/-- A submission doorbell: TAIL, and fetching starts again (R304, R305). -/
def sqDoorbell (a : Access) (v : Nat) (s : State) : State :=
  match doorbellAt s a 0x300 0x1000 with
  | none => s
  | some (n, off) =>
    if 16 ≤ n then s
    else ring s a off (sqSize s a.func n) v (sqEnabled s a.func n) fun s =>
      setSqr s a.func n { tail := fld v 15 0, lastPort := a.port, stopped := false }

def execSqDoorbell (a : Access) (v : Nat) (s : State) : Host.Outcome State Fault Refusal := .next (sqDoorbell a v s)

/-- Send a ring's interrupt through the port it writes through. -/
def ringIrq (s : State) (f n : Nat) : State :=
  match eqPort s f n with
  | none => setEqr s f n { eqr s f n with reirq := true }
  | some p =>
    let r := eqr s f n
    sendMsix (setEqr s f n { r with irqs := recentOf s (·.1) r.irqs ++ [(s.clock, p)] }) p f (rf s (K.eqCfg f n) 15 8)

/-- Record space is released as the head passes the TOKEN_BATCH messages that name it (R251). -/
def passBatches (s : State) (f n : Nat) : State :=
  let r := eqr s f n
  let e := eqSize s f n
  let unreadAt := fun (i : Nat) => decide ((i + e - r.head) % e < unread s f n)
  let gone := r.batches.filter fun b => !unreadAt b.1
  gone.foldl (fun s b => batchGone s b.2.1 b.2.2) (setEqr s f n { r with batches := r.batches.filter fun b => unreadAt b.1 })

/-- An event ring head doorbell: entries are freed, ARM sets ARMED and interrupts at once if a message is unread, and what
waits is written (R297, R304, R308). -/
def eqDoorbell (a : Access) (v : Nat) (s : State) : State :=
  match doorbellAt s a 0x340 0x2000 with
  | none => s
  | some (n, off) =>
    if 16 ≤ n then s
    else ring s a off (eqSize s a.func n) v (eqEnabled s a.func n) fun s =>
      let f := a.func
      let s := passBatches (setEqr s f n { eqr s f n with head := fld v 15 0, lastPort := a.port }) f n
      let s := if bit v 31 then setEqr s f n { eqr s f n with armed := true } else s
      let s := if bit v 31 && unread s f n ≠ 0 then ringIrq s f n else s
      flushRing s f n

def execEqHeadDoorbell (a : Access) (v : Nat) (s : State) : Host.Outcome State Fault Refusal := .next (eqDoorbell a v s)

/-! ### Command fetch (R301, R305) -/

/-- Whether a ring may fetch its next entry, links apart: an entry is posted, a completion entry is free, and the
function is not being disabled. -/
def mayFetch (s : State) (f n : Nat) : Bool :=
  let eq := rf s (K.sqCfg f n) 11 8
  serving s && sqEnabled s f n && !(sqr s f n).stopped && rd s (K.sqHead f n) != (sqr s f n).tail
    && eqEnabled s f eq && decide (0 < eqRoom s f eq) && !haltedOnErr s (ringPage f) && (f == 0 || [1, 2, 3].contains (funcState s f))

/-- Complete the commands of a source that complete at fetch: refused records with their code, NOP when nothing its FENCE
waits for is left; they complete in fetch order, so a NOP that is held holds those behind it (R301, R302, R305). -/
def settleFetch : Nat → State → Nat → State
  | 0, s, _ => s
  | k + 1, s, src =>
    match s.cmds.find? fun c => c.src == src && (fetchCode src c.body != 0 || cmdOp c == 0) with
    | none => s
    | some c =>
      if fetchCode src c.body ≠ 0 then settleFetch k (finish s c (fetchCode src c.body)) src
      else if fenceHeld s c then s
      else settleFetch k (finish s c (gateCode s src 0)) src

/-- A fetched record joins its function's commands and takes its completion entry; what completes at fetch does so in fetch
order (R302, R305). -/
def takeCommand (s : State) (f n : Nat) (body : Bytes) : State :=
  let eq := rf s (K.sqCfg f n) 11 8
  let head := (rd s (K.sqHead f n) + 1) % sqSize s f n
  let r := eqr s f eq
  let s := setEqr (wr s (K.sqHead f n) head) f eq { r with reserved := r.reserved + 1 }
  let c : Cmd := { id := s.nextId, src := 16 * f + n, body := body, sqHead := head, eq := eq }
  let s := { s with cmds := s.cmds ++ [c], nextId := s.nextId + 1 }
  let s := mirror s f 2 0 body
  settleFetch s.cmds.length s c.src

/-- A command record read returns (R305). -/
def fetchReturn (f n : Nat) (body : Bytes) (s : State) : State :=
  if mayFetch s f n && (portUp s 0 || portUp s 1) then
    takeCommand (match choosePort s (sqr s f n).lastPort with
      | some p => countRx s p 64
      | none => s) f n (sub body 0 64)
  else s

def execCommandFetchReturn (func r : Nat) (body : Bytes) (s : State) : Host.Outcome State Fault Refusal :=
  .next (fetchReturn func r body s)

/-- A command record read fails: the ring stops until its next doorbell or the next link-up (R305). -/
def fetchFails (f n : Nat) (s : State) : State :=
  if mayFetch s f n then
    recordErr (setSqr s f n { sqr s f n with stopped := true }) (ringPage f) eCmdFetch f (0x100 + 16 * n)
  else s

def execCmdFetch (func r : Nat) (s : State) : Host.Outcome State Fault Refusal := .next (fetchFails func r s)

/-- NOP completes at fetch (R302), or, held by its FENCE, once the commands before it have completed (R301). -/
def execNop (src : Nat) (s : State) : Host.Outcome State Fault Refusal := .next (settleFetch s.cmds.length s src)

/-! ### MSI-X tables (R294, R297) -/

/-- A write of a word of a function's MSI-X table; unmasking sends a pending vector. -/
def msixWrite (p f off v : Nat) (s : State) : State :=
  if !(portUp s p) || !vfHere s p f || decide ((if f = 0 then 0x1000 else 0x400) ≤ off) || off % 4 ≠ 0 || decide (8 < f) then s
  else
    let s := { s with msixTab := mset msixReset s.msixTab (msixKey p f off) (BitVec.ofNat 32 v) }
    let vec := off / 16
    if off % 16 = 12 && !msixMasked s p f vec && !(port s p).msixMask.contains f && s.pba.contains (p, f, vec) then
      emit { s with pba := s.pba.filter (· != (p, f, vec)) } (.msix p f vec)
    else s

/-- A word of a function's BAR4 as a read returns it: the MSI-X table, or the pending bits from the PBA's offset on (R294). -/
def bar4Word (s : State) (p f off : Nat) : Nat :=
  let pba := if f = 0 then 0x1000 else 0x800
  if off < (if f = 0 then 0x1000 else 0x400) then (mget msixReset s.msixTab (msixKey p f off)).toNat
  else if pba ≤ off && off < pba + (if f = 0 then 32 else 8) then
    ((List.range 32).map fun i => if s.pba.contains (p, f, 8 * (off - pba) + i) then 2 ^ i else 0).sum
  else 0

/-- Send the pending vectors of a function that are masked no more. -/
def unmaskPending (s : State) (p f : Nat) : State :=
  let due := s.pba.filter fun e => e.1 == p && e.2.1 == f && !msixMasked s p f e.2.2
  due.foldl (fun s e => emit s (.msix p f e.2.2)) { s with pba := s.pba.filter fun e => !due.contains e }

/-! ### Configuration space (R291, R294, R297) -/

/-- What a field of a port's configuration space reads as. -/
def cfgValue (x : Port) : CfgField → Nat
  | .numVfs => x.numVfs
  | .maxPayload => x.maxPayload
  | .maxRead => x.maxRead
  | .bar2 => x.bar2
  | .vfBar2 => x.vfBar2
  | .msix f => 2 * b2n (x.msixOn.contains f) + b2n (x.msixMask.contains f)

/-- Put a number in a list, or take it out. -/
def listed (l : List Nat) (n : Nat) (on : Bool) : List Nat := if on then (if l.contains n then l else l ++ [n]) else l.filter (· != n)

/-- A power of two from lo to hi. -/
def pow2In (v lo hi : Nat) : Bool := decide (lo ≤ v) && decide (v ≤ hi) && v == 2 ^ Nat.log2 v

/-- A write to a field of a port's configuration space: values the module does not support change nothing (R291, R294). -/
def cfgWrite (s : State) (p : Nat) (c : CfgField) (v : Nat) : State :=
  let x := port s p
  match c with
  | .numVfs => if v = 0 || v = 8 then setPort s p { x with numVfs := v } else s
  | .maxPayload => if pow2In v 128 512 then setPort s p { x with maxPayload := v } else s
  | .maxRead => if pow2In v 128 4096 then setPort s p { x with maxRead := v } else s
  | .bar2 => if pow2In v 1 256 then setPort s p { x with bar2 := v } else s
  | .vfBar2 => if pow2In v 1 128 then setPort s p { x with vfBar2 := v } else s
  | .msix f =>
    if 8 < f || !vfHere s p f then s
    else
      let s := setPort s p { x with msixOn := listed x.msixOn f (bit v 1), msixMask := listed x.msixMask f (bit v 0) }
      if bit v 1 && !bit v 0 then unmaskPending s p f else s

/-- Configuration space after reset. -/
def cfgReset (x : Port) : Port :=
  { x with numVfs := 0, maxPayload := 128, maxRead := 512, bar2 := 256, vfBar2 := 16, msixOn := [], msixMask := [] }

def execMsixTableWrite (p f off v : Nat) (s : State) : Host.Outcome State Fault Refusal := .next (msixWrite p f off v s)

/-! ### Links (R291-R293, R306, R310) -/

/-- Send the identity message of a port (R310). -/
def sendIdentity (s : State) (p : Nat) : State :=
  emit s (.vdm p (toLE 8 (rd64 s K.sysSerialLo) ++ toLE 1 (rd s K.sysSlot) ++ toLE 1 (0x41 + p)
    ++ toLE 1 (rf s K.sysState 8 8) ++ toLE 5 0))

/-- PORT_CTRL.IDENT_SEND (R310, R314). -/
def execIdentSend (a : Access) (v : Nat) (s : State) : Host.Outcome State Fault Refusal :=
  .next (atPlace s a fun s pl =>
    if pageType pl.page ≠ 7 || pl.off ≠ 0x44 then s
    else
      let s := storeReg s pl.key v
      let p := pl.page - pgPort 0
      if bit v 0 && ((port s p).up || (port s p).narrow) then sendIdentity s p else s)

/-- An event ring leaves a port whose link went down: what it wrote and signalled there in the last 100 us is written and
signalled again on the other port, and so is an interrupt that is pending there (R297, R306). -/
def ringLinkDown (s : State) (f n p : Nat) : State :=
  let r := eqr s f n
  let lost := (recentOf s (·.1) r.recent).filter (·.2.1 == p)
  let irq := (recentOf s (·.1) r.irqs).any (·.2 == p) || s.pba.contains (p, f, rf s (K.eqCfg f n) 15 8)
  if lost.isEmpty && !irq then s
  else
    let r := { r with
      recent := r.recent.filter (·.2.1 != p), irqs := r.irqs.filter (·.2 != p)
      resend := r.resend ++ lost.map (fun e => (e.2.2.1, resentBytes e.2.2.2)), reirq := r.reirq || irq }
    flushRing (setEqr s f n r) f n

/-- Every event ring with something in it: function and number. -/
def ringsOf (s : State) : List (Nat × Nat) := s.eqs.map fun e => (e.1 / 16, e.1 % 16)

/-- A port's link goes down (R293, R306, R314): rings, list fetches and wain bursts move to the other port. -/
def linkDown (p : Nat) (s : State) : State :=
  let x := port s p
  if !x.up && !x.narrow then s
  else
    let s := setPort s p { x with up := false, narrow := false }
    let s := wr (wr s (K.portLink p) 0) (K.portDowns p) ((rd s (K.portDowns p) + 1) % 2 ^ 16)
    let s := raiseIrq s (pgPort p) 17
    let s := (ringsOf s).foldl (fun s e => ringLinkDown s e.1 e.2 p) s
    let s := { s with pba := s.pba.filter (·.1 != p) }
    let s := { s with slots := s.slots.map fun e =>
      if e.2.st = .fetching && e.2.fetchPort = p then (e.1, { e.2 with fetchPort := 1 - p }) else e }
    (List.range 32).foldl (fun s c => wainLinkDown s p c) s

def execLinkDown (p : Nat) (s : State) : Host.Outcome State Fault Refusal := .next (linkDown p s)

/-- PERST#, hot reset or link disable on a port resets that port: its link, its configuration space and its MSI-X tables
(R293). -/
def perst (p : Nat) (s : State) : State :=
  let s := linkDown p s
  let s := { s with msixTab := s.msixTab.filter (fun e => e.1 / 2 ^ 20 != p), pba := s.pba.filter (·.1 != p) }
  setPort s p { cfgReset (port s p) with perst := true, released := false }

def execPerst (p : Nat) (s : State) : Host.Outcome State Fault Refusal := .next (perst p s)

/-- The LINKS stage has begun (R470, R471). -/
def linksBegun (s : State) : Bool := sysState s == 2 || serving s

/-- PERST# is released: the port may train once LINKS has begun (R471). -/
def execPerstRelease (p : Nat) (s : State) : Host.Outcome State Fault Refusal :=
  .next (setPort s p { port s p with perst := false, released := true, since := s.clock })

/-- A configuration request is answered: a write changes its field, a read returns it. -/
def cfgAnswer (s : State) (p : Nat) (c : Option CfgField) (v : Option Nat) : State :=
  match c, v with
  | some c, some v => emit (cfgWrite s p c v) (.config p true 0)
  | some c, none => emit s (.config p true (cfgValue (port s p) c))
  | none, _ => emit s (.config p true 0)

/-- A configuration request on a link that is up, for a field the module acts on or any other: answered 80 ms after PERST#
release and entry to LINKS at the latest, with Retry Status before the port answers; the moment before that is a free choice
(R292). -/
def configRequest (p : Nat) (c : Option CfgField) (v : Option Nat) (s : State) : State :=
  let x := port s p
  if !x.up && !x.narrow then s
  else if x.since + usCycles 80000 ≤ s.clock then cfgAnswer s p c v
  else
    let d := draw s
    if d.1 % 2 = 1 then cfgAnswer d.2 p c v else emit d.2 (.config p false 0)

def execConfigRequest (p : Nat) (c : Option CfgField) (v : Option Nat) (s : State) : Host.Outcome State Fault Refusal :=
  .next (configRequest p c v s)

/-- PORT_LINK as a link trained: reserved bits zero, no reserved rate, L0p only while PORT_CTRL allows it (R5, R291, R314). -/
def trainedLink (s : State) (p link : Nat) : Nat :=
  min 6 (fld link 2 0) + 2 ^ 8 * min 16 (fld link 12 8) + 2 ^ 13 * fld link 13 13
    + 2 ^ 14 * b2n (bit link 14 && bit (rd s (K.portCtrl p)) 1) + 2 ^ 15 * fld link 16 15

/-- A link that reaches DL_Up (R291, R310, R314): link holds PORT_LINK as trained. Narrow links carry configuration
requests only; a slow or narrow one reports LINK_DEGRADED. -/
def linkUp (s : State) (p link : Nat) : State :=
  let link := trainedLink s p link
  let rate := fld link 2 0
  let width := fld link 12 8
  let bad := decide (rate < 4) || decide (width < 8)
  let s := setPort s p { port s p with up := decide (8 ≤ width), narrow := decide (width < 8) }
  let s := wr s (K.portLink p) (putFld link 17 17 (b2n bad))
  let s := raiseIrq s (pgPort p) 16
  let s := if bad then raiseIrq (recordErr s (pgPort p) eLinkDegraded internalFunc 0) (pgPort p) 18 else s
  let s := sendIdentity s p
  let s := { s with sqs := s.sqs.map fun e => (e.1, { e.2 with stopped := false }) }
  flushTally ((ringsOf s).foldl (fun s e => flushRing s e.1 e.2) s)

end Sys2Proof.Machine
end

