-- ==== Sys2Proof/Machine/Register.lean ====
section
/-! DEFINITION. Register accesses that have no command of their own, and those of the common header (R41-R48, R56): writes,
reads with their latches, errors of an access, unlock, soft reset and clearing of an error. -/

namespace Sys2Proof.Machine

/-! ### Reads -/

/-- Block capabilities of a page type (R43): HAS_EXPERT, HAS_STAGED, TENANT_MAP and the block's own bits. -/
def blkCaps (ty : Nat) : Nat :=
  let l := pageRegs ty
  b2n (l.any fun d => decide (0x400 ≤ d.off)) + 2 * b2n (l.any fun d => d.rws != 0) + 4 * b2n (tenantMapType ty)
    + (if ty = 0x19 then 0xF0000 else if ty = 0x1A then 0x30000 else 0)

/-- Staged actions that target a page: how many, and the lowest slot with one (R43). -/
def blkTxn (s : State) (page : Nat) : Nat :=
  let on := fun (a : Action) => a.kind == 1 && homePage (a.target / 0x1000) == page
  let live := s.slots.filter fun e => strikable e.2 && e.2.actions.any on
  let n := (live.map fun e => (e.2.actions.filter on).length).sum
  match live with
  | [] => 0
  | e :: _ => min n 0xFFFF + 2 ^ 16 * e.1 + 2 ^ 31

/-- BLK_STAT (R43, R148, R256, R409). What makes READY 0 once the die is out of reset is not stated: it reads 1 on every page
but that of a bay which BIST disabled (DESIGN CHOICE, notes/assumptions/182). -/
def blkStat (s : State) (page : Nat) : Nat :=
  let off := pageType page == 0x20 && (bay s (page - 0x100)).off
  b2n (!off) + 4 * b2n (pendingPage s page) + 8 * b2n (bit (rd s (K.blkErr page)) 31)
    + 16 * b2n (s.unlocked.any fun u => u.1 == page)
    + 2 ^ 16 * (if pageType page = 0x20 then b2n off
                else if page = pgPwr then b2n (braking s) + 2 * b2n (capLag s)
                else if page = pgSrv then b2n (srvMode s == 2) else 0)

/-- The common header as a function reads it (R43). BLK_VER.BUILD, whose form the spec does not give, shows the low 16 bits of
SYS_FWVER (DESIGN CHOICE, notes/assumptions/182). -/
def readHeader (s : State) (func page off : Nat) : Nat :=
  match off with
  | 0x0 => 2 ^ 16 * pageType page + pageInst page
  | 0x4 => 2 ^ 24 + rf s K.sysFwver 15 0
  | 0x8 => blkCaps (pageType page)
  | 0xC => 2 ^ 16 * b2n (isUnlocked s page func)
  | 0x10 => rd s (0x1000 * page + off) + (if page = pgSrv then 2 ^ 16 * b2n s.srv.pause else 0)
  | 0x14 => blkStat s page
  | 0x28 => blkTxn s page
  | 0x30 => 0
  | _ => rd s (0x1000 * page + off)

/-- The bay page as the bay's state shows it (R149, R150, R151). -/
def readBay (s : State) (b off : Nat) : Nat :=
  let x := bay s b
  let pc := match x.queue, x.prefetch with
    | w :: _, _ => w.addr
    | [], w :: _ => w.addr
    | [], [] => x.fetch
  let st := match x.st with | .idle => 0 | .running => 1 | .halted => 2 | .error => 3
  if off = 0x40 then st + 2 ^ 4 * holdNow s b + 2 ^ 8 * x.queue.length + 2 ^ 16 * x.hcode
  else if off = 0x44 then x.owner
  else if off = 0x48 then pc % 2 ^ 32
  else if off = 0x4C then pc / 2 ^ 32
  else if off = 0x50 then x.epoch.getD 0
  else if off = 0x54 then b2n x.epoch.isSome + 2 ^ 4 * x.phase
  else if 0x60 ≤ off && off < 0x80 then tok x ((off - 0x60) / 2) + 2 ^ 16 * tok x ((off - 0x60) / 2 + 1)
  else if off = 0x80 then cred x 0 + 2 ^ 16 * cred x 1
  else if off = 0x84 then cred x 2 + 2 ^ 16 * cred x 3
  else if 0x100 ≤ off && off < 0x180 then perfOf x ((off - 0x100) / 8) % 2 ^ 32
  else if off = 0x420 then x.errpc % 2 ^ 32
  else if off = 0x424 then x.errpc / 2 ^ 32
  else rd s (K.bayState b - 0x40 + off)

/-- The slot registers of the TXN page for the function's selected slot (R82). -/
def readTxn (s : State) (func off : Nat) : Nat :=
  let n := rd s (K.txnSel func) % 32
  let x := slot s n
  if off = 0x404 then n
  else if x.st = .free || x.owner ≠ func then 0
  else
    match off with
    | 0x408 => x.mode + 2 ^ 8 * x.tally + 2 ^ 16 * b2n x.notify
    | 0x410 => x.listLo
    | 0x414 => x.listHi
    | 0x420 =>
      (match x.st with | .free => 0 | .opened => 1 | .fetching => 2 | .armed => 3 | .raised => 4 | .struck => 5)
        + 2 ^ 4 * x.actions.length + 2 ^ 16 * x.code
    | 0x424 => x.index
    | 0x428 => x.epochAt
    | 0x42C => x.doneAt % 2 ^ 32
    | 0x440 => x.verqLo
    | 0x444 => x.verqHi
    | 0x448 => mget (fun _ => 0) s.lineVer ((x.verqLo + 2 ^ 32 * x.verqHi) / 64)
    | _ => 0

/-- Commands fetched and not completed for a function (R300). -/
def inflight (s : State) (f : Nat) : Nat := (s.cmds.filter fun c => decide (c.src < 0x100) && cmdFunc c == f).length

/-- The 64-bit value a low word belongs to, for the pairs whose low word latches the high one. -/
def wideValue (s : State) (func : Nat) (pl : Place) : Option Nat :=
  let lo := match pageType pl.page with
    | 0x2 => [0x48] | 0x3 => [0x70] | 0x7 => [0x50, 0x58] | 0x8 => [0x48] | 0x30 => [0x48]
    | 0x9 => [0x40, 0x90, 0x98, 0xD0, 0xD8] | 0xA => [0x42C] | 0xB => [0x5C] | 0xC => [0x70] | 0x11 => [0x58, 0x78]
    | 0x12 => [0x60, 0x68, 0x70, 0x78] | 0x6 => [0x60] | 0x16 => [0x48, 0x50] | 0x20 => (List.range 16).map (0x100 + 8 * ·) | _ => []
  if !lo.contains pl.off then none
  else if pageType pl.page = 0x2 then some (now s)
  else if pageType pl.page = 0x20 then some (perfOf (bay s (pl.page - 0x100)) ((pl.off - 0x100) / 8))
  else if pageType pl.page = 0xA then
    (let x := slot s (rd s (K.txnSel func) % 32)
     some (if x.st = .free || x.owner ≠ func then 0 else x.doneAt))
  else some (rd64 s pl.key)

/-- Where the high word latched with a place's low word is kept: TXN_DONE's for each function (R82), any other with its
register. -/
def latchKey (func : Nat) (pl : Place) : Nat := if pageType pl.page = 0xA then pl.key + 2 ^ 40 * (func + 1) else pl.key

/-- Whether a place shows a latched high word. -/
def isHigh (s : State) (func : Nat) (pl : Place) : Bool :=
  decide (4 ≤ pl.off) && (wideValue s func { pl with off := pl.off - 4, key := pl.key - 4 }).isSome

/-- CORE_STATE of a decode or encode core (R288). -/
def coreState (s : State) (c : Nat) : Nat :=
  match (vcore s c).ctx with
  | some i => 1 + 2 ^ 8 * i
  | none => 0

/-- CLK_LOCK (R59): the die's PLLs as they stand; PCLK while a management PHY recovers a clock; HPLL of a port whose reference
clock runs, which is taken to be from PERST# release on (R31; DESIGN CHOICE, notes/assumptions/183). -/
def clkLocks (s : State) : Nat :=
  rd s K.clkLock % 2 ^ 15 + 2 ^ 15 * b2n (bit (rd s (K.mgmtLink 0)) 0 || bit (rd s (K.mgmtLink 1)) 0)
    + 2 ^ 16 * ((List.range 2).map fun p => if s.tray.rails && (port s p).released then 2 ^ p else 0).sum

/-- What a read of a register returns. -/
def readReg (s : State) (func : Nat) (pl : Place) : Nat :=
  if pl.off < 0x40 then readHeader s func pl.page pl.off
  else if isHigh s func pl then
    (if pageType pl.page = 0xA && (wideValue s func { pl with off := pl.off - 4, key := pl.key - 4 }) == some 0 then 0
     else (mget (fun _ => 0) s.latched (latchKey func pl)).toNat)
  else
    match wideValue s func pl with
    | some v => v % 2 ^ 32
    | none =>
      match pageType pl.page with
      | 0x2 => if pl.off = 0x40 then clkLocks s else rd s pl.key
      | 0x20 => readBay s (pl.page - 0x100) pl.off
      | 0xA =>
        if pl.off = 0x48 then s.slots.foldl (fun m e => if e.2.st = .free then m else m + 2 ^ e.1) 0
        else if 0x404 ≤ pl.off then readTxn s func pl.off else rd s pl.key
      | 0x10 =>
        if pl.off = 0x40 then putFld (rd s pl.key) 31 16 (inflight s (pl.page - 0xF)) else rd s pl.key
      | 0x8 => if pl.off = 0x90 then 2 else rd s pl.key
      | 0x30 => if pl.off = 0x90 then funcState s (pl.page - 0xFFF) else rd s pl.key
      | 0x21 =>
        if pl.off = 0x64 then (fieldCeil s (pl.page - 0x340)).1 + 2 ^ 8 * (fieldCeil s (pl.page - 0x340)).2 else rd s pl.key
      | 0x3 =>
        if pl.off = 0x404 then
          let k := rd s K.pwrLearnSel
          let key := learnKey (fld k 3 0) (fld k 6 4) (fld k 14 8)
          fieldOfRat 16 (learnW s (fld k 3 0) (fld k 6 4) (fld k 14 8))
            + 2 ^ 16 * b2n (mget (fun _ => none) s.power.learned key).isSome
        else rd s pl.key
      | 0x16 =>
        if 0x440 ≤ pl.off && pl.off < 0x4C0 then seqWindow s ((pl.off - 0x440) / 4)
        else if pl.off = 0x40 then srvState s
        else if pl.off = 0x44 then (seqsWith s (·.st == 1)).length
        else if pl.off = 0x400 then seqTabAt % 2 ^ 32
        else if pl.off = 0x404 then seqTabAt / 2 ^ 32
        else rd s pl.key
      | 0x13 =>
        if 0x60 ≤ pl.off && pl.off < 0x80 then kvFree s ((pl.off - 0x60) / 4)
        else if pl.off = 0x40 then putFld (rd s pl.key) 28 16 (seqsWith s fun q => q.table && seqPages s q != 0).length
        else if pl.off = 0x5C then kvPoisoned s
        else rd s pl.key
      | 0x15 =>
        if pl.off = 0x40 then b2n (decide (s.clock < s.srv.gln))
        else if 0x60 ≤ pl.off && pl.off < 0x80 then
          let c := (pl.off - 0x60) / 2
          mget (fun _ => 0) s.unitTokens c + 2 ^ 16 * mget (fun _ => 0) s.unitTokens (c + 1)
        else rd s pl.key
      | 0x6 =>
        if pl.off = 0x54 then s.sec.sessions.length
        else if pl.off = 0x58 then secKeys s 1
        else if pl.off = 0x5C then secKeys s 5
        else if pl.off = 0x68 then putFld (rd s pl.key) 1 1 (b2n (scrubbing s))
        else rd s pl.key
      | 0x18 => if pl.off = 0x40 then (s.video.filter (·.2.st != 0)).length else rd s pl.key
      | 0x19 => if pl.off = 0x40 then coreState s (pl.page - 0x61) else rd s pl.key
      | 0x1A =>
        if pl.off = 0x40 then coreState s (4 + (pl.page - 0x65))
        else if 0x400 ≤ pl.off && pl.off < 0x500 then lambdaOf ((pl.off - 0x400) / 4) else rd s pl.key
      | _ => rd s pl.key

/-- A read of a register that is not a command of its own: its value; the low word of a 64-bit value latches its high word
(R24), and MTIME samples never decrease (R37). -/
def readAt (s : State) (a : Access) (pl : Place) : State × Nat :=
  let s' := match wideValue s a.func pl with
    | some v => { s with latched := mset (fun _ => 0) s.latched (latchKey a.func { pl with key := pl.key + 4 }) (BitVec.ofNat 32 (v / 2 ^ 32))
                         lastSample := if pageType pl.page = 0x2 then now s else s.lastSample }
    | none => s
  (s', readReg s a.func pl)

/-! ### Writes -/

/-- A write to a slot register of the TXN page (R82). -/
def writeTxn (s : State) (a : Access) (pl : Place) (v : Nat) : State :=
  onSlot s a pl fun s n x =>
    if pl.off = 0x408 then
      if x.st = .armed || x.st = .raised || x.st = .struck || x.raisePend then txnState s a.func 0x408
      else setSlot s n { x with mode := fld v 1 0, tally := fld v 15 8, notify := bit v 16 }
    else if pl.off = 0x410 then setSlot s n { x with listLo := 32 * (v / 32) }
    else if pl.off = 0x414 then setSlot s n { x with listHi := v }
    else if pl.off = 0x440 then setSlot s n { x with verqLo := 64 * (v / 64) }
    else if pl.off = 0x444 then setSlot s n { x with verqHi := v % 64 }
    else s

/-- Whether a channel accepts writes of its idle-only fields (R356). -/
def wainIdle (s : State) (c : Nat) : Bool := wainSt s c == 0 || wainSt s c == 2

/-- A write to a register of a WAIN page (R356). -/
def writeWain (s : State) (a : Access) (pl : Place) (v : Nat) : State :=
  let c := wainOf pl.page
  if pl.off = 0x54 then
    if wainIdle s c || bit v 8 == bit (rd s pl.key) 8 then storeReg s pl.key v
    else recordErr (wf s pl.key 3 0 v) pl.page eWainState a.func pl.off
  else if [0x60, 0x64, 0x68].contains pl.off then
    if !wainIdle s c then recordErr s pl.page eWainState a.func pl.off
    else if pl.off = 0x68 && (fld v 3 0 < 4) then recordErr s pl.page eCmdReserved a.func pl.off
    else
      let on := pl.off = 0x68 && bit v 8 && !cqOn s c
      let s := storeReg s pl.key v
      if on then setWain (wr (wr s (K.wainCqTail c) 0) (K.wainCqHead c) 0) c { wain s c with phase := true } else s
  else storeReg s pl.key v

/-- A write of a ring's base address: discarded on an enabled ring that it would change (R303). -/
def writeRingBase (s : State) (a : Access) (pl : Place) (v : Nat) : State :=
  let cfg := pl.key - pl.key % 16 + 8
  let on := bit (rd s cfg) (if pl.off < 0x200 then 16 else 24)
  let v' := if pl.off % 16 = 0 then 64 * (v / 64) else v
  if on && rd s pl.key ≠ v' then recordErr s pl.page eRingState a.func pl.off else storeReg s pl.key v

/-- Replace the low or the high word of a 64-bit value. -/
def setWord (old : Nat) (high : Bool) (v : Nat) : Nat :=
  if high then old % 2 ^ 32 + 2 ^ 32 * v else old / 2 ^ 32 * 2 ^ 32 + v

/-- What a 32-bit write stores, where no command of its own does it (R49, and the notes of the register tables). -/
def writeReg (s : State) (a : Access) (pl : Place) (v : Nat) : State :=
  let ty := pageType pl.page
  if pl.off = 0x18 || pl.off = 0x1C then irqUpdate (storeReg s pl.key v) pl.page
  else if ty = 0xA && [0x408, 0x410, 0x414, 0x420, 0x424, 0x428, 0x42C, 0x430, 0x440, 0x444, 0x448].contains pl.off then writeTxn s a pl v
  else if ty = 0x7 && pl.off = 0x48 && 192 ≤ v % 256 then recordErr s pl.page eCmdReserved a.func pl.off
  else if ty = 0x11 then writeWain s a pl v
  else if (ty = 0x8 || ty = 0x30) && 0x100 ≤ pl.off && pl.off < 0x300 then writeRingBase s a pl v
  else if ty = 0x9 && (pl.off = 0x58 || pl.off = 0x5C) then
    { s with claimKeys := s.claimKeys.set a.port (setWord (claimKey s a.port) (pl.off == 0x5C) v) }
  else if ty = 0x9 && (pl.off = 0x80 || pl.off = 0xC0) then
    let k := (pl.off - 0x80) / 0x40
    setHost s k { host s k with hbLo := v, port := a.port }
  else if ty = 0x20 && pl.off = 0x88 then
    wr s pl.key (putFld (putFld (rd s pl.key) 15 0 (if bit v 0 then 0 else rf s pl.key 15 0)) 31 16
      (if bit v 16 then 0 else rf s pl.key 31 16))
  else storeReg s pl.key v

/-! ### Header commands -/

/-- Whether a function may unlock expert ranges (R46). -/
def mayUnlock (s : State) (f : Nat) : Bool := f == 0 || bit (rd s (K.funcExpertAllow (f - 1))) 0

/-- A write to BLK_EXPERT (R46, R48). -/
def execBlkExpert (a : Access) (v : Nat) (s : State) : Host.Outcome State Fault Refusal :=
  .next (atPlace s a fun s pl =>
    if pl.off ≠ 0xC then s
    else if v % 2 ^ 16 = 0x4C51 then
      if !mayUnlock s a.func then recordErr s pl.page 0x6020 a.func 0xC
      else if isUnlocked s pl.page a.func then s
      else { s with unlocked := s.unlocked ++ [(pl.page, a.func)] }
    else { s with unlocked := s.unlocked.filter (· != (pl.page, a.func)) })

/-- Writing 1 to BLK_ERR.VALID (R43): the error clears, and a channel stopped by HALT_ON_ERR takes work again. -/
def execBlkErrClear (a : Access) (v : Nat) (s : State) : Host.Outcome State Fault Refusal :=
  .next (atPlace s a fun s pl =>
    if pl.off = 0x20 && bit v 31 then
      let s := clearErr s pl.page
      if pageType pl.page = 0x11 then startChain s (wainOf pl.page) else s
    else s)

/-- Pages that accept a block soft reset (R476). -/
def acceptsSreset (page : Nat) : Bool := [0x20, 0x11, 0x19, 0x1A, 0x12, 0x14, 0x15, 0x18].contains (pageType page)

/-- A bay after its soft reset (R476): everything of it cleared but its assignment. -/
def bayReset (s : State) (b : Nat) : State :=
  let x := bay s b
  let s := { setBay s b { owner := x.owner, off := x.off } with held := s.held.filter (·.unit != b) }
  let s := noteOldest s
  if x.st = .running then bayFailed s b eBayReset else s

/-- A block soft reset (R45, R476, R53). -/
def softReset (s : State) (page : Nat) : State :=
  let ty := pageType page
  let s := wf s K.sysResetCause 3 0 1
  if ty = 0x11 && (wainSt s (wainOf page) = 1 || wainSt s (wainOf page) = 2) then
    let c := wainOf page
    let s := abortWain s c eWainAborted
    markClash (bumpVer (setWain s c { wain s c with resetAfter := true }) page) page
  else
    let s := if ty = 0x11 then resetWain s (wainOf page) (wainOwnerOf s (wainOf page)) else resetPage s page
    let s := relockPage { s with irqHigh := s.irqHigh.filter (· != page), lockSeen := s.lockSeen.filter (· != page) } page
    let s := if ty = 0x20 then bayReset s (page - 0x100)
      else if ty = 0x19 then abandonCore s (page - 0x61) else if ty = 0x1A then abandonCore s (4 + (page - 0x65))
      else if ty = 0x15 then { s with unitTokens := s.unitTokens.filter fun e => decide (16 ≤ e.1) }
      else if ty = 0x12 then wr s (K.grnRetired (page - 0x40)) (s.flash.granules.filter fun g => g % 4 == page - 0x40).length
      else s
    markClash (bumpVer s page) page

/-- A write of BLK_CTRL with SRESET (R45, R476). -/
def execSreset (a : Access) (v : Nat) (s : State) : Host.Outcome State Fault Refusal :=
  .next (atPlace s a fun s pl =>
    if pl.off ≠ 0x10 || !bit v 0 then s
    else if acceptsSreset pl.page then softReset s pl.page
    else recordErr s pl.page eSresetRefused a.func 0x10)

end Sys2Proof.Machine
end

