-- ==== Sys2Proof/Machine/Functions.lean ====
section
/-! DEFINITION. The life of a function (R299, R311-R313): enabling, draining, killing, scrubbing and function-level reset. -/

namespace Sys2Proof.Machine

def tenant (s : State) (f : Nat) : Tenant := mget (fun _ => {}) s.tenants f
def setTenant (s : State) (f : Nat) (x : Tenant) : State := { s with tenants := mset (fun _ => {}) s.tenants f x }

/-! ### Resources (R299, R335) -/

/-- The staged resource fields of a tenant made active (R300, R311). -/
def applyResources (s : State) (f : Nat) : State :=
  (resourceKeys (f - 1)).foldl (fun s k => wr s k (merge (rd s k) (rdStaged s k) (rwsMask k))) s

/-- Other tenants that are not DISABLED. -/
def otherTenants (s : State) (f : Nat) : List Nat := ((List.range 8).map (· + 1)).filter fun g => g != f && funcState s g != 0

/-- Whether a bay in a tenant's map may be taken (R299). -/
def bayTakable (s : State) (f b : Nat) : Bool :=
  let x := bay s b
  !x.off && !bayBit s 0 b && !((otherTenants s f).any fun g => bayBit s g b) && !(x.st == .running && x.owner != f)

/-- Whether a channel may be taken: IDLE, held by no other tenant, named by no other function's swap record in use
(R221, R299, R335). -/
def wainTakable (s : State) (f c : Nat) : Bool :=
  (wainOwnerOf s c == f || (wainOwnerOf s c == 0 && wainSt s c == 0))
    && (List.range 9).all fun g => g == f || !swapInUse s g || rf s (K.kvSwapCfg g) 4 0 != c

/-- Whether a tenant's active resource fields may come into force (R299). -/
def resourcesOk (s : State) (f : Nat) : Bool :=
  ((List.range nBays).all fun b => !bayBit s f b || bayTakable s f b)
    && ((List.range 32).all fun c => !wainBit s f c || wainTakable s f c)
    && (regionsOf s f).all fun r => allocatable r.1 r.2 &&
      (otherTenants s f).all fun g => (regionsOf s g).all fun q => !overlap r.1 r.2 q.1 q.2

/-- Regions that no region of a list covers: those a function did not hold before (R311). -/
def notHeld (new held : List (Nat × Nat)) : List (Nat × Nat) := new.filter fun r => !insideRegions held (held.length + 1) r.1 r.2

/-- FUNC_STATE messages on MF's ring, where they are held, and on the tenant's (R307, R311). -/
def postFuncState (s : State) (f st cause code bytes : Nat) : State :=
  let m : Msg := { type := 0x04, func := f, flags := 0, mtime := now s
                   payload := toLE 1 st ++ toLE 1 cause ++ toLE 2 code ++ toLE 4 0 ++ toLE 8 bytes }
  post (post s 0 (asyncRing s 0) true m) f (asyncRing s f) false m

/-- Nothing left to scrub: ENABLED, and FUNC_ENABLE completes (R311). -/
def enabled (s : State) (f : Nat) : State :=
  let t := tenant s f
  if funcState s f ≠ 1 || !t.scrub.isEmpty then s
  else
    let s := postFuncState (setFuncState s f 2) f 2 0 0 t.scrubbed
    match t.enableCmd with
    | some id => finishId (setTenant s f { tenant s f with enableCmd := none }) id 0
    | none => s

/-- ENABLING with the active resource fields: bays and channels are taken and new regions scrubbed (R311). -/
def beginEnable (s : State) (f : Nat) (cmd : Option Nat) : State :=
  let s := setFuncState s f 1
  let s := setBit s (K.funcState (f - 1)) 8 (bit (rd s (K.funcCfg (f - 1))) 0)
  let s := (List.range nBays).foldl (fun s b => if bayBit s f b then assignBay s b f else s) s
  let s := (List.range 32).foldl (fun s c => if wainBit s f c then assignWain s c f else s) s
  let t := tenant s f
  let new := regionsOf s f
  let s := setTenant s f { t with flr := false, enableCmd := cmd, scrub := notHeld new t.held, begun := [], scrubbed := 0, held := new }
  enabled s f

/-- The function a FUNC command names, 1-8 (R302). -/
def namedFunc (c : Cmd) : Option Nat := let f := arg c 0x10 1; if 1 ≤ f && f ≤ 8 then some f else none

/-- FUNC_ENABLE (R302, R311). -/
def funcEnable (s : State) (c : Cmd) : State :=
  match namedFunc c with
  | none => finish s c eCmdReserved
  | some f =>
    if funcState s f ≠ 0 then finish s c eFuncBadState
    else
      let s' := applyResources s f
      if !resourcesOk s' f then finish s c eFuncResource
      else beginEnable (markClash (bumpVer s' (pgFunc (f - 1))) (pgFunc (f - 1))) f (some c.id)

def execFuncEnable (src : Nat) (s : State) : Host.Outcome State Fault Refusal := .next (withCmd s src 0x80 funcEnable)

/-! ### Disabling (R311-R313) -/

/-- Commands of a function that have not started complete with a code, or are dropped (R311, R313). -/
def dropCommands (s : State) (f : Nat) (silent : Bool) : State :=
  let mine := s.cmds.filter fun c => c.src < 0x100 && cmdFunc c == f && !c.started
  if silent then { s with cmds := s.cmds.filter fun c => !(c.src < 0x100 && cmdFunc c == f && !c.started) }
  else mine.foldl (fun s c => finish s c eFuncDisabling) s

/-- Step 1: commands, bents and expert unlocks (R48, R73, R313). -/
def disableStep1 (s : State) (f : Nat) (silent : Bool) : State :=
  relockFunc (strikeFunc (dropCommands s f silent) f eTxnFuncDisabled) f

/-- Bays a function owns. -/
def baysOf (s : State) (f : Nat) : List Nat := (s.bays.filter fun e => e.2.owner == f).map (·.1)

/-- Channels a function owns. -/
def wainsOf (s : State) (f : Nat) : List Nat := (List.range 32).filter fun c => wainOwnerOf s c == f

/-- KILLING: steps 1 to 5 begin (R313). -/
def startKill (s : State) (f cause : Nat) (flr : Bool) : State :=
  let s := disableStep1 (setFuncState s f 4) f flr
  let s := setTenant s f { tenant s f with cause := cause, flr := flr }
  let s := cancelSeqs s f
  let s := (baysOf s f).foldl stopBay s
  let s := (wainsOf s f).foldl (fun s c => abortWain s c eWainAborted) s
  closeVideo s f

/-- DRAINING begins (R311, R312). -/
def startDrain (s : State) (f : Nat) : State :=
  let s := disableStep1 (setFuncState s f 3) f false
  setTenant s f { tenant s f with cause := 1, flr := false, drainStart := s.clock }

/-- FUNC_DISABLE of a mode (R311): 1 DRAIN, 2 KILL. -/
def funcDisable (mode : Nat) (s : State) (c : Cmd) : State :=
  match namedFunc c with
  | none => finish s c eCmdReserved
  | some f =>
    let st := funcState s f
    if st = 0 then finish s c eFuncBadState
    else
      let s := setTenant s f { tenant s f with disableCmds := (tenant s f).disableCmds ++ [c.id] }
      if st = 1 then
        let s := match (tenant s f).enableCmd with
          | some id => finishId (setTenant s f { tenant s f with enableCmd := none }) id eFuncDisabling
          | none => s
        startKill s f mode false
      else if st = 2 then (if mode = 1 then startDrain s f else startKill s f 2 false)
      else if st = 3 && mode = 2 then startKill s f 2 false
      else s

/-- A FUNC_DISABLE command of one mode; a mode above 1 is CMD_RESERVED (R302). -/
def disableCmd (s : State) (src mode : Nat) : State :=
  match nextCmd s src with
  | none => s
  | some c =>
    let m := arg c 0x11 1
    if m + 1 = mode || (mode = 2 && 1 < m) then
      withCmd s src 0x81 fun s c => if 1 < m then finish s c eCmdReserved else funcDisable mode s c
    else s

def execFuncDisableDrain (src : Nat) (s : State) : Host.Outcome State Fault Refusal := .next (disableCmd s src 1)
def execFuncDisableKill (src : Nat) (s : State) : Host.Outcome State Fault Refusal := .next (disableCmd s src 2)

/-- Nothing of a function runs any more but its sequences' references: steps 3 to 5 are done (R313). -/
def stopped (s : State) (f : Nat) : Bool :=
  (baysOf s f).all (fun b => (bay s b).st != .running && (bay s b).comp.isNone) && (wainsOf s f).all (fun c => wainSt s c == 0)
    && !videoOpen s f

/-- A drain is complete (R312). -/
def drained (s : State) (f : Nat) : Bool :=
  !(s.cmds.any fun c => c.src < 0x100 && cmdFunc c == f) && !seqBusy s f
    && (baysOf s f).all (fun b => (bay s b).st != .running)
    && (wainsOf s f).all (fun c => wainSt s c == 0 || wainSt s c == 2) && !videoBusy s f

/-- A drain completes (R311, R312). -/
def drainComplete (f : Nat) (s : State) : State :=
  if f = 0 || funcState s f ≠ 3 || !drained s f then s else startKill s f 1 false

def execFuncDrainComplete (f : Nat) (s : State) : Host.Outcome State Fault Refusal := .next (drainComplete f s)

/-- FUNC_DRAIN_TIMEOUT passes (R311). -/
def drainTimeout (f : Nat) (s : State) : State :=
  if f = 0 || funcState s f ≠ 3 ||
      decide (s.clock < (tenant s f).drainStart + usCycles (1000 * rf s (K.funcDrainTimeout (f - 1)) 15 0)) then s
  else startKill s f 1 false

def execFuncDrainTimeout (f : Nat) (s : State) : Host.Outcome State Fault Refusal := .next (drainTimeout f s)

/-- Step 7: DISABLED, its message, its slots, channels and bays given back; after an FLR, ENABLING follows (R311, R313). -/
def disabled (s : State) (f : Nat) : State :=
  let t := tenant s f
  if funcState s f ≠ 5 || !t.scrub.isEmpty || seqHeld s f then s
  else
    let s := forgetFunction s f
    let s := (baysOf s f).foldl (fun s b => assignBay s b 15) s
    let s := setBit (setFuncState s f 0) (K.funcState (f - 1)) 8 false
    let s := (wainsOf s f).foldl (fun s c => assignWain s c 0) s
    let s := freeSlots (postFuncState s f 0 t.cause eFuncDisabled t.scrubbed) f
    let s := t.disableCmds.foldl (fun s id => finishId s id 0 t.scrubbed) s
    let s := setTenant s f { tenant s f with disableCmds := [], flr := false }
    let s := openScopes s
    if t.flr && resourcesOk s f then beginEnable s f none else s

/-- Steps 2 to 5 are done: SCRUBBING. Of an enable that was stopped, the regions whose scrub had begun are scrubbed whole: those done
and the one under way (R311, R313). -/
def killDone (f : Nat) (s : State) : State :=
  if f = 0 || funcState s f ≠ 4 || !stopped s f then s
  else
    let t := tenant s f
    let rs := if t.scrub.isEmpty then regionsOf s f else t.begun ++ t.scrub.take 1
    let held := if t.scrub.isEmpty then t.held else rs
    disabled (setTenant (setFuncState s f 5) f { t with scrub := rs, scrubbed := 0, held := held }) f

def execFuncKillDone (f : Nat) (s : State) : Host.Outcome State Fault Refusal := .next (killDone f s)

/-- Zero a byte range in whole lines and clear its poison (R377, R488). -/
def scrubRange (s : State) (a n : Nat) : State :=
  clearPoison { s with mem := s.mem.filter fun e => !(decide (a ≤ e.1) && decide (e.1 < a + n)) } a n

/-- Count bytes scrubbed (R379). -/
def countScrub (s : State) (n : Nat) : State := wr64 s K.secScrubLo ((rd64 s K.secScrubLo + n) % 2 ^ 64)

/-- The next range of a tenant's scrub ends (R311, R313, R377). -/
def tenantScrubbed (s : State) (f : Nat) : State :=
  let t := tenant s f
  match t.scrub with
  | [] => s
  | r :: rest =>
    if funcState s f ≠ 1 && funcState s f ≠ 5 then s
    else
      let s := setTenant (countScrub (scrubRange s r.1 r.2) r.2) f
        { t with scrub := rest, begun := t.begun ++ [r], scrubbed := t.scrubbed + r.2 }
      disabled (enabled s f) f

/-! ### Function-level reset (R311) -/

/-- Clear ENABLE of every ring of a function; every other ring register keeps its value. -/
def disableRings (s : State) (f : Nat) : State :=
  (List.range 16).foldl (fun s n =>
    let s := setBit s (K.sqCfg f n) 16 false
    if eqEnabled s f n then disableEq s f n else s) s

/-- An FLR of a function through either port. -/
def flr (p f : Nat) (s : State) : State :=
  if !(portUp s p || (port s p).narrow) || decide (8 < f) then s
  else
    let s := relockFunc (dropCommands (disableRings s f) f true) f
    if f = 0 then
      let s := strikeFunc s 0 eTxnFuncDisabled
      let s := (baysOf s 0).foldl (fun s b => assignBay (stopBay s b) b 0) s
      (wainsOf s 0).foldl (fun s c => abortWain s c eWainAborted) s
    else if funcState s f = 2 || funcState s f = 3 then startKill s f 3 true
    else s

def execFlr (p f : Nat) (s : State) : Host.Outcome State Fault Refusal := .next (flr p f s)

end Sys2Proof.Machine
end

