-- ==== Sys2Proof/Machine/Tally.lean ====
section
/-! DEFINITION. The tally unit (R432-R437): adds, fires and their effects, the inbound messages of the trees behind the
fence filter (R418), and the group power pool that rounds of a counter carry (R400-R402). -/

namespace Sys2Proof.Machine

/-! ### Group power pools (R400-R402) -/

def poolCounter (s : State) : Nat := rf s K.pwrShare 23 16
def poolIndex (s : State) : Nat := rf s K.pwrPool 21 16
def poolMembers (s : State) : Nat := rf s K.pwrPool 29 24 + 1

/-- The present 10 ms period of MTIME. -/
def poolPeriod (s : State) : Nat := mtimeNs s / 10000000

/-- The first share of a member (R401). -/
def poolInitial (p n i : Nat) : Nat := p / n + (if i < p % n then 1 else 0)

/-- A share comes into force. -/
def setShare (s : State) (w : Nat) : State := retarget (wf s K.pwrShare 9 0 w)

/-- PWR_POOL (R401). -/
def pwrPool (s : State) (c : Cmd) : State :=
  let p := arg c 0x10 4
  let i := arg c 0x14 1
  let n := arg c 0x15 1
  let t := arg c 0x16 1
  if p = 0 then
    let s := wr (wr s K.pwrPool 0) K.pwrShare 0
    let s := setBit (setBit s K.pwrState 4 false) K.pwrState 5 false
    finish (retarget { s with power := { s.power with
      poolTotal := 0, poolRecs := [], poolMissed := 0, poolRise := none, poolBoundary := none, poolDone := true } }) c 0
  else if n < 2 || 64 < n || n ≤ i || p < 250 * n || tOwner s t ≠ 0 then finish s c ePwrRange
  else
    let s := wr s K.pwrPool (p % 2 ^ 16 + 2 ^ 16 * i + 2 ^ 24 * (n - 1))
    let s := wr s K.pwrShare (2 ^ 16 * t)
    let s := setBit (setBit s K.pwrState 4 true) K.pwrState 5 false
    let s := { s with power := { s.power with
      poolTotal := p, poolFirst := true, poolRecs := [], poolMissed := 0, poolRise := none, poolBoundary := some (poolPeriod s)
      poolDone := true, waited := 0, waitFrom := s.power.waitFrom.map fun _ => s.clock } }
    finish (setShare s (poolInitial p n i)) c 0

def execPwrPool (src : Nat) (s : State) : Host.Outcome State Fault Refusal := .next (withCmd s src 0x91 pwrPool)

/-- A pool record reaches this member (R401); the place of the index in the payload is the model's
(notes/assumptions/16). -/
def takeRecord (s : State) (c : Nat) (payload : Bytes) : State :=
  let r : PoolRec := ⟨num payload 8 1, num payload 0 2, num payload 2 2, num payload 4 2, num payload 6 2⟩
  if !inPool s || poolCounter s ≠ c || s.power.poolDone || s.power.poolRecs.any (·.index == r.index) then s
  else { s with power := { s.power with poolRecs := s.power.poolRecs ++ [r] } }

/-- Broadcast DATA from this module: up towards the root, or from the root down to every child (R434). -/
def broadcast (s : State) (c : Nat) (payload : Bytes) : State :=
  if tRoot s c then sendDown (takeRecord s c payload) c 3 1 payload else sendParent s c 3 0 payload

/-- I of the pool period that ends (R400): the share of its 10 ms for which this module waited. -/
def waitShare (s : State) : Nat :=
  let all := s.power.waited + (match s.power.waitFrom with | some t => s.clock - t | none => 0)
  min 65535 (all * 65536 / usCycles 10000)

/-- A 10 ms boundary: the member broadcasts its record and contributes to the round (R400, R401). -/
def poolRound (s : State) : State :=
  if !inPool s || s.power.poolBoundary = some (poolPeriod s) then s
  else
    let i := if s.power.poolFirst then 0 else waitShare s
    let s := wr s K.pwrCpi (waitShare s)
    let s := { s with power := { s.power with
      waited := 0, waitFrom := s.power.waitFrom.map fun _ => s.clock, poolFirst := false, poolRecs := [], poolBoundary := some (poolPeriod s), poolDone := false } }
    let u := min (rf s K.pwrCap 9 0) (rf s K.pwrBounds 25 16)
    let rec' := toLE 2 i ++ toLE 2 (rf s K.pwrBounds 9 0) ++ toLE 2 u ++ toLE 2 (rf s K.pwrShare 9 0) ++ toLE 1 (poolIndex s)
    let c := poolCounter s
    addFirmware (broadcast s c rec') c 1

def execPoolRound (s : State) : Host.Outcome State Fault Refusal := .next (poolRound s)

/-- A new share: a fall at once, a rise 1 ms later (R402). -/
def applyShare (s : State) (w : Nat) : State :=
  if rf s K.pwrShare 9 0 < w then { s with power := { s.power with poolRise := some (w, s.clock + usCycles 1000) } }
  else setShare { s with power := { s.power with poolRise := none } } w

/-- The round of the pool's counter fires with every record here (R401, R402). -/
def poolFire (s : State) (c : Nat) : State :=
  if !inPool s || poolCounter s ≠ c || s.power.poolDone || s.power.poolRecs.length < poolMembers s then s
  else
    let p := s.power.poolTotal
    let recs := s.power.poolRecs
    let mine := poolIndex s
    let s := setBit { s with power := { s.power with poolDone := true, poolMissed := 0 } } K.pwrState 5 false
    if p < (recs.map (·.l)).sum then
      let l := ((recs.find? (·.index == mine)).map (·.l)).getD 0
      postThermal (applyShare s l) 13 15 ePoolShort l
    else applyShare s ((((poolShares recs p).find? (·.1 == mine)).map (·.2)).getD (rf s K.pwrShare 9 0))

/-- 2 ms after its boundary a round still misses a record: the share stays (R402). -/
def execPoolRecordTimeout (s : State) : Host.Outcome State Fault Refusal :=
  match s.power.poolBoundary with
  | some b =>
    if inPool s && !s.power.poolDone && decide (s.power.poolRecs.length < poolMembers s)
        && decide (10000000 * b + 2000000 ≤ mtimeNs s) then
      .next { s with power := { s.power with poolDone := true, poolMissed := s.power.poolMissed + 1 } }
    else .next s
  | none => .next s

/-- Three such rounds in a row (R402). -/
def execPoolStale (s : State) : Host.Outcome State Fault Refusal :=
  if inPool s && decide (3 ≤ s.power.poolMissed) && !bit (rd s K.pwrState) 5 then
    .next (postThermal (setBit s K.pwrState 5 true) 13 15 ePoolStale (rf s K.pwrShare 9 0))
  else .next s

/-- A share that rises is applied 1 ms after the fire (R402). -/
def execPoolShareRise (s : State) : Host.Outcome State Fault Refusal :=
  match s.power.poolRise with
  | some (w, t) =>
    if s.clock < t then .next s else .next (setShare { s with power := { s.power with poolRise := none } } w)
  | none => .next s

/-! ### Fires (R432-R434) -/

/-- Whether a counter fires now: a LOCAL one at its target, a root on its condition, another when DOWN has come. -/
def mayFire (s : State) (c : Nat) : Bool :=
  if tMode s c = 1 then decide (rd s (K.tallyTarget c) ≤ rd s (K.tallyCount c))
  else if tMode s c = 2 then (if tRoot s c then treeReady s c else s.tallyDown.contains c)
  else false

/-- A subscription token on its way to a bay (R433, step 3). -/
def subToken (s : State) (own ctr inc b : Nat) : State :=
  if (bay s b).owner = own then send s { src := uTally, dst := b, kind := 0, ctr := ctr, amount := inc } else s

/-- Commands that waited for the fire go on (R433 step 4, R437). -/
def resumeWaits (s : State) (c : Nat) : State :=
  let mine := s.tallyWaits.filter fun w => w.ctr == c
  let s := { s with tallyWaits := s.tallyWaits.filter fun w => w.ctr != c }
  mine.foldl (fun s w =>
    if w.kind = 0 && w.phase = 2 then addFirmware { s with tallyWaits := s.tallyWaits ++ [{ w with kind := 1 }] } c 1
    else if w.kind = 1 then finishId s w.cmd 0
    else if w.kind = 2 then
      finishId { s with joinWait := false, tray := { s.tray with warm := some 4 } } w.cmd 0
    else { s with tallyWaits := s.tallyWaits ++ [w] }) s

/-- A fire and its effects (R432-R434): DOWN to the children, the count and the round, then bents, bays, tokens and
firmware. Owner and subscription are those of the round that fires (R443). -/
def fireTally (s : State) (c : Nat) : State :=
  let own := tOwner s c
  let sub := rd s (K.tallySub c)
  let bays := if fld sub 9 0 = 0x3FF then [] else (List.range nBays).filter fun b => decide (fld sub 9 0 ≤ b) && decide (b ≤ fld sub 19 10)
  let s := if tMode s c = 2 then sendDown s c 2 0 else s
  let s := wr s (K.tallyCount c) (rd s (K.tallyCount c) - rd s (K.tallyTarget c))
  let s := wr64 (wr (incr s (K.tallyRound c) 1) (K.tallyUp c) 0) (K.tallyFireLo c) (now s)
  let s := setSince { s with tallyDown := s.tallyDown.filter (· != c) } c (0, false)
  let s := runArmed s 2 c
  let s := (List.range nBays).foldl (fun s b => tallyStart s b c) s
  let s := bays.foldl (fun s b => subToken s own (fld sub 23 20) (fld sub 31 24) b) s
  treeUpdate (resumeWaits (poolFire s c) c) c

/-- A counter fires (R433). -/
def execTallyFire (c : Nat) (s : State) : Host.Outcome State Fault Refusal :=
  .next (if decide (c < 256) && serving s && mayFire s c then fireTally s c else s)

/-! ### Adds (R127, R432, R496) -/

/-- A write of TALLY_ADD on the selected counter (R443). -/
def execTallyAdd (a : Access) (v : Nat) (s : State) : Host.Outcome State Fault Refusal :=
  .next (atPlace s a fun s pl =>
    if pl.page = pgTally && pl.off = 0x6C then addTally s (rd s (K.tallySelOf a.func) % 256) a.func (fld v 15 0) 0x6C else s)

/-- A bay's add, the oldest message of its route, arrives (R15, R496); it counts as its owner's. -/
def tallyAddArrives (src : Nat) (s : State) : State :=
  match arriving s src uTally with
  | some m => if m.kind = 2 then addTally (takeMsg s src uTally) m.ctr (bay s src).owner m.amount 0 else s
  | none => s

def execTallyAddArrival (src : Nat) (s : State) : Host.Outcome State Fault Refusal := .next (tallyAddArrives src s)

/-! ### The fence filter and inbound messages (R418, R435) -/

/-- Whether a requester may reach a filtered target through a port (R418). -/
def fenceAllows (s : State) (p rid : Nat) : Bool :=
  (List.range 64).any fun i =>
    let v := rd s (K.fenceRid i)
    fld v 15 0 == rid && bit v (16 + p)

/-- A request the filter refuses is counted. -/
def fenceDrop (s : State) (p rid : Nat) : State :=
  wr (satIncr s K.fenceDrops 1) K.fenceLast (rid % 2 ^ 16 + 2 ^ 16 * p)

/-- Whether a request is refused before its target sees it: by the table, and while fencing or fenced (R418, R423). -/
def fenceRefuses (s : State) (p rid : Nat) : Bool :=
  fenceState s != 0 || (partOf s != 0 && !fenceAllows s p rid)

/-- Whether a message's header is right for this module (R435). -/
def msgOk (s : State) (b : Bytes) : Bool :=
  let kind := num b 0 1
  let c := num b 1 1
  partOf s != 0 && num b 8 2 == partOf s && decide (1 ≤ kind) && decide (kind ≤ 4)
    && (if kind = 4 then shadowSt s == 1 && num b 0x10 8 == s.shadow.serial
        else tMode s c == 2 && num b 4 4 == rd s (K.tallyRound c))

/-- An inbound tally write of a kind: the filter, its form, then what it does. -/
def tallyIn (s : State) (p rid off : Nat) (b : Bytes) (kind : Nat) (f : State → Nat → State) : State :=
  if !portUp s p || !serving s || off < 0xC00 || 0x1000 ≤ off then s
  else if fenceRefuses s p rid then fenceDrop s p rid
  else if b.length ≠ 64 || off % 64 ≠ 0 || !msgOk s b then tallyBad s 0 off
  else if num b 0 1 ≠ kind then s
  else f (countRx s p 64) (num b 1 1)

/-- UP: a child has reported (R434). -/
def execUp (p rid off : Nat) (b : Bytes) (s : State) : Host.Outcome State Fault Refusal :=
  .next (tallyIn s p rid off b 1 fun s c =>
    let k := num b 2 1
    if 16 ≤ k then s else treeUpdate (setBit s (K.tallyUp c) k true) c)

/-- DOWN: the round is over, and a counter that is no root fires (R434). -/
def execDown (p rid off : Nat) (b : Bytes) (s : State) : Host.Outcome State Fault Refusal :=
  .next (tallyIn s p rid off b 2 fun s c =>
    if tRoot s c || s.tallyDown.contains c then s else { s with tallyDown := s.tallyDown ++ [c] })

/-- DATA: forwarded to the root, and from there down to every member (R434). -/
def execData (p rid off : Nat) (b : Bytes) (s : State) : Host.Outcome State Fault Refusal :=
  .next (tallyIn s p rid off b 3 fun s c =>
    let payload := sub b 0x20 32
    if bit (num b 3 1) 0 || tRoot s c then sendDown (takeRecord s c payload) c 3 1 payload
    else sendParent s c 3 0 payload)

/-- MIRROR_ACK: the shadow's consumed offset (R426, R435). -/
def execMirrorAck (p rid off : Nat) (b : Bytes) (s : State) : Host.Outcome State Fault Refusal :=
  .next (tallyIn s p rid off b 4 fun s _ =>
    let x := s.shadow
    let n := 64 * num b 4 4
    { s with shadow := { x with consumed := x.consumed + (n + mirrorSize - x.consumed % mirrorSize) % mirrorSize } })

/-- A TREE counter has waited longer than TALLY_STALL_MS (R436). -/
def tallyStall (c : Nat) (s : State) : State :=
  let w := sinceOf s c
  let ms := rf s K.tallyStallMs 15 0
  if tMode s c ≠ 2 || w.1 = 0 || w.2 || ms = 0 || s.clock < w.1 + usCycles (1000 * ms) then s
  else postFence (raiseIrq (setSince s c (w.1, true)) pgTally 16) 9 c eTallyStall

def execTallyStall (c : Nat) (s : State) : Host.Outcome State Fault Refusal := .next (tallyStall c s)

/-! ### Global operations (R437) -/

/-- SNAPSHOT: it waits for boundary B_S, or fails when SRV_STEP has passed S. -/
def snapshot (s : State) (c : Cmd) : State :=
  let step := arg c 0x20 8
  if step < rd64 s K.srvStepLo || 8 < arg c 0x11 1 || 32 ≤ arg c 0x12 1 then finish s c ePartParam
  else { s with tallyWaits := s.tallyWaits ++
    [{ kind := 0, ctr := arg c 0x10 1, cmd := c.id, step := step, func := arg c 0x11 1, wain := arg c 0x12 1, dest := arg c 0x18 8 }] }

def execSnapshot (src : Nat) (s : State) : Host.Outcome State Fault Refusal := .next (withCmd s src 0xB6 snapshot)

/-- GLOBAL_RESET: this member contributes, and the local fire resets it. -/
def globalReset (s : State) (c : Cmd) : State :=
  let ctr := arg c 0x10 1
  addFirmware { s with tallyWaits := s.tallyWaits ++ [{ kind := 2, ctr := ctr, cmd := c.id }] } ctr 1

def execGlobalReset (src : Nat) (s : State) : Host.Outcome State Fault Refusal := .next (withCmd s src 0xB7 globalReset)

end Sys2Proof.Machine
end

