-- ==== Sys2Proof/Machine/Fence.lean ====
section
/-! DEFINITION. Granary access through BAR2 (R295, R296, R418, R487), partitions and fencing (R417-R424), and the shadow
relation (R425-R430). -/

namespace Sys2Proof.Machine

/-! ### BAR2 (R295, R296) -/

/-- The granary address an offset of a tenant's BAR2 reaches: its regions one after another (R296). -/
def regionAddr : List (Nat × Nat) → Nat → Option Nat
  | [], _ => none
  | r :: rs, o => if o < r.2 then some (r.1 + o) else regionAddr rs (o - r.2)

/-- The granary address a BAR2 request reaches, if all its bytes lie in allocatable lines that are not being scrubbed
(R295, R296, R377). -/
def bar2Addr (s : State) (p f off n : Nat) : Option Nat :=
  let a := if f = 0 then some (2 ^ 30 * rf s (K.portWinBase p) 7 0 + off)
    else match regionAddr (if funcState s f = 0 then [] else regionsOf s f) off,
        regionAddr (if funcState s f = 0 then [] else regionsOf s f) (off + n - 1) with
      | some x, some y => if y + 1 = x + n then some x else none
      | _, _ => none
  match a with
  | some x => if allocatable x n && !(scrubRanges s).any (fun r => overlap x n r.1 r.2) then some x else none
  | none => none

/-- Size of a function's BAR2 on a port, in bytes (R294). -/
def bar2Size (s : State) (p f : Nat) : Nat := 2 ^ 30 * (if f = 0 then (port s p).bar2 else (port s p).vfBar2)

/-- A BAR2 request: a write of bytes, or a read of as many bytes as the operand holds. A narrow link, a port without the VF and
an offset beyond the BAR answer Unsupported Request (R291, R294). -/
def bar2 (p f rid off : Nat) (w : Bool) (data : Bytes) (s : State) : State :=
  let refuse := fun (s : State) => if w then s else emit s (.unsupported p f off)
  if !(portUp s p || (port s p).narrow) || 8 < f || data.isEmpty then s
  else if !portUp s p || !serving s || !vfHere s p f || bar2Size s p f < off + data.length then refuse s
  else if f = 0 && fenceRefuses s p rid then refuse (fenceDrop s p rid)
  else
    match bar2Addr s p f off data.length with
    | none => refuse (recordErr s (pgPort p) eMemRange f 0)
    | some a =>
      if w then gwrite (countRx s p data.length) (uHost p) a data
      else if poisonedIn s a data.length then emit s (.poisonedData p f off)
      else emit (countTx s p data.length) (.readData p f off (greadOf s (uHost p) a data.length))

def execBar2Access (p f rid off : Nat) (w : Bool) (data : Bytes) (s : State) : Host.Outcome State Fault Refusal :=
  .next (bar2 p f rid off w data s)

/-! ### Partitions (R417, R419) -/

/-- Manager keys: N, Q and key k (R417). -/
def partN (s : State) : Nat := rf s K.fenceState 15 12
def partQ (s : State) : Nat := rf s K.fenceState 11 8

/-- Keys of a set-up record. -/
def recordKeys (b : Bytes) : List Bytes := (List.range (num b 2 1)).map fun k => sub b (0x10 + 0x68 * k) 97

/-- Whether a set-up record follows R417's table. -/
def partRecordOk (b : Bytes) : Bool :=
  let n := num b 2 1
  let q := num b 3 1
  num b 0 2 != 0 && decide (1 ≤ n) && decide (n ≤ 8) && decide (q ≤ n) && decide (n < 2 * q) && decide (num b 4 1 < 2)
    && (sub b 5 11).all (· == 0)
    && (List.range n).all fun k => Config.onCurve (sub b (0x10 + 0x68 * k) 97) && (sub b (0x71 + 0x68 * k) 7).all (· == 0)

/-- The fence state, its partition and its flash copy. -/
def setFence (s : State) (st q n part seq : Nat) (keys : List Bytes) : State :=
  let s := wr (wr s K.fenceState (st + 2 ^ 8 * q + 2 ^ 12 * n + 2 ^ 16 * part)) K.fenceSeq seq
  { s with flash := { s.flash with part := part, qn := q + 16 * n, keys := keys, fenceState := st, fenceSeq := seq } }

/-- Empty the fence table. -/
def clearFenceTable (s : State) : State :=
  let s := (List.range 64).foldl (fun s i => wrStaged (wr s (K.fenceRid i) 0) (K.fenceRid i) 0) s
  { s with flash := { s.flash with fenceTable := [] } }

/-- SYS_STATE.STATE. -/
def setSys (s : State) (v : Nat) : State := wf s K.sysState 3 0 v

/-- The module stops being fenced: SYS_STATE READY, or DRAINING while the tray drains (R422, R462). -/
def unfence (s : State) : State :=
  if sysState s = 5 then setSys s (if s.tray.hs = .draining then 4 else 3) else s

/-- PART_SETUP (R417, R422). -/
def partSetup (s : State) (c : Cmd) : State :=
  let a := arg c 0x10 8
  let b := gread s a 0x350
  if !allocatable a 0x350 then finish s c eMemRange
  else if poisonedIn s a 0x350 then finish s c ePoison
  else if !partRecordOk b then finish s c ePartParam
  else if fenceState s = 1 || (partOf s != 0 && fenceState s = 0) || (fenceState s = 2 && num b 0 2 = partOf s) then finish s c ePartState
  else
    let was := fenceState s
    let s := clearFenceTable (setFence s 0 (num b 3 1) (num b 2 1) (num b 0 2) 0 (recordKeys b))
    let s := raiseIrq { s with flash := { s.flash with restartJoin := bit (num b 4 1) 0 }, joinWait := bit (num b 4 1) 0 } pgFence 16
    let s := postFence (unfence s) 4 0 0
    finish (if was = 2 then postFence s 2 0 0 else s) c 0

def execPartSetup (src : Nat) (s : State) : Host.Outcome State Fault Refusal := .next (withCmd s src 0xB0 partSetup)

/-- Tally counters return to reset (R419). -/
def resetTallies (s : State) : State :=
  let keep := fun (e : Nat × Word) => !(decide (0x2000000 ≤ e.1) && decide (e.1 < 0x4000000))
  { s with regs := s.regs.filter keep, staged := s.staged.filter keep, tallySince := [], tallyDown := [], tallyOut := [] }

/-- PART_LEAVE (R419, R422). -/
def partLeave (s : State) (c : Cmd) : State :=
  let busy := (List.range 256).any (fun t => tMode s t == 2) || [1, 2, 3].contains (shadowSt s)
  if fenceState s = 1 || (fenceState s = 0 && busy) then finish s c ePartState
  else
    let was := fenceState s
    let s := resetTallies (clearFenceTable (setFence s 0 0 0 0 0 []))
    let s := raiseIrq { s with flash := { s.flash with restartJoin := false }, joinWait := false } pgFence 16
    let s := postFence (unfence s) 5 0 0
    finish (if was = 2 then postFence s 2 0 0 else s) c 0

def execPartLeave (src : Nat) (s : State) : Host.Outcome State Fault Refusal := .next (withCmd s src 0xB1 partLeave)

/-! ### Fence certificates (R420-R424) -/

/-- FENCE_CERT: the certificate is read and its check starts (R421). -/
def fenceCert (s : State) (c : Cmd) : State :=
  let a := arg c 0x10 8
  let n := 0x40 + 112 * min 8 (num (gread s a 0x40) 5 1)
  if !allocatable a 0x40 || !allocatable a n then finish s c eMemRange
  else if poisonedIn s a n then finish s c ePoison
  else { s with certs := s.certs ++ [{ cert := gread s a n, cmd := c.id }] }

def execFenceCert (src : Nat) (s : State) : Host.Outcome State Fault Refusal := .next (withCmd s src 0xB2 fenceCert)

/-- Entry j of a certificate: key index and whether its signature verifies. -/
def certSig (s : State) (b : Bytes) (j : Nat) : Nat × Bool :=
  let e := 0x40 + 112 * j
  let k := num b e 1
  (k, (sub b (e + 1) 15).all (· == 0) && (match s.flash.keys[k]? with
    | some key => Config.ecdsaVerify key (Config.sha384 (sub b 0 0x40)) (sub b (e + 0x10) 96)
    | none => false))

/-- Distinct manager keys whose signatures verify. -/
def certSigners (s : State) (b : Bytes) : List Nat :=
  (((List.range (num b 5 1)).map (certSig s b)).filter fun e => decide (e.1 < partN s) && e.2).map (·.1) |>.dedup

/-- The code of the first check that fails, or 0 (R421). -/
def certCode (s : State) (b : Bytes) : Nat :=
  let action := num b 4 1
  let n := num b 5 1
  let expiry := num b 0x18 8
  if partOf s = 0 || fenceState s = 1 then ePartState
  else if num b 0 4 ≠ 0x4C514643 || !(action = 1 || action = 2) || n < 1 || 8 < n || num b 0x14 4 ≠ 0
      || !(sub b 0x20 32).all (· == 0) || num b 6 2 ≠ partOf s || num b 8 8 ≠ rd64 s K.sysSerialLo
      || (expiry ≠ 0 && expiry < now s)
      || !((List.range n).all fun j => (sub b (0x41 + 112 * j) 15).all (· == 0)) then eFenceCertBad
  else if num b 0x10 4 ≠ rd s K.fenceSeq then eFenceStale
  else if (action = 1 && fenceState s = 2) || (action = 2 && fenceState s = 0) then ePartState
  else if (certSigners s b).length < partQ s then eFenceCertBad
  else 0

/-- An accepted FENCE certificate: FENCING, and all work ends (R423, R424). -/
def startFencing (s : State) (cmd : Nat) : State :=
  let s := raiseIrq (wf (incr s K.fenceSeq 1) K.fenceState 1 0 1) pgFence 16
  let s := { s with tallyOut := [], fencing := some cmd }
  let s := (s.cmds.filter fun c => c.started && c.id != cmd).foldl (fun s c => finish s c eFenced) s
  let s := (s.bays.map (·.1)).foldl stopBay (endSeqs s eFenced)
  let s := (List.range 32).foldl (fun s c => abortWain s c eFenced) s
  (List.range 9).foldl closeVideo s

/-- An accepted UNFENCE certificate (R422). -/
def doUnfence (s : State) (cmd : Nat) : State :=
  let s := raiseIrq (wf (incr s K.fenceSeq 1) K.fenceState 1 0 0) pgFence 16
  let s := { s with flash := { s.flash with fenceState := 0, fenceSeq := rd s K.fenceSeq } }
  finishId (postFence (unfence s) 2 0 0) cmd 0

/-- The oldest certificate's check ends (R421). -/
def certChecked (s : State) : State :=
  match s.certs with
  | [] => s
  | j :: rest =>
    let s := { s with certs := rest }
    if !(s.cmds.any (·.id == j.cmd)) then s
    else
      let code := certCode s j.cert
      if code ≠ 0 then finishId (postFence s 3 0 code) j.cmd code
      else if num j.cert 4 1 = 1 then startFencing s j.cmd
      else doUnfence s j.cmd

def execFenceCertChecked (s : State) : Host.Outcome State Fault Refusal := .next (certChecked s)

/-- Every step of R423 is complete: bays, channels and video contexts are at rest. -/
def fencedDone (s : State) : Bool :=
  s.bays.all (fun e => decide (e.2.st ≠ .running) && e.2.comp.isNone) && (List.range 32).all (fun c => wainSt s c == 0 || wainSt s c == 2)
    && (List.range 9).all fun f => !videoOpen s f

/-- FENCED: the fence state is in flash and FENCE_CERT completes (R423). -/
def fencedNow (s : State) : State :=
  match s.fencing with
  | none => s
  | some cmd =>
    if fenceState s ≠ 1 || !fencedDone s then s
    else
      let s := setSys (wf { s with fencing := none } K.fenceState 1 0 2) 5
      let s := { s with flash := { s.flash with fenceState := 2, fenceSeq := rd s K.fenceSeq } }
      finishId (postFence (raiseIrq s pgFence 16) 1 0 0) cmd 0

def execFenced (s : State) : Host.Outcome State Fault Refusal := .next (fencedNow s)

/-! ### Shadow joining (R425-R430) -/

/-- Whether this module may enter a relation with a function: its own side of R425; the other module's side is told by
the command's operand (notes/assumptions/17). -/
def shadowOk (s : State) (f : Nat) (peerOk elder : Bool) : Bool :=
  peerOk && partOf s != 0 && fenceState s == 0 && !([1, 2, 3].contains (shadowSt s)) && decide (f ≤ 8)
    && (if elder then !videoDrops s f else (List.range 2).all fun p => rf s (K.portWinBase p) 7 0 == 0)

/-- A relation begins. -/
def beginShadow (s : State) (st : Nat) (x : Shadow) : State :=
  let s := wr s K.shadowRun 0
  setShadowSt (wf { s with shadow := x } K.shadowState 11 8 x.func) st

/-- SHADOW_ELDER: mirroring starts (R416, R425); the other module's answer, where it may enter the relation, names its serial number. -/
def execShadowElder (src : Nat) (peer : Option Nat) (s : State) : Host.Outcome State Fault Refusal :=
  .next (withCmd s src 0xB3 fun s c =>
    let f := arg c 0x10 1
    if !shadowOk s f peer.isSome true then finish s c eShadowParam
    else finish (beginShadow s 1 { func := f, host := arg c 0x18 8, ring := arg c 0x20 8, serial := peer.getD 0 }) c 0)

/-- SHADOW_JOIN (R416, R425). -/
def execShadowJoin (src : Nat) (peerOk : Bool) (s : State) : Host.Outcome State Fault Refusal :=
  .next (withCmd s src 0xB4 fun s c =>
    let f := arg c 0x10 1
    let ring := arg c 0x20 8
    if !shadowOk s f peerOk false || !allocatable ring mirrorSize || ring % 64 ≠ 0 then finish s c eShadowParam
    else finish (beginShadow s 2 { func := f, elderFunc := arg c 0x11 1, serial := arg c 0x18 8, ring := ring, heard := s.clock }) c 0)

/-- SHADOW_END: the relation ends at the elder's next boundary (R429). -/
def execShadowEnd (src : Nat) (s : State) : Host.Outcome State Fault Refusal :=
  .next (withCmd s src 0xB5 fun s c =>
    if !([1, 2, 3].contains (shadowSt s)) || s.shadow.func ≠ arg c 0x10 1 || s.shadow.endCmd.isSome then finish s c eShadowParam
    else { s with shadow := { s.shadow with ending := true, endCmd := some c.id } })

/-- The relation ends with the records of a boundary: proven or not (R429, R430). -/
def endShadow (s : State) : State :=
  let st := shadowSt s
  let id := s.shadow.endCmd
  let s := setShadowSt { s with shadow := {} } (if st = 2 then 6 else 0)
  match id with
  | some i => finishId s i 0
  | none => s

/-- Tell the elder (R428). -/
def tellElder (s : State) (event code step tensor d1 d2 : Nat) : State :=
  emit s (.peer s.shadow.serial (toLE 1 event ++ toLE 1 0 ++ toLE 2 code ++ toLE 2 (partOf s) ++ toLE 2 0 ++ toLE 8 step
    ++ toLE 1 tensor ++ toLE 7 0 ++ toLE 8 d1 ++ toLE 8 d2))

/-- The lowest tensor whose digest differs, or 64 (R428). -/
def firstDiff (a b : List Nat) : Nat :=
  ((List.range (max a.length b.length)).find? fun t => a[t]? != b[t]?).getD 64

/-- Compare one step's digests: own and the elder's, each D then T (R428). -/
def compareStep (s : State) (step : Nat) (mine elder : List Nat) : State :=
  if mine.headD 0 = elder.headD 0 then
    let s := incr s K.shadowRun 1
    if shadowSt s = 2 && rd s K.shadowRun = rf s K.shadowProof 15 0 then
      tellElder (postFence (setShadowSt s 3) 6 0 0 step) 6 0 step 0 0 0
    else s
  else
    let t := firstDiff mine.tail elder.tail
    let s := wr (wr64 s K.shadowBadLo step) K.shadowBadT t
    let e := elder.tail.getD t 0
    let m := mine.tail.getD t 0
    tellElder (postFence (setShadowSt s 4) 7 0 eShadowMismatch step t e m) 7 eShadowMismatch step t e m

/-- Compare the digests that both sides have, in step order: each of the shadow's own steps with the elder's next one. -/
def compareDigests : Nat → State → State
  | 0, s => s
  | n + 1, s =>
    match s.shadow.elderDigests with
    | [] => s
    | e :: rest =>
      match s.shadow.digests with
      | [] => s
      | m :: own =>
        let s := { s with shadow := { s.shadow with elderDigests := rest, digests := own } }
        let s := compareStep s e.1 (stepDigest e.1 m.2 m.1 :: m.2) e.2
        if shadowSt s = 4 then s else compareDigests n s

/-- Bytes of the ring from an offset on. -/
def ringRead (s : State) (at' n : Nat) : Bytes :=
  (List.range n).map fun i => gbyte s (s.shadow.ring + (at' + i) % mirrorSize)

/-- What one record does (R426). -/
def applyRecord (s : State) (kind a : Nat) (body : Bytes) : State :=
  match kind with
  | 1 => poke s a body
  | 2 =>
    let c : Cmd := { id := s.nextId, src := 0x200 + 16 * s.shadow.func, body := sub body 0 64 }
    { s with cmds := s.cmds ++ [c], nextId := s.nextId + 1 }
  | 3 => { s with shadow := { s.shadow with plan := some (a, num body 0 8) } }
  | _ =>
    let d := (List.range (body.length / 8)).map fun i => num body (8 * i) 8
    let s := { s with shadow := { s.shadow with elderDigests := s.shadow.elderDigests ++ [(a, d)] } }
    let s := compareDigests s.shadow.elderDigests.length s
    if s.shadow.ending && shadowSt s ≠ 4 then endShadow s else s

/-- The shadow applies the next record of the ring (R426). -/
def shadowApply (s : State) : State :=
  let x := s.shadow
  let h := ringRead s (x.consumed % mirrorSize) 32
  let kind := num h 0 1
  let len := num h 4 4
  if !(shadowSt s = 2 || shadowSt s = 3) || s.joinWait || kind < 1 || 4 < kind || num h 0x10 8 < x.lastRec || mirrorSize < len + 32 then s
  else
    let body := ringRead s (x.consumed % mirrorSize + 32) len
    let s := { s with shadow := { x with
      consumed := x.consumed + 64 * cdiv (32 + len) 64, lastRec := num h 0x10 8, heard := s.clock } }
    applyRecord s kind (num h 8 8) body

def execShadowApply (s : State) : Host.Outcome State Fault Refusal := .next (shadowApply s)

/-- Every 1 ms the shadow reports the offset it has consumed (R426, R435). -/
def execMirrorAckTimer (s : State) : Host.Outcome State Fault Refusal :=
  .next (if (shadowSt s = 2 || shadowSt s = 3) && fenceState s = 0 then
    emit s (.peer s.shadow.serial (tallyMsg s 4 0 0 0 (s.shadow.consumed % mirrorSize / 64) []))
  else s)

/-- No record for 1 s while the elder's function runs (R429). -/
def execShadowLost (s : State) : Host.Outcome State Fault Refusal :=
  .next (if (shadowSt s = 2 || shadowSt s = 3) && decide (s.shadow.heard + usCycles 1000000 ≤ s.clock) then
    tellElder (shadowLost s) 8 eShadowLost 0 0 0 0
  else s)

end Sys2Proof.Machine
end

