-- ==== Sys2Proof/Machine/FaultLog.lean ====
section
/-! DEFINITION. The fault log (R492-R495): records, their checksums, what the full log overwrites, and the commands that
read and acknowledge them. -/

namespace Sys2Proof.Machine

/-! ### Checksums -/

/-- One bit of a reflected CRC. -/
def crcBit (poly c : Nat) : Nat := if c % 2 = 1 then Nat.xor (c / 2) poly else c / 2

/-- One byte of a reflected CRC. -/
def crcByte (poly c : Nat) (b : Byte) : Nat := (List.range 8).foldl (fun c _ => crcBit poly c) (Nat.xor c b.toNat)

/-- CRC-32 in the polynomial and bit order of IEEE 802.3 (R482, R492). -/
def crc32 (bs : Bytes) : Nat := Nat.xor (bs.foldl (crcByte 0xEDB88320) 0xFFFFFFFF) 0xFFFFFFFF

/-- CRC-8 of the slot EEPROM, polynomial x^8 + x^5 + x^4 + 1 (R457), in the bit order of 1-Wire devices (PRESUMED,
notes/assumptions/18). -/
def crc8 (bs : Bytes) : Nat := bs.foldl (crcByte 0x8C) 0

/-! ### Records (R492, R493) -/

/-- HS_STATE as a record reports it. -/
def hsCode : HsState → Nat
  | .unpowered => 0 | .standby => 1 | .starting => 2 | .inService => 3
  | .draining => 4 | .drained => 5 | .quenching => 6 | .fault => 7

/-- BAYOWN of bay b: the owner of a RUNNING bay, 0xF otherwise. -/
def bayNibble (s : State) (full : Bool) (b : Nat) : Nat :=
  let x := bay s b
  if full && x.st == .running then x.owner else 0xF

/-- BAYOWN: 4 bits per bay, the low nibble for the even bay. -/
def bayOwn (s : State) (full : Bool) : Bytes :=
  (List.range 288).map fun i => BitVec.ofNat 8 (bayNibble s full (2 * i) + 16 * bayNibble s full (2 * i + 1))

/-- Handles of the sequences that are not FREE, per function; empty in records of the other kinds. -/
def recHandles (s : State) (full : Bool) : List (List Nat) :=
  (List.range 9).map fun f => if full then seqHandles s f else []

/-- A record as it stands at its cause: SEQ 0, no flag and no CRC yet (R493). -/
def draftRecord (s : State) (kind code detail : Nat) : FaultRec :=
  let full := kind == 1 || kind == 2 || kind == 4
  let hs := recHandles s full
  let len := 0x184 + 4 * (hs.map List.length).sum
  { seq := 0, kind := kind, acked := false
    bytes := toLE 4 0x4C514652 ++ toLE 1 kind ++ toLE 1 0 ++ toLE 2 0 ++ toLE 4 len ++ toLE 4 0 ++ toLE 8 (now s)
      ++ toLE 2 code ++ toLE 1 (hsCode s.tray.hs) ++ toLE 1 (sysState s) ++ toLE 4 (rd s K.sysFwver)
      ++ toLE 8 (claimA s) ++ toLE 8 (rd64 s K.srvStepLo) ++ toLE 8 s.lastTb ++ toLE 8 detail
      ++ bayOwn s full ++ hs.flatMap (fun l => toLE 2 l.length) ++ List.replicate 14 0
      ++ hs.flatMap (fun l => l.flatMap (toLE 4)) }

/-- Bytes of a string replaced from an offset on. -/
def patch (bs : Bytes) (off : Nat) (new : Bytes) : Bytes := bs.take off ++ new ++ bs.drop (off + new.length)

/-- Set a flag of a record that has no CRC. -/
def flagDraft (r : FaultRec) (flag : Nat) : FaultRec :=
  { r with bytes := patch r.bytes 5 (toLE 1 (Nat.lor (num r.bytes 5 1) flag)) }

/-- A committed record: SEQ and CRC written. -/
def sealRecord (r : FaultRec) (seq : Nat) : FaultRec :=
  let bs := patch r.bytes 0xC (toLE 4 seq)
  { r with seq := seq, bytes := bs ++ toLE 4 (crc32 bs) }

/-- Set a flag of a committed record, whose CRC follows (DESIGN CHOICE, notes/assumptions/18). -/
def flagRecord (r : FaultRec) (flag : Nat) : FaultRec :=
  let r := flagDraft { r with bytes := r.bytes.take (r.bytes.length - 4) } flag
  { r with bytes := r.bytes ++ toLE 4 (crc32 r.bytes) }

/-- The capacity of the log in bytes (R492). -/
@[reducible] def logCapacity : Nat := 524288

/-- The record a full log overwrites: the oldest acknowledged one, else the oldest that is no unacknowledged
UNCLEAN or INPUT_LOSS record, else the oldest (R494). -/
def logVictim (l : List FaultRec) : Option FaultRec :=
  match l.find? (·.acked), l.find? (fun r => !(r.kind == 1 || r.kind == 2)), l with
  | some r, _, _ => some r
  | none, some r, _ => some r
  | none, none, r :: _ => some r
  | none, none, [] => none

/-- Make room for a record of a length. -/
def logRoom (len : Nat) : Nat → List FaultRec → List FaultRec
  | 0, l => l
  | n + 1, l =>
    if (l.map fun r => r.bytes.length).sum + len ≤ logCapacity then l
    else
      match logVictim l with
      | some r => logRoom len n (l.erase r)
      | none => l

/-- SYS_RESET_CAUSE.UNCLEAN: an unacknowledged UNCLEAN record stands in the log (R465, R495). -/
def showUnclean (s : State) : State :=
  setBit s K.sysResetCause 31 (s.faultLog.any fun r => r.kind == 1 && !r.acked)

/-- Commit a record to the log (R492, R494). -/
def commitRecord (s : State) (r : FaultRec) : State :=
  let r := sealRecord r s.faultSeq
  showUnclean { s with
    faultLog := logRoom r.bytes.length s.faultLog.length s.faultLog ++ [r], faultSeq := (s.faultSeq + 1) % 2 ^ 32 }

/-- Write a record of the present state at once. -/
def writeRecord (s : State) (kind code detail : Nat) : State := commitRecord s (draftRecord s kind code detail)

/-! ### FAULT_READ and FAULT_ACK (R495) -/

/-- The record a SEQ names; 0xFFFF_FFFF is the oldest unacknowledged one. -/
def namedRecord (s : State) (q : Nat) : Option FaultRec :=
  if q = 0xFFFFFFFF then s.faultLog.find? (!·.acked) else s.faultLog.find? (·.seq == q)

/-- FAULT_READ. -/
def faultRead (s : State) (c : Cmd) : State :=
  let off := arg c 0x14 4
  if off % 16 ≠ 0 then finish s c eCmdReserved
  else
    match namedRecord s (arg c 0x10 4) with
    | none => finish s c eFaultNone
    | some r =>
      if r.bytes.length ≤ off then finish s c eFaultNone
      else finish s c 0 (num r.bytes off 8) (num r.bytes (off + 8) 8)

def execFaultRead (src : Nat) (s : State) : Host.Outcome State Fault Refusal := .next (withCmd s src 0x9D faultRead)

/-- Set a flag of the committed record with a SEQ. -/
def flagSeq (s : State) (q flag : Nat) (ack : Bool) : State :=
  { s with faultLog := s.faultLog.map fun r =>
      if r.seq = q then { flagRecord r flag with acked := r.acked || ack } else r }

/-- FAULT_ACK. -/
def faultAck (s : State) (c : Cmd) : State :=
  match namedRecord s (arg c 0x10 4) with
  | none => finish s c eFaultNone
  | some r => finish (showUnclean (flagSeq s r.seq 4 true)) c 0

def execFaultAck (src : Nat) (s : State) : Host.Outcome State Fault Refusal := .next (withCmd s src 0x9E faultAck)

end Sys2Proof.Machine
end

