-- ==== Sys2Proof/Machine/Startup.lean ====
section
/-! DEFINITION. Start-up and the resets of the die and of the module (R470-R483, R358-R360), thermal shutdown and restart
(R405). -/

namespace Sys2Proof.Machine

/-! ### What a reset keeps (R475, R477) -/

/-- Register places that fuses and signed flash fix (ROF registers and R480's factory values). -/
def factoryKey (k : Nat) : Bool :=
  let p := k / 0x1000
  let o := k % 0x1000
  decide (k < 0x1000000) &&
    ((p == pgSys && [0x44, 0x48, 0x4C].contains o) || (p == pgCal && decide (0x50 ≤ o) && decide (o < 0x90))
      || k == K.pwrEstGain || k == K.pwrEstOfs || (p == pgMgmt && decide (0x58 ≤ o) && decide (o ≤ 0x64))
      || (pageType p == 0x21 && decide (0x80 ≤ o) && decide (o < 0xC0)))

/-- Register places that module flash restores after every reset: the SEC page's images, versions, counters and sets, the
fence state and table, and the retired granules (R361, R369, R418, R475, R489). -/
def flashKey (k : Nat) : Bool :=
  let p := k / 0x1000
  let o := k % 0x1000
  decide (k < 0x1000000) &&
    ((p == pgSec && (o == 0x40 || o == 0x44 || o == 0x48 || o == 0x4C || o == 0x50))
      || k == K.fenceState || k == K.fenceSeq || (List.range 64).any (fun i => k == K.fenceRid i)
      || (pageType p == 0x12 && o == 0xB0))

/-- Register places of the reeve, which a die reset leaves alone: identity and state, time, the claim, the management port,
calibration, input power and what the security services keep until a cold reset. -/
def reeveKey (k : Nat) : Bool :=
  let p := k / 0x1000
  let o := k % 0x1000
  decide (k < 0x1000000) &&
    ((p == pgSys && decide (0x40 ≤ o) && decide (o ≤ 0x58)) || (p == 1 && decide (0x40 ≤ o)) || p == pgMgmt
      || (p == pgCal && decide (0x40 ≤ o))
      || [K.claimCurLo, K.claimCurHi, K.claimState, K.claimHost 0, K.claimHost 1, K.claimChanges].contains k
      || [K.claimPcieClaimLo 0, K.claimPcieClaimHi 0, K.claimMgmtClaimLo 0, K.claimMgmtClaimHi 0].contains k
      || [K.claimPcieClaimLo 1, K.claimPcieClaimHi 1, K.claimMgmtClaimLo 1, K.claimMgmtClaimHi 1].contains k
      || [K.pwrEnergyLo, K.pwrEnergyHi, K.pwrVin, K.pwrMeas].contains k
      || (p == pgSec && (decide (0x60 ≤ o) && decide (o < 0x90)))
      || (pageType p == 0x21 && o == 0x54))

/-- Register places of the tally counters that their configuration is: all but COUNT, ROUND, UP and FIRE (R477). -/
def tallyKey (k : Nat) : Bool :=
  decide (0x2000000 ≤ k) && decide (k < 0x4000000) &&
    !([K.tallyCount 0, K.tallyRound 0, K.tallyUp 0, K.tallyFireLo 0, K.tallyFireHi 0].contains
        (K.tallyCount 0 / 0x1000 * 0x1000 + k % 0x1000))

/-- Regions of the tenants in confidential mode (R477). -/
def confidentialRanges (s : State) : List (Nat × Nat) :=
  ((List.range 8).map (· + 1)).flatMap fun f => if bit (rd s (K.funcState (f - 1))) 8 then regionsOf s f else []

/-- Lines of the granules listed as retired (R489). -/
def retiredLines (s : State) : List Nat := s.flash.granules.flatMap fun g => (List.range 8).map (8 * g + ·)

/-- The fence state as module flash holds it: a fencing that had not reached flash is undone (R417, R422). -/
def reloadFence (s : State) : State := wr (wf s K.fenceState 1 0 s.flash.fenceState) K.fenceSeq s.flash.fenceSeq

/-- The die without its state: everything on it at reset, what the reeve and flash hold as it was, and the retired granules
poisoned again (R475, R477, R489). With `keep` the granary's allocatable content and the tally configuration stay. -/
def dieReset (s : State) (keep : Bool) : State :=
  let held := fun (e : Nat × Word) => factoryKey e.1 || flashKey e.1 || reeveKey e.1 || (keep && tallyKey e.1)
  let s := if keep then s.gwq.foldl applyWrite s else s
  let brake := braking s
  let orphans := if keep then s.orphans ++ confidentialRanges s else []
  let poison := (if keep then s.poison.filter fun l => decide (64 * l < granReserved) else [])
  let regs := s.regs.filter held
  let s' : State :=
    { pending := s.pending, clock := s.clock, mtime := s.mtime, lastSample := s.lastSample, free := s.free
      nextId := s.nextId, out := s.out, regs := regs
      staged := s.staged.filter fun e => held e && e.1 / 0x1000 == pgMgmt
      mem := if keep then s.mem.filter fun e => decide (e.1 < granReserved) else []
      poison := (poison ++ retiredLines s).dedup
      bays := s.bays.filterMap fun e => if e.2.off then some (e.1, { off := true }) else none
      ports := s.ports.map fun p => { perst := p.perst, released := p.released, since := p.since }
      hosts := s.hosts, ptp := s.ptp, everClaimed := s.everClaimed, mgmtKey := s.mgmtKey
      wiring := { eeprom := s.wiring.eeprom }, joinWait := s.joinWait, tray := s.tray
      faultLog := s.faultLog, faultSeq := s.faultSeq, flash := s.flash, orphans := orphans, keysLocked := s.keysLocked
      power := { energy := s.power.energy, meas := s.power.meas, brake := if brake then 3 else 0, opFrom := s.power.opFrom
                 restarts := s.power.restarts, shutAt := s.power.shutAt } }
  let s' := regs.foldl (fun s e => if e.1 / 0x1000 = pgMgmt then s else wrStaged s e.1 (rd s e.1)) s'
  retarget (setBit (reloadFence s') K.pwrState 0 brake)

/-- The die loses its rails: the links drop, and granary content and everything on the die is gone (R464, R475). -/
def dieOff (s : State) : State :=
  let s := dieReset (linkDown 1 (linkDown 0 s)) false
  let s := fieldList.foldl (fun s f => setBit s (K.fieldState f) 0 false) (wr s K.clkLock 0)
  { s with tray := { s.tray with rails := false, heater := false, warm := none, warmBoot := false } }

def setHs (s : State) (h : HsState) : State := { s with tray := { s.tray with hs := h } }

/-- Reset cause (R57). -/
def setCause (s : State) (c : Nat) : State := wf s K.sysResetCause 3 0 c

/-- Reeve operating time in ms (R405). -/
def opNow (s : State) : Nat := s.flash.opTime + (s.clock - s.power.opFrom) / 100000

/-- Save the operating time. -/
def saveOp (s : State) : State :=
  { s with flash := { s.flash with opTime := opNow s }
           power := { s.power with opFrom := s.power.opFrom + 100000 * ((s.clock - s.power.opFrom) / 100000) } }

/-- A module cold reset closes the debug scopes and makes the keys in flash usable again (R371, R376). -/
def coldKeys (s : State) : State :=
  wf { wf s K.secState 10 8 0 with keysLocked := false, mgmtKey := s.flash.mgmtKey } K.secMgmt 0 0 (b2n (!s.flash.mgmtKey.isEmpty))

/-- Module cold reset (R475, R36, R318): start-up from stage 0 with everything volatile cleared. -/
def coldReset (s : State) : State :=
  let s := dieOff s
  let keep := fun (e : Nat × Word) => factoryKey e.1 || flashKey e.1 || e.1 == K.sysResetCause
  let s := { s with
    regs := s.regs.filter keep, staged := [], mtime := 0, lastSample := 0, everClaimed := false
    hosts := [{}, {}], ptp := [none, none], orphans := []
    power := { opFrom := s.power.opFrom, restarts := s.power.restarts, brake := s.power.brake, energy := 0 }
    tray := { hs := .standby, stageFrom := s.clock, eject := s.tray.eject, coldStart := true, present := s.tray.present
              vin := s.tray.vin, timeout := s.tray.timeout, locate := s.tray.locate, faults := s.tray.faults
              drivers := s.tray.drivers, inputFaultDue := s.tray.inputFaultDue, lastUnclean := s.tray.lastUnclean } }
  let s := ((List.range 64).map K.fenceRid).foldl (fun s k => wrStaged s k (rd s k)) s
  let s := coldKeys s
  setSys (showUnclean (setCause (retarget (setBit s K.pwrState 0 (decide (s.power.brake ≠ 0)))) 3)) 0

/-! ### Stages (R470-R474) -/

/-- Begin a stage. -/
def beginStage (s : State) (n : Nat) : State := { s with tray := { s.tray with stage := n, stageFrom := s.clock } }

/-- Milliseconds since a moment. -/
def msSince (s : State) (t : Nat) : Nat := (s.clock - t) / 100000

/-- The rails stage. -/
def beginRails (s : State) : State :=
  beginStage { s with tray := { s.tray with heater := false, readyFrom := s.clock } } 2

/-- STARTING: pre-heat if a stack reads below 0 C, otherwise the rails stage (R474). The record of the last unclean removal
will be told after the first claim (R465). -/
def beginStart (s : State) (cold : Bool) : State :=
  let s := setSys (setHs s .starting) 0
  let due := (s.faultLog.reverse.find? fun r => r.kind == 1 && !r.acked).map fun r => (num r.bytes 0x28 8, num r.bytes 0x10 8)
  let s := { s with tray := { s.tray with
    coldStart := false, stopStart := false, wasClosed := false, lastUnclean := none, uncleanDue := due } }
  if cold then beginStage { s with tray := { s.tray with heater := true } } 1 else beginRails (wr s K.calStartPreheat 0)

/-- The tray is DRAINED: the die rails are down (R461, R462). -/
def toDrained (s : State) : State :=
  let s := setHs (dieOff s) .drained
  setSys { s with tray := { s.tray with stopStart := false, wasClosed := s.tray.eject, openFrom := s.clock } } 4

/-- A stage has ended: DRAINED if the lever has opened meanwhile (R461, R474). -/
def nextStage (s : State) (f : State → State) : State := if s.tray.stopStart then toDrained s else f s

/-- FAULT (R461, R473): die rails down. -/
def toFault (s : State) : State := setSys (setHs (dieOff s) .fault) 6

/-- A start-up failure (R473): its record, FAULT, and the retry 10 s later. -/
def startFault (s : State) (kind code detail : Nat) : State :=
  let s := toFault (writeRecord s kind code detail)
  { s with tray := { s.tray with faults := s.tray.faults + 1, faultFrom := some s.clock } }

/-- The user calibration set in flash (R482): the newest record that verifies. -/
def newestCal (l : List (Nat × List Nat)) : Option (Nat × List Nat) :=
  l.foldl (fun b r => match b with
    | some x => if x.1 < r.1 then some r else some x
    | none => some r) none

/-- Load the user calibration (R482). -/
def loadCal (s : State) : State :=
  let set := fun (s : State) (ws : List Nat) =>
    ([K.calUsrTofs, K.calUsrPgain, K.calUsrGuard].zip ws).foldl (fun s e => wrStaged (wr s e.1 e.2) e.1 e.2) s
  match newestCal s.flash.cal with
  | some r => setBit (set s r.2) K.calState 1 false
  | none => setBit (set s [0, 0, 0]) K.calState 1 true

/-- Whether a slot EEPROM record is valid (R457). -/
def eepromValid (b : Bytes) : Bool :=
  decide (b.length = 32) && num b 0 2 == 0x4C53 && num b 2 1 == 1 && decide (num b 3 1 < 64)
    && (sub b 0xC 19).all (· == 0) && num b 0x1F 1 == crc8 (b.take 31)

/-- Number of ones among the low n bits. -/
def ones (n v : Nat) : Nat := ((List.range n).map fun i => b2n (bit v i)).sum

/-- SYS_SLOT from the seven slot pins and the EEPROM (R456, R457). -/
def readSlot (s : State) (pins : Nat) (eeprom : Bytes) : State :=
  let ok := eepromValid eeprom
  let s := wr s K.sysSlot (pins % 64 + 2 ^ 6 * b2n (ones 7 pins % 2 == 0) + 2 ^ 7 * b2n ok)
  { s with wiring := { s.wiring with eeprom := if ok then num eeprom 3 1 else 0 } }

/-- The reeve boot ends (R470): calibration and slot are read and the management links come up; after a module cold reset
the start goes on, or ends in DRAINED with the lever open (R479). `pins` holds SLOTID and SLOTID_PAR as bit 6; `links` has
bit k for link k up and bit 2 + k for its polarity swapped; `cold` tells that a stack reads below 0 C. -/
def reeveBootDone (pins : Nat) (eeprom : Bytes) (links : Nat) (cold : Bool) (s : State) : State :=
  if s.tray.hs ≠ .standby || s.tray.booted then s
  else
    let s := showUnclean (readSlot (loadCal s) pins eeprom)
    let s := mgmtLinkChange 1 (bit links 1) (bit links 3) (mgmtLinkChange 0 (bit links 0) (bit links 2) s)
    let s := { s with tray := { s.tray with booted := true } }
    if s.tray.coldStart && s.tray.present then (if s.tray.eject then toDrained s else beginStart s cold) else s

def execReeveBootDone (pins : Nat) (eeprom : Bytes) (links : Nat) (cold : Bool) (s : State) :
    Host.Outcome State Fault Refusal := .next (reeveBootDone pins eeprom links cold s)

/-- Whether start-up runs a stage. -/
def inStage (s : State) (n : Nat) : Bool := s.tray.hs = .starting && s.tray.stage == n

/-- Pre-heat ends (R472, R474). -/
def execPreheatDone (s : State) : Host.Outcome State Fault Refusal :=
  .next (if inStage s 1 then beginRails (wr s K.calStartPreheat (msSince s s.tray.stageFrom)) else s)

/-- Pre-heat has run for 300 s (R472, R473). -/
def execPreheatFail (s : State) : Host.Outcome State Fault Refusal :=
  .next (if inStage s 1 && decide (s.tray.stageFrom + usCycles 300000000 ≤ s.clock) then startFault s 6 ePreheatFail 1 else s)

/-- The image to boot (R360): the other one on trial if NEXT is set, else ACTIVE. -/
def chooseImage (s : State) : State :=
  let trial := bit (rd s K.secState) 1
  let active := rf s K.secState 0 0
  { s with tray := { s.tray with image := if trial then 1 - active else active, trial := trial, abandoned := false } }

/-- The BOOT stage. -/
def beginBoot (s : State) : State := setSys (beginStage { s with tray := { s.tray with bootFrom := s.clock } } 3) 0

/-- The die's clocks as a start or a reset of the die leaves them: every PLL locked, every field at 0.4 GHz and point 0 plus G
(R59, R60, R470). -/
def startClocks (s : State) : State :=
  fieldList.foldl (fun s f =>
    let s := setBit (showClock s f 16 (railMv s f 16) false) (K.fieldState f) 0 true
    setFctl s f { fctl s f with target := 16, want := 16, volt := railMv s f 16 }) (wr s K.clkLock 0x7FFF)

/-- The rails are up and the PLLs locked (R470). -/
def railsDone (s : State) : State :=
  if !inStage s 2 then s
  else
    let s := { s with tray := { s.tray with rails := true } }
    nextStage (startClocks s) fun s => beginBoot (chooseImage s)

def execRailsDone (s : State) : Host.Outcome State Fault Refusal := .next (railsDone s)

/-- A rail is not in regulation in time (R473). -/
def execRailFail (s : State) : Host.Outcome State Fault Refusal :=
  .next (if inStage s 2 then startFault s 6 eRailFail 2 else s)

/-- BOOT runs: at start-up or within a die warm reset. -/
def booting (s : State) : Bool := (s.tray.hs = .starting || s.tray.warmBoot) && s.tray.stage == 3

/-- The LINKS stage: the ports may train (R470, R471). -/
def beginLinks (s : State) : State :=
  let s := setSys (beginStage s 5) 2
  { s with ports := s.ports.map fun p => { p with since := max p.since s.clock } }

/-- The SVN of image 0 (A) or 1 (B), and F, the blown fuses (R359). -/
def svnOf (s : State) (img : Nat) : Nat := if img = 0 then rf s K.secSvn 14 8 else rf s K.secSvn 22 16
def fuses (s : State) : Nat := rf s K.secSvn 6 0

/-- Whether the image to boot may run: it is valid, and its SVN is not below F (R358-R360). -/
def bootable (s : State) : Bool := bit (rd s K.secState) (3 + s.tray.image) && decide (fuses s ≤ svnOf s s.tray.image)

/-- Service firmware runs; with every stack trained BIST starts, or LINKS in a warm reset; a stack that fails training
twice is a FAULT (R470, R473, R477). -/
def bootDone (trained : Bool) (s : State) : State :=
  if !booting s || !bootable s then s
  else if !trained then startFault s 6 eHbmTrain 3
  else
    let s := wr s K.calStartBoot (msSince s s.tray.bootFrom)
    let s := setBit (wr s K.sysFwver (rd s (if s.tray.image = 0 then K.secVerA else K.secVerB))) K.sysState 8 (s.tray.image == 1)
    let s := setBit s K.secState 2 s.tray.trial
    let s := { s with sec := { s.sec with measured := (fuses s, svnOf s s.tray.image, rf s K.secState 0 0) } }
    nextStage s fun s => if s.tray.warmBoot then beginLinks s else setSys (beginStage s 4) 1

def execBootDone (trained : Bool) (s : State) : Host.Outcome State Fault Refusal := .next (bootDone trained s)

/-- An image fails verification (`bad` for a stage damaged in flash), or is not READY 30 s after BOOT began (R360): it is abandoned by a watchdog reset, and the
other image is tried once. -/
def bootTimeout (bad : Bool) (s : State) : State :=
  let on := (s.tray.hs = .starting || s.tray.warmBoot) && decide (3 ≤ s.tray.stage) && decide (s.tray.stage ≤ 5)
  let bad := bad || (s.tray.stage == 3 && !bootable s)
  if !on || !(bad && s.tray.stage == 3 || decide (s.tray.bootFrom + usCycles 30000000 ≤ s.clock)) then s
  else
    let code := if bad then eSecImage else 0
    if s.tray.abandoned then setCause (startFault s 5 code s.tray.image) 5
    else
      let s := writeRecord s 5 code s.tray.image
      let s := setBit (setCause (startClocks (dieReset s true)) 5) K.secState 1 false
      let s := setBit s K.secState 2 false
      beginBoot { s with tray := { s.tray with image := 1 - s.tray.image, trial := false, abandoned := true } }

def execBootTimeout (bad : Bool) (s : State) : Host.Outcome State Fault Refusal := .next (bootTimeout bad s)

/-- BIST ends (R470, R473): failing bays are disabled; too many are a FAULT. -/
def bistDone (bad : List Nat) (s : State) : State :=
  if !inStage s 4 then s
  else
    let bad := (bad.filter (decide <| · < nBays)).dedup
    let count := fun f => (bad.filter (fieldOf · == f)).length
    let s := { s with bays := (bad.mergeSort).map fun b => (b, { off := true }) }
    let s := fieldList.foldl (fun s f => wf s (K.fieldState f) 15 8 (count f)) s
    let s := setBit (wr s K.calBistBays bad.length) K.sysState 9 (decide (bad ≠ []))
    let s := wr s K.calStartBist (msSince s s.tray.stageFrom)
    if decide (36 < bad.length) || fieldList.any (fun f => decide (8 < count f)) then startFault s 6 eBistFail 4
    else nextStage s beginLinks

def execBistDone (bad : List Nat) (s : State) : Host.Outcome State Fault Refusal := .next (bistDone bad s)

/-! ### READY (R360, R470) -/

/-- An EJECT INPUT_FAULT that waited for the links (R453). -/
def tellInputFault (s : State) : State :=
  if s.tray.inputFaultDue then
    postEject { s with tray := { s.tray with inputFaultDue := false } } 7 2 eInputVoltage
  else s

/-- READY, or FENCED if the fence state in flash is FENCED (R422, R470); a trial image becomes ACTIVE (R360). -/
def ready (s : State) : State :=
  let s := wr s K.calStartReady (msSince s s.tray.readyFrom)
  let s := if s.tray.trial then
      setBit (setBit (wf s K.secState 0 0 s.tray.image) K.secState 1 false) K.secState 2 false
    else s
  let s := if s.tray.hs = .starting then setHs s .inService else s
  let s := { s with tray := { s.tray with
    stage := 6, warmBoot := false, trial := false, abandoned := false, faults := 0, faultFrom := none } }
  setSys s (if s.flash.fenceState = 2 then 5 else if s.tray.hs = .draining then 4 else 3)

/-- The links stage ends when a port is up, or after 500 ms (R470). -/
def linksDone (s : State) : State :=
  if s.tray.stage = 5 && (s.tray.hs = .starting || s.tray.warmBoot) then nextStage s ready else s

/-- A port reaches DL_Up (R291, R310, R439, R453, R470): link is PORT_LINK as trained. -/
def dlUp (p link : Nat) (s : State) : State :=
  if 1 < p || !(port s p).released || !linksBegun s || !s.tray.rails || portUp s p then s
  else
    let s := linkUp s p link
    if portUp s p then tellInputFault (wiringCheck (linksDone s)) else s

def execDlUp (p link : Nat) (s : State) : Host.Outcome State Fault Refusal := .next (dlUp p link s)

/-- 500 ms after LINKS began (R470). -/
def execLinksTimeout (s : State) : Host.Outcome State Fault Refusal :=
  .next (if s.tray.stageFrom + usCycles 500000 ≤ s.clock then linksDone s else s)

/-- 10 s after a start-up FAULT: one module cold reset; none after the second (R473). -/
def execStartRetry (s : State) : Host.Outcome State Fault Refusal :=
  match s.tray.faultFrom with
  | some t =>
    if s.tray.hs = .fault && s.tray.faults = 1 && decide (t + usCycles 10000000 ≤ s.clock) then .next (coldReset s) else .next s
  | none => .next s

/-! ### Module resets (R477-R479) -/

/-- MODULE_RESET with a level (R478); a level above 1 is CMD_RESERVED. -/
def moduleReset (s : State) (src level : Nat) : State :=
  match nextCmd s src with
  | none => s
  | some c =>
    let l := arg c 0x10 1
    if l = level || (level = 0 && 1 < l) then
      withCmd s src 0x9C fun s c =>
        if 1 < l then finish s c eCmdReserved
        else
          let s := finish s c 0
          { s with tray := { s.tray with reset := some (l, s.clock) } }
    else s

def execModuleResetWarm (src : Nat) (s : State) : Host.Outcome State Fault Refusal := .next (moduleReset s src 0)
def execModuleResetCold (src : Nat) (s : State) : Host.Outcome State Fault Refusal := .next (moduleReset s src 1)

/-- 10 ms after MODULE_RESET the reset starts; a cold reset waits for a calibration save (R478, R479). -/
def resetStart (s : State) : State :=
  match s.tray.reset with
  | none => s
  | some (l, t) =>
    if s.clock < t + usCycles 10000 || (l = 1 && s.flash.calSaving) then s
    else
      let s := { s with tray := { s.tray with reset := none } }
      if l = 1 then coldReset s else { s with tray := { s.tray with warm := some 2 } }

def execResetStart (s : State) : Host.Outcome State Fault Refusal := .next (resetStart s)

/-- A die warm reset (R477): the die's state goes, and the module returns to READY or FENCED over the links that train, given
as PORT_LINK per port (0: none); with a trial image pending it goes on in BOOT. A reset in DRAINING ends the drain
(R479). -/
def warmReset (links : List Nat) (s : State) : State :=
  match s.tray.warm with
  | none => s
  | some cause =>
    if !s.tray.rails || !(s.tray.hs = .inService || s.tray.hs = .draining) then s
    else
      let s := setCause (startClocks (dieReset (linkDown 1 (linkDown 0 s)) true)) cause
      let s := { s with tray := { s.tray with
        hs := .inService, warm := none, warmBoot := true, readyFrom := s.clock, reset := none } }
      let s := chooseImage s
      if s.tray.trial then beginBoot s
      else (List.range 2).foldl (fun s p => dlUp p (links.getD p 0) s) (beginLinks s)

def execDieWarmReset (links : List Nat) (s : State) : Host.Outcome State Fault Refusal :=
  .next (let s := warmReset links s
         if s.tray.warmBoot && s.tray.stage == 5 then ready s else s)

/-- A MEMORY fault of the reserved range: its record and a die warm reset (R487). -/
def memoryFault (s : State) (code addr : Nat) : State :=
  let s := writeRecord s 7 code addr
  { s with tray := { s.tray with warm := some (s.tray.warm.getD 2) } }

/-- A granted read returns; the reader of a poisoned line of the reserved range is the service firmware, for every other unit
is kept out of it (R17, R486, R487). -/
def readReturned (s : State) (unit addr ecc lat : Nat) (weights : Bool) : State :=
  let t := readReturn s unit addr ecc lat weights
  let granted := decide (addr < granEnd) && mget (fun _ => 0) s.readGrants (readGrantOf unit addr weights) != 0
  if granted && decide (granReserved ≤ addr) && t.poison.contains (addr / 64) && s.tray.rails then
    memoryFault t ePoison (addr / 64 * 64)
  else t

def execGranaryReadReturn (unit addr ecc lat : Nat) (weights : Bool) (s : State) : Host.Outcome State Fault Refusal :=
  .next (readReturned s unit addr ecc lat weights)

/-! ### Calibration (R482) -/

/-- The user set is in flash: SAVING clears, or stays for a change made meanwhile. -/
def calSaveDone (s : State) : State :=
  if !s.flash.calSaving then s
  else
    let seq := match newestCal s.flash.cal with
      | some r => r.1 + 1
      | none => 0
    let keep := match newestCal s.flash.cal with
      | some r => [r]
      | none => []
    let s := { s with flash := { s.flash with
      cal := keep ++ [(seq, userSet s)], calSaving := s.flash.calAgain, calAgain := false } }
    let s := setBit (setBit s K.calState 1 false) K.calState 0 s.flash.calSaving
    wf s K.calState 31 16 (rf s K.calState 31 16 + 1)

def execCalSaveDone (s : State) : Host.Outcome State Fault Refusal := .next (calSaveDone s)

/-! ### Thermal shutdown and restart (R405) -/

/-- What calls for a thermal shutdown: SOURCE and temperature. -/
def thermalCause (s : State) : Option (Nat × Nat) :=
  let junction := fieldList.find? fun f => (fctl s f).hot != 0
  let stack := (List.range 4).find? fun k => match s.power.hbmHot.getD k none with
    | some t => decide (t + usCycles 10000000 ≤ s.clock)
    | none => false
  if s.power.hotTwice then junction.map fun f => (f, rf s (K.thmTj f) 15 0)
  else stack.map fun k => (8 + k, rf s (K.thmHbm k) 15 0)

/-- Thermal restarts of the last 24 hours of operating time (R405). -/
def recentRestarts (s : State) : List Nat := s.power.restarts.filter fun r => decide (opNow s < r + 86400000)

/-- A thermal shutdown; after the third restart in 24 hours the module stays in FAULT until standby power is removed (R405). -/
def thermalShutdown (s : State) : State :=
  match thermalCause s with
  | none => s
  | some (source, temp) =>
    if !s.tray.rails then s
    else
      let s := writeRecord (postThermal s 14 source eThermalShutdown temp) 4 eThermalShutdown (source + 2 ^ 16 * temp)
      let s := toFault s
      { s with power := { s.power with shutAt := if 3 ≤ (recentRestarts s).length then none else some s.clock } }

def execThermalShutdown (s : State) : Host.Outcome State Fault Refusal := .next (thermalShutdown s)

/-- A thermal restart: every sensor at or below 70 C, 60 s gone by, and fewer than three restarts in the last 24 hours of
operating time; temps are the readings of every junction and HBM sensor in 1/16 C. -/
def thermalRestart (temps : List Int) (s : State) : State :=
  match s.power.shutAt with
  | none => s
  | some t =>
    let op := opNow s
    let recent := recentRestarts s
    if s.tray.hs ≠ .fault || decide (s.clock < t + usCycles 60000000) || !temps.all (fun x => decide (x ≤ 1120))
        || decide (3 ≤ recent.length) then s
    else
      let s := saveOp s
      coldReset { s with power := { s.power with restarts := recent ++ [op], shutAt := none } }

def execThermalRestart (temps : List Int) (s : State) : Host.Outcome State Fault Refusal := .next (thermalRestart temps s)

/-- Every 10 s the operating time is saved. -/
def execOperatingTimeSave (s : State) : Host.Outcome State Fault Refusal :=
  .next (if s.tray.hs ≠ .unpowered && decide (s.power.opFrom + usCycles 10000000 ≤ s.clock) then saveOp s else s)

end Sys2Proof.Machine
end

