-- ==== Sys2Proof/Machine/Tray.lean ====
section
/-! DEFINITION. The tray (R453-R468): standby power, the input monitor, seating and removal, the lever, the drain and its
commands, and the LED lines. -/

namespace Sys2Proof.Machine

/-! ### LEDs (R460) -/

/-- How an LED shines: off, on, blinking at 1 Hz or at 4 Hz. -/
inductive Led where
  | off | on | blink | fast
deriving DecidableEq, Repr

/-- Green, amber and blue LED of the tray front (R460). -/
def leds (s : State) : Led × Led × Led :=
  let fenced := fenceState s == 2
  let amber := fun (a : Led) => if s.tray.locate then .fast else a
  match s.tray.hs with
  | .unpowered => (.off, .off, .off)
  | .standby => (.blink, amber .off, .off)
  | .starting => (.fast, amber .off, .off)
  | .inService => (.on, amber (if fenced then .blink else .off), .off)
  | .draining => (.on, amber (if fenced then .blink else .off), .blink)
  | .drained => (.off, amber .off, .on)
  | .quenching => (.off, .on, .off)
  | .fault => (.off, .on, .on)

/-! ### Standby power (R461, R470) -/

/-- Everything volatile goes with standby power; fuses, flash and the fault log stay (R475). -/
def standbyLost (s : State) : State :=
  let keep := fun (e : Nat × Word) => factoryKey e.1 || flashKey e.1
  reloadFence
  { pending := s.pending, free := s.free, nextId := s.nextId, out := s.out
    regs := s.regs.filter keep, faultLog := s.faultLog, faultSeq := s.faultSeq
    flash := { s.flash with calSaving := false, calAgain := false }, joinWait := s.joinWait
    tray := { timeout := s.tray.timeout, eject := s.tray.eject }, power := { restarts := s.power.restarts } }

/-- Input or hold-up reaches 18 V: the reeve boots, as after a power-on (R461, R470, R57). -/
def execStandbyPower (s : State) : Host.Outcome State Fault Refusal :=
  .next (if s.tray.hs = .unpowered then
    let s := ((List.range 64).map K.fenceRid).foldl (fun s k => wrStaged s k (rd s k)) s
    setCause (setHs (coldKeys { s with poison := retiredLines s }) .standby) 0
  else s)

/-- Input and hold-up are gone (R461). -/
def execStandbyLoss (s : State) : Host.Outcome State Fault Refusal := .next (standbyLost s)

/-! ### Quench (R453, R464, R466) -/

/-- The die's quench begins with a record captured: QUENCHING. -/
def startQuench (s : State) (kind code : Nat) : State :=
  let r := draftRecord s kind code s.tray.vin
  let s := setHs (dieOff s) .quenching
  { s with tray := { s.tray with drafts := s.tray.drafts ++ [r], highFrom := none, stopStart := false } }

/-- Rails are down and the record committed (R461, R464); input tells whether the input remains. -/
def quenchDone (input : Bool) (s : State) : State :=
  if s.tray.hs ≠ .quenching then s
  else
    let s := s.tray.drafts.foldl (fun s r =>
      let s := if r.kind = 1 then { s with tray := { s.tray with lastUnclean := some s.faultSeq } } else s
      commitRecord s r) s
    let s := setHs { s with tray := { s.tray with drafts := [] } } .standby
    if input then s else standbyLost s

def execQuenchDone (input : Bool) (s : State) : Host.Outcome State Fault Refusal := .next (quenchDone input s)

/-! ### Input monitor (R453) -/

/-- States whose die may be quenched. -/
def seated (s : State) : Bool := [.starting, .inService, .draining].contains s.tray.hs

/-- The input rises above 60 V and not above 64 V (R453). -/
def inputHigh (mv : Nat) (s : State) : State :=
  if s.tray.hs = .unpowered || mv ≤ 60000 || 64000 < mv then s
  else
    let s := { s with tray := { s.tray with vin := mv, highFrom := some (s.tray.highFrom.getD s.clock) } }
    if s.tray.rails then postEject s 7 2 eInputVoltage else s

def execInputHigh (mv : Nat) (s : State) : Host.Outcome State Fault Refusal := .next (inputHigh mv s)

/-- The quench of an input fault, reported when the links return. -/
def inputQuench (s : State) : State :=
  let s := startQuench s 2 eInputVoltage
  { s with tray := { s.tray with inputFaultDue := true } }

/-- The input has been above 60 V for 1 s (R453). -/
def execInputHighTimeout (s : State) : Host.Outcome State Fault Refusal :=
  match s.tray.highFrom with
  | some t => if s.tray.rails && seated s && decide (t + usCycles 1000000 ≤ s.clock) then .next (inputQuench s) else .next s
  | none => .next s

/-- The input is above 64 V for 10 us or below 38 V for 100 us with the die powered (R453, R466). -/
def execInputFault (mv : Nat) (s : State) : Host.Outcome State Fault Refusal :=
  if s.tray.rails && seated s && (decide (64000 < mv) || decide (mv < 38000)) then
    .next (inputQuench { s with tray := { s.tray with vin := mv } })
  else .next s

/-- The input is back within 40-60 V for 1 s: a module cold reset (R453). -/
def execInputReturn (mv : Nat) (s : State) : Host.Outcome State Fault Refusal :=
  if s.tray.inputFaultDue && s.tray.hs = .standby && decide (40000 ≤ mv) && decide (mv ≤ 60000) then
    .next (coldReset { s with tray := { s.tray with vin := mv } })
  else .next s

/-! ### Seating and removal (R461, R464-R466) -/

/-- PRSNT_EARLY# has been made for 100 ms with valid input (R461); the record of a removal that was undone is marked
RESEATED (R466). After an input fault the module cold reset comes first (R453). -/
def prsntMade (cold : Bool) (s : State) : State :=
  if s.tray.hs = .unpowered then s
  else
    let s := { s with tray := { s.tray with present := true } }
    if s.tray.hs ≠ .standby then s
    else
      let s := match s.tray.lastUnclean with
        | some q => flagSeq { s with tray := { s.tray with lastUnclean := none } } q 2 false
        | none => s
      if s.tray.booted && !s.tray.eject && (!s.tray.inputFaultDue || s.tray.coldStart) then beginStart s cold else s

def execPrsntEarlyMade (cold : Bool) (s : State) : Host.Outcome State Fault Refusal := .next (prsntMade cold s)

/-- An INPUT_LOSS record that a withdrawal turns into an UNCLEAN one with ORDER (R466). -/
def orderLost (r : FaultRec) : FaultRec :=
  if r.kind = 2 then
    flagDraft { r with kind := 1, bytes := patch (patch r.bytes 4 (toLE 1 1)) 0x18 (toLE 2 eTrayUnclean) } 1
  else r

/-- PRSNT_EARLY# is high for 2 us (R464): an unclean removal while the die is powered; a quench that the input began is of
kind UNCLEAN with ORDER (R466). -/
def prsntBreak (s : State) : State :=
  let s := { s with tray := { s.tray with present := false } }
  if seated s then startQuench s 1 eTrayUnclean
  else if s.tray.hs = .quenching then
    { s with tray := { s.tray with inputFaultDue := false, drafts := s.tray.drafts.map orderLost } }
  else s

def execPrsntEarlyBreak (s : State) : Host.Outcome State Fault Refusal :=
  .next (if s.tray.hs = .unpowered then s else prsntBreak s)

/-! ### Drain (R458, R459, R461-R463) -/

/-- The moment of MTIME at which the drain times out. -/
def drainDeadline (s : State) : Nat := now s + 1000000000 * s.tray.timeout

/-- DRAINING begins (R462). -/
def startTrayDrain (s : State) (source : Nat) : State :=
  let s := setSys (setHs s .draining) 4
  let s := { s with tray := { s.tray with drainBy := s.clock + usCycles (1000000 * s.tray.timeout), drainSrc := source } }
  postEject s 1 source 0 (drainDeadline s)

/-- The deadline of the drain under way. -/
def presentDeadline (s : State) : Nat := now s + 10 * (s.tray.drainBy - s.clock)

/-- EJECT_REQ is recognised closed or open (R458, R461, R462). -/
def ejectReq (closed : Bool) (s : State) : State :=
  if s.tray.hs = .unpowered then s
  else
    let s := { s with tray := { s.tray with
      eject := closed, openFrom := if closed then s.tray.openFrom else s.clock
      wasClosed := s.tray.wasClosed || closed } }
    match s.tray.hs, closed with
    | .inService, true => startTrayDrain s 0
    | .draining, true => postEject s 1 0 0 (presentDeadline s)
    | .draining, false => postEject s 4 0 0
    | .starting, true =>
      if s.tray.stage = 1 then toDrained s else { s with tray := { s.tray with stopStart := true } }
    | _, _ => s

def execEjectReq (closed : Bool) (s : State) : Host.Outcome State Fault Refusal := .next (ejectReq closed s)

/-- In DRAINED, EJECT_REQ has closed and then stayed open for 2 s: STARTING (R461). -/
def leverOpen (cold : Bool) (s : State) : State :=
  if s.tray.hs = .drained && s.tray.wasClosed && !s.tray.eject && decide (s.tray.openFrom + usCycles 2000000 ≤ s.clock) then
    beginStart s cold
  else s

def execLeverOpen (cold : Bool) (s : State) : Host.Outcome State Fault Refusal := .next (leverOpen cold s)

/-- TRAY_CFG (R459). -/
def trayCfg (s : State) (c : Cmd) : State :=
  let t := arg c 0x10 2
  if t < 1 || 600 < t then finish s c eCmdReserved
  else finish { s with tray := { s.tray with timeout := t, locate := bit (arg c 0x12 1) 0 } } c 0

def execTrayCfg (src : Nat) (s : State) : Host.Outcome State Fault Refusal := .next (withCmd s src 0x98 trayCfg)

/-- TRAY_REMOVE (R459). -/
def execTrayRemove (src : Nat) (s : State) : Host.Outcome State Fault Refusal :=
  .next (withCmd s src 0x99 fun s c => finish (if s.tray.hs = .inService then startTrayDrain s 1 else s) c 0)

/-- TRAY_RESUME (R459, R461): back in service. -/
def trayResume (s : State) (c : Cmd) : State :=
  if s.tray.hs ≠ .draining then finish s c 0
  else
    let s := setSys (setHs s .inService) (if fenceState s = 2 then 5 else 3)
    finish (postEject s 5 3 0) c 0

def execTrayResume (src : Nat) (s : State) : Host.Outcome State Fault Refusal := .next (withCmd s src 0x9A trayResume)

/-- The tray drain is complete (R462): MF and every enabled tenant meet R312 and no host bent is ARMED. -/
def trayDrained (s : State) : Bool :=
  (allLive s).all (drained s) && s.slots.all fun e => !(e.2.st == .armed && decide (e.2.owner ≤ 8))

/-- The shutdown of R462: DRAINED is posted, the clean-removal record written, and the die quenched. -/
def shutDown (s : State) : State :=
  toDrained (writeRecord (postEject s 3 s.tray.drainSrc 0) 3 0 0)

def execDrained (s : State) : Host.Outcome State Fault Refusal :=
  .next (if s.tray.hs = .draining && trayDrained s then shutDown s else s)

/-- Steps 2 to 5 of R313 for a function, without scrubbing (R463). -/
def endFunction (s : State) (f : Nat) : State :=
  let s := (baysOf (cancelSeqs s f) f).foldl stopBay (cancelSeqs s f)
  closeVideo ((wainsOf s f).foldl (fun s c => abortWain s c eWainAborted) s) f

/-- The drain's deadline passes (R463): the remaining work ends and the module shuts down. -/
def trayTimeout (s : State) : State :=
  if s.tray.hs ≠ .draining || decide (s.clock < s.tray.drainBy) then s
  else
    let s := writeRecord (postEject s 2 s.tray.drainSrc eDrainTimeout) 8 eDrainTimeout 0
    shutDown ((allLive s).foldl endFunction s)

def execDrainTimeout (s : State) : Host.Outcome State Fault Refusal := .next (trayTimeout s)

/-! ### LED lines (R467) -/

/-- A line reads other than driven for 10 ms: its driver is off for 1 s. -/
def ledLine (line : Nat) (s : State) : State :=
  if s.tray.hs = .unpowered || 1 < line || (s.tray.drivers.getD line none).isSome then s
  else
    let s := { s with tray := { s.tray with drivers := s.tray.drivers.set line (some s.clock) } }
    emit (postEject s 8 4 eLedLine) (.pin line 0)

def execLedLine (line : Nat) (s : State) : Host.Outcome State Fault Refusal := .next (ledLine line s)

/-- After 1 s the driver is tried again. -/
def ledRetry (line : Nat) (s : State) : State :=
  match s.tray.drivers.getD line none with
  | some t =>
    if t + usCycles 1000000 ≤ s.clock then
      emit { s with tray := { s.tray with drivers := s.tray.drivers.set line none } } (.pin line 1)
    else s
  | none => s

def execLedRetry (line : Nat) (s : State) : Host.Outcome State Fault Refusal := .next (ledRetry line s)

end Sys2Proof.Machine
end

