-- ==== Sys2Proof/Machine/Security.lean ====
section
/-! DEFINITION. The security services: firmware updates (R361, R362), device sets and the management key (R369-R371), weight
bundles and jobs (R372-R375), debug unlock (R376) and the end of a scrub (R377, R488, R489). -/

namespace Sys2Proof.Machine

/-! ### Firmware (R361, R362) -/

/-- The SVN, version and valid-bit places of image 0 (A) or 1 (B). -/
def setSvn (s : State) (img v : Nat) : State := if img = 0 then wf s K.secSvn 14 8 v else wf s K.secSvn 22 16 v
def setImageOk (s : State) (img : Nat) (ok : Bool) : State := setBit s K.secState (3 + img) ok
def setImageVer (s : State) (img v : Nat) : State := wr s (if img = 0 then K.secVerA else K.secVerB) v

/-- Whether an image verifies (R358, R359): every stage is signed by the key whose digest is fused, and its SVN is not below F. -/
def imageOk (s : State) (i : Image) : Bool :=
  (i.stages.all fun x => Config.sha384 x.key == Config.signingKey && Config.ecdsaVerify x.key (Config.sha384 x.text) x.sig)
    && decide (fuses s ≤ i.svn) && decide (i.svn ≤ 64)

/-- The slot beside the ACTIVE one (R361). -/
def inactive (s : State) : Nat := 1 - rf s K.secState 0 0

/-- An update command runs alone (R361). -/
def updating (s : State) (c : Cmd) (f : State → State) : State := if s.sec.fwWrite.isSome then finish s c eSecBusy else f s

/-- FW_WRITE: the inactive slot is written; it is not valid before it has been verified. While the running image is the one in that
slot, after a fallback boot, nothing is written (R361; notes/assumptions/192). -/
def execFwWrite (src : Nat) (s : State) : Host.Outcome State Fault Refusal :=
  .next (withCmd s src 0xA0 fun s c => updating s c fun s =>
    if !allocatable (arg c 0x10 8) (arg c 0x18 8) then finish s c eMemRange
    else if s.tray.image = inactive s then finish s c eSecImage
    else setImageOk { s with sec := { s.sec with fwWrite := some (c.id, arg c 0x10 8, arg c 0x18 8) } } (inactive s) false)

/-- The write and the verification end (R358, R359, R361). -/
def fwWriteDone (s : State) : State :=
  match s.sec.fwWrite with
  | none => s
  | some (id, a, n) =>
    let img := inactive s
    let bs := gread s a n
    let head := Config.image bs
    let good := imageOk s head && !poisonedIn s a n
    let s := { s with sec := { s.sec with fwWrite := none } }
    if !good then finishId s id eSecImage
    else
      let s := { s with flash := { s.flash with images := s.flash.images.set img (Config.sha384 bs) } }
      finishId (setImageOk (setImageVer (setSvn s img (head.svn % 128)) img (head.ver % 2 ^ 32)) img true) id 0

def execFwWriteDone (s : State) : Host.Outcome State Fault Refusal := .next (fwWriteDone s)

/-- FW_ACTIVATE (R361). -/
def execFwActivate (src : Nat) (s : State) : Host.Outcome State Fault Refusal :=
  .next (withCmd s src 0xA1 fun s c => updating s c fun s =>
    if !bit (rd s K.secState) (3 + inactive s) then finish s c eSecImage else finish (setBit s K.secState 1 true) c 0)

/-- FW_SVN_COMMIT (R362). -/
def svnCommit (s : State) (c : Cmd) : State :=
  let run := s.tray.image
  let f := max (fuses s) (svnOf s run)
  let behind := decide (svnOf s (1 - run) < f)
  if bit (rd s K.secState) 2 || (behind && arg c 0x10 1 % 2 = 0) then finish s c eSecRollback
  else
    let s := wf s K.secSvn 6 0 f
    finish (if behind then setImageOk s (1 - run) false else s) c 0 f

def execFwSvnCommit (src : Nat) (s : State) : Host.Outcome State Fault Refusal :=
  .next (withCmd s src 0xA2 fun s c => updating s c fun s => svnCommit s c)

/-! ### Device sets and the management key (R369-R371) -/

/-- The info string of a key's derivation (R370): "LQM-9640 set" or "LQM-9640 mgmt". -/
def keyInfo (mgmt : Bool) : Bytes :=
  let text := if mgmt then "LQM-9640 mgmt" else "LQM-9640 set"
  text.toList.map fun ch => BitVec.ofNat 8 ch.toNat

/-- The key an install record holds, if it is meant for this module and authentic (R370). -/
def unwrapRecord (s : State) (r : Bytes) : Option Bytes :=
  let q := sub r 0x10 97
  let id := num r 0 8
  if num r 8 8 ≠ rd64 s K.sysSerialLo || num q 0 1 ≠ 4 || !Config.onCurve q then none
  else
    let kek := Config.hkdf (toLE 8 id) (Config.ecdh q) (keyInfo (id == 0)) 32
    Config.gcmDec kek (sub r 0x74 12) (sub r 0 0x74) (sub r 0x80 32) (sub r 0xA0 16)

/-- The set key of a SET_ID, while it may be used (R369, R376). -/
def setKey (s : State) (id : Nat) : Option Bytes :=
  if s.keysLocked then none
  else s.flash.sets.findSome? fun e => match e with
    | some (i, k) => if i = id then some k else none
    | none => none

/-- The store that holds a set, else the lowest empty one of the 16. -/
def setStore (s : State) (id : Nat) : Option Nat :=
  let at' := fun n => (s.flash.sets.getD n none).map (·.1)
  match (List.range 16).find? fun n => at' n == some id with
  | some n => some n
  | none => (List.range 16).find? fun n => at' n == none

/-- Replace store n, and show it in SEC_SETS. -/
def putSet (s : State) (n : Nat) (v : Option (Nat × Bytes)) : State :=
  let l := (s.flash.sets ++ List.replicate (16 - s.flash.sets.length) none).set n v
  setBit { s with flash := { s.flash with sets := l } } K.secSets n v.isSome

/-- An install command: its record is read and unwrapped, its SET_ID being zero only for the management key. -/
def install (s : State) (c : Cmd) (mgmt : Bool) (f : State → Nat → Bytes → State) : State :=
  let a := arg c 0x10 8
  if !allocatable a 192 then finish s c eMemRange
  else if poisonedIn s a 192 then finish s c ePoison
  else
    let r := gread s a 192
    if (num r 0 8 == 0) != mgmt || num r 0x71 3 ≠ 0 || num r 0xB0 16 ≠ 0 then finish s c eCmdReserved
    else match unwrapRecord s r with
      | none => finish s c eAuthFail
      | some k => f s (num r 0 8) k

/-- SET_INSTALL (R369, R370). -/
def execSetInstall (src : Nat) (s : State) : Host.Outcome State Fault Refusal :=
  .next (withCmd s src 0xA3 fun s c => install s c false fun s id k =>
    match setStore s id with
    | none => finish s c eSecBusy
    | some n => finish (putSet s n (some (id, k))) c 0)

/-- SET_REMOVE (R369); a set that is not held is SEC_NO_SET. -/
def execSetRemove (src : Nat) (s : State) : Host.Outcome State Fault Refusal :=
  .next (withCmd s src 0xA4 fun s c =>
    let id := arg c 0x10 8
    match (List.range 16).find? fun n => (s.flash.sets.getD n none).map (·.1) == some id with
    | none => finish s c eSecNoSet
    | some n => finish (putSet s n none) c 0)

/-- MGMT_KEY_INSTALL (R371). -/
def execMgmtKeyInstall (src : Nat) (s : State) : Host.Outcome State Fault Refusal :=
  .next (withCmd s src 0xA5 fun s c => install s c true fun s _ k =>
    let s := { s with flash := { s.flash with mgmtKey := k } }
    let s := if s.keysLocked then s else setBit { s with mgmtKey := k } K.secMgmt 0 true
    finish s c 0)

/-! ### Debug (R376) -/

/-- The debug nonce as SEC_DBG_CHAL holds it. -/
def debugNonce (s : State) : Bytes := (List.range 8).flatMap fun i => toLE 4 (rd s (K.secDbgChal i))

/-- Draw a fresh debug nonce. -/
def freshNonce (s : State) : State :=
  (List.range 8).foldl (fun s i => let (v, s) := draw s; wr s (K.secDbgChal i) (v % 2 ^ 32)) s

/-- Whether a token is right: serial, nonce and signature (R376; packed, notes/assumptions/19). -/
def tokenOk (s : State) (t : Bytes) : Bool :=
  num t 0 8 == rd64 s K.sysSerialLo && decide (sub t 8 32 = debugNonce s)
    && Config.ecdsaVerify Config.debugKey (Config.sha384 (sub t 0 41)) (sub t 41 96)

/-- Disable a tenant as FUNC_DISABLE KILL does; an enable under way stops (R311). -/
def killNow (s : State) (f : Nat) : State :=
  let st := funcState s f
  if st = 1 then
    let s := match (tenant s f).enableCmd with
      | some id => finishId (setTenant s f { tenant s f with enableCmd := none }) id eFuncDisabling
      | none => s
    startKill s f 2 false
  else if st = 2 || st = 3 then startKill s f 2 false
  else s

/-- DEBUG_UNLOCK: confidential tenants are disabled first; the scopes open once they are (R376). -/
def debugUnlock (s : State) (c : Cmd) : State :=
  let a := arg c 0x10 8
  if !allocatable a 137 then finish (freshNonce s) c eMemRange
  else
    let t := gread s a 137
    let ok := tokenOk s t && !poisonedIn s a 137
    let s := freshNonce s
    if !ok then finish s c eSecDebug
    else
      let s := { s with sec := { s.sec with unlocks := s.sec.unlocks ++ [(c.id, num t 40 1 % 8)] } }
      let s := ((List.range 8).map (· + 1)).foldl (fun s f =>
        if bit (rd s (K.funcState (f - 1))) 8 then killNow s f else s) s
      openScopes s

def execDebugUnlock (src : Nat) (s : State) : Host.Outcome State Fault Refusal := .next (withCmd s src 0xA6 debugUnlock)

/-! ### Bundles (R372-R375) -/

/-- Source bytes of an image with a header (R372). -/
def imageLen (h : Bytes) : Nat :=
  let n := num h 0x10 8
  if bit (num h 6 2) 0 then 512 + n + 16 * (n / 4096) else 512 + n

/-- Whether a header is well formed (R372). -/
def headerOk (s : State) (h : Bytes) : Bool :=
  let flags := num h 6 2
  let sects := num h 0x60 2
  let sect := fun i => sub h (0x80 + 16 * i) 16
  num h 0 4 == 0x4C514231 && num h 4 2 == 1 && decide (flags < 4) && num h 0x10 8 % 4096 == 0
    && decide (num h 0x2C 4 ≤ rd s K.sysFwver) && decide (1 ≤ sects) && decide (sects ≤ 16)
    && (sub h 0x62 30).all (· == 0) && (sub h 0x180 128).all (· == 0)
    && ((List.range 16).all fun i =>
      let e := sect i
      if i < sects then decide (1 ≤ num e 0 1) && decide (num e 0 1 ≤ 4) && num e 1 7 == 0 && num e 8 8 % 4096 == 0
      else e.all (· == 0))
    && ((List.range sects).map fun i => num (sect i) 8 8).sum == num h 0x10 8
    && (bit flags 0 || (sub h 0x20 12 ++ sub h 0x30 48).all (· == 0))

/-- The key of the tenant slot that BUNDLE_LOAD names, of BUNDLE usage (R367). -/
def bundleSlotKey (s : State) (f k : Nat) : Option Bytes :=
  if f = 0 || 8 ≤ k then none
  else (s.keySlots.find? fun e => e.1 == 8 * (f - 1) + k && bit e.2.1 1).map (·.2.2)

/-- The bundle key that a wrapping key opens (R372). -/
def unwrapBundle (kek h : Bytes) : Option Bytes :=
  Config.gcmDec kek (sub h 0x20 12) (sub h 0 0x30 ++ sub h 0x60 0x1A0) (sub h 0x30 32) (sub h 0x50 16)

/-- The checks of R374 before any frame, in their order: a code, or the bundle key of an encrypted bundle. -/
def loadCheck (s : State) (f : Nat) (c : Cmd) (h : Bytes) : Except Nat (Option Bytes) :=
  let src := arg c 0x18 8
  let n := arg c 0x20 8
  let dest := arg c 0x28 8
  let len := num h 0x10 8
  let enc := bit (num h 6 2) 0
  if !ownsRange s f src n || !ownsRange s f dest len || overlap src n dest len then .error eWainRegion
  else if !headerOk s h || n < imageLen h || (bundle? s f (arg c 0x10 1)).isSome then .error eSecBundle
  else if f ≠ 0 && bit (rd s (K.funcState (f - 1))) 8 && !enc then .error eConfViolation
  else if !enc then .ok none
  else
    let set := bit (num h 6 2) 1
    match (if set then setKey s (num h 8 8) else bundleSlotKey s f (arg c 0x11 1)) with
    | none => .error (if set then eSecNoSet else eWainKey)
    | some kek => match unwrapBundle kek h with
      | none => .error eAuthFail
      | some k => .ok (some k)

/-- A refused load: the destination is scrubbed where it is the function's own (R374). -/
def refuseLoad (s : State) (f id dest len code : Nat) : State :=
  let s := if ownsRange s f dest len && len ≠ 0 then { s with sec := { s.sec with scrubs := s.sec.scrubs ++ [(dest, len, none)] } } else s
  finishId s id code

/-- BUNDLE_LOAD starts once no other load runs and no earlier one waits (R374). -/
def bundleLoad (s : State) (c : Cmd) : State :=
  let f := cmdFunc c
  if 16 ≤ arg c 0x10 1 || arg c 0x28 8 % 4096 ≠ 0 then finish s c eCmdReserved
  else
    let src := arg c 0x18 8
    let h := if allocatable src 512 then gread s src 512 else List.replicate 512 0
    match loadCheck s f c h with
    | .error code => refuseLoad s f c.id (arg c 0x28 8) (num h 0x10 8) code
    | .ok k => { s with sec := { s.sec with load := some {
        cmd := c.id, func := f, num := arg c 0x10 1, src := src, dest := arg c 0x28 8, header := h, key := k } } }

/-- Whether a fetched BUNDLE_LOAD may begin: loads run one at a time, in fetch order (R374). -/
def loadTurn (s : State) (src : Nat) : Bool :=
  s.sec.load.isNone && match nextCmd s src with
    | some c => !(s.cmds.any fun d => cmdOp d == 0x20 && !d.started && decide (d.id < c.id))
    | none => false

def execBundleLoad (src : Nat) (s : State) : Host.Outcome State Fault Refusal :=
  .next (if loadTurn s src then withCmd s src 0x20 bundleLoad else s)

/-- Frame i of an encrypted body (R352, R372). -/
def bundleFrame (s : State) (j : LoadJob) (k : Bytes) (i : Nat) : Option Bytes :=
  let a := j.src + 512 + 4112 * i
  Config.gcmDec k (sub j.header 0x18 8 ++ toLE 4 i) [] (gread s a 4096) (gread s (a + 4096) 16)

/-- The plaintext of a body, if every frame verifies. -/
def bundleBody (s : State) (j : LoadJob) : Option Bytes :=
  let n := num j.header 0x10 8
  match j.key with
  | none => some (gread s (j.src + 512) n)
  | some k => (List.range (n / 4096)).foldl (fun acc i =>
      match acc, bundleFrame s j k i with
      | some bs, some p => some (bs ++ sub p 0 4096)
      | _, _ => none) (some [])

/-- The load ends: the body has been read, and written where every frame verified (R374). -/
def bundleLoaded (s : State) : State :=
  match s.sec.load with
  | none => s
  | some j =>
    let n := num j.header 0x10 8
    let s := { s with sec := { s.sec with load := none } }
    if !(s.cmds.any (·.id == j.cmd)) then refuseLoad s j.func j.cmd j.dest n eFuncDisabling
    else if poisonedIn s j.src (imageLen j.header) then refuseLoad s j.func j.cmd j.dest n ePoison
    else match bundleBody s j with
      | none => refuseLoad s j.func j.cmd j.dest n eAuthFail
      | some body =>
        let b : Bundle := { dest := j.dest, len := n, digest := Config.sha384 j.header, info := Config.bundleInfo j.header body }
        let s := poke s j.dest body
        finishId { s with sec := { s.sec with bundles := minsert (bundleKey j.func j.num) b s.sec.bundles } } j.cmd 0 n

def execBundleLoaded (s : State) : Host.Outcome State Fault Refusal := .next (bundleLoaded s)

/-- Whether a bundle is in use (R375): a sequence of it is not FREE, a job of it runs, or a JOB_RUN of it is incomplete. No stream names
a bundle (notes/assumptions/199). -/
def bundleBusy (s : State) (c : Cmd) (f n : Nat) : Bool :=
  (s.seqs.any fun e => e.2.st != 0 && e.2.func == f && e.2.bundle == n)
    || (s.sec.jobs.any fun j => j.func == f && j.num == n)
    || s.cmds.any fun d => d.id != c.id && cmdOp d == 0x22 && cmdFunc d == f && arg d 0x10 1 == n

/-- BUNDLE_UNLOAD (R375): it completes once its destination is scrubbed; an empty number is SEC_BUNDLE. -/
def bundleUnload (s : State) (c : Cmd) : State :=
  let f := cmdFunc c
  let n := arg c 0x10 1
  match bundle? s f n with
  | none => finish s c (if 16 ≤ n then eCmdReserved else eSecBundle)
  | some b =>
    if bundleBusy s c f n then finish s c eSecBusy
    else if b.len = 0 then finish { s with sec := { s.sec with bundles := mdel (bundleKey f n) s.sec.bundles } } c 0
    else { s with sec := { s.sec with
      bundles := mdel (bundleKey f n) s.sec.bundles, scrubs := s.sec.scrubs ++ [(b.dest, b.len, some c.id)] } }

def execBundleUnload (src : Nat) (s : State) : Host.Outcome State Fault Refusal := .next (withCmd s src 0x21 bundleUnload)

/-- Start a program of a job on its bay. -/
def startJobBay (s : State) (p : Nat × Nat) : State :=
  startProgram (wr64 s (K.bayProgLo p.1) p.2) p.1

/-- JOB_RUN (R373): the argument block is put where the entry's programs read it, and they start. -/
def jobRun (s : State) (c : Cmd) : State :=
  let f := cmdFunc c
  let n := arg c 0x10 1
  let block := arg c 0x18 8
  match (bundle? s f n).bind fun b => b.info.entries[arg c 0x12 2]? with
  | none => finish s c (if 16 ≤ n then eCmdReserved else eSecBundle)
  | some e =>
    let bays := e.programs.map (·.1)
    if !ownsRange s f block (8 * e.args) then finish s c eWainRegion
    else if poisonedIn s block (8 * e.args) then finish s c ePoison
    else if bays.any fun b => !(decide (b < nBays) && (bay s b).owner == f) then finish s c eFuncResource
    else if bays.any fun b => (bay s b).off then finish s c eBayDisabled
    else if bays.any fun b => (bay s b).st == .running then finish s c eBayBusy
    else
      let s := e.patches.foldl (fun s p => poke s p.2 (toLE 8 (gnum s (block + 8 * p.1) 8))) s
      let s := e.programs.foldl startJobBay s
      jobsCheck { s with sec := { s.sec with jobs := s.sec.jobs ++ [{ func := f, num := n, cmd := c.id, bays := bays, start := now s }] } }

def execJobRun (src : Nat) (s : State) : Host.Outcome State Fault Refusal := .next (withCmd s src 0x22 jobRun)

/-! ### The scrubber (R377, R488, R489) -/

/-- Retired granules of a stack. -/
def retiredOn (s : State) (k : Nat) : Nat := (s.flash.granules.filter fun g => g % 4 == k).length

/-- A poisoned line whose read-back fails again after its scrub (R489): its granule is retired and filled with poison, or
GRN_RETIRE_FULL is recorded when the stack's list is full. -/
def retireLine (s : State) (line : Nat) : State :=
  let g := line / 8
  let k := g % 4
  if s.flash.granules.contains g then { s with poison := (s.poison ++ [line]).dedup }
  else if 1024 ≤ retiredOn s k then
    let s := { s with poison := (s.poison ++ [line]).dedup }
    writeRecord (recordErr s (pgGrn k) eGrnRetireFull internalFunc 0) 7 eGrnRetireFull (64 * line)
  else
    let s := { s with flash := { s.flash with granules := s.flash.granules ++ [g] } }
    let s := { s with poison := (s.poison ++ (List.range 8).map (8 * g + ·)).dedup }
    wr s (K.grnRetired k) (retiredOn s k)

/-- Scrub a range whose line `bad - 1` (when bad is not 0) was poisoned and fails its read-back. -/
def scrubWith (s : State) (a n bad : Nat) : State :=
  let l := bad - 1
  let again := bad ≠ 0 && s.poison.contains l && decide (a ≤ 64 * l) && decide (64 * l < a + n)
  let s := countScrub (scrubRange s a n) n
  if again then retireLine s l else s

/-- A scrub of a range ends (R377): of tenant function 1-8, of a range left by a confidential tenant (9), of a bundle's
destination (10), of a KV page (11); `bad` names a line that fails its read-back. -/
def scrubDone (owner bad : Nat) (s : State) : State :=
  let s :=
    if 1 ≤ owner && owner ≤ 8 then
      (match (tenant s owner).scrub with
        | r :: _ =>
          let l := bad - 1
          let again := bad ≠ 0 && s.poison.contains l && decide (r.1 ≤ 64 * l) && decide (64 * l < r.1 + r.2)
          let s' := tenantScrubbed s owner
          if again then retireLine s' l else s'
        | [] => s)
    else if owner = 9 then
      (match s.orphans with
        | r :: rest => scrubWith { s with orphans := rest } r.1 r.2 bad
        | [] => s)
    else if owner = 10 then
      (match s.sec.scrubs with
        | (a, n, cmd) :: rest =>
          let s := scrubWith { s with sec := { s.sec with scrubs := rest } } a n bad
          (match cmd with
            | some id => finishId s id 0
            | none => s)
        | [] => s)
    else if owner = 11 then
      (match s.sec.kvScrubs with
        | (p, u, c) :: rest =>
          let r := pageRange s p u c
          returnPages (scrubWith { s with sec := { s.sec with kvScrubs := rest } } r.1 r.2 bad) [(p, u, c)]
        | [] => s)
    else s
  releaseHeldPages s

def execScrubDone (owner bad : Nat) (s : State) : Host.Outcome State Fault Refusal := .next (scrubDone owner bad s)

end Sys2Proof.Machine
end

