-- ==== Sys2Proof/Machine/Serving.lean ====
section
/-! DEFINITION. The commands of the serving sequencer (R226-R230, R238, R248), pause and resume (R235), the tables of
sequences (R183-R186) and the KV manager's swap and rebuild (R191, R193-R195). -/

namespace Sys2Proof.Machine

/-! ### Request blocks (R226, R227) -/

/-- Whether an FP32 value is finite. -/
def finite32 (x : Nat) : Bool := match dec32 x with | .fin _ _ => true | _ => false

/-- Whether an FP32 value lies in a closed range. -/
def fp32In (x : Nat) (lo hi : Rat) : Bool := finite32 x && decide (lo ≤ finQ (dec32 x)) && decide (finQ (dec32 x) ≤ hi)

/-- Bias entries of a list in the granary: token and FP32 bias. -/
def biasList (s : State) (a n : Nat) : List (Nat × Nat) :=
  (List.range n).map fun i => (gnum s (a + 8 * i) 4, gnum s (a + 8 * i + 4) 4)

/-- Whether the numbers of a request block are in their ranges and its reserved bits zero (R226, R227). -/
def blockOk (b : Bytes) : Bool :=
  let n := fun off len => num b off len
  let temp := n 0x2C 4
  let rep := n 0x38 4
  decide (1 ≤ n 0x20 4) && decide (n 0x20 4 ≤ 262144) && decide (n 0x24 4 ≤ 262143) && decide (n 0x28 4 < 2 ^ 19)
    && (temp == 0 || (fp32In temp (mkRat 1 65536) 65536))
    && fp32In (n 0x30 4) 0 1 && !isZeroN (dec32 (n 0x30 4))
    && fp32In (n 0x34 4) 0 1 && finQ (dec32 (n 0x34 4)) != 1
    && finite32 rep && decide (rep < 2 ^ 31) && decide (2 ^ 23 ≤ rep) && finite32 (n 0x3C 4) && finite32 (n 0x40 4)
    && decide (n 0x4C 2 ≤ 1024) && decide (n 0x4E 2 ≤ 256) && decide (n 0x50 1 < 8) && decide (n 0x51 1 < 8)
    && decide (n 0x54 1 < 64) && decide (n 0x55 1 < 8) && (sub b 0x56 10).all (· == 0)
    && decide (n 0x20 4 + n 0x24 4 ≤ 262144) && decide (n 0x20 4 + n 0x24 4 ≤ n 0x28 4)
    && n 0x10 8 % 64 == 0 && n 0x18 8 % 64 == 0

/-- Whether a pool serves a bundle's sequences of a function (R227). -/
def poolFits (s : State) (p f : Nat) (i : BundleInfo) : Bool :=
  let g := geoOf s p
  kvEnabled s p && !kvHostmgd s p && kvAllows s p f
    && g.l == i.layers && g.hkv == i.kvHeads && g.g == i.group && g.d == i.headDim && g.fp8 == i.fp8

/-- Whether a bias entry may stand (R227). -/
def biasOk (vocab : Nat) (e : Nat × Nat) : Bool :=
  decide (e.1 < vocab) && (match dec32 e.2 with | .nan => false | .inf neg => neg | _ => true)

/-- Everything R227 asks of a block of a function at an address, for a bundle. -/
def requestOk (s : State) (f a : Nat) (i : BundleInfo) : Bool :=
  let b := gread s a 96
  let stop := fun off => num b off 4 == 0xFFFFFFFF || decide (num b off 4 < i.vocab)
  a % 64 == 0 && ownsRange s f a 96 && blockOk b && stop 0x44 && stop 0x48
    && poolFits s (num b 0x55 1) f i && ownsRange s f (num b 0x10 8) (4 * num b 0x28 4)
    && ownsRange s f (num b 0x18 8) (8 * num b 0x4E 2)
    && (biasList s (num b 0x18 8) (num b 0x4E 2)).all (biasOk i.vocab)

/-- The lowest FREE entry. -/
def freeEntry (s : State) : Option Nat := (List.range 4096).find? fun i => (seqOf s i).st == 0

/-- A new QUEUED sequence in the lowest FREE entry, and its handle (R225, R229, R230). -/
def newSeq (s : State) (c : Cmd) (bundle a : Nat) (fork : Option (Nat × Nat)) : State :=
  match freeEntry s with
  | none => finish s c eSeqLimit
  | some i =>
    let b := gread s a 96
    let n := s.srv.nextAdmit
    let q : Seq := {
      gen := (seqOf s i).gen, st := 1, func := cmdFunc c, bundle := bundle, specN := num b 0x54 1, admitNo := n
      user := arg c 0x18 4, req := b.take 86, bias := biasList s (num b 0x18 8) (num b 0x4E 2), fork := fork
      target := num b 0x20 4 }
    let s := setSeq { s with srv := { s.srv with nextAdmit := n + 1 } } i q
    finish s c 0 (handleOf i q)

/-- ADMIT (R226, R227, R229). -/
def admitReq (s : State) (c : Cmd) : State :=
  let a := arg c 0x10 8
  match bundle? s (cmdFunc c) (arg c 0x1C 1) with
  | none => finish s c eSeqParam
  | some b =>
    if 16 ≤ arg c 0x1C 1 || !requestOk s (cmdFunc c) a b.info then finish s c eSeqParam
    else if poisonedIn s a 96 then finish s c ePoison
    else newSeq s c (arg c 0x1C 1) a none

def execAdmitSeq (src : Nat) (s : State) : Host.Outcome State Fault Refusal := .next (withCmd s src 0x40 admitReq)

/-- The entry a handle names for a function (R224). -/
def named (s : State) (f h : Nat) : Option Nat :=
  let i := h % 4096
  let q := seqOf s i
  if q.st ≠ 0 && q.func = f && handleOf i q = h then some i else none

/-- FORK (R187, R226, R227, R229): f lies in the parent's committed positions, and the child's prompt goes beyond it. -/
def fork (s : State) (c : Cmd) : State :=
  let a := arg c 0x10 8
  let f := arg c 0x20 4
  match named s (cmdFunc c) (arg c 0x1C 4) with
  | none => finish s c eSeqUnknown
  | some i =>
    let p := seqOf s i
    match bundle? s (cmdFunc c) p.bundle with
    | none => finish s c eSeqParam
    | some b =>
      if !seqLives p then finish s c eSeqState
      else if !requestOk s (cmdFunc c) a b.info || num (gread s a 96) 0x55 1 ≠ reqPool p || f = 0 || p.lenMax < f
          || num (gread s a 96) 0x20 4 ≤ f then finish s c eSeqParam
      else if poisonedIn s a 96 then finish s c ePoison
      else newSeq s c p.bundle a (some (arg c 0x1C 4, f))

def execFork (src : Nat) (s : State) : Host.Outcome State Fault Refusal := .next (withCmd s src 0x41 fork)

/-- A command on a sequence of its function (R224). -/
def onSeq (s : State) (c : Cmd) (g : State → Nat → Seq → State) : State :=
  match named s (cmdFunc c) (arg c 0x10 4) with
  | none => finish s c eSeqUnknown
  | some i => g s i (seqOf s i)

/-- CANCEL (R230, R252, R253). -/
def cancelCmd (s : State) (c : Cmd) : State := onSeq s c fun s i q =>
  if seqLives q then finish (cancelSeq s i) c 0 else finish s c eSeqState

def execCancel (src : Nat) (s : State) : Host.Outcome State Fault Refusal := .next (withCmd s src 0x42 cancelCmd)

/-- Row 3 of R233: every CANCEL fetched so far takes effect (R253). -/
def settleCancels (s : State) : State :=
  (s.cmds.filter fun c => cmdOp c == 0x42 && !c.started).foldl (fun s c =>
    if fenceHeld s c || gateCode s c.src 0x42 != 0 then s else cancelCmd s c) s

/-- The next position a sequence samples: the first one is PROMPT_LEN (R232). -/
def nextPos (q : Seq) : Nat := promptLen q + q.genTok

/-- Vocabulary of a sequence's bundle. -/
def vocabOf (s : State) (q : Seq) : Nat := ((bundle? s q.func q.bundle).map fun b => b.info.vocab).getD 0

/-- SET_MASK (R238): a waiting sequence decodes, or goes on with its prompt. -/
def setMask (s : State) (c : Cmd) (i : Nat) (q : Seq) : State :=
  let a := arg c 0x18 8
  if !seqWorks q || !reqMasked q || arg c 0x14 4 ≠ nextPos q then finish s c eSeqState
  else if a % 64 ≠ 0 || !ownsRange s q.func a (cdiv (vocabOf s q) 8) then finish s c eSeqParam
  else
    let st := if q.st = 4 then 3 else q.st
    finish (setSeq s i { q with mask := some (nextPos q, a), st := st }) c 0

def execSetMask (src : Nat) (s : State) : Host.Outcome State Fault Refusal :=
  .next (withCmd s src 0x43 fun s c => onSeq s c fun s i q => setMask s c i q)

/-- TOKEN_AREA (R248); a log2 of size outside 16-26, a ring above 15 or an address that is not aligned is CMD_RESERVED. -/
def tokenArea (s : State) (c : Cmd) : State :=
  let f := cmdFunc c
  let lg := arg c 0x18 1
  if lg < 16 || 26 < lg || 16 ≤ arg c 0x19 1 || arg c 0x10 8 % 4096 ≠ 0 then finish s c eCmdReserved
  else if seqHeld s f then finish s c eSeqState
  else finish (setArea s f { addr := arg c 0x10 8, size := 2 ^ lg, ring := arg c 0x19 1, held := (area s f).held }) c 0

def execTokenArea (src : Nat) (s : State) : Host.Outcome State Fault Refusal := .next (withCmd s src 0x44 tokenArea)

/-! ### Pause (R235, R256) -/

/-- A write of SRV BLK_CTRL with PAUSE at a value. -/
def pauseWrite (a : Access) (v : Nat) (on : Bool) (s : State) : State :=
  atPlace s a fun s pl =>
    if pl.page = pgSrv && pl.off == 0x10 && bit v 16 == on then { s with srv := { s.srv with pause := on } } else s

def execPause (a : Access) (v : Nat) (s : State) : Host.Outcome State Fault Refusal := .next (pauseWrite a v true s)
def execPauseClear (a : Access) (v : Nat) (s : State) : Host.Outcome State Fault Refusal := .next (pauseWrite a v false s)

/-! ### Page tables and refcounts (R183-R186) -/

/-- The 136 entries of a page table. -/
def readTab (s : State) (a : Nat) : List Nat := (List.range 136).map fun e => gnum s (a + 8 * e) 8

/-- The header of a table (R183). -/
def tabHead (f pool len pages : Nat) : Nat := len + 2 ^ 20 * f + 2 ^ 24 * pool + 2 ^ 32 * pages

/-- A page's entry (R184). -/
def tabEntry (addr size : Nat) : Nat := addr / 512 + 2 ^ 29 * size + 2 ^ 32

/-- LEN of a sequence: the committed positions its table holds. -/
def seqLen (s : State) (q : Seq) : Nat := if q.table then ptLen (gnum s (tabAddr s q) 8) else 0

/-- The writes that turn a table's content into another, one action for each line that differs. -/
def tabWrites (s : State) (a : Nat) (new : List Nat) : List Action :=
  let bs := new.flatMap (toLE 8)
  (List.range 17).filterMap fun l =>
    let part := sub bs (64 * l) 64
    if part = gread s (a + 64 * l) 64 then none else some (tableWrite (a + 64 * l) part)

/-- Address of the refcount entry of the page that a table entry names. -/
def rcOf (s : State) (pool v : Nat) : Nat :=
  let g := geoOf s pool
  g.rcAddr (g.unitOf (512 * peAddr v))

/-- Every entry of a table that is in use (R183). -/
def validEntries (tab : List Nat) : List Nat :=
  ((List.range (min 135 (ptPages (tab.headD 0)))).map (· + 1)).filter fun e => peValid (tab.getD e 0)

/-- Entries of a table that name a page in the granary. -/
def liveEntries (tab : List Nat) : List Nat := (validEntries tab).filter fun e => !peSwapped (tab.getD e 0)

/-! ### Swap (R193-R195) -/

/-- The swap record of a function (R220). -/
def swapCfg (s : State) (f : Nat) : Nat := rd s (K.kvSwapCfg f)
def swapBase (s : State) (f : Nat) : Nat := 4096 * (rd s (K.kvSwapLo f) / 4096) + 2 ^ 32 * rd s (K.kvSwapHi f)
def swapBytes (s : State) (f : Nat) : Nat := 1048576 * rf s (K.kvSwapSize f) 19 0

/-- Host bytes of a page in swap: ciphertext carries a tag for each frame of 4,096 bytes (R352). -/
def hostLen (s : State) (f n : Nat) : Nat := if bit (swapCfg s f) 11 then n + 16 * cdiv n 4096 else n

/-- Ranges of a function's swap area in use, in 512-byte units. -/
def swapUsed (s : State) (f : Nat) : List (Nat × Nat) :=
  s.seqs.flatMap fun e => if e.2.func = f then
    e.2.pages.map fun p => (p.2.1, cdiv (hostLen s f ((geoOf s (reqPool e.2)).pageBytes (ladderSize p.1))) 512) else []

/-- The lowest place for n units among used ranges within a size. -/
def firstFit (used : List (Nat × Nat)) (n size : Nat) : Option Nat :=
  let starts := 0 :: used.map fun r => r.1 + r.2
  let fits := starts.filter fun a => decide (a + n ≤ size) && used.all fun r => !overlap a n r.1 r.2
  fits.foldl (fun (m : Option Nat) a => match m with
    | some b => some (min a b)
    | none => some a) none

/-- Places for the pages of some table entries, or none if the area lacks room for all. -/
def swapPlaces (s : State) (f pool : Nat) (es : List Nat) : Option (List (Nat × Nat × Nat)) :=
  (es.foldl (fun (acc : Option (List (Nat × Nat) × List (Nat × Nat × Nat))) e =>
    acc.bind fun (used, l) =>
      let n := cdiv (hostLen s f ((geoOf s pool).pageBytes (ladderSize e))) 512
      (firstFit used n (swapBytes s f / 512)).map fun a => (used ++ [(a, n)], l ++ [(e, a, 0)]))
    (some (swapUsed s f, []))).map (·.2)

/-- The wain channel that a function's swap record names (R220). -/
def swapChannel (s : State) (f : Nat) : Nat := fld (swapCfg s f) 4 0

/-- The next NONCE of a function's swap key slot (R352). -/
def takeNonce (s : State) (f : Nat) : Nat × State :=
  let k := 8 * (f - 1) + fld (swapCfg s f) 10 8
  let n := mget (fun _ => 0) s.nonces k
  (n, { s with nonces := mset (fun _ => 0) s.nonces k ((n + 1) % 2 ^ 64) })

/-- A descriptor between a page in the granary and its place in swap: with CRYPT and the named key slot if the record asks (R193). -/
def swapDesc (s : State) (f page len : Nat) (p : Nat × Nat × Nat) (out : Bool) : Bytes :=
  let host := swapBase s f + 512 * p.2.1
  let crypt := if bit (swapCfg s f) 11 then 4 else 0
  let slot := fld (swapCfg s f) 10 8
  if out then fwDesc page host len (0x108 + crypt) slot p.2.2 else fwDesc host page len (0x208 + crypt) slot p.2.2

/-- Copy a victim's pages to swap (R193); a shadow writes nothing to host memory (R426). -/
def postSwapOut (s : State) (i : Nat) : State :=
  let q := seqOf s i
  let f := q.func
  let tab := readTab s (tabAddr s q)
  let g := geoOf s (reqPool q)
  let (pages, s) := q.pages.foldl (fun (acc : List (Nat × Nat × Nat) × State) p =>
    let (n, s) := if bit (swapCfg acc.2 f) 11 then takeNonce acc.2 f else (0, acc.2)
    (acc.1 ++ [(p.1, p.2.1, n)], s)) ([], s)
  let descs := if shadows s f then [] else pages.map fun p =>
    swapDesc s f (512 * peAddr (tab.getD p.1 0)) (g.pageBytes (ladderSize p.1)) p true
  let (job, s) := startCopy s (swapChannel s f) descs
  setSeq s i { q with pages := pages, swapJob := some (job, descs.length) }

/-- Copy a readmitted sequence's pages back (R194). -/
def postSwapIn (s : State) (i : Nat) : State :=
  let q := seqOf s i
  let g := geoOf s (reqPool q)
  let descs := q.pages.map fun p =>
    swapDesc s q.func (g.unitAddr (((q.newUnits.find? (·.1 == p.1)).map (·.2)).getD 0)) (g.pageBytes (ladderSize p.1)) p false
  let (job, s) := startCopy s (swapChannel s q.func) descs
  setSeq s i { q with swapJob := some (job, descs.length) }

/-- The copies that the sequences pre-empted or readmitted at a boundary now need. -/
def postSwaps (s : State) : State :=
  let want := fun (k : Nat) (q : Seq) => q.st == 6 && q.swap == k && q.swapJob.isNone
  let s := (seqsWith s (want 1)).foldl postSwapOut s
  (seqsWith s (want 3)).foldl postSwapIn s

/-- Whether a sequence's copy of a kind has ended. -/
def swapOver (s : State) (q : Seq) (kind : Nat) : Bool :=
  q.swap == kind && q.st == 6 && (match q.swapJob with
    | some j => jobOver s j.1 j.2
    | none => false)

/-- Codes of a sequence's copy. -/
def swapCodes (s : State) (q : Seq) : List Nat := jobCodes s ((q.swapJob.map (·.1)).getD 0)

/-- A copy to or from swap has ended: its bent follows at the next boundary, in row 7 (R193, R194, R233). -/
def swapEnded (kind : Nat) (i : Nat) (s : State) : State :=
  let q := seqOf s i
  if swapOver s q kind then setSeq s i { q with swap := kind + 4 } else s

def execSwapOutDone (i : Nat) (s : State) : Host.Outcome State Fault Refusal := .next (swapEnded 1 i s)
def execSwapInDone (i : Nat) (s : State) : Host.Outcome State Fault Refusal := .next (swapEnded 3 i s)

/-! ### Rebuild (R191) -/

/-- KVM_CMD.REBUILD: ignored while one runs (R218). -/
def execRebuild (a : Access) (v : Nat) (s : State) : Host.Outcome State Fault Refusal :=
  .next (atPlace s a fun s pl =>
    if pl.page = pgKvm && pl.off == 0x44 && bit v 0 && rf s K.kvmState 1 0 == 0 && !haltedOnErr s pgKvm
    then wf s K.kvmState 1 0 1 else s)

/-- Sequences that hold a table in a pool, in ascending order. -/
def tablesOf (s : State) (pool : Nat) : List (Nat × Seq) := s.seqs.filter fun e => e.2.table && reqPool e.2 == pool

/-- The tokens of a sequence's record up to its LEN. -/
def tokensOf (s : State) (q : Seq) : List Nat := (List.range (seqLen s q)).map fun p => gnum s (reqTokrec q + 4 * p) 4

/-- The last block of the positions of entry e, and whether the table's LEN covers the whole page. -/
def lastBlock (e : Nat) : Nat := (ladderFirst e + pagePos (ladderSize e)) / 16 - 1
def fullPage (s : State) (q : Seq) (e : Nat) : Bool := decide (ladderFirst e + pagePos (ladderSize e) ≤ seqLen s q)

/-- An earlier sequence whose page in entry e a later one may share (R191, step 4): equal size, another page, both fully written
and not poisoned, equal hashes at the page's last block. The answer tells whether the tokens agree too. -/
def mergeWith (s : State) (tag : Nat) (q r : Seq) (e v w : Nat) : Option Bool :=
  let h := fun x => (prefixHashes tag (tokensOf s x))[lastBlock e]?
  let n := ladderFirst e + pagePos (ladderSize e)
  if peAddr v == peAddr w || peSize v != peSize w || !peValid v || !peValid w || peSwapped v || peSwapped w || pePoisoned v
      || pePoisoned w || !fullPage s q e || !fullPage s r e || h q != h r then none
  else some ((tokensOf s q).take n == (tokensOf s r).take n)

/-- Merge the pages of one later sequence into those of the earlier ones (R191, step 4): both entries get SHARED, since two tables
name the page now (R184). -/
def mergeSeq (pool : Nat) (s : State) (k : Nat) : State :=
  let l := tablesOf s pool
  match l[k]? with
  | none => s
  | some (_, r) =>
    let tag := rd64 s (K.kvTagLo pool)
    (validEntries (readTab s (tabAddr s r))).foldl (fun s e =>
      let a := tabAddr s r
      let tab := readTab s a
      let w := tab.getD e 0
      let tries := (l.take k).filterMap fun x =>
        let v := (readTab s (tabAddr s x.2)).getD e 0
        (mergeWith s tag x.2 r e v w).map fun same => (same, x.2)
      let s := incr s K.kvmHashColl (tries.filter (!·.1)).length
      match tries.find? (·.1) with
      | none => s
      | some (_, q) =>
        let tab' := readTab s (tabAddr s q)
        let v := putFld (tab'.getD e 0) 33 33 1
        let acts := tabWrites s (tabAddr s q) (tab'.set e v) ++ tabWrites s a (tab.set e v)
        incr (fwBent s (acts ++ [refInc (rcOf s pool v) 1, refDec (rcOf s pool w) 1])) K.kvmMerged 1) s

/-- Step 3 of R191: SHARED and COW from the counts and the tables' lengths. -/
def flagTables (pool : Nat) (s : State) : State :=
  let l := tablesOf s pool
  (l.flatMap fun x =>
    let a := tabAddr s x.2
    let tab := readTab s a
    let new := (validEntries tab).foldl (fun t e =>
      let v := t.getD e 0
      if peSwapped v then t
      else
        let many := decide (1 < gnum s (rcOf s pool v) 4)
        let cut := l.any fun y => let w := (readTab s (tabAddr s y.2)).getD e 0
          peValid w && !peSwapped w && peAddr w == peAddr v && !fullPage s y.2 e
        t.set e (putFld (putFld v 33 33 (b2n many)) 34 34 (b2n (many && cut)))) tab
    tabWrites s a new).foldl (fun s act => fwBent s [act]) s

/-- Steps 1 and 2 of R191: every COUNT of a pool's pages from the tables that name them; a page that none names drops (R186). -/
def recount (pool : Nat) (s : State) : State :=
  let names := (tablesOf s pool).flatMap fun x =>
    let tab := readTab s (tabAddr s x.2)
    ((liveEntries tab).map fun e => rcOf s pool (tab.getD e 0)) ++ x.2.newUnits.map fun e => (geoOf s pool).rcAddr e.2
  (blocks s pool).foldl (fun s u =>
    let a := (geoOf s pool).rcAddr u.1
    let n := (names.filter (· == a)).length
    if gnum s a 4 = n then s
    else if n = 0 then fwBent s [tableWrite a (toLE 4 1), refDec a 1]
    else fwBent s [tableWrite a (toLE 4 n)]) s

/-- Rebuild one pool (R191). -/
def rebuildPool (s : State) (pool : Nat) : State :=
  if !kvEnabled s pool || kvHostmgd s pool then s
  else
    let s := flagTables pool (recount pool s)
    (List.range (tablesOf s pool).length).foldl (mergeSeq pool) s

/-- The rebuild ends, with no step running (R191, R218). -/
def rebuildDone (s : State) : State :=
  if rf s K.kvmState 1 0 ≠ 1 || s.srv.running || s.srv.mid.isSome then s
  else raiseIrq (wf ((List.range 8).foldl rebuildPool s) K.kvmState 1 0 0) pgKvm 16

def execRebuildDone (s : State) : Host.Outcome State Fault Refusal := .next (rebuildDone s)

end Sys2Proof.Machine
end

