-- ==== Sys2Proof/Machine/Gleaner.lean ====
section
/-! DEFINITION. The gleaner: sampling of a position (R236, R237, R240), verification of a candidate tree and what the heads
rank highest for the next tree (R242, R244). -/

namespace Sys2Proof.Machine

/-! ### Sampling (R237) -/

@[reducible] def negInf32 : Nat := 0xFF800000

/-- FP32 order, exact: x below y. -/
def lt32 (x y : Nat) : Bool := nlt (dec32 x) (dec32 y)

/-- What the sampling of a position takes beside its logits: the sequence, the position, the token counts of the penalties and
the mask's address. -/
structure Sampling where
  q : Seq
  pos : Nat
  counts : List (Nat × Nat)
  mask : Option Nat

/-- FP32 logits at an address. -/
def logitsAt (s : State) (a v : Nat) : List Nat := (List.range v).map fun i => gnum s (a + 4 * i) 4

/-- Row 1: NaN reads as negative infinity. -/
def unNan (z : Nat) : Nat := if isNan (dec32 z) then negInf32 else z

/-- Row 2: a token whose mask bit is 0. -/
def masked (s : State) (x : Sampling) (i z : Nat) : Nat :=
  match x.mask with
  | some a => if bit (gnum s (a + i / 8) 1) (i % 8) then z else negInf32
  | none => z

/-- Row 3: bias entries in list order. -/
def biased (q : Seq) (i z : Nat) : Nat := q.bias.foldl (fun z e => if e.1 = i then add32 z e.2 else z) z

/-- How often a token has occurred. -/
def countOf (l : List (Nat × Nat)) (i : Nat) : Nat := ((l.find? (·.1 == i)).map (·.2)).getD 0

/-- Row 4: penalties. -/
def penalised (x : Sampling) (i z : Nat) : Nat :=
  let c := countOf x.counts i
  if c = 0 then z
  else
    let rep := reqNum x.q 0x38 4
    let z := if rep = 0x3F800000 then z else if lt32 0 z then div32 z rep else mul32 z rep
    let z := sub32 z (reqNum x.q 0x3C 4)
    sub32 z (enc32 (nmul (dec32 (reqNum x.q 0x40 4)) (ofRat c)))

/-- Rows 1 to 4 over a row of logits. -/
def adjusted (s : State) (x : Sampling) (zs : List Nat) : List Nat :=
  ((List.range zs.length).zip zs).map fun e => penalised x e.1 (biased x.q e.1 (masked s x e.1 (unNan e.2)))

/-- The lowest index of the largest value of a list of indexed values. -/
def best : List (Nat × Nat) → Option (Nat × Nat)
  | [] => none
  | e :: es => some (es.foldl (fun b e => if lt32 b.2 e.2 then e else b) e)

/-- Tokens that are not at negative infinity, with their values. -/
def livingTokens (zs : List Nat) : List (Nat × Nat) := ((List.range zs.length).zip zs).filter fun e => e.2 != negInf32

/-- Insert into a list ordered by value descending, lower index first among equals. -/
def insertDesc (e : Nat × Nat) : List (Nat × Nat) → List (Nat × Nat)
  | [] => [e]
  | x :: xs => if lt32 x.2 e.2 then e :: x :: xs else x :: insertDesc e xs

/-- Values in descending order, lower index first among equals. -/
def sortDesc (l : List (Nat × Nat)) : List (Nat × Nat) := l.foldl (fun acc e => insertDesc e acc) []

/-- An FP32 total, in the shape of R106: each element is one leaf. -/
def sum32 (l : List Nat) : Nat := if l.isEmpty then 0 else reduce106 l

/-- The shortest prefix whose sum reaches a value. -/
def prefixTo (goal : Nat) : Nat → List (Nat × Nat) → List (Nat × Nat)
  | _, [] => []
  | acc, e :: es =>
    let acc := add32 acc e.2
    if lt32 acc goal then e :: prefixTo goal acc es else [e]

/-- Keep the tokens of a list that another list names. -/
def keepOf (l kept : List (Nat × Nat)) : List (Nat × Nat) := l.filter fun e => kept.any (·.1 == e.1)

/-- Rows 6 to 10: the kept tokens with their weights, in ascending token order. -/
def keptWeights (q : Seq) (zs : List (Nat × Nat)) : List (Nat × Nat) :=
  let k := div32 0x3FB8AA3B (reqNum q 0x2C 4)
  let ys := zs.map fun e => (e.1, mul32 e.2 k)
  let topK := reqNum q 0x4C 2
  let ys := if topK = 0 then ys else keepOf ys ((sortDesc ys).take topK)
  let m := ((best ys).map (·.2)).getD 0
  let ws := ys.map fun e => (e.1, enc32 (fExp2 (dec32 (sub32 e.2 m))))
  let ws := ws.filter fun e => !lt32 e.2 (reqNum q 0x34 4)
  let topP := reqNum q 0x30 4
  if topP = 0x3F800000 then ws
  else
    let desc := sortDesc ws
    keepOf ws (prefixTo (mul32 topP (sum32 (desc.map (·.2)))) 0 desc)

/-- u × S below a running sum, exactly: u is a multiple of 2^-24. -/
def drawBelow (u total acc : Nat) : Bool := decide (mkRat u (2 ^ 24) * finQ (dec32 total) < finQ (dec32 acc))

/-- The first token whose running sum exceeds u × S. -/
def firstOver (u total : Nat) : Nat → List (Nat × Nat) → Option Nat
  | _, [] => none
  | acc, e :: es =>
    let acc := add32 acc e.2
    if drawBelow u total acc then some e.1 else firstOver u total acc es

/-- Row 11: the draw over kept weights in ascending token order. -/
def drawToken (q : Seq) (pos : Nat) (ws : List (Nat × Nat)) : Option Nat :=
  let u := uniform24 (reqNum q 0x08 8) pos 0
  match firstOver u (sum32 (ws.map (·.2))) 0 ws with
  | some t => some t
  | none => (ws.getLast?).map (·.1)

/-! ### Verification (R244) -/

/-- A row that has logits: its main logits and its heads' logits. -/
def rowAt (r : GlnRow) (n : Nat) : Nat × List Nat := r.nodes.getD n (0, [])

/-- Tokens on the path to a node, from depth 1 on. -/
def pathTo (tree : List Node) : Nat → Nat → List Nat
  | 0, _ => []
  | fuel + 1, n =>
    if n = 0 then []
    else match tree[n - 1]? with
      | some x => pathTo tree fuel x.parent ++ [x.token]
      | none => []

/-- Add one to the count of a token. -/
def countUp (l : List (Nat × Nat)) (t : Nat) : List (Nat × Nat) :=
  if l.any (·.1 == t) then l.map fun e => if e.1 = t then (t, e.2 + 1) else e else l ++ [(t, 1)]

/-- Token counts for the penalties at a node (R237, row 4): generated positions, those on the path, and the prompt if PEN_PROMPT
is set. -/
def penaltyCounts (s : State) (q : Seq) (path : List Nat) : List (Nat × Nat) :=
  let first := if reqPenPrompt q then 0 else promptLen q
  let n := promptLen q + q.genTok - first
  (((List.range n).map fun i => gnum s (reqTokrec q + 4 * (first + i)) 4) ++ path).foldl countUp []

/-- The position after a node: the first one sampled is PROMPT_LEN + GEN, and candidates lie beyond it (R232, R243). -/
def samplePos (q : Seq) (depth : Nat) : Nat := nextPos q + depth

/-- What sampling takes at a node. -/
def samplingAt (s : State) (q : Seq) (path : List Nat) : Sampling :=
  { q := q, pos := samplePos q path.length, counts := penaltyCounts s q path
    mask := if reqMasked q then (match q.mask with | some (_, a) => some a | none => some 0) else none }

/-- Children of a node in rank order: candidate numbers from 1. -/
def kidsOf (tree : List Node) (n : Nat) : List Nat :=
  ((List.range tree.length).map (· + 1)).filter fun k => (tree.getD (k - 1) ⟨0, 0, 0⟩).parent == n

/-- Token of a candidate. -/
def candToken (tree : List Node) (k : Nat) : Nat := (tree.getD (k - 1) ⟨0, 0, 0⟩).token

/-- The acceptance tests of the candidates at a position, in rank order: the one accepted, and the weights left. -/
def testKids (q : Seq) (pos : Nat) (tree : List Node) : List (Nat × Nat) → Nat → List (Nat × Nat) → Option Nat × List (Nat × Nat)
  | [], _, ws => (none, ws)
  | (i, k) :: rest, rem, ws =>
    let t := candToken tree k
    let wk := ((ws.find? (·.1 == t)).map (·.2)).getD 0
    if drawBelow (uniform24 (reqNum q 0x08 8) pos (1 + i)) rem wk then (some k, ws)
    else testKids q pos tree rest (sub32 rem wk) (ws.map fun e => if e.1 = t then (t, 0) else e)

/-- What verification gives so far. -/
structure Verified where
  node : Nat
  accepted : List Nat
  token : Option Nat
  code : Nat
  rows : Nat
  nans : Nat

/-- Whether a token is a stop token of the sequence. -/
def isStop (q : Seq) (t : Nat) : Bool := t != 0xFFFFFFFF && (t == reqNum q 0x44 4 || t == reqNum q 0x48 4)

/-- Verification from a node on (R244); with no candidate it is plain sampling (R237). -/
def verifyFrom (s : State) (r : GlnRow) (q : Seq) (vocab : Nat) : Nat → Verified → Verified
  | 0, x => x
  | fuel + 1, x =>
    let path := pathTo q.tree q.tree.length x.node
    let at' := samplingAt s q path
    let raw := logitsAt s (rowAt r x.node).1 vocab
    let x := { x with rows := x.rows + 1, nans := x.nans + (raw.filter fun z => isNan (dec32 z)).length }
    if poisonedIn s (rowAt r x.node).1 (4 * vocab) then { x with code := ePoison }
    else
      let zs := livingTokens (adjusted s at' raw)
      let kids := kidsOf q.tree x.node
      let goOn := fun (k : Nat) =>
        let x' := { x with node := k, accepted := x.accepted ++ [candToken q.tree k] }
        if isStop q (candToken q.tree k) then x' else verifyFrom s r q vocab fuel x'
      if zs.isEmpty then { x with code := eGlnNoToken }
      else if reqGreedy q then
        let g := ((best zs).map (·.1)).getD 0
        (match kids.find? fun k => candToken q.tree k == g with
          | some k => goOn k
          | none => { x with token := some g })
      else
        let ws := keptWeights q zs
        (match testKids q at'.pos q.tree ((List.range kids.length).zip kids) (sum32 (ws.map (·.2))) ws with
          | (some k, _) => goOn k
          | (none, left) => { x with token := drawToken q at'.pos left })

/-! ### The next tree's candidates (R242) -/

/-- w_d of the request (R226). -/
def specWidth (q : Seq) (d : Nat) : Nat := fld (reqNum q 0x52 2) (4 * d - 1) (4 * d - 4)

/-- The tokens that head d ranks highest, lower indices first among equals. -/
def headTop (s : State) (q : Seq) (vocab d a : Nat) : List Nat :=
  let zs := (logitsAt s a vocab).map unNan
  ((sortDesc ((List.range zs.length).zip zs)).take (specWidth q d)).map (·.1)

/-- What each head ranks highest at the last node fixed. -/
def headTops (s : State) (q : Seq) (vocab : Nat) (heads : List Nat) : List (List Nat) :=
  ((List.range heads.length).zip heads).map fun e => headTop s q vocab (e.1 + 1) e.2

/-! ### A group of rows (R236) -/

/-- Whether a sequence samples in the running step (R232): it decodes, or its last prompt chunk runs. -/
def samplesNow (s : State) (q : Seq) : Bool :=
  q.inStep && (q.chunk == 0 || (decide (q.target ≤ seqLen s q + q.chunk) && decide (q.genTok < maxNew q)))

/-- MESH cycles of the passes over a sequence's rows (R236). -/
def glnCycles (q : Seq) (vocab rows heads : Nat) : Nat :=
  let pass := cdiv vocab 128
  if q.tree.isEmpty then (if reqGreedy q then 1 else 2) * pass
  else (rows + ((List.range heads).filter fun d => specWidth q (d + 1) != 0).length) * pass

/-- The rows of one sequence. Their passes keep the gleaner BUSY (R259), 16 MESH cycles to one of ACLK (R33). -/
def glnSeq (s : State) (r : GlnRow) : State :=
  let q := seqOf s r.seq
  if !samplesNow s q || q.result.isSome || !seqLives q then s
  else
    let v := vocabOf s q
    let x := verifyFrom s r q v (q.tree.length + 1) { node := 0, accepted := [], token := none, code := 0, rows := 0, nans := 0 }
    let heads := (rowAt r x.node).2
    let tops := if specMax q = 0 || reqMasked q then [] else headTops s q v heads
    let s := setSeq s r.seq { q with result := some { accepted := x.accepted, token := x.token, tops := tops, code := x.code } }
    let s := wf s K.glnVocab 18 0 v
    let s := satIncr (satIncr s K.glnRows x.rows) K.glnNan x.nans
    let s := if x.code = eGlnNoToken then satIncr s K.glnNoToken 1 else s
    let n := glnCycles q v x.rows heads.length
    satIncr { s with srv := { s.srv with gln := max s.srv.gln s.clock + cdiv n 16 } } K.glnBusy n

/-- A group starts when its counter reaches the group's target, which it consumes (R125, R236). -/
def glnGroup (ctr target : Nat) (rows : List GlnRow) (s : State) : State :=
  let n := mget (fun _ => 0) s.unitTokens ctr
  if 16 ≤ ctr || n < target || !s.srv.running || haltedOnErr s pgGln then s
  else rows.foldl glnSeq { s with unitTokens := mset (fun _ => 0) s.unitTokens ctr (n - target) }

def execGleanerGroup (ctr target : Nat) (rows : List GlnRow) (s : State) : Host.Outcome State Fault Refusal :=
  .next (glnGroup ctr target rows s)

end Sys2Proof.Machine
end

