-- ==== Sys2Proof/Machine/Draft.lean ====
section
/-! DEFINITION. What a step boundary works on (R233): the state, the tables and refcounts as they will be, and the actions of
the firmware bents (R64, R233, row 7). -/

namespace Sys2Proof.Machine

/-- A boundary in progress: t_b and the number of the step that ended; the entries of the batch records; the tables that
change, by sequence; refcount addresses of new pages, references added, and references dropped, each with the sequence whose group of
actions it belongs to; other actions of a group; forks made, child and parent; page-table indices in use by pool; the commit copies
and the copy-on-write copies, by sequence; and the step that is filled: its sequences in order, its prompt tokens, and the pools that
take no more in. -/
structure Draft where
  s : State
  tb : Nat
  step : Nat
  ents : List Entry := []
  tabs : Map (List Nat) := []
  fresh : List (Nat × Nat × Nat) := []
  incs : List (Nat × Nat) := []
  decs : List (Nat × Nat) := []
  drops : List Nat := []
  extra : List (Nat × Action) := []
  ptUsed : List (Nat × Nat) := []
  forks : List (Nat × Nat) := []
  commits : List (Nat × List Bytes) := []
  cows : List (Nat × Bytes) := []
  chosen : List Nat := []
  ptok : Nat := 0
  stuck : List Nat := []
deriving DecidableEq, Repr

def Draft.seq (b : Draft) (i : Nat) : Seq := seqOf b.s i
def Draft.setSeq (b : Draft) (i : Nat) (q : Seq) : Draft := { b with s := Machine.setSeq b.s i q }

/-- A sequence's table as it will be. -/
def Draft.tab (b : Draft) (i : Nat) : List Nat :=
  match b.tabs.find? (·.1 == i) with
  | some e => e.2
  | none => readTab b.s (tabAddr b.s (b.seq i))

def Draft.setTab (b : Draft) (i : Nat) (t : List Nat) : Draft := { b with tabs := (i, t) :: b.tabs.filter (·.1 != i) }

/-- LEN as it will be. -/
def Draft.len (b : Draft) (i : Nat) : Nat := if (b.seq i).table then ptLen ((b.tab i).headD 0) else 0

/-- Set LEN and PAGES of a sequence's table. -/
def Draft.setHead (b : Draft) (i len pages : Nat) : Draft :=
  b.setTab i ((b.tab i).set 0 (tabHead (b.seq i).func (reqPool (b.seq i)) len pages))

/-- COUNT of a refcount address as it will be. -/
def Draft.count (b : Draft) (a : Nat) : Nat :=
  (if b.fresh.any (·.2.1 == a) then 1 else gnum b.s a 4) + (b.incs.filter (·.2 == a)).length
    - ((b.decs.filter (·.2 == a)).length + (b.drops.filter (· == a)).length)

/-- The entry of a batch record of a sequence ends with a code. -/
def Draft.endEntry (b : Draft) (i code : Nat) : Draft :=
  if b.ents.any (·.seq == i) then { b with ents := b.ents.map fun e => if e.seq = i then { e with done := some code } else e }
  else { b with ents := b.ents ++ [{ seq := i, pos := nextPos (b.seq i), toks := [], done := some code }] }

/-- Drop what a sequence holds: its references, pages it is copied in to, its swap space (R216, R253). The table's header says
that no entry is in use. -/
def Draft.release (b : Draft) (i : Nat) : Draft :=
  let q := b.seq i
  if !q.table then b
  else
    let pool := reqPool q
    let tab := b.tab i
    let refs := (liveEntries tab).map (fun e => rcOf b.s pool (tab.getD e 0)) ++ q.newUnits.map fun e => (geoOf b.s pool).rcAddr e.2
    { b with
      drops := b.drops ++ refs, tabs := b.tabs.filter (·.1 != i)
      extra := b.extra ++ [(i, tableWrite (tabAddr b.s q) (toLE 8 (tabHead q.func pool 0 0)))] }

/-- A sequence that holds nothing and takes part in nothing any more. -/
def idleSeq (q : Seq) : Seq :=
  { q with
    table := false, inStep := false, chunk := 0, result := none, tree := [], next := [], pages := [], newUnits := [], swap := 0, swapJob := none
    fork := none, fail := 0 }

/-- A sequence ends at the boundary with a code (R230). -/
def Draft.ends (b : Draft) (i code : Nat) : Draft :=
  let b := (b.endEntry i code).release i
  let b := { b with chosen := b.chosen.filter (· != i) }
  let b := b.setSeq i { idleSeq (b.seq i) with st := 8, endCode := code }
  if code = eKvExhausted then { b with s := raiseIrq b.s pgKvm 17 } else b

/-- A CANCELLED sequence, or one ENDED at an earlier boundary, is FREE (R230). -/
def Draft.free (b : Draft) (i : Nat) : Draft :=
  (b.release i).setSeq i { gen := (b.seq i).gen + 1 }

/-! ### The firmware bents (R64, R233, row 7) -/

/-- The writes of a sequence's table as it will be. -/
def Draft.tabActs (b : Draft) (i : Nat) : List Action :=
  (b.tabs.filter (·.1 == i)).flatMap fun t => tabWrites b.s (tabAddr b.s (b.seq i)) t.2

/-- The actions of one sequence's group: HEAD entries of new pages, counts that rise, tables, of a fork the parent's too (R187), and
counts that fall. -/
def Draft.group (b : Draft) (k : Nat) : List Action :=
  ((b.fresh.filter (·.1 == k)).map fun e => tableWrite e.2.1 (toLE 8 e.2.2))
    ++ ((b.incs.filter (·.1 == k)).map fun e => refInc e.2 1)
    ++ ((b.extra.filter (·.1 == k)).map (·.2))
    ++ ((b.forks.filter (·.1 == k)).flatMap fun e => b.tabActs e.2)
    ++ b.tabActs k
    ++ ((b.decs.filter (·.1 == k)).map fun e => refDec e.2 1)

/-- Groups that have actions: those of forks, so that counts rise before they fall, then the others, ascending. -/
def Draft.groupKeys (b : Draft) : List Nat :=
  let asc := fun (l : List Nat) => l.foldl (fun l k => insertAsc k l) []
  let kids := b.forks.map (·.1)
  asc kids ++ asc ((b.fresh.map (·.1) ++ b.extra.map (·.1) ++ b.tabs.map (·.1) ++ b.decs.map (·.1)).filter fun k => !kids.contains k)

/-- Put groups into bents in order; a group is split only if it exceeds 256 actions. -/
def packBents (groups : List (List Action)) : List (List Action) :=
  (groups.flatMap fun g => cut256 (g.length / 256 + 1) g).foldl (fun acc g =>
    match acc.getLast? with
    | some c => if c.length + g.length ≤ 256 then acc.dropLast ++ [c ++ g] else acc ++ [g]
    | none => [g]) []

/-- Actions that the eight slots still hold. -/
def bentRoom (l : List (List Action)) : Nat := 256 * (8 - l.length) + (256 - (l.getLast?.getD []).length) * b2n (!l.isEmpty && decide (l.length ≤ 8))

/-- The firmware bents of a boundary. -/
def Draft.bents (b : Draft) : List (List Action) := packBents ((b.groupKeys.map b.group).filter (!·.isEmpty))

/-- Raise the firmware bents; reference drops beyond 2,048 actions are carried to the next boundary. -/
def raiseBents (s : State) (bents : List (List Action)) (drops : List Nat) : State :=
  let all := s.srv.carry ++ drops
  let n := bentRoom bents
  let s := { s with srv := { s.srv with carry := all.drop n } }
  (packBents (bents ++ (all.take n).map fun a => [refDec a 1])).foldl fwBent s

end Sys2Proof.Machine
end

