-- ==== Sys2Proof/Machine/Outcome.lean ====
section
/-! DEFINITION. Rows 2 to 6 of R233 for the step that ended: each sequence's result, deadlines (R254, R255), ends (R230), the
tracker and the next candidate tree (R242, R247), and the commit copies (R246). -/

namespace Sys2Proof.Machine

/-! ### Speculation (R242, R247) -/

/-- Whether a function's swap record names a channel that is assigned to it (R242). -/
def swapReady (s : State) (f : Nat) : Bool := wainOwnerOf s (fld (swapCfg s f) 4 0) == f

/-- Children of every node of one depth, in rank order: node number and token. -/
def levelBelow (parents toks : List Nat) : List (Nat × Nat) := parents.flatMap fun p => toks.map fun t => (p, t)

/-- The first n nodes of the full tree in breadth-first order, from a depth on; limit is the deepest node allowed. -/
def growTree (tops : List (List Nat)) (limit n : Nat) : Nat → Nat → List Nat → List Node → List Node
  | 0, _, _, tree => tree
  | fuel + 1, d, parents, tree =>
    let level := (levelBelow parents (tops.getD (d - 1) [])).take (n - tree.length)
    if limit < d || level.isEmpty then tree
    else growTree tops limit n fuel (d + 1) ((List.range level.length).map fun k => tree.length + k + 1)
      (tree ++ level.map fun e => ⟨e.1, e.2, d⟩)

/-- The candidate tree built at the last node fixed (R242): len is the position of the root in the next step. -/
def nextTree (s : State) (q : Seq) (len n : Nat) (tops : List (List Nat)) : List Node :=
  if specMax q = 0 || reqMasked q || !swapReady s q.func then []
  else growTree tops (min (262143 - len) (maxNew q - q.genTok - 1)) n 5 1 [0] []

/-- The tracker after a step that ran a tree (R247). -/
def trackTree (q : Seq) (accepted : Nat) : Seq :=
  if q.probing then
    (if accepted = 0 then { q with probe := 64 } else { q with specN := accepted, misses := 0, hits := 0, probe := 0 })
  else if accepted = 0 then
    (if q.misses + 1 < 8 then { q with misses := q.misses + 1, hits := 0 }
     else { q with specN := q.specN / 2, misses := 0, hits := 0, probe := if q.specN / 2 = 0 then 64 else q.probe })
  else if q.hits + 1 < 8 then { q with hits := q.hits + 1, misses := 0 }
  else { q with specN := min (2 * q.specN) (specMax q), hits := 0, misses := 0 }

/-- The tracker after a decode step: while N is 0, PROBE counts down (R247). -/
def track (q : Seq) (accepted : Nat) : Seq :=
  if !q.tree.isEmpty then trackTree q accepted else if q.specN = 0 then { q with probe := q.probe - 1 } else q

/-- The tree of the next decode step: the tracker's N, or a probe when PROBE has reached 0 (R242, R247). -/
def planTree (s : State) (q : Seq) (len : Nat) (tops : List (List Nat)) : Seq :=
  let probe := q.specN == 0 && q.probe == 0
  { q with next := nextTree s q len (if probe then min 4 (specMax q) else q.specN) tops, probing := probe }

/-! ### Results (R244, R245, R254, R255) -/

/-- What the step brought a sequence: its tokens, and the code of what went wrong. Tokens of a sequence whose bay or page
failed are discarded (R217, R234); those beyond MAX_NEW too (R245). -/
def stepTokens (s : State) (q : Seq) : List Nat × Nat :=
  if !q.inStep || !samplesNow s q || q.fail ≠ 0 then ([], q.fail)
  else
    let r := q.result.getD ⟨[], none, [], 0⟩
    ((r.accepted ++ r.token.toList).take (maxNew q - q.genTok), r.code)

/-- Whether a sequence misses its deadline at t_b (R254). -/
def misses (tb : Nat) (q : Seq) : Bool := reqNum q 0 8 != 0 && decide (reqNum q 0 8 < tb)

/-- How a sequence ends with the tokens of the step, if it does (R230, R255). -/
def endOf (tb : Nat) (q : Seq) (toks : List Nat) (fail : Nat) : Option Nat :=
  if misses tb q then some eDeadline
  else if fail ≠ 0 then some fail
  else if toks.isEmpty then none
  else if isStop q (toks.getLastD 0xFFFFFFFF) || maxNew q ≤ q.genTok + toks.length || 262144 ≤ nextPos q + toks.length then some 0
  else none

/-! ### Commit copies (R246) -/

/-- Candidate numbers of accepted tokens, from the root down. -/
def acceptedNodes (tree : List Node) : Nat → List Nat → List Nat
  | _, [] => []
  | n, t :: ts =>
    match (kidsOf tree n).find? fun k => candToken tree k == t with
    | some k => k :: acceptedNodes tree k ts
    | none => []

/-- Lines of a node record (R199). -/
def nodeLines (g : Geo) : Nat := cdiv (8 * g.hkv) 64 + 2 * g.hkv * cdiv (g.d * g.b) 64

/-- Descriptors that copy one node record of a layer to its position in the page that holds it: scales where the position is the
first of its page, and the elements of every head. -/
def copyNode (g : Geo) (node page size layer pos first : Nat) : List Bytes :=
  (if g.fp8 && pos == first then [copyDesc node (page + g.scaleOff layer 0 0) (8 * g.hkv)] else [])
    ++ (List.range 2).flatMap fun k => (List.range g.hkv).map fun h =>
      let line := cdiv (8 * g.hkv) 64 + (k * g.hkv + h) * cdiv (g.d * g.b) 64
      copyDesc (node + 64 * line) (page + g.rowOff size layer k h (pos - first)) (g.d * g.b)

/-- Tree lists of a sequence's bundle. -/
def treeLists (s : State) (q : Seq) : List RowList :=
  ((bundle? s q.func q.bundle).map fun b => b.info.lists.filter (·.kind == 12)).getD []

/-- The commit copies of a sequence, for every layer: candidate k of the path lies at LEN + its depth. -/
def commitCopies (s : State) (q : Seq) (tab : List Nat) (len : Nat) (nodes : List Nat) : List Bytes :=
  let g := geoOf s (reqPool q)
  (treeLists s q).flatMap fun l => ((List.range nodes.length).zip nodes).flatMap fun e =>
    let pos := len + 1 + e.1
    let en := ladder pos
    let node := 64 * (l.aux + q.row * l.auxStep + (e.2 - 1) * nodeLines g)
    copyNode g node (512 * peAddr (tab.getD en 0)) (ladderSize en) l.layer pos (ladderFirst en)

/-! ### A sequence at the boundary -/

/-- The state of a sequence that goes on (R230): MASKED and without a mask for its next position it waits. -/
def goesOn (q : Seq) : Nat :=
  if reqMasked q && (match q.mask with | some m => m.1 != nextPos q | none => true) then 4 else 3

/-- A sequence that ran in the step and goes on: LEN, commit copies, tracker, next tree and state. -/
def Draft.carryOn (b : Draft) (i : Nat) (toks : List Nat) : Draft :=
  let q := b.seq i
  let s := b.s
  let len := b.len i
  let r := q.result.getD ⟨[], none, [], 0⟩
  let sampled := samplesNow s q
  let len' := if q.chunk ≠ 0 then len + q.chunk else len + 1 + r.accepted.length
  let b := if q.chunk = 0 && !r.accepted.isEmpty then
      { b with commits := b.commits ++ [(i, commitCopies s q (b.tab i) len (acceptedNodes q.tree 0 r.accepted))] } else b
  let b := b.setHead i len' (ptPages ((b.tab i).headD 0))
  let q' := { q with genTok := q.genTok + toks.length, lenMax := max q.lenMax len', inStep := false, chunk := 0, result := none }
  let q' := if q.chunk = 0 then track q' r.accepted.length else q'
  let q' := if sampled then planTree s q' len' r.tops else q'
  let st := if sampled then goesOn q' else if q.target ≤ len' then 5 else 2
  b.setSeq i { q' with tree := [], st := st }

/-- Rows 2 to 5 for one sequence: CANCELLED and ENDED ones become FREE, the others emit, end or go on. -/
def Draft.settle (b : Draft) (i : Nat) : Draft :=
  let q := b.seq i
  if !seqLives q then b.free i
  else
    let (raw, fail) := stepTokens b.s q
    let miss := misses b.tb q
    let late := miss && !reqDrop q
    let toks := if miss && reqDrop q then [] else raw
    let fin := endOf b.tb q toks fail
    let cand := q.inStep && q.fail == 0 && !q.tree.isEmpty
    let s := if cand then
        satIncr (satIncr b.s K.srvSpecTried q.tree.length) K.srvSpecOk (q.result.getD ⟨[], none, [], 0⟩).accepted.length else b.s
    let s := if miss then satIncr s K.srvDeadline 1 else s
    let e : Entry := {
      seq := i, pos := nextPos q, toks := toks, late := late
      stop := isStop q (toks.getLastD 0xFFFFFFFF), first := q.genTok == 0 && !toks.isEmpty }
    let b := { b with s := s, ents := if toks.isEmpty && fin.isNone then b.ents else b.ents ++ [e] }
    match fin with
    | some code => (b.ends i code).setSeq i { (b.ends i code).seq i with genTok := q.genTok + toks.length }
    | none => if q.inStep then b.carryOn i toks else b

/-! ### Swaps whose copies have ended (R193, R194) -/

/-- A victim's pages have been copied to swap: each entry gets SWAPPED and the swap offset, and each count drops. If a descriptor
failed there is no bent: the sequence takes the recompute path where its function allows it (R195), and else ends with KV_EXHAUSTED. -/
def Draft.swappedOut (b : Draft) (i : Nat) : Draft :=
  let q := b.seq i
  let pool := reqPool q
  let tab := b.tab i
  let idle := { q with swap := 0, pages := [], swapJob := none }
  if (swapCodes b.s q).all (· == 0) then
    let new := q.pages.foldl (fun (t : List Nat) (p : Nat × Nat × Nat) =>
      t.set p.1 (putFld (putFld (t.getD p.1 0) 28 0 p.2.1) 35 35 1)) tab
    let b := { b with
      s := incr b.s K.kvmSwapout q.pages.length
      decs := b.decs ++ q.pages.map fun (p : Nat × Nat × Nat) => (i, rcOf b.s pool (tab.getD p.1 0)) }
    (b.setTab i new).setSeq i { q with swap := 2, swapJob := none }
  else if bit (swapCfg b.s q.func) 12 then
    let b := { b with drops := b.drops ++ (liveEntries tab).map fun e => rcOf b.s pool (tab.getD e 0) }
    (b.setTab i (tab.set 0 (tabHead q.func pool 0 0))).setSeq i { idle with target := nextPos q, next := [] }
  else b.setSeq i { idle with fail := eKvExhausted }

/-- A readmitted sequence's pages are back: SWAPPED clears. A page whose descriptor failed is POISONED, and the sequence ends with
POISON (R194, R217; notes/assumptions/184). -/
def Draft.swappedIn (b : Draft) (i : Nat) : Draft :=
  let q := b.seq i
  let g := geoOf b.s (reqPool q)
  let l : List (Nat × Nat) := (q.pages.map (·.1)).zip (swapCodes b.s q)
  let unit : Nat → Nat := fun e => ((q.newUnits.find? (·.1 == e)).map (·.2)).getD 0
  let back := fun (v e code : Nat) => putFld (putFld (putFld v 28 0 (g.unitAddr (unit e) / 512)) 35 35 0) 36 36 (b2n (code != 0))
  let bad := l.filter (·.2 != 0)
  let b := { b with
    s := incr b.s K.kvmSwapin l.length
    extra := b.extra ++ bad.map fun (p : Nat × Nat) => (i, tableWrite (g.rcAddr (unit p.1) + 4) (toLE 1 (ladderSize p.1 + 8 + 16))) }
  let q := { q with swap := 4, pages := [], newUnits := [], swapJob := none, fail := if bad.isEmpty then q.fail else ePoison }
  (b.setTab i (l.foldl (fun (t : List Nat) (p : Nat × Nat) => t.set p.1 (back (t.getD p.1 0) p.1 p.2)) (b.tab i))).setSeq i q

/-- Every swap whose copy has ended. -/
def Draft.swaps (b : Draft) : Draft :=
  let due := fun (k : Nat) => seqsWith b.s fun q => q.st == 6 && q.swap == k
  (due 7).foldl Draft.swappedIn ((due 5).foldl Draft.swappedOut b)

/-- Pages that an auger found poisoned: every entry that names one and its refcount entry are marked, and the sequences that name
it end (R217). -/
def Draft.mark (b : Draft) (m : Nat × Nat) : Draft :=
  let g := geoOf b.s m.1
  let addr := g.unitAddr m.2
  let rc := gnum b.s (g.rcAddr m.2) 8
  let size := fld rc 34 32
  if !bit rc 35 then b else
  let b := { b with extra := b.extra ++ [(4096, tableWrite (g.rcAddr m.2 + 4) (toLE 1 (size + 8 + 16)))] }
  (tablesOf b.s m.1).foldl (fun b x =>
    let tab := b.tab x.1
    let hit := (liveEntries tab).filter fun e => 512 * peAddr (tab.getD e 0) == addr
    if hit.isEmpty then b
    else
      let b := b.setTab x.1 (hit.foldl (fun t e => t.set e (putFld (t.getD e 0) 36 36 1)) tab)
      let q := b.seq x.1
      b.setSeq x.1 { q with fail := if q.fail = 0 then ePoison else q.fail }) b

/-- Swaps and marks, then every sequence; the cancels of row 3 come first, since they undo the results of row 2. -/
def Draft.outcome (b : Draft) : Draft :=
  let b := { b with s := settleCancels b.s }.swaps
  let b := (b.s.kvMarks.dedup).foldl Draft.mark b
  let b := { b with s := { b.s with kvMarks := [] } }
  (seqsWith b.s fun q => q.st != 0).foldl Draft.settle b

end Sys2Proof.Machine
end

