-- ==== Sys2Proof/Machine/Allot.lean ====
section
/-! DEFINITION. Row 5 of R233: forks (R187, R188), pages and copy-on-write copies of the next step (R189, R232), victims and
readmission (R192-R195), and the sequences that the next step carries (R232). -/

namespace Sys2Proof.Machine

/-! ### Forks (R187, R188) -/

/-- The lowest page-table index of a pool that no sequence uses. -/
def Draft.freeTab (b : Draft) (pool : Nat) : Option Nat :=
  (List.range (geoOf b.s pool).maxseq).find? fun t => !b.ptUsed.contains (pool, t)

/-- A table entry as a fork shares it: SHARED, and COW if the fork position lies inside its page. -/
def sharedEntry (f e v : Nat) : Nat :=
  let v := putFld v 33 33 1
  if f < ladderFirst e + pagePos (ladderSize e) then putFld v 34 34 1 else v

/-- Form a child's table at position f of a parent, with page-table index pt (R187). -/
def Draft.forkFrom (b : Draft) (child parent f pt : Nat) : Draft :=
  let q := b.seq child
  let pool := reqPool q
  let n := ladder (f - 1)
  let tab := b.tab parent
  let es := (List.range n).map (· + 1)
  let new := es.foldl (fun t e => t.set e (sharedEntry f e (t.getD e 0))) tab
  let b := b.setTab parent new
  let b := b.setTab child ((tabHead q.func pool f n :: (new.drop 1).take n) ++ List.replicate (135 - n) 0)
  let b := { b with
    forks := b.forks ++ [(child, parent)]
    incs := b.incs ++ es.map fun e => (child, rcOf b.s pool (new.getD e 0))
    ptUsed := (pool, pt) :: b.ptUsed }
  b.setSeq child { q with fork := none, table := true, pt := pt, lenMax := f }

/-- A fork that waits: made, or still waiting, or ended because its parent is gone. -/
def Draft.fork (b : Draft) (i : Nat) : Draft :=
  let q := b.seq i
  match q.fork with
  | none => b
  | some (h, f) =>
    let p := h % 4096
    let par := b.seq p
    if q.st ≠ 1 then b
    else if handleOf p par ≠ h || par.func ≠ q.func || !seqLives par then b.ends i eSeqState
    else if (par.st = 6 && par.swap ≠ 4) || b.len p < f then b
    else match b.freeTab (reqPool q) with
      | some pt => b.forkFrom i p f pt
      | none => b

/-! ### Allocation (R180, R189, R192) -/

/-- Take pages of several sizes from a pool, or none. -/
def allocMany (s : State) (pool : Nat) : List Nat → Option (List Nat × State)
  | [] => some ([], s)
  | c :: cs =>
    if !kvEnabled s pool || kvHostmgd s pool then none
    else match allocPage s pool c with
      | none => none
      | some (u, s) => (allocMany s pool cs).map fun r => (u :: r.1, r.2)

/-- Whether pages could be taken if only some pages of the pool were held. -/
def wouldFit (s : State) (pool : Nat) (kept : List (Nat × Nat)) (sizes : List Nat) : Bool :=
  (allocMany (setBlocks s pool kept) pool sizes).isSome

/-- Refcount addresses of what a sequence holds. -/
def Draft.holds (b : Draft) (i : Nat) : List Nat :=
  let q := b.seq i
  if !q.table then []
  else
    let tab := b.tab i
    (liveEntries tab).map (fun e => rcOf b.s (reqPool q) (tab.getD e 0)) ++ q.newUnits.map fun e => (geoOf b.s (reqPool q)).rcAddr e.2

/-- Pages of a pool that stay once everything under way is done: those that a sequence not being swapped out names. -/
def Draft.staying (b : Draft) (pool : Nat) (p : Nat → Seq → Bool) : List (Nat × Nat) :=
  let named := (tablesOf b.s pool).flatMap fun x => if p x.1 x.2 then b.holds x.1 else []
  (blocks b.s pool).filter fun u => named.contains ((geoOf b.s pool).rcAddr u.1)

/-- Sequences that can be chosen as victims in a pool (R192, R230). -/
def victimOk (q : Seq) : Bool := q.st == 2 || q.st == 3 || q.st == 4

/-- The sequence with the lowest priority, and among those the latest admitted (R192). -/
def Draft.victim (b : Draft) (pool : Nat) : Option Nat :=
  ((tablesOf b.s pool).filter fun x => victimOk x.2).foldl (fun (m : Option Nat) x =>
    match m with
    | none => some x.1
    | some v =>
      let q := b.seq v
      if reqPrio q < reqPrio x.2 || (reqPrio q = reqPrio x.2 && decide (q.admitNo < x.2.admitNo)) then some x.1 else some v) none

/-- Pre-empt a victim: its pages are freed for recompute, or are to be copied to swap; without room there, or a
channel of its function's own, it ends (R193, R195; notes/assumptions/184). -/
def Draft.preempt (b : Draft) (v : Nat) : Draft :=
  let q := b.seq v
  let f := q.func
  let pool := reqPool q
  let b := { b with chosen := b.chosen.filter (· != v) }
  let count := fun (b : Draft) => { b with s := incr b.s K.kvmPreempt 1 }
  if bit (swapCfg b.s f) 12 then
    let tab := b.tab v
    let b := { count b with drops := b.drops ++ b.holds v }
    (b.setTab v (tab.set 0 (tabHead f pool 0 0))).setSeq v { q with st := 6, swap := 0, pages := [], target := nextPos q, next := [] }
  else match (if swapReady b.s f then swapPlaces b.s f pool (liveEntries (b.tab v)) else none) with
    | some l => (count b).setSeq v { q with st := 6, swap := 1, pages := l, next := [] }
    | none => b.ends v eKvExhausted

/-- What became of a request for pages. -/
inductive Got where
  | pages (units : List Nat)
  | later
  | exhausted
deriving DecidableEq, Repr

/-- Ask for pages of some sizes for a sequence (R192): victims one at a time until the request could be met. Pages whose copies
or drops are under way come later, so the request is deferred to a later step, and its pool admits no more sequences until
then. An admission pre-empts no sequence of equal
or higher priority (R232). -/
def Draft.ask (b : Draft) (i : Nat) (admission : Bool) (sizes : List Nat) : Nat → Got × Draft
  | 0 => (.later, b)
  | fuel + 1 =>
    let q := b.seq i
    let pool := reqPool q
    match allocMany b.s pool sizes with
    | some (us, s) => (.pages us, { b with s := s })
    | none =>
      if wouldFit b.s pool (b.staying pool fun _ x => !(x.st == 6 && x.swap == 1)) sizes then (.later, b)
      else if !wouldFit b.s pool (b.staying pool fun k x => k == i || x.st == 5 || x.st == 1) sizes then (.exhausted, b)
      else match b.victim pool with
        | none => (.later, b)
        | some v =>
          if v = i then (.later, b)
          else if admission && decide (reqPrio (b.seq v) ≤ reqPrio q) then (.later, b)
          else (b.preempt v).ask i admission sizes fuel

/-- Entries that a table lacks up to a position. -/
def missing (tab : List Nat) (pos : Nat) : List Nat :=
  let n := ptPages (tab.headD 0)
  (List.range (ladder pos - n)).map fun k => n + 1 + k

/-- Entries in use that cover positions a to z and must not be written (R184). -/
def cowEntries (tab : List Nat) (a z : Nat) : List Nat :=
  (validEntries tab).filter fun e => decide (ladder a ≤ e) && decide (e ≤ ladder z) && peCow (tab.getD e 0)

/-- A new HEAD entry: COUNT 1, SIZE, HEAD and FUNC (R185). -/
def headEntry (f size : Nat) : Nat := 1 + 2 ^ 32 * size + 2 ^ 35 + 2 ^ 40 * f

/-- Point an entry at a new page. -/
def Draft.newPage (b : Draft) (i e u : Nat) : Draft :=
  let q := b.seq i
  let g := geoOf b.s (reqPool q)
  let b := { b with fresh := b.fresh ++ [(i, g.rcAddr u, headEntry q.func (ladderSize e))] }
  let t := (b.tab i).set e (tabEntry (g.unitAddr u) (ladderSize e))
  b.setTab i (t.set 0 (tabHead q.func (reqPool q) (ptLen (t.headD 0)) (max e (ptPages (t.headD 0)))))

/-- Resolve an entry with COW (R189): with a page to copy to, or, named once only, by clearing COW and SHARED. -/
def Draft.uncow (b : Draft) (i e : Nat) (u : Option Nat) : Draft :=
  let q := b.seq i
  let g := geoOf b.s (reqPool q)
  let v := (b.tab i).getD e 0
  match u with
  | some u =>
    let b := { b with
      cows := b.cows ++ [(i, copyDesc (512 * peAddr v) (g.unitAddr u) (g.pageBytes (ladderSize e)))]
      decs := b.decs ++ [(i, rcOf b.s (reqPool q) v)] }
    b.newPage i e u
  | none => b.setTab i ((b.tab i).set e (putFld v 34 33 0))

/-- A sequence that holds no table yet gets a page-table index and an empty table. -/
def Draft.giveTab (b : Draft) (i : Nat) : Option Draft :=
  let q := b.seq i
  if q.table then some b
  else (b.freeTab (reqPool q)).map fun pt =>
    let b := { b with ptUsed := (reqPool q, pt) :: b.ptUsed }
    (b.setSeq i { q with table := true, pt := pt }).setTab i (tabHead q.func (reqPool q) 0 0 :: List.replicate 135 0)

/-- Give a sequence the pages for writing positions a to z. -/
def Draft.cover (b : Draft) (i a z : Nat) (admission : Bool) : Got × Draft :=
  let tab := b.tab i
  let pool := reqPool (b.seq i)
  let new := missing tab z
  let cow := cowEntries tab a z
  let copy := cow.filter fun e => decide (1 < b.count (rcOf b.s pool (tab.getD e 0)))
  let es := new ++ copy
  match b.ask i admission (es.map ladderSize) 4096 with
  | (.pages us, b) =>
    let b := ((List.range es.length).zip es).foldl (fun b x =>
      let u := us.getD x.1 0
      if new.contains x.2 then b.newPage i x.2 u else b.uncow i x.2 (some u)) b
    (.pages us, (cow.filter fun e => !copy.contains e).foldl (fun b e => b.uncow i e none) b)
  | r => r

/-! ### The next step's sequences (R232) -/

/-- Lexicographic order of keys. -/
def keyBelow (a b : Nat × Nat × Nat) : Bool :=
  decide (a.1 < b.1) || (a.1 == b.1 && (decide (a.2.1 < b.2.1) || (a.2.1 == b.2.1 && decide (a.2.2 < b.2.2))))

def insertKey (k : Nat → Nat × Nat × Nat) (i : Nat) : List Nat → List Nat
  | [] => [i]
  | x :: xs => if keyBelow (k i) (k x) then i :: x :: xs else x :: insertKey k i xs

def sortKey (k : Nat → Nat × Nat × Nat) (l : List Nat) : List Nat := l.foldl (fun acc i => insertKey k i acc) []

/-- Order of running sequences, and of admissions. -/
def runKey (s : State) (i : Nat) : Nat × Nat × Nat := (reqPrio (seqOf s i), (seqOf s i).lastStep, (seqOf s i).admitNo)
def admitKey (s : State) (i : Nat) : Nat × Nat × Nat := (reqPrio (seqOf s i), (seqOf s i).admitNo, 0)

/-- Whether a function's sequences may be in steps: it has a token area and no held record (R248, R251). -/
def mayStep (s : State) (f : Nat) : Bool := decide ((area s f).size ≠ 0) && (area s f).held.isEmpty

def Draft.full (b : Draft) : Bool := decide (rf b.s K.srvMaxbatch 10 0 ≤ b.chosen.length)

/-- A sequence decodes in the step, with pages up to LEN + 4. -/
def Draft.takeDecode (b : Draft) (i : Nat) (admission : Bool) : Draft :=
  let len := b.len i
  match b.cover i len (min (len + 4) 262143) admission with
  | (.pages _, b) =>
    let q := b.seq i
    { b with chosen := b.chosen ++ [i] }.setSeq i { q with st := 3, swap := 0, chunk := 0 }
  | (.exhausted, b) => b.ends i eKvExhausted
  | (_, b) => { b with stuck := reqPool (b.seq i) :: b.stuck }

/-- A sequence prefills its next chunk in the step. -/
def Draft.takePrefill (b : Draft) (i n : Nat) (admission : Bool) : Draft :=
  let len := b.len i
  match b.cover i len (len + n - 1) admission with
  | (.pages _, b) =>
    let q := b.seq i
    { b with chosen := b.chosen ++ [i], ptok := b.ptok + n }.setSeq i { q with st := 2, swap := 0, chunk := n }
  | (.exhausted, b) => b.ends i eKvExhausted
  | (_, b) => { b with stuck := reqPool (b.seq i) :: b.stuck }

/-- The next prompt chunk of a sequence within the token budget. -/
def Draft.chunk (b : Draft) (i : Nat) : Nat := min ((b.seq i).target - b.len i) (rf b.s K.srvPrefill 18 0 - b.ptok)

/-- Whether no mask is posted for the next position that a sequence samples: it is left out (R232, R238). -/
def unmasked (q : Seq) : Bool := goesOn q == 4 && decide (q.genTok < maxNew q)

/-- A DECODE sequence whose prompt, or tokens of a recompute, are not all in its pages goes on with them. -/
def Draft.prefills (b : Draft) (i : Nat) : Bool := decide (b.len i < (b.seq i).target)

/-- A sequence prefills its next chunk; one that has no table yet gets it with its first pages only. -/
def Draft.takeChunk (b : Draft) (i : Nat) (admission : Bool) : Draft :=
  let q := b.seq i
  if b.chunk i = 0 then b
  else match b.giveTab i with
    | none => { b with stuck := reqPool q :: b.stuck }
    | some b' =>
      let r := b'.takePrefill i (b.chunk i) admission
      if r.chosen.contains i || (r.seq i).st = 8 || q.table then r
      else
        let r := { r with tabs := r.tabs.filter (·.1 != i), ptUsed := r.ptUsed.filter (· != (reqPool q, (b'.seq i).pt)) }
        r.setSeq i { r.seq i with table := false, pt := 0 }

/-- A DECODE or PREFILL sequence, in its order. -/
def Draft.run (b : Draft) (i : Nat) : Draft :=
  let q := b.seq i
  if !mayStep b.s q.func || (q.st ≠ 2 && q.st ≠ 3) then b
  else if unmasked q then b.setSeq i { q with st := 4 }
  else if b.full then b
  else if b.prefills i then b.takeChunk i false
  else b.takeDecode i false

/-- Pages for a swapped sequence, which are then copied in (R194). -/
def Draft.swapIn (b : Draft) (i : Nat) : Draft :=
  let q := b.seq i
  let es := q.pages.map (·.1)
  match b.ask i true (es.map ladderSize) 4096 with
  | (.pages us, b) =>
    let g := geoOf b.s (reqPool q)
    let b := { b with fresh := b.fresh ++ (us.zip es).map fun (x : Nat × Nat) => (i, g.rcAddr x.1, headEntry q.func (ladderSize x.2)) }
    b.setSeq i { b.seq i with swap := 3, newUnits := es.zip us }
  | (.exhausted, b) => b.ends i eKvExhausted
  | (_, b) => { b with stuck := reqPool q :: b.stuck }

/-- A QUEUED or PREEMPTED sequence, in its order (R232). -/
def Draft.admitSeq (b : Draft) (i : Nat) : Draft :=
  let q := b.seq i
  if !mayStep b.s q.func || b.stuck.contains (reqPool q) || q.fork.isSome || (q.st ≠ 1 && q.st ≠ 6) then b
  else if q.st = 6 && (q.swap = 1 || q.swap = 3) then b
  else if q.st = 6 && q.swap = 2 then (if swapReady b.s q.func then b.swapIn i else b)
  else if unmasked q then b.setSeq i { q with st := 4, swap := 0 }
  else if b.full then b
  else if b.prefills i then b.takeChunk i true
  else b.takeDecode i true

/-- A function's steps that its held records keep it out of are counted (R251). -/
def countHeld (s : State) : State :=
  (List.range 9).foldl (fun s f =>
    if !(area s f).held.isEmpty && s.seqs.any (fun e => e.2.func == f && (e.2.st == 2 || e.2.st == 3)) then
      satIncr s K.srvHeld 1 else s) s

/-- The sequences of the next step (R232). -/
def Draft.select (b : Draft) : Draft :=
  let b := { b with s := countHeld b.s }
  let b := (sortKey (runKey b.s) (seqsWith b.s fun q => q.st == 3)).foldl Draft.run b
  let b := (sortKey (runKey b.s) ((seqsWith b.s fun q => q.st == 2).filter fun i => !b.chosen.contains i)).foldl Draft.run b
  (sortKey (admitKey b.s) (seqsWith b.s fun q => q.st == 1 || q.st == 6)).foldl Draft.admitSeq b

end Sys2Proof.Machine
end

