-- ==== Sys2Proof/Machine/Boundary.lean ====
section
/-! DEFINITION. The step boundary (R231-R235): when it takes place, its rows, the row lists of the next step (R198, R212), the
start of its bays, batch records (R248-R251), and what the mirror, digests and snapshots take at it (R426-R429, R437). -/

namespace Sys2Proof.Machine

/-! ### When a boundary takes place (R231, R235) -/

/-- Step s has ended: its bays have stopped, and the gleaner and verification are done with every row (R231). -/
def stepEnded (s : State) : Bool :=
  s.srv.running && (s.srv.bays.all fun b => (bay s b).st != .running)
    && s.seqs.all fun e => !samplesNow s e.2 || e.2.result.isSome || e.2.fail != 0 || !seqLives e.2

/-- No step runs, and one can be filled. -/
def stepDue (s : State) : Bool :=
  !s.srv.running && !paused s && s.seqs.any fun e => e.2.st == 2 || e.2.st == 3

/-- A snapshot waits for the boundary of the present step (R437). -/
def snapshotDue (s : State) (w : TallyWait) : Bool := w.kind == 0 && w.phase == 0 && w.step == rd64 s K.srvStepLo

/-- The three exceptions of R235, for which the sequencer makes an empty boundary: an armed AT_STEP bent, a sequence that waits to
be admitted, a sequence that is not FREE and has a deadline. -/
def emptyDue (s : State) : Bool :=
  !s.srv.running &&
    (s.slots.any (fun e => e.2.st == .armed && e.2.mode == 1)
      || s.seqs.any (fun e => e.2.st == 1 || e.2.st == 6 || (e.2.st != 0 && reqNum e.2 0 8 != 0)))

/-- A shadow takes its decisions from the elder's PLAN and none from its own clock (R426). -/
def planned (s : State) : Bool := !(shadowSt s == 2 || shadowSt s == 3) || s.shadow.plan.isSome

/-- Whether the sequencer may hold a boundary at all; none while the module waits to join (R431). -/
def mayBound (s : State) : Bool := serving s && !s.joinWait && planned s

/-- t_b (R233, row 1). -/
def boundTime (s : State) : Nat :=
  if shadowSt s = 2 || shadowSt s = 3 then (s.shadow.plan.map (·.2)).getD (now s) else now s

/-! ### Row lists of the next step (R198, R199, R212, R243) -/

/-- A row: page-table address, Q0, NQ and tree masks. -/
structure RowItem where
  table : Nat
  q0 : Nat
  nq : Nat
  masks : List Nat := []
deriving DecidableEq, Repr

/-- Sheaf of a key count (R212). -/
def sheafOf (n : Nat) : Nat := if n ≤ 256 then 0 else Nat.log2 ((n - 1) / 256) + 1

/-- Nodes visible to a candidate: itself and its ancestors (R203). -/
def ancestry (tree : List Node) : Nat → Nat → Nat
  | 0, _ => 0
  | fuel + 1, k =>
    if k = 0 then 0 else 2 ^ (k - 1) + match tree[k - 1]? with
      | some x => ancestry tree fuel x.parent
      | none => 0

/-- Masks of the queries of a tree row. -/
def treeMasks (tree : List Node) : List Nat := (List.range tree.length).map fun k => ancestry tree tree.length (k + 1)

/-- Rows of a sequence in a list of a kind: its root in its sheaf, its prompt chunk in rows of up to 4,096 queries, its
candidate tree. -/
def rowsFor (s : State) (kind : Nat) (q : Seq) : List RowItem :=
  let t := tabAddr s q
  let len := seqLen s q
  if kind ≤ 10 then
    (if q.chunk = 0 && sheafOf (len + 1) = kind then [{ table := t, q0 := len, nq := 1 }] else [])
  else if kind = 11 then
    (List.range (cdiv q.chunk 4096)).map fun j => { table := t, q0 := len + 4096 * j, nq := min 4096 (q.chunk - 4096 * j) }
  else if kind = 12 && !q.tree.isEmpty then [{ table := t, q0 := len + 1, nq := q.tree.length, masks := treeMasks q.tree }]
  else []

/-- A row record (R198), of the list's row with k queries before it. -/
def rowRecord (l : RowList) (k : Nat) (r : RowItem) : Bytes :=
  toLE 4 (r.table / 64) ++ toLE 4 (l.q + k * l.qStep) ++ toLE 4 (l.out + k * l.outStep) ++ toLE 4 (r.q0 + 2 ^ 18 * (r.nq - 1))
    ++ toLE 4 (l.stats + k * l.statStep) ++ toLE 4 (l.aux + k * l.auxStep) ++ toLE 4 (l.mask + k * l.maskStep) ++ toLE 4 0

/-- Write a row list: its records, the masks of tree rows, and the count. -/
def writeList (s : State) (l : RowList) (rows : List RowItem) : State :=
  let r := rows.foldl (fun (acc : State × Nat × Nat) r =>
    let s := poke acc.1 (64 * l.line + 32 * acc.2.1) (rowRecord l acc.2.2 r)
    let s := poke s (64 * (l.mask + acc.2.2 * l.maskStep)) (r.masks.flatMap (toLE 8))
    (s, acc.2.1 + 1, acc.2.2 + r.nq)) (s, 0, 0)
  poke r.1 l.count (toLE 4 rows.length)

/-- The row lists of every loaded bundle. -/
def writeLists (s : State) (chosen : List Nat) : State :=
  s.sec.bundles.foldl (fun s e =>
    let mine := (chosen.map (seqOf s)).filter fun q => bundleKey q.func q.bundle == e.1
    e.2.info.lists.foldl (fun s l => writeList s l (mine.flatMap (rowsFor s l.kind))) s) s

/-! ### The start of a step (R76, R145, R231, R233 row 8) -/

/-- The chosen sequences enter the step: their trees, and the place of each tree among those of its bundle. -/
def enterStep (s : State) (step : Nat) (chosen : List Nat) : State :=
  (chosen.foldl (fun (acc : State × Map Nat) i =>
    let q := seqOf acc.1 i
    let k := bundleKey q.func q.bundle
    let tree := if q.chunk = 0 then q.next else []
    let row := mget (fun _ => 0) acc.2 k
    let q := { q with inStep := true, lastStep := step % 2 ^ 32, result := none, fail := 0, tree := tree, next := [], row := row }
    (setSeq acc.1 i q, mset (fun _ => 0) acc.2 k (row + tree.length))) (s, [])).1

/-- Bays that the start tally starts. -/
def startBays (s : State) : List Nat :=
  let c := rf s K.srvStart 7 0
  (List.range nBays).filter fun b =>
    let v := rd s (K.bayStart b)
    bit v 8 && fld v 7 0 == c && (bay s b).st != .running

/-- Fire the start tally; the bays that it starts hold the epoch for the step, and so does the step (R76). The step's number is for
a tick 0 that it brings about (R145). -/
def startStep (s : State) (step : Nat) (chosen : List Nat) : State :=
  if chosen.isEmpty then s
  else
    let s := writeLists (enterStep s step chosen) chosen
    let want := startBays s
    let s := if s.ramp.on then s else { s with ramp := { s.ramp with step := some step } }
    let s := fireTally s (rf s K.srvStart 7 0)
    let on := want.filter fun b => (bay s b).st == .running
    let ep := rd s K.txnEpoch
    let s := on.foldl (fun s b => setBay s b { bay s b with stepHeld := true, epoch := some ep }) s
    noteOldest { s with srv := { s.srv with running := true, began := now s, bays := on }, stepEpoch := some ep }

/-- The step that ended lets go of its epoch (R76), and no later tick 0 is its own (R145). -/
def endStep (s : State) : State :=
  if !s.srv.running then s
  else
    let ns := now s - s.srv.began
    let mine := s.seqs.filter (·.2.inStep)
    let s := wr s K.srvStepNs ns
    let s := wr s K.srvBatch (mine.length + 2 ^ 12 * (mine.map fun e => e.2.chunk).sum)
    noteOldest { s with srv := { s.srv with running := false, bays := [] }, stepEpoch := none, ramp := { s.ramp with step := none } }

/-! ### Batch records (R248-R251) -/

/-- Write the tokens of a batch entry to the token record (R228, R233, row 8). Those of a sequence that a CANCEL reached after row 3
are not emitted, so they are not counted (R253). -/
def emitTokens (s : State) (e : Entry) : State :=
  let q := seqOf s e.seq
  let s := poke s (reqTokrec q + 4 * e.pos) (e.toks.flatMap (toLE 4))
  if q.st = 7 then s
  else
    let s := satIncr s K.srvTokens e.toks.length
    if e.late then satIncr s K.srvLate e.toks.length else s

/-- An entry of a batch record (R250). -/
def tokenEntry (s : State) (e : Entry) : Bytes :=
  toLE 4 (handleOf e.seq (seqOf s e.seq)) ++ toLE 4 e.pos ++ toLE 1 e.toks.length
    ++ toLE 1 (b2n e.done.isSome + 2 * b2n e.late + 4 * b2n e.stop + 8 * b2n e.first) ++ toLE 2 (e.done.getD 0)
    ++ sub (e.toks.flatMap (toLE 4)) 0 20

/-- The batch record of a function (R250). -/
def batchOf (s : State) (f step tb : Nat) (ents : List Entry) : Batch :=
  { step := step, tb := tb, entries := ents.length
    bytes := toLE 8 step ++ toLE 8 tb ++ toLE 4 ents.length ++ toLE 1 f ++ toLE 43 0 ++ ents.flatMap (tokenEntry s) }

/-- Write a record into its area, wrapping at the end. -/
def writeBatch (s : State) (p f : Nat) (x : Area) (bs : Bytes) : State :=
  let n := x.size - x.off
  let s := hostWrite s p f (x.addr + x.off) (bs.take n)
  if bs.length ≤ n then s else hostWrite s p f x.addr (bs.drop n)

/-- Whether a record and its message fit now (R251). A disabled ring takes the message to discard it (R308). -/
def batchFits (s : State) (f : Nat) (bt : Batch) : Bool :=
  let x := area s f
  decide (x.used.sum + bt.bytes.length ≤ x.size)
    && (!eqEnabled s f x.ring || ((eqPort s f x.ring).isSome && (eqr s f x.ring).waiting.isEmpty && (eqr s f x.ring).lost == 0
      && decide (0 < eqRoom s f x.ring)))

/-- Write a batch record and post its TOKEN_BATCH message (R249); a shadow writes nothing to host memory (R426). -/
def postBatch (s : State) (f : Nat) (bt : Batch) : State :=
  let x := area s f
  let len := bt.bytes.length
  if shadows s f then s
  else
    let s := match eqPort s f x.ring with
      | some p => writeBatch s p f x bt.bytes
      | none => s
    let used := if eqEnabled s f x.ring then x.used ++ [len] else x.used
    let s := setArea s f { x with off := (x.off + len) % x.size, used := used }
    post s f x.ring true { type := 0x30, func := f, flags := 0, mtime := bt.tb, batch := len
                           payload := toLE 8 bt.step ++ toLE 4 x.off ++ toLE 4 len ++ toLE 2 bt.entries }

/-- Post a function's record, or hold it behind those held already (R251). -/
def giveBatch (s : State) (f : Nat) (bt : Batch) : State :=
  let x := area s f
  if shadows s f || (x.held.isEmpty && batchFits s f bt) then postBatch s f bt
  else raiseIrq (setArea s f { x with held := x.held ++ [bt] }) pgSrv 17

/-- Row 9 of R233. -/
def giveBatches (s : State) (step tb : Nat) (ents : List Entry) : State :=
  (List.range 9).foldl (fun s f =>
    let mine := ents.filter fun e => (seqOf s e.seq).func == f
    if mine.isEmpty then s else giveBatch s f (batchOf s f step tb mine)) s

/-- A held record is posted once area and ring have room (R251). -/
def heldBatchPost (f : Nat) (s : State) : State :=
  match (area s f).held with
  | bt :: rest => if batchFits s f bt then postBatch (setArea s f { area s f with held := rest }) f bt else s
  | [] => s

def execHeldBatchPost (f : Nat) (s : State) : Host.Outcome State Fault Refusal := .next (heldBatchPost f s)

/-! ### Mirror, digests and snapshots (R426-R429, R437) -/

/-- The elder writes PLAN, both sides close the step's digests, and an ending relation ends at the elder (R426, R427, R429). -/
def mirrorBoundary (s : State) (step tb : Nat) (ents : List Entry) : State :=
  let f := s.shadow.func
  if !inRelation s f then s
  else
    let mine := (ents.filter fun e => (seqOf s e.seq).func == f).map (tokenEntry s)
    let s := mirror s f 3 step (toLE 8 tb)
    let s := closeDigest s f (step + s.srv.jobSteps) mine
    if shadowSt s = 1 && s.shadow.ending then endShadow s else s

/-- What a snapshot writes out: a function's regions, then its sequence table entries (R437): granary address and length. -/
def snapshotParts (s : State) (f : Nat) : List (Nat × Nat) :=
  regionsOf s f ++ (seqsWith s fun q => q.func == f && q.st != 0).map fun i => (seqTabAt + 128 * i, 128)

/-- DURABLE descriptors that copy parts to host memory one behind the other, none longer than 1 GiB. -/
def outDescs (dest : Nat) (parts : List (Nat × Nat)) : List Bytes :=
  ((parts.flatMap fun p => (List.range (cdiv p.2 (2 ^ 30))).map fun k => (p.1 + 2 ^ 30 * k, min (2 ^ 30) (p.2 - 2 ^ 30 * k))).foldl
    (fun (acc : List Bytes × Nat) p => (acc.1 ++ [fwDesc p.1 (dest + acc.2) p.2 0x108], acc.2 + p.2)) ([], 0)).1

/-- The entries of a function in the sequence table (R225). -/
def writeEntries (s : State) (f : Nat) : State :=
  (seqsWith s fun q => q.func == f && q.st != 0).foldl (fun s i => poke s (seqTabAt + 128 * i) (entryBytes i (seqOf s i))) s

/-- A snapshot is written out on the named channel at its boundary (R437). -/
def takeSnapshots (s : State) (due : List TallyWait) : State :=
  due.foldl (fun s w =>
    let s := writeEntries s w.func
    let descs := outDescs w.dest (snapshotParts s w.func)
    let (job, s) := startCopy s w.wain descs
    { s with tallyWaits := s.tallyWaits.map fun x => if x = w then { x with phase := 1, job := job, descs := descs.length } else x }) s

/-- Snapshots that are written out: the module adds 1 and waits for the fire (R437). One whose descriptor failed completes its command
with the code (notes/assumptions/185). -/
def snapshotsOut (s : State) : State :=
  (s.tallyWaits.filter fun w => w.kind == 0 && w.phase == 1 && jobOver s w.job w.descs).foldl (fun s w =>
    match (jobCodes s w.job).find? (· != 0) with
    | some code => finishId { s with tallyWaits := s.tallyWaits.filter (· != w) } w.cmd code
    | none => addFirmware { s with tallyWaits := s.tallyWaits.map fun x => if x = w then { x with phase := 2 } else x } w.ctr 1) s

/-! ### The boundary (R233) -/

/-- Rows 1 to 6: results, ends, forks, the sequences of the next step unless steps are stopped, and the copies that these need. -/
def fillStep (s : State) (tb step : Nat) (hold : Bool) : Draft :=
  let b : Draft := { s := s, tb := tb, step := step, ptUsed := (s.seqs.filter (·.2.table)).map fun e => (reqPool e.2, e.2.pt) }
  let b := b.outcome
  let b := (seqsWith b.s fun q => q.fork.isSome).foldl Draft.fork b
  if hold then b else b.select

/-- Post the copies of a boundary, commit copies first, each on its function's swap channel (R189, R220, R246): job, descriptors and
sequence of each. -/
def postCopies (s : State) (l : List (Nat × List Bytes)) : State × List (Nat × Nat × Nat) :=
  l.foldl (fun (acc : State × List (Nat × Nat × Nat)) e =>
    let (job, s) := startCopy acc.1 (swapChannel acc.1 (seqOf acc.1 e.1).func) e.2
    (s, acc.2 ++ [(job, e.2.length, e.1)])) (s, [])

/-- A sequence whose copy failed is left out of the step and ends at the next boundary (notes/assumptions/184). -/
def failCopies (s : State) (jobs : List (Nat × Nat × Nat)) : State :=
  jobs.foldl (fun s j =>
    match (jobCodes s j.1).find? (· != 0) with
    | none => s
    | some code =>
      let q := seqOf s j.2.2
      if !seqLives q || q.fail != 0 then s
      else setSeq s j.2.2 { q with fail := if code = ePoison then ePoison else eKvExhausted }) s

/-- Drop the results of copies that nothing waits for. -/
def tidyCopies (s : State) : State :=
  { s with fwDone := s.fwDone.filter fun e =>
      s.seqs.any (fun x => (x.2.swapJob.map (·.1)) == some e.1) || s.tallyWaits.any fun w => w.phase == 1 && w.job == e.1 }

/-- Rows 7 to 9 of R233, and what else happens at a boundary. -/
def endBoundary (s : State) (m : Mid) : State :=
  let s := { failCopies s m.jobs with srv := { s.srv with mid := none } }
  let s := runArmed (raiseBents s m.bents m.drops) 1 0
  let s := postSwaps (tidyCopies s)
  let s := m.ents.foldl emitTokens s
  let s := wr64 s K.srvStepLo (m.step + 1)
  let s := startStep s (m.step + 1) (m.chosen.filter fun i => (seqOf s i).fail == 0 && ((seqOf s i).st == 2 || (seqOf s i).st == 3))
  let ents := m.ents.filter fun e => (seqOf s e.seq).st != 7
  let s := giveBatches s m.step m.tb ents
  let s := mirrorBoundary { s with shadow := { s.shadow with plan := none } } m.step m.tb ents
  let (n, s) := draw s
  let s := wr (wr64 s K.srvBoundLo m.tb) K.srvBoundNs (n % 2 ^ 32)
  let s := takeSnapshots s m.due
  let s := releaseHeldPages { s with lastTb := m.tb, seqPub := s.seqs, srv := { s.srv with lastAt := s.clock } }
  ((List.range 8).map (· + 1)).foldl disabled (raiseIrq s pgSrv 16)

/-- Rows 1 to 6, and the others at once if no copy has to be waited for. -/
def boundary (s : State) : State :=
  let tb := boundTime s
  let step := rd64 s K.srvStepLo
  let due := s.tallyWaits.filter (snapshotDue s)
  let b := fillStep (endStep s) tb step (paused s || !due.isEmpty)
  let m : Mid := { tb := tb, step := step, ents := b.ents, bents := b.bents, drops := b.drops, chosen := b.chosen, due := due, jobs := [] }
  let (s, jobs) := postCopies b.s (b.commits ++ b.cows.map fun e => (e.1, [e.2]))
  if jobs.all fun j => jobOver s j.1 j.2.1 then endBoundary s { m with jobs := jobs }
  else { s with srv := { s.srv with mid := some { m with jobs := jobs } } }

/-- A boundary that waits for its copies goes on once they have all ended; else one begins if it is due. -/
def boundaryIf (s : State) (due : Bool) : State :=
  let s := snapshotsOut s
  match s.srv.mid with
  | some m => if m.jobs.all fun j => jobOver s j.1 j.2.1 then endBoundary s m else s
  | none => if mayBound s && due then boundary s else s

def execStepBoundary (s : State) : Host.Outcome State Fault Refusal := .next (boundaryIf s (stepEnded s || stepDue s))

/-- Every 1 ms at most an empty boundary is due (R235). -/
def execEmptyBoundary (s : State) : Host.Outcome State Fault Refusal := .next (boundaryIf s (emptyDue s))

end Sys2Proof.Machine
end

