-- ==== Sys2Proof/Machine/Access.lean ====
section
/-! DEFINITION. Register accesses by address (R41, R42, R47, R49): reads and writes of 4 and 8 bytes, each word acting as its
register says, and what an access meets that reaches no register. -/

namespace Sys2Proof.Machine

/-! ### Reads -/

/-- A read of the 4 bytes at an address: the state after it and the value (R24, R42, R47, R82). -/
def readWord (s : State) (a : Access) : State × Nat :=
  match place s a with
  | none => (s, 0)
  | some pl =>
    if expertLocked s pl a.func then (noteLocked s pl a.func, 0)
    else if pl.page = pgTxn && pl.off = 0x400 then txnOpen s a
    else readAt s a pl

/-- Return data to the reader: 8 bytes for a wide read, low offset in the low word (R41). -/
def answer (s : State) (a : Access) (wide : Bool) (v : Nat) : State :=
  emit s (.readData a.port a.func a.off (toLE (if wide then 8 else 4) v))

/-- A read whose data are the words at an address, one or two. -/
def answerRead (a : Access) (wide : Bool) (word : State → Access → State × Nat) (s : State) : State :=
  let r := word s a
  let h := if wide then word r.1 { a with off := a.off + 4 } else (r.1, 0)
  answer h.1 a wide (r.2 + 2 ^ 32 * h.2)

/-- A read of BAR0 (R24, R41, R42, R47) or of the MSI-X table and pending bits in BAR4 (R294); Unsupported Request where
nothing answers (R291, R292, R313). -/
def execLatchedRead (a : Access) (wide bar4 : Bool) (s : State) : Host.Outcome State Fault Refusal :=
  .next (
    if noAnswer s a then emit s (.unsupported a.port a.func a.off)
    else if bar4 then answerRead a wide (fun s a => (s, bar4Word s a.port a.func a.off)) s
    else if unoccupied a then answer (satIncr s K.sysUnmapped 1) a wide 0
    else answerRead a wide readWord s)

/-! ### Accesses that reach no register (R41, R42) -/

/-- Whether an access falls in the TALLY_IN window (R435). -/
def inTallyWindow (a : Access) : Bool := a.func == 0 && decide (0xCC00 ≤ a.off) && decide (a.off < 0xD000)

/-- An access other than a naturally aligned one of 4 or 8 bytes (R41); in the TALLY_IN window it is TALLY_BAD (R435). -/
def execUnalignedAccess (a : Access) (s : State) : Host.Outcome State Fault Refusal :=
  .next (
    if noAnswer s a then emit s (.unsupported a.port a.func a.off)
    else if inTallyWindow a && serving s then tallyBad s a.func (a.off % 0x1000)
    else emit (recordErr s pgSys eRegAlign a.func a.off) (.completerAbort a.port a.func a.off))

/-- An access to an offset of MF BAR0 that no page occupies: counted, and a read returns zero (R42). -/
def execUnmappedAccess (a : Access) (read wide : Bool) (s : State) : Host.Outcome State Fault Refusal :=
  .next (
    if noAnswer s a then (if read then emit s (.unsupported a.port a.func a.off) else s)
    else if !unoccupied a then s
    else
      let s := satIncr s K.sysUnmapped 1
      if read then answer s a wide 0 else s)

/-! ### Writes -/

/-- Registers whose writes are commands of their own: page type and offset. -/
def ownRow (ty off : Nat) : Bool :=
  [0xC, 0x10, 0x20, 0x30].contains off
    || (ty == 0xA && [0x400, 0x418, 0x41C].contains off)
    || (ty == 0x20 && [0x414, 0x418].contains off)
    || ((ty == 0x8 || ty == 0x30) && decide (0x100 ≤ off) && decide (off < 0x300) && off % 16 == 8)
    || (ty == 0x9 && [0x84, 0xC4].contains off)
    || (ty == 0x7 && off == 0x44) || (ty == 0xD && off == 0x48)
    || (ty == 0x11 && [0x4C, 0x50, 0x70].contains off)
    || (ty == 0xC && off == 0x6C) || (ty == 0x4 && off == 0x84) || (ty == 0x3 && off == 0x408)
    || (ty == 0x13 && off == 0x44)

/-- The state an effect of a write leaves: none of them stops. -/
def effect (o : Host.Outcome State Fault Refusal) (s : State) : State :=
  match o with
  | .next t => t
  | _ => s

/-- The commands that are writes of one register, each of which acts where its own register is written. -/
def rowEffects : List (Access → Nat → State → Host.Outcome State Fault Refusal) :=
  [execBlkExpert, execSreset, execPerfClr, execPause, execPauseClear, execBlkErrClear, execPageCommit, execPageDiscard,
   execTxnListCmd, execRaise, execStrike, execRelease, execBayRunClear, execBayRunGo, execBayRunHalt, execBayTokenSet,
   execSqCfgWrite, execEqCfgWrite, fun a v => execHbHi a false v, execIdentSend, execRelearn, fun a v => execWainPost a false v,
   execAbort, execResume, execWainCqHead, execTallyAdd, execThmLeakClr, execLearnReset, execRebuild]

/-- A write of 4 bytes to a register with a command of its own does what that command does; BLK_CTRL is stored as well. -/
def writeOwn (s : State) (a : Access) (v : Nat) : State :=
  let s := atPlace s a fun s pl => if pl.off = 0x10 then storeReg s pl.key v else s
  rowEffects.foldl (fun s f => effect (f a v s) s) s

/-- A write of the 4 bytes at an address: a register, or a doorbell (R49, R304). -/
def writeWord (s : State) (a : Access) (v : Nat) : State :=
  if (doorbellAt s a 0x300 0x1000).isSome then effect (execSqDoorbell a v s) s
  else if (doorbellAt s a 0x340 0x2000).isSome then effect (execEqHeadDoorbell a v s) s
  else
    match place s a with
    | none => s
    | some pl =>
      if expertLocked s pl a.func then noteLocked s pl a.func
      else if ownRow (pageType pl.page) pl.off then writeOwn s a v else writeReg s a pl v

/-- A register write: an 8-byte write covers two registers, low offset in the low word (R41); it is discarded and counted where
no page is (R42). In the TALLY_IN window it is TALLY_BAD (R435). -/
def registerWrite (a : Access) (wide : Bool) (v : Nat) (s : State) : State :=
  if noAnswer s a then s
  else if inTallyWindow a then (if serving s then tallyBad s a.func (a.off % 0x1000) else s)
  else if unoccupied a then satIncr s K.sysUnmapped 1
  else
    let s := writeWord s a (v % 2 ^ 32)
    if wide then writeWord s { a with off := a.off + 4 } (v / 2 ^ 32 % 2 ^ 32) else s

def execRegisterWrite (a : Access) (wide : Bool) (v : Nat) (s : State) : Host.Outcome State Fault Refusal :=
  .next (registerWrite a wide v s)

end Sys2Proof.Machine
end

