-- ==== Sys2Proof/Machine/Press.lean ====
section
/-! DEFINITION. PRESS and WINNOW (R133-R139): operands from their descriptors, chunks (R101-R105), open accumulations and
what an END writes (R106, R107). -/

namespace Sys2Proof.Machine

/-! ### Operands -/

/-- A scaled row: its elements and block scales. -/
abbrev SRow := List (Num × Num)

/-- Rows r0 .. r0+n of an operand, k elements each, read through rdl (a line and a byte count). -/
def operandRows (rdl : Nat → Nat → Bytes) (d : OpDesc) (r0 n k : Nat) : List SRow :=
  let nb := if blockOf d.fmt = 0 then 0 else cdiv k (blockOf d.fmt)
  let plane := if nb = 0 then [] else rdl d.scale ((r0 + n) * nb * scaleBytes d.fmt)
  (List.range n).map fun i =>
    rowElems d.fmt (rdl (d.elem + (r0 + i) * d.pitch) (rowBytes d.fmt k)) plane (r0 + i) k 0 k

/-- Whether some LQT byte of an operand's rows is above 242 (R91). -/
def badTrits (rdl : Nat → Nat → Bytes) (d : OpDesc) (r0 n k : Nat) : Bool :=
  d.fmt == 0xD && (List.range n).any fun i =>
    (rdl (d.elem + (r0 + i) * d.pitch) (rowBytes d.fmt k)).any fun v => decide (242 < v.toNat)

/-- Post scales of rows r0 .. r0+n of an operand, as FP32 bits (R107). -/
def postScales (rdl : Nat → Nat → Bytes) (d : OpDesc) (r0 n : Nat) : List Nat :=
  let plane := if d.hasPost then rdl d.post (4 * (r0 + n)) else []
  (List.range n).map fun i => postScale d.fmt d.hasPost d.tscale (num plane (4 * (r0 + i)) 4)

/-- The chunk values of one output element over k elements, with how many chunks lost bits (R101, R104). -/
def dotChunks (fw fx : Nat) (w x : SRow) : List (Nat × Bool) :=
  ((chunksOf 256 w.length w).zip (chunksOf 256 x.length x)).map fun p => chunkVal fw fx p.1 p.2

/-- Chunk values of every element of W times X transposed, rows of W by rows of X. -/
def matChunks (fw fx : Nat) (w x : List SRow) : List (List (Nat × Bool)) := w.flatMap fun a => x.map fun b => dotChunks fw fx a b

/-- Chunks that lost bits, counted (R104, R150). -/
def countTrunc (s : State) (b : Nat) (cs : List (List (Nat × Bool))) : State :=
  setBay s b (addPerf (bay s b) 14 ((cs.map fun l => (l.filter (·.2)).length).sum))

/-- FP32 values row by row at a pitch of ceil(4n/64) lines (R136, R138). -/
def writePlane (x : Bay) (line cols : Nat) (vals : List Nat) : Bay :=
  ((List.range (cdiv vals.length cols)).foldl (fun x r =>
    bwrite x (line + r * linesOf (4 * cols)) (((vals.drop (r * cols)).take cols).flatMap (toLE 4))) x)

/-- The run values of an element's chunks whose first is chunk koff (R106). -/
def runValues (koff : Nat) (cs : List Nat) : List Nat :=
  if koff % 16 = 0 then runsOf cs
  else runSum (cs.take (16 - koff % 16)) :: runsOf (cs.drop (16 - koff % 16))

/-! ### PRESS (R134-R136) -/

/-- R135, R136: whether a word breaks the rules of its accumulation. -/
def pressSeqBad (x : Bay) (w : Nat) (d : OpDesc × OpDesc) : Bool :=
  let span := pressSpan x w
  prBegin w == x.acc.isSome
    || (match x.acc with
        | some a => a.m != prM w || a.n != prN w || a.cline != prC w || a.fw != d.1.fmt || a.fx != d.2.fmt
        | none => false)
    || (!prEnd w && prK w % 256 != 0)
    || (prEnd w && prOut w == 2 && (decide (16 < runsSpan span.1 span.2) || span.1 != 0))

/-- The code a PRESS word is refused with when its descriptor is read (R133, R135), or 0; its operands lie in the bay store. -/
def pressPre (s : State) (b w : Nat) : Nat :=
  let x := bay s b
  let d := pressDescs x w
  let rs := wordRanges s b x w
  if !d.1.ok || !d.2.ok then eBayBadWord
  else if !((rs.1 ++ rs.2).all fun r => decide (r.2 < 8192)) then eBayStoreRange
  else if !pressPair d.1.fmt d.2.fmt then eArithPair
  else if pressSeqBad x w d then eBayPressSeq
  else 0

/-- The accumulation after a PRESS word: chunk values appended per element of C (R135). -/
def pressAcc (x : Bay) (w : Nat) (d : OpDesc × OpDesc) (cs : List (List Nat)) : PressAcc :=
  match x.acc, prBegin w with
  | some a, false => { a with chunks := (a.chunks.zip cs).map fun p => p.1 ++ p.2 }
  | _, _ => { m := prM w, n := prN w, cline := prC w, fw := d.1.fmt, fx := d.2.fmt, koff := d.1.koff, chunks := cs }

/-- What an END writes (R136): nothing, one plane per run, or the final C with post scales. -/
def pressEnd (x : Bay) (a : PressAcc) (out : Nat) (pw px : List Nat) : Bay :=
  let x := { x with acc := none }
  if out = 1 then
    let rs := a.chunks.map (runValues a.koff)
    (List.range ((rs.headD []).length)).foldl (fun x r =>
      writePlane x (a.cline + r * a.m * linesOf (4 * a.n)) a.n (rs.map fun l => l.getD r 0)) x
  else if out = 2 then
    writePlane x a.cline a.n (((List.range a.chunks.length).zip a.chunks).map fun e =>
      applyPost (reduce106 e.2) (pw.getD (e.1 / a.n) 0) (px.getD (e.1 % a.n) 0))
  else x

/-- Press-cycles that a word takes, summed over the presses (R134, R150). -/
def pressBusy (w : Nat) (d : OpDesc × OpDesc) : Nat :=
  let t := tileH d.1.fmt d.2.fmt
  prK w * cdiv (prM w) t.1 * cdiv (prN w) t.2

/-- PRESS: the chunks of C = W·Xᵀ over KLEN join the open accumulation; END closes it. -/
def pressEff (s : State) (b : Nat) (q : QWord) : Except Nat State :=
  let w := q.word.toNat
  let x := bay s b
  let d := pressDescs x w
  let ws := operandRows (bread x) d.1 0 (prM w) (prK w)
  let xs := operandRows (bread x) d.2 0 (prN w) (prK w)
  let cs := matChunks d.1.fmt d.2.fmt ws xs
  let a := pressAcc x w d (cs.map fun l => l.map (·.1))
  let x' := if prEnd w then
      pressEnd x a (prOut w) (postScales (bread x) d.1 0 (prM w)) (postScales (bread x) d.2 0 (prN w))
    else { x with acc := some a }
  let s := countTrunc (setBay s b (addPerf x' 2 (pressBusy w d))) b cs
  let s := freePerf s b 3
  .ok (if badTrits (bread x) d.1 0 (prM w) (prK w) || badTrits (bread x) d.2 0 (prN w) (prK w) then
    recordErr s (bayPage b) eArithLqtByte x.owner 0 else s)

def execPress (b ecc : Nat) (s : State) : Host.Outcome State Fault Refusal :=
  .next (runReading s b ecc (isWord 3 0) pressPre pressEff)

/-! ### WINNOW (R137-R139) -/

/-- The code a WINNOW word is refused with when its descriptor is read (R133, R137, R138), or 0; a descriptor in the
reserved range fails the word itself (R17). -/
def winnowPre (s : State) (b w : Nat) : Nat :=
  if !allocatable (64 * wnDesc w) 64 then 0
  else
    let d := winnowDesc s b w
    if !d.ok || d.k = 0 || decide (262144 < d.k) || (wnOut w == 2 && d.koff != 0) then eBayBadWord
    else if decide (2048 < wnVecs w * vecPitch (wnFmtx w) d.k) || outOfStore (wordRanges s b (bay s b) w) then eBayStoreRange
    else if !winnowPair d.fmt (wnFmtx w) then eArithPair
    else 0

/-- Granary line ranges of the weights, scales and post scales a WINNOW word reads: first byte and length. -/
def winnowReads (d : OpDesc) (r0 n : Nat) : List (Nat × Nat) :=
  let nb := if blockOf d.fmt = 0 then 0 else cdiv d.k (blockOf d.fmt)
  let sb := scaleBytes d.fmt
  ((List.range n).map fun i => (64 * (d.elem + (r0 + i) * d.pitch), rowBytes d.fmt d.k))
    ++ (if nb = 0 then [] else [(64 * d.scale + r0 * nb * sb, n * nb * sb)])
    ++ (if d.hasPost then [(64 * d.post + 4 * r0, 4 * n)] else [])

/-- Weight bytes of one row, block scales included (R139). -/
def rowIntake (d : OpDesc) : Nat :=
  rowBytes d.fmt d.k + (if blockOf d.fmt = 0 then 0 else cdiv d.k (blockOf d.fmt) * scaleBytes d.fmt)

/-- WINNOW: weight rows from the granary times activation vectors from the vector file. -/
def winnowEff (s : State) (b : Nat) (q : QWord) : Except Nat State :=
  let w := q.word.toNat
  let x := bay s b
  if !allocatable (64 * wnDesc w) 64 then .error eMemRange
  else
    let d := winnowDesc s b w
    let reads := winnowReads d (wnRow0 w) (wnRows w)
    if !(reads.all fun r => allocatable r.1 r.2) then .error eMemRange
    else if poisonedIn s (64 * wnDesc w) 64 || reads.any (fun r => poisonedIn s r.1 r.2) then .error ePoison
    else
      let rdg := fun (line n : Nat) => greadOf s b (64 * line) n
      let ws := operandRows rdg d (wnRow0 w) (wnRows w) d.k
      let p := vecPitch (wnFmtx w) d.k
      let xs := (List.range (wnVecs w)).map fun v =>
        rowElems (wnFmtx w) (bread x (8192 + wnV w + v * p) (rowBytes (wnFmtx w) d.k)) [] 0 d.k 0 d.k
      let cs := xs.flatMap fun v => ws.map fun r => dotChunks d.fmt (wnFmtx w) r v
      let vals := cs.map fun l => l.map (·.1)
      let post := postScales rdg d (wnRow0 w) (wnRows w)
      let x' := if wnOut w = 2 then
          writePlane x (wnO w) (wnRows w) (((List.range vals.length).zip vals).map fun e =>
            applyPost (reduce106 e.2) (post.getD (e.1 % wnRows w) 0) 0x3F800000)
        else
          let rs := vals.map (runValues d.koff)
          (List.range ((rs.headD []).length)).foldl (fun x r =>
            writePlane x (wnO w + r * wnVecs w * linesOf (4 * wnRows w)) (wnRows w) (rs.map fun l => l.getD r 0)) x
      let s := countTrunc (setBay s b (addPerf x' 6 (wnRows w * cdiv (rowIntake d) 12))) b cs
      let s := freePerf s b 7
      .ok (if badTrits rdg d (wnRow0 w) (wnRows w) d.k then recordErr s (bayPage b) eArithLqtByte x.owner 0 else s)

def execWinnow (b ecc : Nat) (s : State) : Host.Outcome State Fault Refusal :=
  .next (runReading s b ecc (isWord 4 0) winnowPre winnowEff)

end Sys2Proof.Machine
end

