-- ==== Sys2Proof/Machine/Vec.lean ====
section
/-! DEFINITION. The vector unit (R140-R143, R497): one effect over the word's operands, one command per VOP. -/

namespace Sys2Proof.Machine

/-! ### Reading and writing operands -/

/-- Elements of a VEC operand with their block scales: rows of rowlen in a block format, the scale plane on the line after
the element plane (notes/assumptions/13). -/
def vecElems (x : Bay) (line c n rowlen : Nat) : SRow :=
  let el := bread x line (planeBytes c n rowlen)
  if blockOf c = 0 then rowElems c el [] 0 n 0 n
  else
    let sc := bread x (line + linesOf (planeBytes c n rowlen)) (scalePlaneBytes c n rowlen)
    let k := min n rowlen
    (List.range (cdiv n rowlen)).flatMap fun r =>
      rowElems c (el.drop (r * rowBytes c rowlen)) sc r k 0 (min rowlen (n - r * rowlen))

/-- An operand of a format without scales widened to FP32 (R140). -/
def widened (x : Bay) (line c n : Nat) : List Num := (vecElems x line c n n).map fun p => r32 p.1

/-- The FP32 value at the start of a line. -/
def scalarAt (x : Bay) (line : Nat) : Num := dec32 (num (bread x line 4) 0 4)

/-- Element codes of values in a format without blocks, under CVT, and whether a NaN was lost (R93, R94, R98). -/
def narrowCodes (c cvt : Nat) (vs : List Num) : List Nat × Bool :=
  match elemFloat c with
  | some f => (vs.map (narrowFloat f cvt), false)
  | none =>
    let w := elemBits c
    (vs.map fun v => twos w (narrowInt (if c = 0xA then 127 else 7) (cvt % 2 == 1) v), vs.any isNan)

/-- The scale codes and element codes of a row in a block format (R96-R98); a short last block is padded with the zero code
(R89): all-zero bits, or trit digit 1. -/
def quantRow (c cvt st : Nat) (vs : List Num) : List Nat × List Nat :=
  let b := blockOf c
  let qs := (chunksOf b vs.length vs).map fun blk =>
    let q := if c = 0xC then quantLQ4 cvt st blk
      else if c = 0xD then ((quantLQT blk).1, (quantLQT blk).2.map fun t => (t + 1).toNat)
      else quantMX c cvt blk
    (q.1, q.2 ++ List.replicate (b - blk.length) (if c = 0xD then 1 else 0))
  (qs.map (·.1), qs.flatMap (·.2))

/-- Bytes of a row of element codes in a block format (R90, R91). -/
def packRow (c : Nat) (codes : List Nat) : Bytes :=
  if c = 0xD then (chunksOf 64 codes.length codes).flatMap fun b => packLQT (b.map fun d => (d : Int) - 1)
  else packBits (elemBits c) codes

/-- Write values to a VEC destination in a format under CVT; st is the LQ4 tensor scale. Answers whether a NaN was lost. -/
def vecWrite (x : Bay) (line c cvt st rowlen : Nat) (vs : List Num) : Bay × Bool :=
  if blockOf c = 0 then
    let r := narrowCodes c cvt vs
    (bwrite x line (packBits (elemBits c) r.1), r.2)
  else
    let rows := (chunksOf rowlen vs.length vs).map (quantRow c cvt st)
    let el := rows.flatMap fun r => packRow c r.2
    let sc := rows.flatMap fun r => r.1.flatMap (toLE (scaleBytes c))
    (bwrite (bwrite x line el) (line + linesOf el.length) sc, false)

/-! ### Functions (R141-R143) -/

/-- Values rounded once to FP32. -/
def rne (v : Num) : Num := r32 v

/-- f(A) of the one-operand functions (R141, R142). -/
def unaryFn : Nat → Num → Num
  | 0x10, v => fExp2 v
  | 0x11, v => fLog2 v
  | 0x12, v => fRecip v
  | 0x13, v => fRsqrt v
  | 0x14, v => fTanh v
  | 0x15, v => fGelu v
  | 0x16, v => fSilu v
  | _, v => if isNan v then .nan else if nlt (.fin false 0) v then v else .fin false 0

/-- The two-operand functions (R141). -/
def binaryFn : Nat → Num → Num → Num
  | 1, a, b => rne (nadd a b)
  | 2, a, b => rne (nadd a (nneg b))
  | 3, a, b => rne (nmul a b)
  | 5, a, b => nmax a b
  | 6, a, b => nmin a b
  | 7, a, b => rne (nmul a b)
  | _, a, b => rne (nadd a b)

/-- A row's maximum (R141). -/
def rowMax : List Num → Num
  | [] => .fin false 0
  | v :: vs => vs.foldl nmax v

/-- ARGMAX of a row: index and value (R143). -/
def argmaxRow (vs : List Num) : Nat × Num :=
  match (List.range vs.length).find? fun i => isNan (vs.getD i .nan) with
  | some i => (i, .nan)
  | none =>
    let i := (List.range vs.length).foldl (fun m j => if nlt (vs.getD m .nan) (vs.getD j .nan) then j else m) 0
    (i, vs.getD i .nan)

/-- The tree of R106 over elements as leaves, on values. -/
def sumLeaves (vs : List Num) : Num := dec32 (reduce106 (vs.map (encNum fp32)))

/-- CVT widened (R497): block scales, the LQ4 tensor scale and channel scales of FIN applied. -/
def cvtWiden (x : Bay) (w : Nat) : List Num :=
  let c := vFin w
  let es := vecElems x (vLine w 0) c (vCount w) (vRowlen w)
  if c = 0xC then
    let ts := scalarAt x (vLine w 1)
    es.map fun p => rne (nmul (nmul p.1 p.2) ts)
  else if c = 0xA || c = 0xB then
    let sc := bread x (vLine w 1) (4 * vRows w)
    ((List.range es.length).zip es).map fun e => rne (nmul e.2.1 (dec32 (num sc (4 * (e.1 / vRowlen w)) 4)))
  else es.map fun p => rne (nmul p.1 p.2)

/-- Values divided by the channel scales of an INT8 or INT4 target (R98). -/
def cvtUnscale (x : Bay) (w : Nat) (vs : List Num) : List Num :=
  if vFout w = 0xA || vFout w = 0xB then
    let sc := bread x (vLine w 1 + cvtScaleLines (vFin w) (vRows w)) (4 * vRows w)
    ((List.range vs.length).zip vs).map fun e => rne (ndiv e.2 (dec32 (num sc (4 * (e.1 / vRowlen w)) 4)))
  else vs

/-- The LQ4 tensor scale of a CVT target. -/
def cvtTscale (x : Bay) (w : Nat) : Nat := num (bread x (vLine w 1 + cvtScaleLines (vFin w) (vRows w)) 4) 0 4

/-- The values a VEC word other than CVT and ARGMAX computes. -/
def vecValues (x : Bay) (w : Nat) : List Num :=
  let v := vVop w
  let n := vCount w
  let rl := vRowlen w
  let a := if v = 0x23 then [] else widened x (vLine w 0) (vFin w) n
  if v = 0x23 then
    (List.range n).map fun i => dec32 (treeSum ((List.range rl).map fun p =>
      num (bread x (vLine w 0 + p * linesOf (4 * n)) (4 * n)) (4 * i) 4))
  else if v = 0x20 then (chunksOf rl n a).map sumLeaves
  else if v = 0x21 then (chunksOf rl n a).map rowMax
  else if v = 7 || v = 8 then a.map fun e => binaryFn v e (scalarAt x (vLine w 1))
  else if 0x10 ≤ v then a.map (unaryFn v)
  else
    let b := widened x (vLine w 1) (vFin w) n
    if v = 4 then
      let d := widened x (vLine w 2) (vFout w) n
      (a.zip (b.zip d)).map fun t => rne (nadd (nmul t.1 t.2.1) t.2.2)
    else (a.zip b).map fun t => binaryFn v t.1 t.2

/-- Whether a VEC word reads an LQT byte above 242 (R91). -/
def vecBadTrits (x : Bay) (w : Nat) : Bool :=
  vFin w == 0xD && (bread x (vLine w 0) (planeBytes 0xD (vCount w) (vRowlen w))).any fun v => decide (242 < v.toNat)

/-- VEC: D from A and B, one VOP (R140, R141). ARGMAX writes its FP32 value as it stands, infinities kept, whatever CVT holds
(DESIGN CHOICE, notes/assumptions/180). -/
def vecEff (s : State) (b : Nat) (q : QWord) : Except Nat State :=
  let w := q.word.toNat
  let x := bay s b
  let d := vLine w 2
  let r : Bay × Bool :=
    if vVop w = 0 then vecWrite x d (vFout w) (vCvt w) (cvtTscale x w) (vRowlen w) (cvtUnscale x w (cvtWiden x w))
    else if vVop w = 0x22 then
      let rows := (chunksOf (vRowlen w) (vCount w) (widened x (vLine w 0) (vFin w) (vCount w))).map argmaxRow
      (bwrite x d (rows.flatMap fun p => toLE 4 p.1 ++ toLE 4 (encNum fp32 p.2)), false)
    else vecWrite x d (vFout w) (vCvt w) 0 (vRowlen w) (vecValues x w)
  let s := setBay s b (addPerf r.1 8 (cdiv (vCount w) 64))
  let s := if r.2 then recordErr s (bayPage b) eArithNanLost x.owner 0 else s
  .ok (if vecBadTrits x w then recordErr s (bayPage b) eArithLqtByte x.owner 0 else s)

/-- A VEC word of a VOP. -/
def isVec (vop w : Nat) : Bool := isWord 5 0 w && vVop w == vop

/-- Run a VEC word of a VOP at the head of the queue. -/
def runVec (s : State) (b vop ecc : Nat) : State := runReading s b ecc (isVec vop) noPre vecEff

/-- VOP 0x00 CVT (R141). -/
def execCvt (b ecc : Nat) (s : State) : Host.Outcome State Fault Refusal := .next (runVec s b 0x00 ecc)

/-- VOP 0x01 ADD (R141). -/
def execAdd (b ecc : Nat) (s : State) : Host.Outcome State Fault Refusal := .next (runVec s b 0x01 ecc)

/-- VOP 0x02 SUB (R141). -/
def execSub (b ecc : Nat) (s : State) : Host.Outcome State Fault Refusal := .next (runVec s b 0x02 ecc)

/-- VOP 0x03 MUL (R141). -/
def execMul (b ecc : Nat) (s : State) : Host.Outcome State Fault Refusal := .next (runVec s b 0x03 ecc)

/-- VOP 0x04 FMA (R141). -/
def execFma (b ecc : Nat) (s : State) : Host.Outcome State Fault Refusal := .next (runVec s b 0x04 ecc)

/-- VOP 0x05 MAX (R141). -/
def execMax (b ecc : Nat) (s : State) : Host.Outcome State Fault Refusal := .next (runVec s b 0x05 ecc)

/-- VOP 0x06 MIN (R141). -/
def execMin (b ecc : Nat) (s : State) : Host.Outcome State Fault Refusal := .next (runVec s b 0x06 ecc)

/-- VOP 0x07 MULS (R141). -/
def execMuls (b ecc : Nat) (s : State) : Host.Outcome State Fault Refusal := .next (runVec s b 0x07 ecc)

/-- VOP 0x08 ADDS (R141). -/
def execAdds (b ecc : Nat) (s : State) : Host.Outcome State Fault Refusal := .next (runVec s b 0x08 ecc)

/-- VOP 0x10 EXP2 (R141). -/
def execExp2 (b ecc : Nat) (s : State) : Host.Outcome State Fault Refusal := .next (runVec s b 0x10 ecc)

/-- VOP 0x11 LOG2 (R141). -/
def execLog2 (b ecc : Nat) (s : State) : Host.Outcome State Fault Refusal := .next (runVec s b 0x11 ecc)

/-- VOP 0x12 RECIP (R141). -/
def execRecip (b ecc : Nat) (s : State) : Host.Outcome State Fault Refusal := .next (runVec s b 0x12 ecc)

/-- VOP 0x13 RSQRT (R141). -/
def execRsqrt (b ecc : Nat) (s : State) : Host.Outcome State Fault Refusal := .next (runVec s b 0x13 ecc)

/-- VOP 0x14 TANH (R141). -/
def execTanh (b ecc : Nat) (s : State) : Host.Outcome State Fault Refusal := .next (runVec s b 0x14 ecc)

/-- VOP 0x15 GELU (R141). -/
def execGelu (b ecc : Nat) (s : State) : Host.Outcome State Fault Refusal := .next (runVec s b 0x15 ecc)

/-- VOP 0x16 SILU (R141). -/
def execSilu (b ecc : Nat) (s : State) : Host.Outcome State Fault Refusal := .next (runVec s b 0x16 ecc)

/-- VOP 0x17 RELU (R141). -/
def execRelu (b ecc : Nat) (s : State) : Host.Outcome State Fault Refusal := .next (runVec s b 0x17 ecc)

/-- VOP 0x20 RSUM (R141). -/
def execRsum (b ecc : Nat) (s : State) : Host.Outcome State Fault Refusal := .next (runVec s b 0x20 ecc)

/-- VOP 0x21 RMAX (R141). -/
def execRmax (b ecc : Nat) (s : State) : Host.Outcome State Fault Refusal := .next (runVec s b 0x21 ecc)

/-- VOP 0x22 ARGMAX (R141). -/
def execArgmax (b ecc : Nat) (s : State) : Host.Outcome State Fault Refusal := .next (runVec s b 0x22 ecc)

/-- VOP 0x23 TREE (R141). -/
def execTree (b ecc : Nat) (s : State) : Host.Outcome State Fault Refusal := .next (runVec s b 0x23 ecc)

end Sys2Proof.Machine
end

