-- ==== Sys2Proof/Machine/Composite.lean ====
section
/-! DEFINITION. What ATTN and CONV composites share (R129, R132, R153-R156, R196-R202): they start at issue, work through
their rows, stop at a halt or at a row that fails, and write STATUS as their last granary write. -/

namespace Sys2Proof.Machine

/-- STATUS (R156, R202). -/
def statusBytes (done empty halted poison range : Bool) (code rows : Nat) : Bytes :=
  toLE 8 (b2n done + 2 * b2n empty + 4 * b2n halted + 8 * b2n poison + 16 * b2n range + 2 ^ 16 * code + 2 ^ 32 * rows)

/-- A composite ends: STATUS is written and the composite's word waits for that write (R156). -/
def endComposite (s : State) (b : Nat) (c : Composite) (status : Bytes) : State :=
  let s := gwrite s b (64 * c.desc + 0x78) status
  let x := bay s b
  setBay s b { x with
    comp := none
    issued := x.issued.map fun i => if i.eng = .composite then { i with bound := s.nextId } else i }

/-- All rows are done. EMPTY says that every output was empty (R159, R202). -/
def finishComposite (s : State) (b : Nat) (c : Composite) (empty : Bool) : State :=
  endComposite s b c (statusBytes true empty false c.poison c.range 0 c.full)

/-- A row fails: STATUS carries the code and the bay enters ERROR (R172, R201). -/
def failComposite (s : State) (b : Nat) (c : Composite) (code : Nat) : State :=
  bayError (endComposite s b c (statusBytes false false false c.poison c.range code c.full)) b code c.addr

/-- A halt stops the composite at the end of a row (R156, R202). -/
def haltComposite (s : State) (b : Nat) (c : Composite) : State :=
  endComposite s b c (statusBytes false false true c.poison c.range 0 c.full)

/-- Engine cycles of a composite's row (R150), whose number the spec does not give. -/
def countRow (s : State) (b : Nat) : State :=
  let uses := (bay s b).issued.flatMap (·.uses)
  let s := if uses.contains .press then freePerf (freePerf s b 2) b 3 else s
  let s := if uses.contains .winnow then freePerf (freePerf s b 6) b 7 else s
  if uses.contains .vec then freePerf s b 8 else s

/-- What a composite does: how many rows it has, the wait before a row, the row, and how it ends. -/
structure Works where
  total : Composite → Nat
  wait : State → Nat → Composite → State × Composite
  row : State → Nat → Composite → Except Nat (State × Composite)
  finish : State → Nat → Composite → State

/-- Up to n rows of the composite that runs in a bay. -/
def runRows (k : Works) (b : Nat) : Nat → State → State
  | 0, s =>
    match (bay s b).comp with
    | some c => if k.total c ≤ c.next && !(bay s b).halting then k.finish s b c else s
    | none => s
  | n + 1, s =>
    match (bay s b).comp with
    | none => s
    | some c =>
      if (bay s b).halting || c.waiting then s
      else if k.total c ≤ c.next then k.finish s b c
      else
        let w := k.wait s b c
        let s := setBay w.1 b { bay w.1 b with comp := some w.2 }
        if w.2.waiting then s
        else match k.row s b w.2 with
          | .ok (s, c) => runRows k b n (countRow (setBay s b { bay s b with comp := some c }) b)
          | .error code => failComposite s b w.2 code

/-- The epoch that the word at the head takes (R76). -/
def issueEpoch (s : State) (b : Nat) : Nat :=
  let x := bay s b
  if x.stepHeld then x.epoch.getD 0 else rd s K.txnEpoch

/-- A composite row of a bay: the head word issues if it is the one meant and none runs, then up to n rows are done, none while
the composite waits for a scarf token (R174). -/
def compositeRow (s : State) (b n cls op : Nat) (pre : State → Nat → Nat → Nat)
    (start : State → Nat → QWord → Except Nat State) (k : Works) : State :=
  match (bay s b).comp with
  | some c =>
    if c.cls ≠ cls || c.op ≠ op then runHead s b (isWord cls op) pre start
    else if c.waiting && !(bay s b).halting then s
    else runRows k b n s
  | none => runRows k b n (runHead s b (isWord cls op) pre start)

/-- A bay that is halting: its composite stops, and once every issued word has completed a RUNNING bay is HALTED (R132). -/
def haltComplete (s : State) (b : Nat) : State :=
  let x := bay s b
  if !x.halting then s
  else match x.comp with
    | some c => haltComposite s b c
    | none => if x.st = .running && x.issued.isEmpty then bayHalted s b 0 else s

def execHaltComplete (b : Nat) (s : State) : Host.Outcome State Fault Refusal := .next (haltComplete s b)

end Sys2Proof.Machine
end

