-- ==== Sys2Proof/Machine/Attn.lean ====
section
/-! DEFINITION. The ATTN composite (R196-R217): descriptor and row records, the walk of page tables, scores and the
integer-max online softmax, APPEND, BACKWARD and COMBINE. -/

namespace Sys2Proof.Machine

/-! ### Descriptor and row records (R197-R200) -/

/-- An ATTN descriptor. -/
structure AttDesc where
  rowlist : Nat
  nrows : Nat
  pool : Nat
  layer : Nat
  h0 : Nat
  nh : Nat
  qfmt : Nat
  ofmt : Nat
  mask : Nat
  stats : Bool
  windowed : Bool
  partialOut : Bool
  qscale : Nat
  window : Nat
  run0 : Nat
  nrun : Nat
  cvt : Nat
  ok : Bool
deriving DecidableEq, Repr

/-- The descriptor that 128 bytes spell; ok says that no reserved bit is set (R197). -/
def attDesc (d : Bytes) : AttDesc :=
  let mode := num d 0xB 1
  { rowlist := num d 0 4, nrows := num d 4 2 + 1, pool := fld (num d 6 1) 2 0, layer := num d 7 1, h0 := num d 8 1
    nh := num d 9 1 + 1, qfmt := fld (num d 0xA 1) 3 0, ofmt := fld (num d 0xA 1) 7 4, mask := fld mode 1 0
    stats := bit mode 2, windowed := bit mode 3, partialOut := bit mode 4, qscale := num d 0xC 4
    window := fld (num d 0x10 4) 18 0, run0 := num d 0x14 1, nrun := num d 0x15 1 + 1, cvt := fld (num d 0x16 1) 1 0
    ok := fld (num d 6 1) 7 3 == 0 && fld mode 7 5 == 0 && fld (num d 0x10 4) 31 19 == 0 && fld (num d 0x16 1) 7 2 == 0
      && num d 0x17 97 == 0 }

/-- A row record (R198). -/
structure AttRow where
  pt : Nat
  q : Nat
  out : Nat
  q0 : Nat
  nq : Nat
  stats : Nat
  aux : Nat
  mask : Nat
  gkv : Nat
  ok : Bool
deriving DecidableEq, Repr

def attRow (r : Bytes) : AttRow :=
  let pos := num r 0xC 4
  { pt := num r 0 4, q := num r 4 4, out := num r 8 4, q0 := fld pos 17 0, nq := fld pos 29 18 + 1, stats := num r 0x10 4
    aux := num r 0x14 4, mask := num r 0x18 4, gkv := num r 0x1C 4, ok := fld pos 31 30 == 0 }

/-- Query and output formats that an OP takes (R197, R199, R200). -/
def attFmts (op : Nat) (d : AttDesc) : Bool :=
  (if op = 2 then d.qfmt == 0 || d.qfmt == 1 else d.qfmt == 0 || d.qfmt == 1 || d.qfmt == 3) && decide (d.ofmt ≤ 3)

/-- Fields of a descriptor that R200 refuses. A tree mask for BACKWARD is refused, since its places hold gradients
(notes/assumptions/20). -/
def attDescBad (s : State) (b op : Nat) (d : AttDesc) : Bool :=
  let g := geoOf s d.pool
  !d.ok || decide (1024 < d.nrows) || d.mask == 3 || !attFmts op d || decide (9 < d.nrun)
    || ((d.partialOut || op == 4) && decide (9 < d.run0 + d.nrun)) || (d.windowed && (d.window == 0 || decide (262144 < d.window)))
    || decide (g.l ≤ d.layer) || decide (g.hkv < d.h0 + d.nh) || (op == 1 && d.mask == 1) || (op == 3 && d.mask == 1)
    || (d.partialOut && decide (2 ≤ op)) || !kvEnabled s d.pool || !kvAllows s d.pool (bay s b).owner

/-- Fields of a row record that R200 refuses. -/
def attRowBad (op : Nat) (d : AttDesc) (r : AttRow) : Bool :=
  !r.ok || (op == 1 && decide (1 < r.nq)) || (d.mask == 1 && decide (64 < r.nq)) || decide (262144 < r.q0 + r.nq)

/-- The row records of a word. -/
def attRows (s : State) (b : Nat) (d : AttDesc) : List Bytes :=
  (List.range d.nrows).map fun i => greadOf s b (64 * d.rowlist + 32 * i) 32

/-- Whether a row's table header names another function or pool (R200). -/
def headerBad (s : State) (b ep : Nat) (d : AttDesc) (r : AttRow) : Bool :=
  let h := leNat (tpRead s ep (64 * r.pt) 8)
  allocatable (64 * r.pt) 1088 && !tpPoisoned s (64 * r.pt) 8 && (ptFunc h != (bay s b).owner || ptPool h != d.pool)

/-- The code an ATTN word is refused with when its descriptor and rows are read (R84, R200), or 0; what lies in the reserved
range or is poisoned fails the word itself. -/
def attPre (op : Nat) (s : State) (b w : Nat) : Nat :=
  let a := 64 * wnDesc w
  if !allocatable a 128 || poisonedIn s a 128 then 0
  else
    let d := attDesc (greadOf s b a 128)
    if !fmtOk d.qfmt || !fmtOk d.ofmt then eArithPair
    else if attDescBad s b op d then eAttDesc
    else if !allocatable (64 * d.rowlist) (32 * d.nrows) || poisonedIn s (64 * d.rowlist) (32 * d.nrows) then 0
    else
      let rows := (attRows s b d).map attRow
      if rows.any (attRowBad op d) then eAttDesc
      else if op != 4 && rows.any (headerBad s b (issueEpoch s b) d) then eKvTable
      else 0

/-- The word issues: the composite begins (R196). -/
def attStart (op : Nat) (s : State) (b : Nat) (q : QWord) : Except Nat State :=
  let w := q.word.toNat
  let a := 64 * wnDesc w
  if !allocatable a 128 then .error eMemRange
  else if poisonedIn s a 128 then .error ePoison
  else
    let d := attDesc (greadOf s b a 128)
    if !allocatable (64 * d.rowlist) (32 * d.nrows) then .error eMemRange
    else if poisonedIn s (64 * d.rowlist) (32 * d.nrows) then .error ePoison
    else
      let c : Composite :=
        { cls := 9, op := op, desc := wnDesc w, addr := q.addr, body := greadOf s b a 128, rows := attRows s b d
          epoch := issueEpoch s b }
      .ok (setBay s b { bay s b with comp := some c })

/-! ### What a row sees (R203, R204) -/

/-- Everything a row's computation reads besides the state: bay, table epoch, pool geometry, descriptor, row. -/
structure AttCtx where
  b : Nat
  ep : Nat
  g : Geo
  d : AttDesc
  r : AttRow
deriving DecidableEq, Repr

/-- The entry e of the row's page table. -/
def attEntry (s : State) (c : AttCtx) (e : Nat) : Nat := leNat (tpRead s c.ep (64 * c.r.pt + 8 * e) 8)

/-- Page positions visible to query i: from the first up to, not including, the second (R203). -/
def visible (c : AttCtx) (i : Nat) : Nat × Nat :=
  let q := c.r.q0 + i
  (if c.d.windowed then q + 1 - c.d.window else 0,
    match c.d.mask with
    | 0 => q + 1
    | 2 => c.r.q0 + c.r.nq
    | _ => c.r.q0)

/-- The run of an entry (R204), and whether the word computes that run (R208). -/
def runOf (e : Nat) : Nat := (e - 1) / 16
def inRuns (c : AttCtx) (r : Nat) : Bool := !c.d.partialOut || (decide (c.d.run0 ≤ r) && decide (r < c.d.run0 + c.d.nrun))

/-- Entries that hold a position some query sees, in runs the word computes. -/
def seenEntries (c : AttCtx) : List Nat :=
  ((List.range 136).drop 1).filter fun e => inRuns c (runOf e) && (List.range c.r.nq).any fun i =>
    let v := visible c i
    decide (v.1 < v.2) && decide (v.1 < ladderFirst e + pagePos (ladderSize e)) && decide (ladderFirst e < v.2)

/-- A key: the entry of its page (0 for a tree node), its stored K and V rows, their scales as FP32 bits, and whether any of
it is poisoned. -/
structure Key where
  e : Nat
  k : Bytes
  v : Bytes
  sk : Nat
  sv : Nat
  bad : Bool
deriving DecidableEq, Repr

/-- Bytes of one element row of the pool. -/
def AttCtx.rowLen (c : AttCtx) : Nat := c.g.d * c.g.b

/-- The scale at an address in an FP8 pool; 1.0 in a BF16 pool (R205). -/
def attScale (s : State) (c : AttCtx) (a : Nat) : Nat := if c.g.fp8 then leNat (greadOf s c.b a 4) else 0x3F800000

/-- The key of head h at position p, in the page that entry word v names (R179). -/
def pageKey (s : State) (c : AttCtx) (h e v p : Nat) : Key :=
  let base := 512 * peAddr v
  let at' := fun k => base + c.g.rowOff (ladderSize e) c.d.layer k h (p - ladderFirst e)
  let sc := fun k => base + c.g.scaleOff c.d.layer k h
  { e := e, k := greadOf s c.b (at' 0) c.rowLen, v := greadOf s c.b (at' 1) c.rowLen, sk := attScale s c (sc 0), sv := attScale s c (sc 1)
    bad := pePoisoned v || poisonedIn s (at' 0) c.rowLen || poisonedIn s (at' 1) c.rowLen ||
      (c.g.fp8 && (poisonedIn s (sc 0) 4 || poisonedIn s (sc 1) 4)) }

/-- Lines of a node record, and of its scale part (R199). -/
def AttCtx.nodeScales (c : AttCtx) : Nat := linesOf (8 * c.g.hkv)
def AttCtx.nodeLines (c : AttCtx) : Nat := c.nodeScales + 2 * c.g.hkv * cdiv c.rowLen 64

/-- Byte address of the element row of node n, and of its scale (R199). -/
def AttCtx.nodeRow (c : AttCtx) (n k h : Nat) : Nat :=
  64 * (c.r.aux + n * c.nodeLines + c.nodeScales + (k * c.g.hkv + h) * cdiv c.rowLen 64)
def AttCtx.nodeScale (c : AttCtx) (n k h : Nat) : Nat := 64 * (c.r.aux + n * c.nodeLines) + 4 * (k * c.g.hkv + h)

/-- The key of head h at tree node n. -/
def nodeKey (s : State) (c : AttCtx) (h n : Nat) : Key :=
  { e := 0, k := greadOf s c.b (c.nodeRow n 0 h) c.rowLen, v := greadOf s c.b (c.nodeRow n 1 h) c.rowLen
    sk := attScale s c (c.nodeScale n 0 h), sv := attScale s c (c.nodeScale n 1 h), bad := false }

/-- The mask of node i, and the position a node lies at (R199, R203). -/
def nodeMask (s : State) (c : AttCtx) (i : Nat) : Nat := leNat (greadOf s c.b (64 * c.r.mask + 8 * i) 8)
def popcount (m : Nat) : Nat := ((List.range 64).filter fun n => bit m n).length
def nodePos (s : State) (c : AttCtx) (n : Nat) : Nat := c.r.q0 + popcount (nodeMask s c n) - 1

/-- A block of keys: its run, and its positions in order, hidden ones with no key. -/
structure KBlock where
  run : Nat
  keys : List (Option Key)
deriving DecidableEq, Repr

/-- The blocks of page positions of query i for head h (R204). -/
def pageBlocks (s : State) (c : AttCtx) (h i : Nat) : List KBlock :=
  let vis := visible c i
  if vis.2 ≤ vis.1 then []
  else
    let e0 := ladder vis.1
    (List.range (ladder (vis.2 - 1) + 1 - e0)).flatMap fun j =>
      let e := e0 + j
      if !inRuns c (runOf e) then []
      else
        let v := attEntry s c e
        let n := min 128 (pagePos (ladderSize e))
        ((List.range (pagePos (ladderSize e) / n)).map fun k => ladderFirst e + k * n).filterMap fun p0 =>
          if p0 + n ≤ vis.1 || vis.2 ≤ p0 then none
          else some { run := runOf e, keys := (List.range n).map fun t =>
            let p := p0 + t
            if vis.1 ≤ p && p < vis.2 then some (pageKey s c h e v p) else none }

/-- The tree block of query i for head h, in the last run that holds a visible page position (R204). -/
def treeBlock (s : State) (c : AttCtx) (h i : Nat) : List KBlock :=
  if c.d.mask ≠ 1 then []
  else
    let vis := visible c i
    let run := if vis.1 < vis.2 then runOf (ladder (vis.2 - 1)) else 0
    let m := nodeMask s c i
    let keys := (List.range 64).map fun n =>
      if bit m n && decide (vis.1 ≤ nodePos s c n) then some (nodeKey s c h n) else none
    if inRuns c run && keys.any (·.isSome) then [{ run := run, keys := keys }] else []

/-! ### Scores and the online softmax (R205-R209) -/

/-- Format codes of the queries as they are multiplied, and of the pool's elements. -/
def AttCtx.qf (c : AttCtx) : Nat := if c.d.qfmt = 3 then 3 else 1
def AttCtx.kf (c : AttCtx) : Nat := if c.g.fp8 then 3 else 1

/-- The layout of a format code that has one. -/
def floatOf (c : Nat) : FloatFmt := (elemFloat c).getD fp32

/-- Element values of a row of n elements in a format without blocks. -/
def rowVals (c : Nat) (bs : Bytes) (n : Nat) : List Num := (List.range n).map fun k => elemAt c bs k

/-- Elements paired with a scale of one. -/
def unscaled (vs : List Num) : SRow := vs.map fun v => (v, .fin false 1)

/-- The query of head j: q times QSCALE, converted (R205, 1). -/
def scaledQ (c : AttCtx) (q : List Num) : List Num :=
  let f := floatOf c.qf
  q.map fun v => decFloat f (narrowFloat f 0 (r32 (nmul v (dec32 c.d.qscale))))

/-- A score (R205), as FP32 bits. -/
def score (c : AttCtx) (qh : List Num) (k : Key) : Nat :=
  mul32 (chunkVal c.qf c.kf (unscaled qh) (unscaled (rowVals c.kf k.k c.g.d))).1 k.sk

/-- Whether a score falls under the range rule of R209. -/
def scoreBad (x : Nat) : Bool :=
  match dec32 x with
  | .fin _ q => decide ((2 ^ 30 : Rat) ≤ q)
  | _ => true

/-- x times 2^k, exact or flushed to zero (R206, R207), and 1 when it was flushed. -/
def scale2 (x : Nat) (k : Int) : Nat × Nat :=
  match dec32 x with
  | .fin neg q =>
    if q = 0 then (x, 0)
    else
      let r := enc32 (.fin neg (q * pow2 (max (-400) (min 400 k))))
      (r, if isZeroN (dec32 r) then 1 else 0)
  | _ => (x, 0)

/-- The weight p of a score under an integer maximum (R206), and the flush count. -/
def weight (x : Nat) (m : Int) : Nat × Nat :=
  let q := finQ (dec32 x)
  scale2 (enc32 (fExp2 (ofRat (q - q.floor)))) (q.floor - m)

/-- The BF16 of a weight, widened (R206, 3). -/
def toBf16 (p : Nat) : Nat := enc32 (decFloat bf16 (narrowFloat bf16 0 (dec32 p)))

/-- A running state (R207). -/
structure Soft where
  m : Int
  l : Nat
  o : List Nat
deriving DecidableEq, Repr

/-- A state scaled by 2^-delta, with its flush count. -/
def Soft.down (t : Soft) (m : Int) : Soft × Nat :=
  let l := scale2 t.l (t.m - m)
  let o := t.o.map fun v => scale2 v (t.m - m)
  ({ m := m, l := l.1, o := o.map (·.1) }, l.2 + (o.map (·.2)).sum)

/-- The V scale that every key of a block has; none where they differ, which only a tree block can show. -/
def blockScale (keys : List (Option Key)) : Option Nat :=
  match keys.filterMap fun k => k.map (·.sv) with
  | [] => none
  | v :: vs => if vs.all (· == v) then some v else none

/-- FP32 bits as the module reads and writes them: a subnormal is zero, a NaN canonical (R86, R95). -/
def clean32 (v : Nat) : Nat := enc32 (dec32 v)

/-- What the values of a block's state depend on (R109): the state it is folded into, the query, the keys' rows and scales. -/
def blockData (st : Soft) (qh : List Num) (keys : List (Option Key)) : List Nat :=
  twos 32 st.m :: st.l :: st.o ++ qh.map enc32 ++ keys.flatMap fun k => match k with
    | some k => [1, leNat k.k, leNat k.v, k.sk, k.sv]
    | none => [0]

/-- Fold a block into a state (R207). The o elements of a tree block whose nodes have different V scales are stated by no
rule: they are free values of the block's data (notes/assumptions/21). -/
def foldBlock (c : AttCtx) (qh : List Num) (st : Option Soft) (keys : List (Option Key)) :
    Option Soft × Nat :=
  let scs := keys.map fun k => k.map (score c qh)
  match scs.filterMap id with
  | [] => (st, 0)
  | v :: vs =>
    let smax := vs.foldl (fun a x => max a (finQ (dec32 x))) (finQ (dec32 v))
    let mb := smax.ceil
    let start := match st with
      | none => (({ m := mb, l := 0, o := List.replicate c.g.d 0 } : Soft), 0)
      | some t => t.down (max t.m mb)
    let ps := scs.map fun x => match x with
      | some x => weight x start.1.m
      | none => (0, 0)
    let ph := ps.map fun p => toBf16 p.1
    let l := add32 start.1.l (reduce106 ph)
    let vals := keys.map fun k => match k with
      | some k => rowVals c.kf k.v c.g.d
      | none => []
    let o := match blockScale keys with
      | none => (List.range c.g.d).map fun j => clean32 (Config.dataValue (blockData start.1 qh keys) j)
      | some sv => (List.range c.g.d).map fun j =>
        let ob := chunkFma keys.length ph (vals.map fun r => enc32 (r.getD j (.fin false 0)))
        add32 (start.1.o.getD j 0) (mul32 ob sv)
    (some { m := start.1.m, l := l, o := o }, start.2 + (ps.map (·.2)).sum)

/-- Combine two states (R208). -/
def joinSoft (a b : Option Soft) : Option Soft × Nat :=
  match a, b with
  | none, b => (b, 0)
  | a, none => (a, 0)
  | some a, some b =>
    let x := a.down (max a.m b.m)
    let y := b.down (max a.m b.m)
    (some { m := x.1.m, l := add32 x.1.l y.1.l, o := (x.1.o.zip y.1.o).map fun p => add32 p.1 p.2 }, x.2 + y.2)

/-- One level of the pairwise tree over states, and its flush count. -/
def softLevel : List (Option Soft) → List (Option Soft) × Nat
  | a :: b :: rest =>
    let j := joinSoft a b
    let r := softLevel rest
    (j.1 :: r.1, j.2 + r.2)
  | l => (l, 0)

/-- The pairwise tree of R106 over run states (R208). -/
def softTree : Nat → List (Option Soft) → Option Soft × Nat
  | _, [] => (none, 0)
  | _, [t] => (t, 0)
  | 0, t :: _ => (t, 0)
  | n + 1, l =>
    let r := softLevel l
    let t := softTree n r.1
    (t.1, r.2 + t.2)

/-- What the keys of one query head gave: the state of each of the nine runs, and what was met on the way: the entries whose
pages were read poisoned among it. -/
structure HeadRes where
  runs : List (Option Soft)
  flush : Nat
  hit : List Nat
  seen : Bool
  bad : Bool
  range : Bool
deriving DecidableEq, Repr

/-- A state of the range rule (R209). -/
def nanSoft (d : Nat) : Soft := { m := 0x7FFFFFFF, l := nan32, o := List.replicate d nan32 }

/-- The state of a poisoned head: its outputs are NaN; its statistics are stated by no rule, free values of the query and its
keys (R217; notes/assumptions/22). -/
def poisonSoft (c : AttCtx) (qh : List Num) (keys : List Key) : Soft :=
  let ins := blockData (nanSoft 0) qh (keys.map some)
  { m := sext 32 (Config.dataValue ins 0 % 2 ^ 32), l := clean32 (Config.dataValue ins 1), o := List.replicate c.g.d nan32 }

/-- Attention of query i in head j (R203-R209), before the runs combine. -/
def headRuns (s : State) (c : AttCtx) (i j : Nat) : HeadRes :=
  let h := j / c.g.g
  let hq := c.g.hkv * c.g.g
  let lq := linesOf (rowBytes c.d.qfmt c.g.d)
  let q := rowVals c.d.qfmt (greadOf s c.b (64 * (c.r.q + (i * hq + j) * lq)) (rowBytes c.d.qfmt c.g.d)) c.g.d
  let qh := scaledQ c q
  let blocks := pageBlocks s c h i ++ treeBlock s c h i
  let keys := blocks.flatMap fun k => k.keys.filterMap id
  let bad := keys.any (·.bad)
  let range := keys.any fun k => scoreBad (score c qh k)
  if bad || range then
    let t := if bad then poisonSoft c qh keys else nanSoft c.g.d
    { runs := (List.range 9).map fun r => if inRuns c r then some t else none, flush := 0
      hit := (keys.filter (·.bad)).map (·.e), seen := !keys.isEmpty, bad := bad, range := range && !bad }
  else
    let per := (List.range 9).map fun r => (blocks.filter (·.run == r)).foldl (fun (a : Option Soft × Nat) k =>
      let f := foldBlock c qh a.1 k.keys
      (f.1, a.2 + f.2)) (none, 0)
    { runs := per.map (·.1), flush := (per.map (·.2)).sum, hit := [], seen := !keys.isEmpty, bad := false, range := false }

/-- The bytes of an output row (R209): o / l converted to OFMT under CVT. -/
def outRow (c : AttCtx) (t : Option Soft) : Bytes :=
  let f := floatOf c.d.ofmt
  let vals : List Num := match t with
    | none => List.replicate c.g.d (.fin false 0)
    | some t => t.o.map fun o => dec32 (div32 o t.l)
  packBits (elemBits c.d.ofmt) (vals.map (narrowFloat f c.d.cvt))

/-- Row statistics, or the head of a partial: m and l (R199, R208, R209). -/
def softHead (t : Option Soft) : Bytes :=
  match t with
  | none => toLE 4 0x80000000 ++ toLE 4 0
  | some t => toLE 4 (twos 32 t.m) ++ toLE 4 t.l

/-- Query heads of a word. -/
def AttCtx.heads (c : AttCtx) : List Nat := (List.range (c.g.g * c.d.nh)).map fun k => c.g.g * c.d.h0 + k
def AttCtx.hq (c : AttCtx) : Nat := c.g.hkv * c.g.g

/-- Where the output of query i in head j goes, and its statistics (R199). -/
def AttCtx.outAt (c : AttCtx) (i j : Nat) : Nat := 64 * (c.r.out + (i * c.hq + j) * linesOf (rowBytes c.d.ofmt c.g.d))
def AttCtx.statsAt (c : AttCtx) (i j : Nat) : Nat := 64 * c.r.stats + 8 * (i * c.hq + j)
/-- The partial of run r (R199). -/
def AttCtx.partAt (c : AttCtx) (r i j : Nat) : Nat :=
  64 * (c.r.aux + ((r * c.r.nq + i) * c.hq + j) * linesOf (8 + 4 * c.g.d))

/-- Write the final state of a query head (R209). -/
def writeOut (s : State) (c : AttCtx) (i j : Nat) (t : Option Soft) : State :=
  let s := gwrite s c.b (c.outAt i j) (outRow c t)
  if c.d.stats then gwrite s c.b (c.statsAt i j) (softHead t) else s

/-- Write what a query head gave: partials per run, or the output. -/
def writeHead (s : State) (c : AttCtx) (i j : Nat) (r : HeadRes) : State :=
  if c.d.partialOut then
    ((List.range 9).filter (inRuns c)).foldl (fun s n =>
      let t := r.runs.getD n none
      gwrite s c.b (c.partAt n i j) (softHead t ++ ((t.map (·.o)).getD (List.replicate c.g.d 0)).flatMap (toLE 4))) s
  else if r.bad then
    let s := gwrite s c.b (c.outAt i j) (packBits (elemBits c.d.ofmt) (List.replicate c.g.d (nanBits (floatOf c.d.ofmt))))
    if c.d.stats then gwrite s c.b (c.statsAt i j) (softHead (r.runs.getD 0 none)) else s
  else writeOut s c i j (softTree 9 r.runs).1

/-- Flushes of the combination of a head's runs (R208). -/
def joinFlush (c : AttCtx) (r : HeadRes) : Nat := if c.d.partialOut || r.bad then 0 else (softTree 9 r.runs).2

/-! ### Checks of a row (R201, R217) -/

/-- The code that an entry stops a row with (R201), or 0. -/
def entryCode (s : State) (c : AttCtx) (pages e : Nat) (write : Bool) : Nat :=
  let v := attEntry s c e
  if tpPoisoned s (64 * c.r.pt + 8 * e) 8 then ePoison
  else if pages < e || !peValid v || peSize v ≠ ladderSize e then eKvTable
  else if peSwapped v then eKvSwapped
  else if write && peCow v then eKvCowWrite
  else if !allocatable (512 * peAddr v) (c.g.pageBytes (ladderSize e)) then eMemRange
  else 0

/-- The first code among those of a row's entries, or 0. -/
def walkCode (s : State) (c : AttCtx) (es : List Nat) (write : Bool) : Nat :=
  if !allocatable (64 * c.r.pt) 1088 then eMemRange
  else if tpPoisoned s (64 * c.r.pt) 8 then ePoison
  else
    let pages := ptPages (attEntry s c 0)
    (es.map fun e => entryCode s c pages e write).foldl (fun a v => if a = 0 then v else a) 0

/-- The code that a row's other reads and writes stop it with (R17, R487), or 0: byte ranges read and written. -/
def spanCode (s : State) (rd wr : List (Nat × Nat)) : Nat :=
  if !((rd ++ wr).all fun p => allocatable p.1 p.2) then eMemRange
  else if rd.any fun p => poisonedIn s p.1 p.2 then ePoison
  else 0

/-- Byte range of rows i of the heads of a word in a tensor of ln lines and n bytes per head (R199). -/
def AttCtx.tensor (c : AttCtx) (line fmtBytes : Nat) : List (Nat × Nat) :=
  (List.range c.r.nq).map fun i =>
    let ln := linesOf fmtBytes
    (64 * (line + (i * c.hq + c.g.g * c.d.h0) * ln), 64 * ln * (c.g.g * c.d.nh - 1) + fmtBytes)

/-- Statistics of a row, tree masks and tree nodes, and its partials, as byte ranges. -/
def AttCtx.statsRange (c : AttCtx) : List (Nat × Nat) :=
  (List.range c.r.nq).map fun i => (c.statsAt i (c.g.g * c.d.h0), 8 * (c.g.g * c.d.nh))
def AttCtx.treeRange (c : AttCtx) (nodes : Bool) : List (Nat × Nat) :=
  if c.d.mask ≠ 1 then []
  else (64 * c.r.mask, 8 * c.r.nq) :: (if nodes then [(64 * c.r.aux, 64 * c.r.nq * c.nodeLines)] else [])
def AttCtx.partRange (c : AttCtx) : List (Nat × Nat) :=
  (List.range c.d.nrun).flatMap fun k => (List.range c.r.nq).map fun i =>
    let n := 8 + 4 * c.g.d
    (c.partAt (c.d.run0 + k) i (c.g.g * c.d.h0), 64 * linesOf n * (c.g.g * c.d.nh - 1) + n)

/-- The pages that a row read poisoned, by their entries, remembered for the KV manager (R217). -/
def markPages (s : State) (c : AttCtx) (hit : List Nat) : State :=
  { s with kvMarks := s.kvMarks ++ hit.dedup.map fun e => (c.d.pool, c.g.unitOf (512 * peAddr (attEntry s c e))) }

/-- One more row is done: ATT_ROWS, and what the row met (R202, R217, R222). -/
def rowDone (s : State) (c : Composite) (seen bad range : Bool) : State × Composite :=
  let s := satIncr s K.attRows 1
  let s := if bad then satIncr s K.attPoison 1 else s
  (s, { c with next := c.next + 1, full := c.full + 1, seen := c.seen || seen, poison := c.poison || bad, range := c.range || range })

/-- Heads that met the range rule: ATT_RANGE is counted for each and recorded in the bay's page (R209). -/
def noteRange (s : State) (b n : Nat) : State :=
  (List.range n).foldl (fun s _ => recordErr (satIncr s K.attRange 1) (bayPage b) eAttRange (bay s b).owner 0) s

/-- The context of the row a composite is at. -/
def attCtx (s : State) (b : Nat) (c : Composite) : AttCtx :=
  let d := attDesc c.body
  { b := b, ep := c.epoch, g := geoOf s d.pool, d := d, r := attRow (c.rows.getD c.next []) }

/-- PREFILL and DECODE: one row (R203-R211). -/
def attendRow (s : State) (b : Nat) (c : Composite) : Except Nat (State × Composite) :=
  let k := attCtx s b c
  let es := seenEntries k
  let code := walkCode s k es false
  let reads := k.tensor k.r.q (rowBytes k.d.qfmt k.g.d) ++ k.treeRange true
  let writes := if k.d.partialOut then k.partRange
    else k.tensor k.r.out (rowBytes k.d.ofmt k.g.d) ++ (if k.d.stats then k.statsRange else [])
  let code := if code ≠ 0 then code else spanCode s reads writes
  if code ≠ 0 then .error code
  else
    let hs := (List.range k.r.nq).flatMap fun i => k.heads.map fun j => (i, j)
    let res := hs.map fun p => (p, headRuns s k p.1 p.2)
    let s1 := res.foldl (fun t p => writeHead t k p.1.1 p.1.2 p.2) s
    let s1 := satIncr s1 K.attFlush ((res.map fun p => p.2.flush + joinFlush k p.2).sum)
    let s1 := noteRange s1 b (res.filter (·.2.range)).length
    let bad := res.any (·.2.bad)
    let s1 := markPages s1 k (res.flatMap (·.2.hit))
    .ok (rowDone s1 c (res.any (·.2.seen)) bad (res.any (·.2.range)))

/-! ### COMBINE (R208) -/

/-- The state a partial holds, read as R86 and R95 say. -/
def partSoft (s : State) (c : AttCtx) (r i j : Nat) : Option Soft :=
  let bs := greadOf s c.b (c.partAt r i j) (8 + 4 * c.g.d)
  if num bs 0 4 = 0x80000000 then none
  else some { m := sext 32 (num bs 0 4), l := clean32 (num bs 4 4), o := (List.range c.g.d).map fun d => clean32 (num bs (8 + 4 * d) 4) }

/-- COMBINE: one row. -/
def combineRow (s : State) (b : Nat) (c : Composite) : Except Nat (State × Composite) :=
  let k := attCtx s b c
  let writes := k.tensor k.r.out (rowBytes k.d.ofmt k.g.d) ++ (if k.d.stats then k.statsRange else [])
  let code := spanCode s k.partRange writes
  if code ≠ 0 then .error code
  else
    let hs := (List.range k.r.nq).flatMap fun i => k.heads.map fun j => (i, j)
    let res := hs.map fun p => (p, softTree 9 ((List.range 9).map fun r => if k.d.run0 ≤ r && r < k.d.run0 + k.d.nrun then partSoft s k r p.1 p.2 else none))
    let s1 := res.foldl (fun t p => writeOut t k p.1.1 p.1.2 p.2.1) s
    let s1 := satIncr s1 K.attFlush ((res.map (·.2.2)).sum)
    .ok (rowDone s1 c (res.any (·.2.1.isSome)) false false)

/-! ### APPEND (R181, R213) -/

/-- The FP8 scale of a head's source values (R181). -/
def kvScale (headroom : Nat) (vs : List Num) : Nat :=
  let a := amax vs
  enc32 (ofRat ((if a = 0 then 1 else a) * (2 ^ headroom : Nat) / 448))

/-- A source row converted to the pool format under a scale: element bytes and saturated elements (R181, R213). -/
def kvRow (c : AttCtx) (scale : Nat) (vs : List Num) : Bytes × Nat :=
  if c.g.fp8 then
    let ys := vs.map fun v => r32 (ndiv v (dec32 scale))
    (packBits 8 (ys.map (narrowFloat e4m3 0)), (ys.filter fun y => match y with
      | .fin _ q => decide ((448 : Rat) < q)
      | .inf _ => true
      | .nan => false).length)
  else (packBits 16 (vs.map (narrowFloat bf16 0)), 0)

/-- The source values of position i, kind k, head h (R199), as FP32 values. -/
def sourceRow (s : State) (c : AttCtx) (i k h : Nat) : List Num :=
  let n := rowBytes c.d.qfmt c.g.d
  (rowVals c.d.qfmt (greadOf s c.b (64 * (c.r.q + ((i * 2 + k) * c.g.hkv + h) * linesOf n)) n) c.g.d).map r32

/-- Kinds and heads that an APPEND writes. -/
def AttCtx.kindHeads (c : AttCtx) : List (Nat × Nat) :=
  (List.range 2).flatMap fun k => (List.range c.d.nh).map fun h => (k, c.d.h0 + h)

/-- Canonical NaNs in the pool format: what a poisoned page's elements become (R217; notes/assumptions/23). -/
def nanRow (c : AttCtx) : Bytes := packBits (8 * c.g.b) (List.replicate c.g.d (nanBits (floatOf c.kf)))

/-- Where the scale of a position's page comes from: whether its first position is written by the row (R213). -/
def scaleHere (c : AttCtx) (p : Nat) : Bool := decide (c.r.q0 ≤ ladderFirst (ladder p))

/-- Write one position, kind and head of an APPEND into its page; and the entry, where the page is poisoned. -/
def appendOne (s0 s : State) (c : AttCtx) (i k h : Nat) : State × List Nat :=
  let p := c.r.q0 + i
  let e := ladder p
  let v := attEntry s0 c e
  let base := 512 * peAddr v
  let sa := base + c.g.scaleOff c.d.layer k h
  let dst := base + c.g.rowOff (ladderSize e) c.d.layer k h (p - ladderFirst e)
  let here := scaleHere c p
  let sc := if here then kvScale (kvHeadroom s0 c.d.pool) (sourceRow s0 c (ladderFirst e - c.r.q0) k h) else attScale s0 c sa
  let bad := pePoisoned v || (c.g.fp8 && !here && poisonedIn s0 sa 4)
  let s := if c.g.fp8 && p = ladderFirst e then gwrite s c.b sa (toLE 4 sc) else s
  let r := kvRow c sc (sourceRow s0 c i k h)
  if bad then (gwrite s c.b dst (nanRow c), [e])
  else (satIncr (gwrite s c.b dst r.1) K.attKvSat r.2, [])

/-- Whether a page whose first position is not written has a scale of +0 (R213). -/
def zeroScale (s : State) (c : AttCtx) (e : Nat) : Bool :=
  c.g.fp8 && decide (ladderFirst e < c.r.q0) && c.kindHeads.any fun p =>
    let a := 512 * peAddr (attEntry s c e) + c.g.scaleOff c.d.layer p.1 p.2
    !poisonedIn s a 4 && leNat (greadOf s c.b a 4) == 0

/-- The nearest ancestor of a node at or after a position: the one at the highest position below the node's own. -/
def nearest (s : State) (c : AttCtx) (n f : Nat) : Option Nat :=
  let m := nodeMask s c n
  ((List.range 64).filter fun a => a != n && bit m a && decide (f ≤ nodePos s c a) && decide (nodePos s c a < nodePos s c n)).foldl
    (fun best a => match best with
      | none => some a
      | some t => if nodePos s c t < nodePos s c a then some a else some t) none

/-- The FP8 scale of a tree node (R213): its own when it is its page's first position, else that of its nearest ancestor in
the page; none where it has no such ancestor. -/
def nodeScaleOf (s : State) (c : AttCtx) (k h f : Nat) : Nat → Nat → Option Nat
  | 0, _ => none
  | fuel + 1, n =>
    if nodePos s c n = f then some (kvScale (kvHeadroom s c.d.pool) (sourceRow s c n k h))
    else match nearest s c n f with
      | some a => nodeScaleOf s c k h f fuel a
      | none => none

/-- Write one node, kind and head of a tree APPEND (R213); and the entry, where the page is poisoned. A scale that no rule
gives is a free value of the node's source row (notes/assumptions/21). -/
def appendNode (s0 s : State) (c : AttCtx) (n k h : Nat) : State × List Nat :=
  let p := nodePos s0 c n
  let f := ladderFirst (ladder p)
  let v := attEntry s0 c (ladder p)
  let sa := 512 * peAddr v + c.g.scaleOff c.d.layer k h
  let fromPage := decide (f < c.r.q0)
  let sc := if fromPage then attScale s0 c sa
    else (nodeScaleOf s0 c k h f 64 n).getD
      (clean32 (Config.dataValue (kvHeadroom s0 c.d.pool :: (sourceRow s0 c n k h).map enc32) 0))
  let bad := c.g.fp8 && fromPage && (pePoisoned v || poisonedIn s0 sa 4)
  let s := if c.g.fp8 then gwrite s c.b (c.nodeScale n k h) (toLE 4 sc) else s
  let r := kvRow c sc (sourceRow s0 c n k h)
  if bad then (gwrite s c.b (c.nodeRow n k h) (nanRow c), [ladder p])
  else (satIncr (gwrite s c.b (c.nodeRow n k h) r.1) K.attKvSat r.2, [])

/-- Entries a row's APPEND needs: those of the positions written, or those whose scales the nodes take. -/
def appendEntries (s : State) (c : AttCtx) : List Nat :=
  let ps := (List.range c.r.nq).filterMap fun i =>
    if c.d.mask = 1 then
      let p := nodePos s c i
      if c.g.fp8 && decide (ladderFirst (ladder p) < c.r.q0) then some (ladder p) else none
    else some (ladder (c.r.q0 + i))
  (List.range 136).filter fun e => ps.contains e

/-- Byte ranges of an APPEND's source rows. -/
def AttCtx.sourceRange (c : AttCtx) : List (Nat × Nat) :=
  let n := rowBytes c.d.qfmt c.g.d
  (List.range c.r.nq).flatMap fun i => c.kindHeads.map fun p => (64 * (c.r.q + ((i * 2 + p.1) * c.g.hkv + p.2) * linesOf n), n)

/-- APPEND: one row (R181, R213). -/
def appendRow (s : State) (b : Nat) (c : Composite) : Except Nat (State × Composite) :=
  let k := attCtx s b c
  let tree := k.d.mask == 1
  let es := appendEntries s k
  let code := walkCode s k es (!tree)
  let code := if code = 0 && !tree && es.any (zeroScale s k) then eKvTable else code
  let code := if code ≠ 0 then code
    else spanCode s (k.sourceRange ++ k.treeRange false) (if tree then [(64 * k.r.aux, 64 * k.r.nq * k.nodeLines)] else [])
  if code ≠ 0 then .error code
  else
    let one := fun (a : State × List Nat) (p : Nat × Nat × Nat) =>
      let r := if tree then appendNode s a.1 k p.1 p.2.1 p.2.2 else appendOne s a.1 k p.1 p.2.1 p.2.2
      (r.1, a.2 ++ r.2)
    let r := ((List.range k.r.nq).flatMap fun i => k.kindHeads.map fun p => (i, p)).foldl one (s, [])
    .ok (rowDone (markPages r.1 k r.2) c true (!r.2.isEmpty) false)

/-! ### BACKWARD (R214) -/

/-- A sum on the FP32 path along an axis of any length (R101, R105, R106). -/
def fmaSum (ws xs : List Nat) : Nat :=
  reduce106 (((chunksOf 256 ws.length ws).zip (chunksOf 256 xs.length xs)).map fun p => chunkFma p.1.length p.1 p.2)

/-- What one query head contributes: its visible positions with P and dS, its dO and q rows, dQ, and what it met. -/
structure GradRes where
  pos : List (Nat × Nat × Nat)
  dO : List Nat
  q : List Nat
  dQ : List Nat
  flush : Nat
  hit : List Nat
  bad : Bool
  range : Bool
deriving DecidableEq, Repr

/-- An FP32 row of a tensor: query i, head j, format f. -/
def tensorRow (s : State) (c : AttCtx) (line f i j : Nat) : List Num :=
  let n := rowBytes f c.g.d
  rowVals f (greadOf s c.b (64 * (line + (i * c.hq + j) * linesOf n)) n) c.g.d

/-- The keys of query i for head h by position. -/
def keysAt (s : State) (c : AttCtx) (h i : Nat) : List (Nat × Key) :=
  let vis := visible c i
  (List.range (vis.2 - vis.1)).map fun t =>
    let p := vis.1 + t
    (p, pageKey s c h (ladder p) (attEntry s c (ladder p)) p)

/-- Steps 1 to 5 of R214 for query i, head j. -/
def gradHead (s : State) (c : AttCtx) (i j : Nat) : GradRes :=
  let h := j / c.g.g
  let d := c.g.d
  let q := tensorRow s c c.r.q c.d.qfmt i j
  let dO := (tensorRow s c c.r.aux c.d.ofmt i j).map enc32
  let o := (tensorRow s c c.r.out c.d.ofmt i j).map enc32
  let st := greadOf s c.b (c.statsAt i j) 8
  let keys := keysAt s c h i
  let qh := scaledQ c q
  let gs := mul32 c.d.qscale 0x3F317218
  let delta := chunkFma d dO o
  let bad := keys.any (·.2.bad)
  let scs := keys.map fun k => score c qh k.2
  let range := scs.any scoreBad
  let ws := scs.map fun x => weight x (sext 32 (num st 0 4))
  let per := (keys.zip ws).map fun e =>
    let p := div32 e.2.1 (num st 4 4)
    let vh := (rowVals c.kf e.1.2.v d).map fun v => enc32 (nmul v (dec32 e.1.2.sv))
    let dp := chunkFma d dO vh
    (e.1.1, p, mul32 p (sub32 dp delta))
  let per := if bad || range then per.map fun e => (e.1, nan32, nan32) else per
  let dq := (List.range d).map fun t =>
    mul32 gs (fmaSum (per.map (·.2.2)) (keys.map fun k => enc32 (nmul (elemAt c.kf k.2.k t) (dec32 k.2.sk))))
  { pos := per, dO := dO, q := q.map enc32, dQ := if bad || range then List.replicate d nan32 else dq
    flush := if bad || range then 0 else (ws.map (·.2)).sum, hit := (keys.filter (·.2.bad)).map (·.2.e), bad := bad
    range := range && !bad }

/-- Where dQ of query i, head j and dK or dV of position p go (R199). -/
def AttCtx.dqAt (c : AttCtx) (i j : Nat) : Nat := 64 * (c.r.mask + (i * c.hq + j) * cdiv (4 * c.g.d) 64)
def AttCtx.gkvAt (c : AttCtx) (p k h : Nat) : Nat := 64 * (c.r.gkv + ((p * 2 + k) * c.g.hkv + h) * cdiv (4 * c.g.d) 64)

/-- dK and dV of position p in head h (R214, 6), from the heads that see it in ascending query and head order. -/
def gradKv (c : AttCtx) (p : Nat) (rs : List GradRes) : List Nat × List Nat :=
  let gs := mul32 c.d.qscale 0x3F317218
  let seen := rs.filterMap fun r => (r.pos.find? (·.1 == p)).map fun e => (e, r)
  ((List.range c.g.d).map fun t => mul32 gs (fmaSum (seen.map (·.1.2.2)) (seen.map fun e => e.2.q.getD t 0)),
   (List.range c.g.d).map fun t => fmaSum (seen.map (·.1.2.1)) (seen.map fun e => e.2.dO.getD t 0))

/-- Positions that some query of the row sees. -/
def AttCtx.seenPos (c : AttCtx) : List Nat :=
  let top := c.r.q0 + c.r.nq
  (List.range top).filter fun p => (List.range c.r.nq).any fun i => decide ((visible c i).1 ≤ p) && decide (p < (visible c i).2)

/-- BACKWARD: one row (R214). -/
def backwardRow (s : State) (b : Nat) (c : Composite) : Except Nat (State × Composite) :=
  let k := attCtx s b c
  let es := seenEntries k
  let code := walkCode s k es false
  let ob := rowBytes k.d.ofmt k.g.d
  let reads := k.tensor k.r.q (rowBytes k.d.qfmt k.g.d) ++ k.tensor k.r.out ob ++ k.tensor k.r.aux ob ++ k.statsRange
  let gk := k.seenPos.flatMap fun p => (List.range 2).map fun t =>
    (k.gkvAt p t k.d.h0, 64 * cdiv (4 * k.g.d) 64 * k.d.nh)
  let code := if code ≠ 0 then code else spanCode s reads (k.tensor k.r.mask (4 * k.g.d) ++ gk)
  if code ≠ 0 then .error code
  else
    let res := (List.range k.r.nq).flatMap fun i => k.heads.map fun j => ((i, j), gradHead s k i j)
    let s1 := res.foldl (fun t p => gwrite t b (k.dqAt p.1.1 p.1.2) (p.2.dQ.flatMap (toLE 4))) s
    let s1 := (List.range k.d.nh).foldl (fun t n =>
      let h := k.d.h0 + n
      let rs := (res.filter fun p => p.1.2 / k.g.g == h).map (·.2)
      k.seenPos.foldl (fun t p =>
        let g := gradKv k p rs
        gwrite (gwrite t b (k.gkvAt p 0 h) (g.1.flatMap (toLE 4))) b (k.gkvAt p 1 h) (g.2.flatMap (toLE 4))) t) s1
    let s1 := satIncr s1 K.attFlush ((res.map (·.2.flush)).sum)
    let s1 := noteRange s1 b (res.filter (·.2.range)).length
    let bad := res.any (·.2.bad)
    let s1 := markPages s1 k (res.flatMap (·.2.hit))
    .ok (rowDone s1 c (!k.seenPos.isEmpty) bad (res.any (·.2.range)))

/-! ### The commands -/

/-- The work of an ATTN composite with a given row. -/
def attWorks (row : State → Nat → Composite → Except Nat (State × Composite)) : Works :=
  { total := fun c => c.rows.length, wait := fun s _ c => (s, c), row := row, finish := fun s b c => finishComposite (noteOut s b false) b c (!c.seen) }

def execPrefill (b n : Nat) (s : State) : Host.Outcome State Fault Refusal :=
  .next (compositeRow s b n 9 0 (attPre 0) (attStart 0) (attWorks attendRow))

def execDecode (b n : Nat) (s : State) : Host.Outcome State Fault Refusal :=
  .next (compositeRow s b n 9 1 (attPre 1) (attStart 1) (attWorks attendRow))

def execAppend (b n : Nat) (s : State) : Host.Outcome State Fault Refusal :=
  .next (compositeRow s b n 9 2 (attPre 2) (attStart 2) (attWorks appendRow))

def execBackward (b n : Nat) (s : State) : Host.Outcome State Fault Refusal :=
  .next (compositeRow s b n 9 3 (attPre 3) (attStart 3) (attWorks backwardRow))

def execCombine (b n : Nat) (s : State) : Host.Outcome State Fault Refusal :=
  .next (compositeRow s b n 9 4 (attPre 4) (attStart 4) (attWorks combineRow))

end Sys2Proof.Machine
end

