-- ==== Sys2Proof/Machine/Conv.lean ====
section
/-! DEFINITION. The CONV composite (R153-R177): descriptor, layouts and address generation, the fixed reduction order,
Winograd, depthwise convolution and pooling, the epilogue, zero-run compression, and the scarf exchange. -/

namespace Sys2Proof.Machine

/-! ### Zero-run compression (R171, R172) -/

/-- Elements of a row, b bytes each. -/
def elemsOf (b : Nat) (row : Bytes) : List Bytes := chunksOf b row.length row

/-- The ZRC form of E elements, from the row header on, to the end of its last used line (R171, R172). -/
def zrcEncode (elems : List Bytes) : Bytes :=
  let blks := (chunksOf 64 elems.length elems).map fun blk =>
    let nz := blk.filter fun e => leNat e != 0
    let mask := ((List.range blk.length).filter fun i => leNat (blk.getD i []) != 0).foldl (fun m i => m + 2 ^ i) 0
    let body := nz.flatten
    toLE 8 mask ++ body ++ List.replicate (8 * cdiv body.length 8 - body.length) 0
  let all := blks.flatten
  let used := 8 + all.length
  toLE 8 used ++ all ++ List.replicate (64 * cdiv used 64 - used) 0

/-- Expand the blocks of a ZRC row: bytes read so far, elements left, bytes of an element; none if a block runs past
USED (R172). -/
def zrcBlocks (slot : Bytes) (used b : Nat) : Nat → Nat → Nat → Option Bytes
  | 0, _, _ => some []
  | fuel + 1, pos, left =>
    if left = 0 then some []
    else
      let mask := num slot pos 8
      let n := ((List.range 64).filter fun i => bit mask i).length
      if used < pos + 8 || used < pos + 8 + n * b then none
      else
        let take := min 64 left
        let one := (List.range take).flatMap fun i =>
          if bit mask i then
            let k := ((List.range i).filter fun j => bit mask j).length
            sub slot (pos + 8 + k * b) b
          else List.replicate b 0
        (zrcBlocks slot used b fuel (pos + 8 + 8 * cdiv (n * b) 8) (left - take)).map (one ++ ·)

/-- The granary bytes that a reader of a slot fetches: its used lines (R172). -/
def zrcFetch (s : State) (unit a : Nat) : Nat × Nat := (a, max 64 (64 * cdiv (leNat (greadOf s unit a 4)) 64))

/-- A ZRC row read back: E elements of b bytes from a slot of at most pitch lines (R171, R172). -/
def zrcRead (s : State) (unit a pitch e b : Nat) : Except Nat Bytes :=
  let used := leNat (greadOf s unit a 4)
  if 64 * pitch < used then .error eZrcBad
  else
    let f := zrcFetch s unit a
    if !allocatable f.1 f.2 then .error eMemRange
    else if poisonedIn s f.1 f.2 then .error ePoison
    else match zrcBlocks (greadOf s unit a used) used b (cdiv e 64) 8 e with
      | some bs => .ok bs
      | none => .error eZrcBad

/-- Element size of a LOAD or STORE word of a ZRC tensor (notes/assumptions/24). -/
def zrcSize (w : Nat) : Nat :=
  match Config.zrcBytes w with
  | 0 => 1
  | 1 => 2
  | _ => 4

/-- Slot addresses of a LOAD or STORE word, and the length bound of a slot in lines (a single row has no pitch). -/
def zrcSlots (w : Nat) : List Nat := (List.range (mvRows w)).map fun r => 64 * (mvGline w + r * mvPitch w)
def zrcPitch (w : Nat) : Nat := if mvRows w = 1 then 2 ^ 32 else mvPitch w

/-- LOAD OP 1: each slot expands into ROWLINES lines (R119, R172). -/
def loadZrcEff (s : State) (b : Nat) (q : QWord) : Except Nat State :=
  let w := q.word.toNat
  let z := zrcSize w
  let e := 64 * mvRowlines w / z
  if !((zrcSlots w).all fun a => allocatable a 64) then .error eMemRange
  else if (zrcSlots w).any fun a => poisonedIn s a 64 then .error ePoison
  else match (zrcSlots w).mapM fun a => zrcRead s b a (zrcPitch w) e z with
    | .ok rows => .ok (setBay s b (bwrite (bay s b) (mvBline w) rows.flatten))
    | .error code => .error code

def execLoadZrc (b : Nat) (s : State) : Host.Outcome State Fault Refusal := .next (runHead s b (isWord 1 1) noPre loadZrcEff)

/-- STORE OP 1: each row of ROWLINES lines is written as a slot's used lines (R119, R172). -/
def storeZrcEff (s : State) (b : Nat) (q : QWord) : Except Nat State :=
  let w := q.word.toNat
  let rows := (List.range (mvRows w)).map fun r =>
    zrcEncode (elemsOf (zrcSize w) (bread (bay s b) (mvBline w + r * mvRowlines w) (64 * mvRowlines w)))
  let ps := (zrcSlots w).zip rows
  if !(ps.all fun p => allocatable p.1 p.2.length) then .error eMemRange
  else .ok (noteOut (ps.foldl (fun s p => gwrite s b p.1 p.2) s) b false)

def execStoreZrc (b ecc : Nat) (s : State) : Host.Outcome State Fault Refusal :=
  .next (runReading s b ecc (isWord 2 1) noPre storeZrcEff)

/-! ### The descriptor (R154, R155) -/

/-- A CONV descriptor. -/
structure Conv where
  op : Nat
  inLine : Nat
  inSline : Nat
  wLine : Nat
  wSline : Nat
  outLine : Nat
  postLine : Nat
  biasLine : Nat
  tscale : Nat
  omul : Nat
  padval : Nat
  padscale : Nat
  inPitch : Nat
  inSpitch : Nat
  wPitch : Nat
  outPitch : Nat
  inPlane : Nat
  inW : Nat
  inH : Nat
  cIn : Nat
  cOut : Nat
  kw : Nat
  kh : Nat
  sw : Nat
  sh : Nat
  dw : Nat
  dh : Nat
  pl : Nat
  pr : Nat
  ptop : Nat
  pb : Nat
  fx : Nat
  fw : Nat
  fo : Nat
  cvt : Nat
  padmode : Nat
  alg : Nat
  inZrc : Bool
  outZrc : Bool
  planar : Bool
  hasPost : Bool
  act : Nat
  bias : Bool
  argmax : Bool
  avgIncl : Bool
  oy0 : Nat
  oy1 : Nat
  own0 : Nat
  own1 : Nat
  work0 : Nat
  workn : Nat
  north : Nat
  south : Nat
  outN : Nat
  outS : Nat
  tn : Nat
  ts : Nat
  wn : Nat
  ws : Nat
  ok : Bool
deriving DecidableEq, Repr

/-- The descriptor 128 bytes spell; ok says that no reserved bit is set (R154). -/
def convDesc (op : Nat) (d : Bytes) : Conv :=
  let mode := num d 0x4C 1
  let epi := num d 0x4D 1
  let of' := num d 0x4B 1
  { op := op, inLine := num d 0 4, inSline := num d 4 4, wLine := num d 8 4, wSline := num d 0xC 4, outLine := num d 0x10 4
    postLine := num d 0x14 4, biasLine := num d 0x18 4, tscale := num d 0x1C 4, omul := num d 0x20 4, padval := num d 0x24 4
    padscale := num d 0x28 2, inPitch := num d 0x2A 2, inSpitch := num d 0x2C 2, wPitch := num d 0x2E 2
    outPitch := num d 0x30 2, inPlane := num d 0x34 4, inW := num d 0x38 2, inH := num d 0x3A 2, cIn := num d 0x3C 2
    cOut := num d 0x3E 2, kw := num d 0x40 1, kh := num d 0x41 1, sw := num d 0x42 1, sh := num d 0x43 1, dw := num d 0x44 1
    dh := num d 0x45 1, pl := num d 0x46 1, pr := num d 0x47 1, ptop := num d 0x48 1, pb := num d 0x49 1
    fx := fld (num d 0x4A 1) 3 0, fw := fld (num d 0x4A 1) 7 4, fo := fld of' 3 0, cvt := fld of' 5 4
    padmode := fld mode 1 0, alg := fld mode 3 2, inZrc := bit mode 4, outZrc := bit mode 5, planar := bit mode 6
    hasPost := bit mode 7, act := fld epi 2 0, bias := bit epi 3, argmax := bit epi 4, avgIncl := bit epi 5
    oy0 := num d 0x50 2, oy1 := num d 0x52 2, own0 := num d 0x54 2, own1 := num d 0x56 2, work0 := num d 0x58 2
    workn := num d 0x5A 2, north := num d 0x5C 2, south := num d 0x5E 2, outN := num d 0x60 1, outS := num d 0x61 1
    tn := fld (num d 0x62 1) 3 0, ts := fld (num d 0x62 1) 7 4, wn := fld (num d 0x63 1) 3 0, ws := fld (num d 0x63 1) 7 4
    ok := num d 0x32 2 == 0 && num d 0x4E 2 == 0 && num d 0x64 20 == 0 && fld of' 7 6 == 0 && fld epi 7 6 == 0 }

/-- Output size on one axis (R159). -/
def outSize (n k s d lo hi : Nat) : Nat :=
  if n + lo + hi < d * (k - 1) + 1 then 0 else (n + lo + hi - d * (k - 1) - 1) / s + 1

def Conv.outW (c : Conv) : Nat := outSize c.inW c.kw c.sw c.dw c.pl c.pr
def Conv.outH (c : Conv) : Nat := outSize c.inH c.kh c.sh c.dh c.ptop c.pb
def Conv.empty (c : Conv) : Bool := c.outW == 0 || c.outH == 0

/-- Taps, the larger block size, channels as stored, and elements of a filter row (R158, R162, R168). -/
def Conv.taps (c : Conv) : Nat := c.kw * c.kh
def Conv.bu (c : Conv) : Nat := max 1 (max (blockOf c.fx) (blockOf c.fw))
def Conv.cp (c : Conv) : Nat := c.bu * cdiv c.cIn c.bu
def Conv.wElems (c : Conv) : Nat := if c.op = 0 then c.taps * c.cp else c.taps

/-- Channel group size (R162). -/
def Conv.gc (c : Conv) : Nat := if c.taps * c.bu ≤ 256 then 256 / c.taps / c.bu * c.bu else c.bu

/-- First channel and channels of each group (R162). -/
def Conv.groups (c : Conv) : List (Nat × Nat) :=
  (List.range (cdiv c.cp c.gc)).map fun g => (g * c.gc, min c.gc (c.cp - g * c.gc))

/-- The logical K (R162, R168). -/
def Conv.logicalK (c : Conv) : Nat :=
  if c.op = 0 then ((c.groups.map fun g => 256 * cdiv (c.taps * g.2) 256)).sum else 256 * cdiv c.taps 256

/-- Whether the F(4×4, 3×3) path is taken, and the integer F(2×2, 3×3) path, whose output is the direct path's (R165,
R167). -/
def Conv.shape3 (c : Conv) : Bool :=
  c.alg == 1 && c.op == 0 && c.kh == 3 && c.kw == 3 && c.sh == 1 && c.sw == 1 && c.dh == 1 && c.dw == 1
def Conv.wino4 (c : Conv) : Bool := c.shape3 && decide (c.fx ≤ 4) && decide (c.fw ≤ 4) && pressPair c.fw c.fx
def Conv.wino2 (c : Conv) : Bool := c.shape3 && c.fx == 0xA && c.fw == 0xA
def Conv.tile (c : Conv) : Nat := if c.wino4 then 4 else if c.wino2 then 2 else 1

/-- Output channels as stored (R158). -/
def Conv.cpOut (c : Conv) : Nat := if blockOf c.fo = 0 then c.cOut else blockOf c.fo * cdiv c.cOut (blockOf c.fo)

/-- Lines of one full input row, scales included, and of one pass's filter rows (R164). -/
def Conv.rowLines (c : Conv) : Nat :=
  (if c.planar then c.cIn * cdiv (rowBytes c.fx c.inW) 64 else cdiv (rowBytes c.fx (c.inW * c.cp)) 64)
    + (if blockOf c.fx = 0 then 0 else cdiv (c.inW * (c.cp / blockOf c.fx) * scaleBytes c.fx) 64)
def Conv.filterLines (c : Conv) : Nat :=
  if 2 ≤ c.op then 0
  else
    let n := min c.cOut 128
    n * cdiv (rowBytes c.fw c.wElems) 64
      + (if blockOf c.fw = 0 then 0 else cdiv (n * cdiv c.wElems (blockOf c.fw) * scaleBytes c.fw) 64)

/-- The least WORKN (R164). -/
def Conv.workMin (c : Conv) : Nat :=
  let nin := if c.tile = 4 then 10 else if c.tile = 2 then 6 else c.dh * (c.kh - 1) + 1 + c.sh
  c.filterLines + nin * c.rowLines + 2 * (cdiv (4 * min c.outW 128 * min c.cOut 128) 64 * c.tile)

/-- First two rows of R155. -/
def Conv.descBad (c : Conv) : Bool :=
  !c.ok || decide (1 < c.alg) || decide (4 < c.act)
    || [c.inW, c.inH, c.cIn, c.cOut, c.kw, c.kh, c.sw, c.sh, c.dw, c.dh].any (· == 0)
    || [c.north, c.south].any (fun n => n != 0x3FF && decide (575 < n))
    || (!c.empty && (decide (c.oy1 < c.oy0) || decide (c.outH ≤ c.oy1)))
    || (c.op != 0 && c.cOut != c.cIn) || (decide (2 ≤ c.op) && (c.bias || c.argmax))
    || decide (262144 < c.logicalK)

/-- Formats of ZRC and planar rows (R158, R171), and of pooling (R169). -/
def plainFmt (f : Nat) : Bool := decide (f ≤ 4) || f == 0xA

/-- Fourth row of R155. -/
def Conv.layoutBad (c : Conv) : Bool :=
  ((c.inZrc || c.planar) && !plainFmt c.fx) || (c.outZrc && (c.argmax || !plainFmt c.fo))
    || (!c.argmax && (c.fo == 0xC || c.fo == 0xD)) || (decide (2 ≤ c.op) && decide (4 < c.fx))

/-- A scarf neighbour that a SEND could not name (R155). -/
def Conv.destBad (s : State) (b : Nat) (c : Conv) : Bool :=
  [c.north, c.south].any fun n => n != 0x3FF && ((bay s n).off || (bay s n).owner != (bay s b).owner)

/-- The code a CONV word is refused with when its descriptor is read (R84, R155), or 0. -/
def convPre (op : Nat) (s : State) (b w : Nat) : Nat :=
  let a := 64 * wnDesc w
  if !allocatable a 128 || poisonedIn s a 128 then 0
  else
    let c := convDesc op (greadOf s b a 128)
    if !fmtOk c.fx || !fmtOk c.fw || (!c.argmax && !fmtOk c.fo) then eArithPair
    else if c.descBad then eConvDesc
    else if decide (8192 < c.work0 + c.workn) || decide (c.workn < c.workMin) then eConvWork
    else if c.layoutBad then eConvLayout
    else if c.destBad s b then eBayDest
    else if decide (op ≤ 1) && !pressPair c.fw c.fx then eArithPair
    else 0

/-! ### Input rows and pixels (R158-R161) -/

/-- The index an axis position reads, none where the position is padded with zeros or a constant (R160). -/
def padAxis (mode n : Nat) (i : Int) : Option Nat :=
  if 0 ≤ i && i < n then some i.toNat
  else match mode with
    | 2 => some (if i < 0 then 0 else n - 1)
    | 3 =>
      if n = 1 then some 0
      else
        let p : Int := 2 * (n - 1)
        let j := i % p
        some (if j ≥ n then (p - j).toNat else j.toNat)
    | _ => none

/-- Input row and column of an output position and tap, before padding (R160). -/
def Conv.iy (c : Conv) (oy ky : Nat) : Int := (oy * c.sh : Nat) - (c.ptop : Int) + (ky * c.dh : Nat)
def Conv.ix (c : Conv) (ox kx : Nat) : Int := (ox * c.sw : Nat) - (c.pl : Int) + (kx * c.dw : Nat)

/-- Numbers below n that a list holds, ascending. -/
def inOrder (n : Nat) (l : List Nat) : List Nat := (List.range n).filter l.contains

/-- Input rows that an output row reads (R161): those its taps name; on the Winograd path those of its whole tile. -/
def Conv.rowsOf (c : Conv) (oy : Nat) : List Nat :=
  let ys := if c.tile = 1 then (List.range c.kh).map fun k => c.iy oy k
    else (List.range (c.tile + 2)).map fun k => c.iy (c.tile * (oy / c.tile)) 0 + (k : Int)
  inOrder c.inH (ys.filterMap (padAxis c.padmode c.inH))

/-- Input columns that some tap names. -/
def Conv.colsUsed (c : Conv) : List Nat :=
  let w := c.tile * cdiv c.outW c.tile
  inOrder c.inW ((List.range w).flatMap fun ox => (List.range c.kw).filterMap fun k => padAxis c.padmode c.inW (c.ix ox k))

/-- Addresses of the planes of an input row, with elements per plane. -/
def Conv.planeAt (c : Conv) (y : Nat) : List Nat :=
  if c.planar then (List.range c.cIn).map fun k => 64 * (c.inLine + k * c.inPlane + y * c.inPitch) else [64 * (c.inLine + y * c.inPitch)]
def Conv.planeElems (c : Conv) : Nat := if c.planar then c.inW else c.inW * c.cp
def Conv.scaleRow (c : Conv) : Nat := if blockOf c.fx = 0 then 0 else c.inW * (c.cp / blockOf c.fx) * scaleBytes c.fx

/-- Byte ranges of an input row that the auger fetches without ZRC: the pixels its taps name, and their scales (R161). -/
def Conv.rowRanges (c : Conv) (y : Nat) : List (Nat × Nat) :=
  let per := if c.planar then 1 else c.cp
  let eb := elemBits c.fx
  let px := (c.planeAt y).flatMap fun a => c.colsUsed.map fun x =>
    if c.fx = 0xD then (a + 13 * (x * per / 64), 13 * (per / 64))
    else
      let lo := x * per * eb / 8
      (a + lo, max 1 (cdiv ((x + 1) * per * eb) 8 - lo))
  let nb := if blockOf c.fx = 0 then 0 else c.cp / blockOf c.fx * scaleBytes c.fx
  px ++ (if nb = 0 then [] else c.colsUsed.map fun x => (64 * (c.inSline + y * c.inSpitch) + x * nb, nb))

/-- Fetch an input row in a pass (R158, R161, R172). -/
def fetchRow (s : State) (b : Nat) (c : Conv) (pass y : Nat) : Except Nat InRow :=
  let sc := greadOf s b (64 * (c.inSline + y * c.inSpitch)) c.scaleRow
  if c.inZrc then
    let as' := c.planeAt y
    if !(as'.all fun a => allocatable a 64) then .error eMemRange
    else if as'.any fun a => poisonedIn s a 64 then .error ePoison
    else match as'.mapM fun a => zrcRead s b a c.inPitch c.planeElems (elemBits c.fx / 8) with
      | .ok ps => .ok { pass := pass, y := y, planes := ps, scales := sc }
      | .error code => .error code
  else
    let rs := c.rowRanges y
    if !(rs.all fun r => allocatable r.1 r.2) then .error eMemRange
    else if rs.any fun r => poisonedIn s r.1 r.2 then .error ePoison
    else .ok { pass := pass, y := y, planes := (c.planeAt y).map fun a => greadOf s b a (rowBytes c.fx c.planeElems), scales := sc }

/-- An element code's value in a format (R160, PADVAL). -/
def codeVal (f v : Nat) : Num := if f = 0xD then ofRat ((v % 3 : Nat) - 1 : Int) else elemAt f (toLE 4 v) 0

/-- The channel ch of the pixel at an axis position pair: element and block scale (R158, R160). -/
def pixel (c : Conv) (rows : List InRow) (iy ix : Int) (ch : Nat) : Num × Num :=
  let blk := blockOf c.fx
  match padAxis c.padmode c.inH iy, padAxis c.padmode c.inW ix with
  | some y, some x =>
    match rows.find? (·.y == y) with
    | none => (.fin false 0, .fin false 1)
    | some r =>
      let sc := if blk = 0 then Num.fin false 1
        else scaleVal c.fx (num r.scales (scaleBytes c.fx * (x * (c.cp / blk) + ch / blk)) (scaleBytes c.fx))
      if c.cIn ≤ ch then (.fin false 0, sc)
      else if c.planar then (elemAt c.fx (r.planes.getD ch []) x, sc)
      else (elemAt c.fx (r.planes.headD []) (x * c.cp + ch), sc)
  | _, _ =>
    if c.padmode = 1 then
      (if c.cIn ≤ ch then .fin false 0 else codeVal c.fx c.padval, if blk = 0 then .fin false 1 else scaleVal c.fx c.padscale)
    else (.fin false 0, if blk = 0 then .fin false 1 else scaleVal c.fx 0)

/-! ### Output-channel passes (R164) -/

/-- Passes over the rows, and the channels that pass p computes. -/
def Conv.passes (c : Conv) : Nat := cdiv c.cOut 128
def Conv.chans (c : Conv) (p : Nat) : List Nat := (List.range (min 128 (c.cOut - 128 * p))).map (128 * p + ·)

/-! ### Filter (R158) -/

/-- Byte ranges of the filter's elements, of its scales and post scales, and of the biases. -/
def Conv.weightRanges (c : Conv) : List (Nat × Nat) :=
  if 2 ≤ c.op then [] else (List.range c.cOut).map fun n => (64 * (c.wLine + n * c.wPitch), rowBytes c.fw c.wElems)
def Conv.wScaleRanges (c : Conv) : List (Nat × Nat) :=
  let nb := if blockOf c.fw = 0 then 0 else cdiv c.wElems (blockOf c.fw) * scaleBytes c.fw
  if 2 ≤ c.op then []
  else (if nb = 0 then [] else [(64 * c.wSline, c.cOut * nb)])
    ++ (if c.hasPost then [(64 * c.postLine, 4 * c.cOut)] else [])
def Conv.biasRanges (c : Conv) : List (Nat × Nat) := if c.bias then [(64 * c.biasLine, 4 * c.cOut)] else []
def Conv.filterRanges (c : Conv) : List (Nat × Nat) := c.weightRanges ++ c.wScaleRanges ++ c.biasRanges

/-- Filter row n: elements with their block scales. -/
def filterRow (s : State) (b : Nat) (c : Conv) (n : Nat) : SRow :=
  let nb := if blockOf c.fw = 0 then 0 else cdiv c.wElems (blockOf c.fw) * scaleBytes c.fw
  rowElems c.fw (greadOf s b (64 * (c.wLine + n * c.wPitch)) (rowBytes c.fw c.wElems))
    (greadOf s b (64 * c.wSline) (nb * (n + 1))) n c.wElems 0 c.wElems

/-- R107 for output channel n. -/
def convPost (s : State) (b : Nat) (c : Conv) (n v : Nat) : Nat :=
  applyPost v (postScale c.fw c.hasPost c.tscale (leNat (greadOf s b (64 * c.postLine + 4 * n) 4))) 0x3F800000

/-! ### The direct path (R162, R163, R168) -/

/-- The input of an output position along the reduction axis, one list per channel group (R162). -/
def Conv.column (c : Conv) (rows : List InRow) (oy ox : Nat) : List SRow :=
  c.groups.map fun g => (List.range c.kh).flatMap fun ky => (List.range c.kw).flatMap fun kx =>
    (List.range g.2).map fun k => pixel c rows (c.iy oy ky) (c.ix ox kx) (g.1 + k)

/-- A filter row cut into the same groups. -/
def cutGroups : List Nat → SRow → List SRow
  | [], _ => []
  | n :: ns, w => w.take n :: cutGroups ns (w.drop n)

/-- Chunk values over groups, each group starting on a chunk boundary, with lost-bits flags (R162). -/
def groupChunks (fw fx : Nat) (ws xs : List SRow) : List (Nat × Bool) := (ws.zip xs).flatMap fun p => dotChunks fw fx p.1 p.2

/-- The output row of OP 0 on the direct path: per column and channel of ns, chunk values. -/
def directRow (s : State) (b : Nat) (c : Conv) (rows : List InRow) (oy : Nat) (ns : List Nat) :
    List (List (List (Nat × Bool))) :=
  let ws := ns.map fun n => cutGroups (c.groups.map fun g => c.taps * g.2) (filterRow s b c n)
  (List.range c.outW).map fun ox =>
    let x := c.column rows oy ox
    ws.map fun w => groupChunks c.fw c.fx w x

/-- The same of OP 1: each channel with its own filter row (R168). -/
def depthRow (s : State) (b : Nat) (c : Conv) (rows : List InRow) (oy : Nat) (ns : List Nat) :
    List (List (List (Nat × Bool))) :=
  let ws := ns.map fun n => (n, filterRow s b c n)
  (List.range c.outW).map fun ox => ws.map fun (n, w) =>
    dotChunks c.fw c.fx w ((List.range c.kh).flatMap fun ky => (List.range c.kw).map fun kx =>
      pixel c rows (c.iy oy ky) (c.ix ox kx) n)

/-! ### Winograd F(4×4, 3×3) (R166) -/

/-- A small FP32 matrix, by rows. -/
abbrev Mat := List (List Nat)

def matAt (m : Mat) (i j : Nat) : Nat := (m.getD i []).getD j 0
def transpose (m : Mat) : Mat := (List.range (m.headD []).length).map fun j => m.map fun r => r.getD j 0

/-- A sum of rounded terms in order, each addition rounded. -/
def termSum : List Nat → Nat
  | [] => 0
  | t :: ts => ts.foldl add32 t

/-- L·Q where the coefficients are L's: zero coefficients are skipped (R166). -/
def mulLeft (l q : Mat) : Mat :=
  l.map fun r => (List.range (q.headD []).length).map fun j =>
    termSum (((List.range r.length).filter fun n => r.getD n 0 != 0).map fun n => mul32 (r.getD n 0) (matAt q n j))

/-- L·Q where the coefficients are Q's. -/
def mulRight (l q : Mat) : Mat :=
  l.map fun r => (List.range (q.headD []).length).map fun j =>
    termSum (((List.range q.length).filter fun n => matAt q n j != 0).map fun n => mul32 (r.getD n 0) (matAt q n j))

/-- The FP32 value of a coefficient. -/
def coef (a : Int) (b : Nat := 1) : Nat := if a = 0 then 0 else enc32 (ofRat (mkRat a b))

/-- Bᵀ, G and Aᵀ of R166. -/
def winoB : Mat := [[4, 0, -5, 0, 1, 0], [0, -4, -4, 1, 1, 0], [0, 4, -4, -1, 1, 0], [0, -2, -1, 2, 1, 0], [0, 2, -1, -2, 1, 0],
  [0, 4, 0, -5, 0, 1]].map fun r => r.map fun v => coef v
def winoG : Mat := [[coef 1 4, 0, 0], [coef (-1) 6, coef (-1) 6, coef (-1) 6], [coef (-1) 6, coef 1 6, coef (-1) 6],
  [coef 1 24, coef 1 12, coef 1 6], [coef 1 24, coef (-1) 12, coef 1 6], [0, 0, coef 1]]
def winoA : Mat := [[1, 1, 1, 1, 1, 0], [0, 1, -1, 2, -2, 0], [0, 1, 1, 4, 4, 0], [0, 1, -1, 8, -8, 1]].map fun r => r.map fun v => coef v

/-- U and V as the presses take them: BF16, or FP32 when both operands are FP32 (R166, 2). -/
def winoNarrow (c : Conv) (v : Nat) : Nat :=
  if c.fx = 0 && c.fw = 0 then v else enc32 (decFloat bf16 (narrowFloat bf16 0 (dec32 v)))

/-- Element of filter row n at tap t and channel ch, in the order of R162. -/
def Conv.filterAt (c : Conv) (t ch : Nat) : Nat :=
  let g := ch / c.gc
  let n := min c.gc (c.cp - g * c.gc)
  c.taps * c.gc * g + t * n + ch % c.gc

/-- U of filter row w for each channel. -/
def Conv.winoU (c : Conv) (w : SRow) : List Mat :=
  (List.range c.cp).map fun ch =>
    let g : Mat := (List.range 3).map fun ky => (List.range 3).map fun kx =>
      enc32 (w.getD (c.filterAt (3 * ky + kx) ch) (.fin false 0, .fin false 1)).1
    (mulRight (mulLeft winoG g) (transpose winoG)).map fun r => r.map (winoNarrow c)

/-- V of the input tile with output corner (ty, tx) for each channel. -/
def Conv.winoV (c : Conv) (rows : List InRow) (ty tx : Nat) : List Mat :=
  (List.range c.cp).map fun ch =>
    let d : Mat := (List.range 6).map fun i => (List.range 6).map fun j =>
      enc32 (pixel c rows (c.iy ty 0 + (i : Int)) (c.ix tx 0 + (j : Int)) ch).1
    (mulRight (mulLeft winoB d) (transpose winoB)).map fun r => r.map (winoNarrow c)

/-- A sum on the FP32 path along channels (R101, R105, R106). -/
def fpSum (ws xs : List Nat) : Nat :=
  reduce106 (((chunksOf 256 ws.length ws).zip (chunksOf 256 xs.length xs)).map fun p => chunkFma p.1.length p.1 p.2)

/-- Y of one tile and output channel (R166, 3 and 4). -/
def winoY (us vs : List Mat) : Mat :=
  let m : Mat := (List.range 6).map fun i => (List.range 6).map fun j => fpSum (us.map fun u => matAt u i j) (vs.map fun v => matAt v i j)
  mulRight (mulLeft winoA m) (transpose winoA)

/-- The output row of the Winograd path: per column and channel of ns, before R107. -/
def winoRow (s : State) (b : Nat) (c : Conv) (rows : List InRow) (oy : Nat) (ns : List Nat) : List (List Nat) :=
  let us := ns.map fun n => c.winoU (filterRow s b c n)
  let tiles := (List.range (cdiv c.outW 4)).map fun t =>
    let vs := c.winoV rows (4 * (oy / 4)) (4 * t)
    us.map fun u => winoY u vs
  (List.range c.outW).map fun ox => (tiles.getD (ox / 4) []).map fun y => matAt y (oy % 4) (ox % 4)

/-! ### Pooling (R169) -/

/-- A window's positions: value and whether the position lies inside the image. -/
def Conv.window (c : Conv) (rows : List InRow) (oy ox n : Nat) : List (Num × Bool) :=
  (List.range c.kh).flatMap fun ky => (List.range c.kw).map fun kx =>
    let iy := c.iy oy ky
    let ix := c.ix ox kx
    (r32 (pixel c rows iy ix n).1, decide (0 ≤ iy) && decide (iy < c.inH) && decide (0 ≤ ix) && decide (ix < c.inW))

/-- The pooled value of a window. -/
def Conv.pool (c : Conv) (ws : List (Num × Bool)) : Nat :=
  if c.op = 2 then encNum fp32 (rowMax (ws.map (·.1)))
  else
    let part := (if c.avgIncl then ws else ws.filter (·.2)).map fun p => encNum fp32 p.1
    if part.isEmpty then 0 else div32 (reduce106 part) (enc32 (ofRat (part.length : Rat)))

/-- The output row of OP 2 and OP 3: per column and channel of ns. -/
def poolRow (c : Conv) (rows : List InRow) (oy : Nat) (ns : List Nat) : List (List Nat) :=
  (List.range c.outW).map fun ox => ns.map fun n => c.pool (c.window rows oy ox n)

/-! ### Epilogue (R170) -/

/-- Steps 1 to 3 for output channel n. -/
def epilogue (s : State) (b : Nat) (c : Conv) (n y : Nat) : Nat :=
  let y := if c.bias then add32 y (leNat (greadOf s b (64 * c.biasLine + 4 * n) 4)) else y
  let y := match c.act with
    | 1 => enc32 (unaryFn 0x17 (dec32 y))
    | 2 => enc32 (unaryFn 0x15 (dec32 y))
    | 3 => enc32 (unaryFn 0x16 (dec32 y))
    | 4 => enc32 (unaryFn 0x14 (dec32 y))
    | _ => y
  mul32 y c.omul

/-- Step 4 for a row of pixels: element bytes, then, in a block format, the scales from the next line on
(notes/assumptions/13); and whether a NaN was lost. -/
def convertRow (c : Conv) (px : List (List Nat)) : Bytes × Bool :=
  if c.argmax then
    (px.flatMap fun vs =>
      let a := argmaxRow (vs.map dec32)
      toLE 4 a.1 ++ toLE 4 (encNum fp32 a.2), false)
  else if blockOf c.fo = 0 then
    let r := narrowCodes c.fo c.cvt (px.flatMap fun vs => vs.map dec32)
    (packBits (elemBits c.fo) r.1, r.2)
  else
    let qs := px.map fun vs => quantRow c.fo c.cvt 0 (vs.map dec32)
    let el := packBits (elemBits c.fo) (qs.flatMap (·.2))
    let sc := qs.flatMap fun q => q.1.flatMap (toLE (scaleBytes c.fo))
    (el ++ List.replicate (64 * cdiv el.length 64 - el.length) 0 ++ sc, false)

/-- Bytes of an output row as written. -/
def rowOut (c : Conv) (bs : Bytes) : Bytes := if c.outZrc then zrcEncode (elemsOf (elemBits c.fo / 8) bs) else bs

/-- Parts of an output row that pass p writes, as offset and length: the elements of its channels and their scales, pixel by
pixel. A row that one pass completes, a ZRC row and the indexes of ARGMAX are written whole, by the last pass
(notes/assumptions/181). -/
def Conv.partSpans (c : Conv) (p len : Nat) : List (Nat × Nat) :=
  if c.passes ≤ 1 then [(0, len)]
  else if c.outZrc || c.argmax then (if p + 1 = c.passes then [(0, len)] else [])
  else
    let last := p + 1 = c.passes
    let bits := elemBits c.fo
    let sb := if blockOf c.fo = 0 then 0 else scaleBytes c.fo
    let nb := if blockOf c.fo = 0 then 0 else c.cpOut / blockOf c.fo
    let el := 64 * cdiv (cdiv (bits * c.outW * c.cpOut) 8) 64
    (List.range c.outW).flatMap fun x =>
      let hi := if last then c.cpOut else 128 * (p + 1)
      let a := (x * c.cpOut + 128 * p) * bits / 8
      (a, cdiv ((x * c.cpOut + hi) * bits) 8 - a) ::
        (if sb = 0 then []
         else
          let k0 := 128 * p / blockOf c.fo
          let k1 := if last then nb else 128 * (p + 1) / blockOf c.fo
          [(el + sb * (x * nb + k0), sb * (k1 - k0))])

/-- The longest an output row may be, for the range check of the whole word. -/
def Conv.outBytes (c : Conv) : Nat :=
  if c.argmax then 8 * c.outW
  else if blockOf c.fo = 0 then cdiv (elemBits c.fo * c.outW * c.cOut) 8
  else 64 * cdiv (rowBytes c.fo (c.outW * c.cpOut)) 64 + c.outW * (c.cpOut / blockOf c.fo) * scaleBytes c.fo

/-! ### Rows in order, and the scarf (R173, R174) -/

/-- Boundary rows to the north and to the south of a word's range (R173). -/
def Conv.northRows (c : Conv) : List Nat :=
  if c.north = 0x3FF then [] else (List.range (min c.outN (c.oy1 + 1 - c.oy0))).map (c.oy0 + ·)
def Conv.southRows (c : Conv) : List Nat :=
  if c.south = 0x3FF then []
  else
    let n := min c.outS (c.oy1 + 1 - c.oy0)
    (List.range n).map (c.oy1 + 1 - n + ·)

/-- The row segments of a word (R173): the northern boundary rows, the southern ones, and the others in ascending order. -/
def Conv.segments (c : Conv) : List (List Nat) :=
  if c.empty then []
  else
    let south := c.southRows.filter fun y => !c.northRows.contains y
    let bd := c.northRows ++ south
    [c.northRows, south, ((List.range (c.oy1 + 1 - c.oy0)).map (c.oy0 + ·)).filter fun y => !bd.contains y]

/-- The steps of a word in order: every pass over a segment's rows before the next segment (R164, R173), as pass and row. -/
def Conv.order (c : Conv) : List (Nat × Nat) :=
  c.segments.flatMap fun ys => (List.range c.passes).flatMap fun p => ys.map fun y => (p, y)

/-- Tokens that follow the k-th step (counted from 1): to the north neighbour once its rows are done, to the south one once
both sets are (R173). -/
def scarfSend (s : State) (b : Nat) (c : Conv) (k : Nat) : State :=
  let nN := c.passes * c.northRows.length
  let nB := nN + c.passes * (c.southRows.filter fun y => !c.northRows.contains y).length
  let s := if nN ≠ 0 && k = nN then sendAfter s b { src := b, dst := c.north, kind := 0, ctr := c.tn, amount := 1 } else s
  if !c.southRows.isEmpty && k = nB then sendAfter s b { src := b, dst := c.south, kind := 0, ctr := c.ts, amount := 1 } else s

/-- Sides whose token a row needs and the word has not taken (R174): 0 north, 1 south. -/
def Conv.needs (c : Conv) (took : List Nat) (ys : List Nat) : List Nat :=
  (if c.north != 0x3FF && !took.contains 0 && ys.any (fun y => decide (y < c.own0)) then [0] else [])
    ++ (if c.south != 0x3FF && !took.contains 1 && ys.any (fun y => decide (c.own1 < y)) then [1] else [])

/-- Take the tokens of the sides needed, in order: the sides taken, and whether all were there. -/
def takeScarf (c : Conv) : List Nat → Bay → List Nat → Bay × List Nat × Bool
  | [], x, took => (x, took, true)
  | side :: rest, x, took =>
    let ctr := if side = 0 then c.wn else c.ws
    if tok x ctr = 0 then (x, took, false) else takeScarf c rest (setTok x ctr (tok x ctr - 1)) (took ++ [side])

/-- Bytes of a fetched row that the pixels its taps name occupy, in an LQT input (R91, R161). -/
def Conv.tritBytes (c : Conv) (r : InRow) : Bytes :=
  let n := 13 * (c.cp / 64)
  r.planes.flatMap fun p => c.colsUsed.flatMap fun x => sub p (x * n) n

/-- Whether a row that the step fetched, or the filter rows of its channels, hold an LQT byte above 242 (R91). -/
def convTrits (s : State) (b : Nat) (c : Conv) (rows : List InRow) (ns : List Nat) : Bool :=
  (c.fx == 0xD && rows.any fun r => (c.tritBytes r).any fun v => decide (242 < v.toNat))
    || (c.fw == 0xD && decide (c.op ≤ 1) && ns.any fun n =>
      (greadOf s b (64 * (c.wLine + n * c.wPitch)) (rowBytes c.fw c.wElems)).any fun v => decide (242 < v.toNat))

/-- Values of an output row's channels ns before the epilogue, and the state with lost chunks counted. -/
def rowValues (s : State) (b : Nat) (c : Conv) (rows : List InRow) (oy : Nat) (ns : List Nat) : List (List Nat) × State :=
  if 2 ≤ c.op then (poolRow c rows oy ns, s)
  else
    let post := fun (px : List (List Nat)) => px.map fun vs => (ns.zip vs).map fun e => convPost s b c e.1 e.2
    if c.wino4 then (post (winoRow s b c rows oy ns), s)
    else
      let cs := if c.op = 0 then directRow s b c rows oy ns else depthRow s b c rows oy ns
      (post (cs.map fun px => px.map fun ch => reduce106 (ch.map (·.1))), countTrunc s b cs.flatten)

/-- The pass and row that a composite is at. -/
def Conv.at (c : Conv) (k : Composite) : Nat × Nat := c.order.getD k.next (0, 0)

/-- Input rows of a step that its pass has not fetched yet (R161). -/
def Conv.toFetch (c : Conv) (k : Composite) : List Nat :=
  (c.rowsOf (c.at k).2).filter fun y => !k.got.any fun r => r.pass == (c.at k).1 && r.y == y

/-- The wait for the scarf tokens of the rows a step fetches (R174). -/
def convWait (s : State) (b : Nat) (k : Composite) : State × Composite :=
  let c := convDesc k.op k.body
  let t := takeScarf c (c.needs k.took (c.toFetch k)) (bay s b) k.took
  (setBay s b t.1, { k with took := t.2.1, waiting := !t.2.2 })

/-- Values of a row, pixel by pixel, with those that earlier passes computed before them. -/
def joinParts (old new : List (List Nat)) : List (List Nat) :=
  if old.isEmpty then new else (old.zip new).map fun p => p.1 ++ p.2

/-- Write the spans of an output row (R157): its bytes, or free ones where the descriptor's ranges overlap. -/
def writeSpans (s : State) (b a : Nat) (torn : Bool) (bs : Bytes) (spans : List (Nat × Nat)) : State :=
  spans.foldl (fun s sp =>
    let v := if torn then (List.range sp.2).map fun i => BitVec.ofNat 8 (Config.freeValue (s.free + i)) else sub bs sp.1 sp.2
    gwrite { s with free := if torn then s.free + sp.2 else s.free } b (a + sp.1) v) s

/-- One step of a CONV composite, a row in a pass: its input, its values and its write (R160-R173). -/
def convRow (s : State) (b : Nat) (k : Composite) : Except Nat (State × Composite) :=
  let c := convDesc k.op k.body
  let (pass, oy) := c.at k
  if c.filterRanges.any fun r => poisonedIn s r.1 r.2 then .error ePoison
  else match (c.toFetch k).mapM (fetchRow s b c pass) with
    | .error code => .error code
    | .ok new =>
      let got := k.got ++ new
      let ns := c.chans pass
      let v := rowValues s b c (got.filter (·.pass == pass)) oy ns
      let px := v.1.map fun vs => (ns.zip vs).map fun e => epilogue s b c e.1 e.2
      let old := ((k.parts.find? (·.1 == oy)).map (·.2)).getD []
      let all := joinParts old px
      let out := convertRow c all
      let bs := rowOut c out.1
      let last := pass + 1 = c.passes
      let lost := (convertRow c px).2
      let pad := if last then all else joinParts all (all.map fun _ => List.replicate (c.cOut - (128 * (pass + 1))) 0)
      let whole := if last then bs else rowOut c (convertRow c pad).1
      let s := writeSpans v.2 b (64 * (c.outLine + oy * c.outPitch)) k.torn whole (c.partSpans pass whole.length)
      let s := if lost then recordErr s (bayPage b) eArithNanLost (bay s b).owner 0 else s
      let s := if convTrits s b c new ns then recordErr s (bayPage b) eArithLqtByte (bay s b).owner 0 else s
      let parts := k.parts.filter fun p => p.1 != oy
      .ok (scarfSend s b c (k.next + 1),
        { k with next := k.next + 1, full := if last then k.full + 1 else k.full, got := got
                 parts := if last then parts else parts ++ [(oy, all)] })

/-- Whether two lists of byte ranges, start and length, share a byte; and whether some two of several do. -/
def share (xs ys : List (Nat × Nat)) : Bool :=
  xs.any fun x => ys.any fun y => decide (x.1 < y.1 + y.2) && decide (y.1 < x.1 + x.2)
def somePair : List (List (Nat × Nat)) → Bool
  | [] => false
  | x :: xs => xs.any (share x) || somePair xs

/-- Whether the input, filter, scale, bias and output ranges of a descriptor overlap (R157). -/
def Conv.overlaps (c : Conv) : Bool :=
  let input := (List.range c.inH).flatMap fun y => (c.planeAt y).map fun a =>
    (a, if c.inZrc then 64 * c.inPitch else rowBytes c.fx c.planeElems)
  let scales := if c.scaleRow = 0 then [] else (List.range c.inH).map fun y => (64 * (c.inSline + y * c.inSpitch), c.scaleRow)
  let output := (List.range (c.oy1 + 1 - c.oy0)).map fun i => (64 * (c.outLine + (c.oy0 + i) * c.outPitch), c.outBytes)
  somePair [input, scales, c.weightRanges, c.wScaleRanges, c.biasRanges, output]

/-- What the word's reads and writes meet before its first row (R17, R487): everything but ZRC rows, whose used lines are
known as they are read. -/
def convCode (s : State) (c : Conv) : Nat :=
  if c.empty then 0
  else
    let ys := inOrder c.inH ((List.range (c.oy1 + 1 - c.oy0)).flatMap fun i => c.rowsOf (c.oy0 + i))
    let rds := c.filterRanges ++ (if c.inZrc then ys.flatMap fun y => (c.planeAt y).map fun a => (a, 64) else ys.flatMap c.rowRanges)
    let wrs := (List.range (c.oy1 + 1 - c.oy0)).map fun i => (64 * (c.outLine + (c.oy0 + i) * c.outPitch), c.outBytes)
    if !((rds ++ wrs).all fun r => allocatable r.1 r.2) then eMemRange
    else if rds.any fun r => poisonedIn s r.1 r.2 then ePoison
    else 0

/-- The word issues: the composite begins (R153). -/
def convStart (op : Nat) (s : State) (b : Nat) (q : QWord) : Except Nat State :=
  let w := q.word.toNat
  let a := 64 * wnDesc w
  if !allocatable a 128 then .error eMemRange
  else if poisonedIn s a 128 then .error ePoison
  else
    let body := greadOf s b a 128
    let c := convDesc op body
    let code := convCode s c
    if code ≠ 0 then .error code
    else .ok (setBay s b { bay s b with
      comp := some { cls := 10, op := op, desc := wnDesc w, addr := q.addr, body := body, torn := !c.empty && c.overlaps } })

/-- All rows are done, or the output was empty (R156, R159). -/
def convFinish (s : State) (b : Nat) (k : Composite) : State :=
  let e := (convDesc k.op k.body).empty
  finishComposite (noteOut s b e) b k e

/-- The work of a CONV composite. -/
def convWorks : Works :=
  { total := fun k => (convDesc k.op k.body).order.length, wait := convWait, row := convRow, finish := convFinish }

/-! ### The commands -/

def execConvolution (b n : Nat) (s : State) : Host.Outcome State Fault Refusal :=
  .next (compositeRow s b n 10 0 (convPre 0) (convStart 0) convWorks)

def execDepthwiseConvolution (b n : Nat) (s : State) : Host.Outcome State Fault Refusal :=
  .next (compositeRow s b n 10 1 (convPre 1) (convStart 1) convWorks)

def execMaxPooling (b n : Nat) (s : State) : Host.Outcome State Fault Refusal :=
  .next (compositeRow s b n 10 2 (convPre 2) (convStart 2) convWorks)

def execAveragePooling (b n : Nat) (s : State) : Host.Outcome State Fault Refusal :=
  .next (compositeRow s b n 10 3 (convPre 3) (convStart 3) convWorks)

/-- A composite that waits for a halo token goes on once its counter allows (R174). -/
def scarfResume (s : State) (b n : Nat) : State :=
  match (bay s b).comp with
  | some k =>
    if !k.waiting || (bay s b).halting then s
    else
      let c := convDesc k.op k.body
      let need := c.needs k.took (c.toFetch k)
      if (need.head?.map fun side => decide (0 < tok (bay s b) (if side = 0 then c.wn else c.ws))).getD false then
        runRows convWorks b (max n 1) (setBay s b { bay s b with comp := some { k with waiting := false } })
      else s
  | none => s

def execScarfResume (b n : Nat) (s : State) : Host.Outcome State Fault Refusal := .next (scarfResume s b n)

end Sys2Proof.Machine
end

