-- ==== Sys2Proof/Machine/Video.lean ====
section
/-! DEFINITION. The video engine (R261-R289): stream contexts and their commands, header parsing, the choice of work, decoded
units with FINAL_ROWS and concealment, encoded slices, and messages. -/

namespace Sys2Proof.Machine

/-! ### Stream blocks and slots (R261, R263, R267-R269) -/

def vn (x : VidCtx) (off len : Nat) : Nat := num x.block off len
def vCodec (x : VidCtx) : Nat := vn x 0 1 % 4
def vPrio (x : VidCtx) : Nat := vn x 1 1 % 8
def vLive (x : VidCtx) : Bool := decide (vPrio x < 4)
def vMax (x : VidCtx) : Nat × Nat := (vn x 2 2, vn x 4 2)
def vNpic (x : VidCtx) : Nat := vn x 7 1
/-- Bytes of a sample, slot pitch, rows and bytes (R268). -/
def vBytes (x : VidCtx) : Nat := if vn x 6 1 = 10 then 2 else 1
def vPitch (x : VidCtx) : Nat := 64 * cdiv (vn x 2 2 * vBytes x) 64
def vHa (x : VidCtx) : Nat := 64 * cdiv (vn x 4 2) 64
def slotBytes (x : VidCtx) : Nat := if vCodec x = 3 then 64 + 3 * vPitch x * vHa x else 64 + vPitch x * vHa x * 3 / 2
def slotAddr (x : VidCtx) (k : Nat) : Nat := vn x 8 8 + k * slotBytes x

/-- The largest picture of a codec (R261), and of the encoder (R263). -/
def codecMax (c : Nat) : Nat × Nat :=
  if c = 0 then (4096, 2304) else if c = 1 then (8192, 4320) else (8192, 4352)
def encoderMax (c : Nat) : Nat × Nat := if c = 1 then (4096, 2304) else (4096, 2176)

def fitsIn (a b : Nat × Nat) : Bool := decide (a.1 ≤ b.1) && decide (a.2 ≤ b.2)

/-- Whether token bays a to z may be sent to from a function (R121, R268): none, or bays that exist, work and are its own. -/
def tokenBays (s : State) (f a z : Nat) : Bool :=
  a == 0x3FF || (decide (a ≤ z) && decide (z < nBays)
    && (List.range (z + 1 - a)).all fun i => !(bay s (a + i)).off && (bay s (a + i)).owner == f)

/-- The fields that only an encode stream has (R263, R267). -/
def encodeOk (s : State) (f : Nat) (b : Bytes) : Bool :=
  let n := fun off len => num b off len
  let top := if n 0 1 % 4 = 1 then 51 else 63
  n 0 1 % 4 != 0 && n 0 1 % 4 != 3 && fitsIn (n 2 2, n 4 2) (encoderMax (n 0 1 % 4))
    && n 0x18 8 % 64 == 0 && n 0x20 4 % 64 == 0 && n 0x20 4 != 0 && ownsRange s f (n 0x18 8) (n 0x20 4)
    && decide (n 0x30 1 < 3) && (n 0x30 1 != 0 || (sub b 0x31 3).all fun q => decide (q.toNat ≤ top))
    && (n 0x30 1 == 0 || (decide (n 0x4A 1 ≤ top) && decide (n 0x4B 1 ≤ top)))
    && n 0x40 2 != 0 && decide (n 0x42 1 < 4) && decide (1 ≤ n 0x43 1) && decide (n 0x43 1 ≤ 4)
    && decide (1 ≤ n 0x44 1) && decide (n 0x44 1 ≤ 64) && decide (n 0x45 1 < 32)

/-- Whether a stream block may stand (R268). -/
def streamOk (s : State) (f : Nat) (b : Bytes) : Bool :=
  let n := fun off len => num b off len
  let x : VidCtx := { block := b }
  decide (n 0 1 < 8) && decide (n 1 1 < 16) && decide (16 ≤ n 2 2) && decide (n 2 2 ≤ 8192) && decide (16 ≤ n 4 2)
    && decide (n 4 2 ≤ 4352) && (n 6 1 == 8 || n 6 1 == 10) && !(n 6 1 == 10 && (n 0 1 % 4 == 0 || n 0 1 % 4 == 3))
    && decide (2 ≤ vNpic x) && decide (vNpic x ≤ 32) && n 8 8 % 64 == 0 && decide (vNpic x * slotBytes x ≤ n 0x10 8)
    && ownsRange s f (n 8 8) (n 0x10 8) && tokenBays s f (n 0x24 2) (n 0x26 2) && decide (n 0x28 1 < 16) && n 0x29 1 != 0
    && (sub b 0x2A 6).all (· == 0) && (sub b 0x4C 52).all (· == 0) && (n 0 1 < 4 || encodeOk s f b)

/-! ### Messages (R286) -/

/-- Post a video message for a stream; a shadow writes nothing to host memory (R426). -/
def vpost (s : State) (x : VidCtx) (type : Nat) (payload : Bytes) : State :=
  if shadows s x.func then s
  else post s x.func (rf s (K.ringRoute x.func) 7 4) true { type := type, func := x.func, flags := 0, mtime := now s, payload := payload }

/-- STREAM_EVENT: 1 FLUSHED, 2 CLOSED, 3 FAULT, 4 FORMAT. -/
def streamEvent (s : State) (i : Nat) (x : VidCtx) (ev code : Nat) : State :=
  vpost s x 0x3A (toLE 1 i ++ toLE 1 ev ++ toLE 2 code ++ toLE 2 x.size.1 ++ toLE 2 x.size.2)

/-- Whether messages of a stream wait for room in their ring: its cores then stop (R307). -/
def messagesWait (s : State) (i : Nat) (x : VidCtx) : Bool :=
  (eqr s x.func (rf s (K.ringRoute x.func) 7 4)).waiting.any fun m =>
    decide (0x38 ≤ m.type) && decide (m.type ≤ 0x3A) && num m.payload 0 1 == i

/-! ### Pictures and slots (R269, R272, R276) -/

def slotOf (x : VidCtx) (k : Nat) : VidSlot := x.slots.getD k {}
def setSlotOf (x : VidCtx) (k : Nat) (v : VidSlot) : VidCtx := { x with slots := x.slots.set k v }
def picAt (x : VidCtx) (k : Nat) : Option VidPic := x.pics.find? (·.slot == k)
def setPic (x : VidCtx) (p : VidPic) : VidCtx := { x with pics := x.pics.map fun q => if q.slot = p.slot then p else q }

/-- A slot that a new picture may take (R272). -/
def slotFree (x : VidCtx) (k : Nat) : Bool := !(slotOf x k).held && !(slotOf x k).posted && (picAt x k).isNone

/-- A slot that the decoder itself holds, as a reference or for output order. -/
def slotNeeded (x : VidCtx) (k : Nat) : Bool :=
  (slotOf x k).held || (match picAt x k with | some p => !p.bumped && p.shown | none => false)

/-- Whether every unit of a picture is done. -/
def picDone (p : VidPic) : Bool := p.closed && p.open' == 0

/-- The status line of a picture from byte 2 on (R269). -/
def statusLine (p : VidPic) (frame : Nat) : Bytes :=
  toLE 2 p.width ++ toLE 2 p.height ++ toLE 1 p.layout ++ toLE 1 p.flags ++ toLE 8 p.pts ++ toLE 4 frame ++ toLE 4 p.cblocks
    ++ toLE 1 p.colour ++ toLE 39 0

/-- Raise FINAL_ROWS, and send the slice-done tokens once the write is acknowledged (R27, R276). -/
def raiseFinal (s : State) (x : VidCtx) (core : Nat) (p : VidPic) (rows : Nat) : State × VidPic :=
  let rows := min rows p.height
  if rows ≤ p.final then (s, p)
  else
    let s := gwrite s (uCore core) (slotAddr x p.slot) (toLE 2 rows)
    let a := vn x 0x24 2
    let s := if a = 0x3FF then s else (List.range (vn x 0x26 2 + 1 - a)).foldl (fun s k =>
      sendAfter s (uCore core) { src := uCore core, dst := a + k, kind := 0, ctr := vn x 0x28 1, amount := vn x 0x29 1 }) s
    (s, { p with final := rows, core := core })

/-- Rows that stay provisional after a unit (R276). -/
def lagRows (codec : Nat) : Nat := if codec = 0 then 4 else if codec = 1 then 8 else if codec = 2 then 64 else 0

/-- The picture whose units are being parsed. -/
def openPic (x : VidCtx) : Option VidPic := x.pics.find? (!·.closed)

/-! ### Output, flush and stall (R271, R275, R286) -/

/-- The next picture in output order. -/
def nextOut (x : VidCtx) : Option VidPic :=
  (x.pics.filter (·.shown)).foldl (fun (m : Option VidPic) p =>
    match m with
    | some q => if p.order < q.order then some p else some q
    | none => some p) none

/-- Post FRAME_DONE for a picture (R269, R275, R286). -/
def frameDone (s : State) (i : Nat) (x : VidCtx) (p : VidPic) : State × VidCtx :=
  let late := vLive x && p.deadline != 0 && decide (p.deadline < now s) && !bit p.flags 3
  let p := if late then { p with flags := putFld p.flags 2 2 1 } else p
  let s := if late then satIncr s K.vidLate 1 else s
  let s := poke s (slotAddr x p.slot + 2) (statusLine p x.frameNo)
  let s := vpost s x 0x38 (toLE 1 i ++ toLE 1 p.slot ++ toLE 2 p.flags ++ toLE 4 p.cblocks ++ toLE 8 p.pts ++ toLE 2 p.width
    ++ toLE 2 p.height ++ toLE 4 x.frameNo ++ toLE 2 p.code)
  let x := setSlotOf { x with pics := x.pics.filter (·.slot != p.slot), frameNo := x.frameNo + 1 } p.slot
    { slotOf x p.slot with posted := true, flags := p.flags }
  (s, x)

/-- Pictures that are decoded, tapped and next in output order are output; hidden ones are done with. -/
def outputs : Nat → State → Nat → VidCtx → State × VidCtx
  | 0, s, _, x => (s, x)
  | fuel + 1, s, i, x =>
    let x := { x with pics := x.pics.filter fun p => p.shown || !picDone p }
    match nextOut x with
    | some p =>
      if picDone p && p.bumped && p.taps.isEmpty then
        let r := frameDone s i x p
        outputs fuel r.1 i r.2
      else (s, x)
    | none => (s, x)

/-- A submission by index. -/
def subAt (x : VidCtx) (j : Nat) : VidSub := x.subs.getD j { cmd := 0, addr := 0, len := 0, pts := 0, deadline := 0, mark := false }

/-- Submissions whose bytes are all read complete, oldest first (R270). -/
def doneSubs : Nat → State → VidCtx → State × VidCtx
  | 0, s, x => (s, x)
  | fuel + 1, s, x =>
    match x.subs with
    | b :: rest => if b.parsed && b.open' == 0 then doneSubs fuel (finishId s b.cmd 0) { x with subs := rest } else (s, x)
    | [] => (s, x)

/-- In coding order, the submitted frame that is encoded next: the one in progress, a B picture whose anchor is coded, or the
next anchor (R263; the order of B pictures is the model's, notes/assumptions/27). -/
def encNext (x : VidCtx) : Option Nat :=
  match (List.range x.subs.length).find? fun j => decide (0 < (subAt x j).slice) with
  | some j => some j
  | none =>
    if x.subs.isEmpty then none
    else if 0 < x.bLeft then some 0
    else
      let b := vn x 0x42 1
      match (List.range (min (b + 1) x.subs.length)).find? fun j => (subAt x j).mark || j == b with
      | some j => some j
      | none => if x.st = 4 then some (x.subs.length - 1) else none

/-- Luma rows of a slice, and the rows that the next slice of a frame needs. -/
def sliceRows (x : VidCtx) : Nat := 64 * vn x 0x44 1
def rowsNeeded (x : VidCtx) (b : VidSub) : Nat := min (vn x 4 2) (sliceRows x * (b.slice + 1))

/-- Room in the output ring. -/
def ringRoom (x : VidCtx) : Nat := vn x 0x20 4 - (x.wrote - x.released)

/-- Whether a stream's next unit is parsed and can run (R271, R274). -/
def canWork (x : VidCtx) : Bool :=
  if vidEncode x then
    (match (encNext x).bind (x.subs[·]?) with
      | some b => decide (rowsNeeded x b ≤ b.ready) && decide (max 1 x.needs ≤ ringRoom x)
      | none => false)
  else !x.units.isEmpty

/-- RUNNING or STALLED (R271). -/
def restate (x : VidCtx) : VidCtx :=
  if x.st = 2 || x.st = 3 then { x with st := if x.onCore.isSome || canWork x then 2 else 3 } else x

/-- A flush is done once every unit is decoded or encoded and every picture output (R271). -/
def flushed (x : VidCtx) : Bool := x.st == 4 && x.subs.isEmpty && x.units.isEmpty && x.pics.isEmpty && x.onCore.isNone

/-- With everything submitted parsed, a flush outputs every picture. -/
def bumpAll (x : VidCtx) : VidCtx :=
  if x.st = 4 && x.subs.all (·.parsed) then
    { x with pics := x.pics.map fun p => { p with bumped := true } }
  else x

/-- Completions, output, flush and stall after a change of a context. -/
def settleVideo (s : State) (i : Nat) (x : VidCtx) : State :=
  if x.st < 2 || 4 < x.st then setVctx s i x
  else
    let (s, x) := if vidEncode x then (s, x) else doneSubs x.subs.length s x
    let x := bumpAll x
    let (s, x) := outputs (x.pics.length + 1) s i x
    if flushed x then
      let x := { x with st := 1 }
      streamEvent (setVctx s i x) i x 1 0
    else setVctx s i (restate x)

/-- A stream enters FAULT (R271). -/
def faultStream (s : State) (i : Nat) (x : VidCtx) (code : Nat) : State :=
  let x := { x with st := 5, units := [] }
  streamEvent (setVctx s i x) i x 3 code

/-! ### Commands (R266-R272, R280) -/

/-- STREAM_OPEN. -/
def streamOpen (s : State) (c : Cmd) : State :=
  let f := cmdFunc c
  let a := arg c 0x10 8
  let b := gread s a 128
  if a % 64 ≠ 0 || !ownsRange s f a 128 || !streamOk s f b then finish s c eVidParam
  else if poisonedIn s a 128 then finish s c ePoison
  else if bit (num b 1 1) 3 && shadowSt s == 1 && s.shadow.func == f then finish s c eShadowParam
  else match (List.range 256).find? fun i => (vctx s i).st == 0 with
    | none => finish s c eVidLimit
    | some i =>
      let x : VidCtx := { st := 1, func := f, block := b, slots := List.replicate (num b 7 1) {}, size := (num b 2 2, num b 4 2) }
      finish (setVctx s i x) c 0 i

def execStreamOpen (src : Nat) (s : State) : Host.Outcome State Fault Refusal := .next (withCmd s src 0x60 streamOpen)

/-- A command for a context of its function in some states, of a decode or an encode stream (R266, R271). -/
def onStream (s : State) (c : Cmd) (sts : List Nat) (enc : Option Bool) (g : State → Nat → VidCtx → State) : State :=
  let i := arg c 0x10 1
  let x := vctx s i
  if x.st = 0 || x.func ≠ cmdFunc c || !sts.contains x.st || (match enc with | some e => vidEncode x != e | none => false) then
    finish s c eVidState
  else g s i x

/-- A submission puts an OPEN stream to work. -/
def wake (x : VidCtx) : VidCtx := { x with st := if x.st = 1 then 2 else x.st }

/-- DEC_SUBMIT. -/
def decSubmit (s : State) (c : Cmd) (i : Nat) (x : VidCtx) : State :=
  let a := arg c 0x18 8
  let n := arg c 0x14 4
  if !ownsRange s x.func a n then finish s c eMemRange
  else
    let b : VidSub := { cmd := c.id, addr := a, len := n, pts := arg c 0x20 8, deadline := arg c 0x28 8, idx := x.count
                        mark := bit (arg c 0x11 1) 0 }
    settleVideo s i { wake x with subs := x.subs ++ [b], stream := x.stream ++ [gread s a n], count := x.count + 1 }

def execDecSubmit (src : Nat) (s : State) : Host.Outcome State Fault Refusal :=
  .next (withCmd s src 0x61 fun s c => onStream s c [1, 2, 3] (some false) fun s i x => decSubmit s c i x)

/-- PIC_RELEASE: the slot of a posted picture (R272). -/
def picRelease (s : State) (c : Cmd) (i : Nat) (x : VidCtx) : State :=
  let k := arg c 0x11 1
  if vNpic x ≤ k || !(slotOf x k).posted then finish s c eVidState
  else finish (settleVideo s i (setSlotOf x k { slotOf x k with posted := false })) c 0

def execPicRelease (src : Nat) (s : State) : Host.Outcome State Fault Refusal :=
  .next (withCmd s src 0x62 fun s c => onStream s c [1, 2, 3, 4, 5] (some false) fun s i x => picRelease s c i x)

/-- ENC_FRAME: KEY, or the start of a group of GOP pictures, makes a key picture. -/
def encFrame (s : State) (c : Cmd) (i : Nat) (x : VidCtx) : State :=
  let a := arg c 0x18 8
  if a % 64 ≠ 0 then finish s c eVidParam
  else if !ownsRange s x.func a (slotBytes x) then finish s c eMemRange
  else
    let key := bit (arg c 0x11 1) 0 || x.gop == 0
    let b : VidSub := {
      cmd := c.id, addr := a, len := slotBytes x, pts := arg c 0x20 8, deadline := arg c 0x28 8, mark := key
      gmv := arg c 0x30 4, ready := min (arg c 0x12 2) (vn x 4 2), idx := x.count }
    settleVideo s i { wake x with subs := x.subs ++ [b], count := x.count + 1, gop := (if key then 1 else x.gop + 1) % vn x 0x40 2 }

def execEncFrame (src : Nat) (s : State) : Host.Outcome State Fault Refusal :=
  .next (withCmd s src 0x63 fun s c => onStream s c [1, 2, 3] (some true) fun s i x => encFrame s c i x)

/-- Rows ready of the first frame that lacks some; a smaller value is ignored (R270). -/
def addReady (h n : Nat) : List VidSub → List VidSub
  | [] => []
  | b :: bs => if b.ready < h then { b with ready := max b.ready (min n h) } :: bs else b :: addReady h n bs

/-- ENC_ROWS. -/
def execEncRows (src : Nat) (s : State) : Host.Outcome State Fault Refusal :=
  .next (withCmd s src 0x64 fun s c => onStream s c [2, 3, 4] (some true) fun s i x =>
    finish (settleVideo s i { x with subs := addReady (vn x 4 2) (arg c 0x12 2) x.subs }) c 0)

/-- Bytes of an output element of a tap, and its channels (R280). -/
def tapBytes (b : Bytes) : Nat := if num b 0x0D 1 % 16 = 0xA then 1 else 2
def tapChans (b : Bytes) : Nat := if num b 0x0D 1 / 16 % 4 = 2 then 1 else 3

/-- Lines that a tap writes, from OUT_LINE on. -/
def tapLines (b : Bytes) : Nat :=
  let n := fun off len => num b off len
  (n 0x0C 1 - 1) * n 8 4 + (tapChans b - 1) * n 4 4 + (n 0x1A 2 - 1) * n 0x0E 2 + cdiv (n 0x18 2 * tapBytes b) 64

/-- Whether a tap block may stand (R280). -/
def tapOk (s : State) (f : Nat) (b : Bytes) : Bool :=
  let n := fun off len => num b off len
  decide (1 ≤ n 0x0C 1) && decide (n 0x0C 1 ≤ 16) && [0xA, 2, 1].contains (n 0x0D 1 % 16) && decide (n 0x0D 1 < 0x30)
    && decide (cdiv (n 0x18 2 * tapBytes b) 64 ≤ n 0x0E 2) && n 0x14 2 != 0 && n 0x16 2 != 0
    && decide (1 ≤ n 0x18 2) && decide (n 0x18 2 ≤ 4096) && decide (1 ≤ n 0x1A 2) && decide (n 0x1A 2 ≤ 4096)
    && tokenBays s f (n 0x34 2) (n 0x36 2) && decide (n 0x38 1 < 16) && decide (n 0x3A 1 < 2) && n 0x3B 1 != 0
    && ownsRange s f (64 * n 0x3C 4) 64 && ownsRange s f (64 * n 0 4) (64 * tapLines b)

/-- TAP_SET: it applies from the next picture that starts. A block that names format code 0xE or 0xF is refused with ARITH_PAIR (R84). -/
def tapSet (s : State) (c : Cmd) (i : Nat) (x : VidCtx) : State :=
  let t := arg c 0x11 1
  let a := arg c 0x18 8
  let put := fun (b : Bytes) => finish (setVctx s i { x with taps := x.taps.set t b, tapped := x.tapped.set t 0, since := x.since.set t 0 }) c 0
  if vidEncode x || 4 ≤ t then finish s c eVidParam
  else if a = 0 then put []
  else if ownsRange s x.func a 64 && 14 ≤ num (gread s a 64) 0x0D 1 % 16 then finish s c eArithPair
  else if !ownsRange s x.func a 64 || !tapOk s x.func (gread s a 64) then finish s c eVidParam
  else if poisonedIn s a 64 then finish s c ePoison
  else put (gread s a 64)

def execTapSet (src : Nat) (s : State) : Host.Outcome State Fault Refusal :=
  .next (withCmd s src 0x65 fun s c => onStream s c [1, 2, 3, 4, 5] none fun s i x => tapSet s c i x)

/-- STREAM_FLUSH: FLUSHED follows once everything is out. -/
def execStreamFlush (src : Nat) (s : State) : Host.Outcome State Fault Refusal :=
  .next (withCmd s src 0x66 fun s c => onStream s c [2, 3] none fun s i x =>
    settleVideo (finish s c 0) i { x with st := 4 })

/-- STREAM_CLOSE: it completes when the context is FREE. -/
def execStreamClose (src : Nat) (s : State) : Host.Outcome State Fault Refusal :=
  .next (withCmd s src 0x67 fun s c => onStream s c [1, 2, 3, 4, 5, 6] none fun s i x =>
    setVctx s i { x with st := 6, closeCmds := x.closeCmds ++ [c.id] })

/-- The count released by an offset in the ring: the least one from the last release on; the same offset releases a full ring. -/
def releasedTo (x : VidCtx) (off : Nat) : Nat :=
  let size := vn x 0x20 4
  let d := (off + size - x.released % size) % size
  let d := if d = 0 && x.wrote - x.released = size then size else d
  if x.wrote < x.released + d then x.released else x.released + d

/-- BS_RELEASE. -/
def execBsRelease (src : Nat) (s : State) : Host.Outcome State Fault Refusal :=
  .next (withCmd s src 0x68 fun s c => onStream s c [1, 2, 3, 4, 5] (some true) fun s i x =>
    finish (settleVideo s i { x with released := releasedTo x (arg c 0x14 4) }) c 0)

/-! ### Samples and concealment (R268, R285) -/

/-- Where the samples of a component lie: byte offset of sample (0, 0) in the slot, pitch, bytes from one sample to the next, and
the subsampling in x and y. -/
structure Plane where
  off : Nat
  pitch : Nat
  step : Nat
  sx : Nat
  sy : Nat
deriving DecidableEq, Repr

/-- The planes of a layout (R268, R269): luma, then Cb and Cr if there are any. -/
def planesOf (x : VidCtx) (layout : Nat) : List Plane :=
  let b := vBytes x
  let pt := vPitch x
  let area := pt * vHa x
  let luma : Plane := ⟨64, pt, b, 1, 1⟩
  match layout with
  | 0 | 1 => [luma, ⟨64 + area, pt, 2 * b, 2, 2⟩, ⟨64 + area + b, pt, 2 * b, 2, 2⟩]
  | 2 => [luma, ⟨64 + area, pt, 1, 2, 2⟩, ⟨64 + 2 * area, pt, 1, 2, 2⟩]
  | 3 => [luma, ⟨64 + area, pt, 1, 2, 1⟩, ⟨64 + 2 * area, pt, 1, 2, 1⟩]
  | 4 => [luma, ⟨64 + area, pt, 1, 1, 1⟩, ⟨64 + 2 * area, pt, 1, 1, 1⟩]
  | _ => [luma]

/-- Size of a plane of a picture. -/
def planeSize (p : Plane) (w h : Nat) : Nat × Nat := (cdiv w p.sx, cdiv h p.sy)

/-- Address of a sample of a slot. -/
def sampleAt (slot : Nat) (p : Plane) (cx cy : Nat) : Nat := slot + p.off + cy * p.pitch + cx * p.step

/-- An integer clamped to 0 to n - 1. -/
def clampTo (n : Nat) (v : Int) : Nat := min (n - 1) v.toNat

/-- The nearest picture in output order that the decoder still holds, the earlier one on a tie: slot and size. -/
def nearestHeld (x : VidCtx) (p : VidPic) : Option (Nat × Nat × Nat) :=
  let dist := fun (k : Nat) => max (slotOf x k).order p.order - min (slotOf x k).order p.order
  let l := (List.range x.slots.length).filter fun k => k != p.slot && slotNeeded x k
  (l.foldl (fun (m : Option Nat) k =>
    match m with
    | some j => if dist k < dist j || (dist k = dist j && decide ((slotOf x k).order < (slotOf x j).order)) then some k else some j
    | none => some k) none).map fun k => (k, (slotOf x k).size)

/-- A slot that holds, for the decoder, the picture at a place in output order. -/
def slotByOrder (x : VidCtx) (o : Nat) : Option Nat :=
  (List.range x.slots.length).find? fun k => slotNeeded x k && (slotOf x k).order == o

/-- The samples of one component of a 16 x 16 luma block copied from a slot, moved by whole samples and clamped to its picture, or
set to mid-grey. -/
def concealPlane (s : State) (x : VidCtx) (p : VidPic) (pl : Plane) (bx by' : Nat) (src : Option (Nat × Nat × Nat)) (dx dy : Int) : State :=
  let b := vBytes x
  let w := 16 / pl.sx
  let h := 16 / pl.sy
  let size := planeSize pl p.width p.height
  let grey := toLE b (if b = 2 then 512 else 128)
  (List.range h).foldl (fun s j => (List.range w).foldl (fun s k =>
    let cx := bx * w + k
    let cy := by' * h + j
    if size.1 ≤ cx || size.2 ≤ cy then s
    else
      let v := match src with
        | some (slot, sw, sh) =>
          let z := planeSize pl sw sh
          gread s (sampleAt (slotAddr x slot) pl (clampTo z.1 (cx + dx.fdiv pl.sx)) (clampTo z.2 (cy + dy.fdiv pl.sy))) b
        | none => grey
      poke s (sampleAt (slotAddr x p.slot) pl cx cy) v) s) s

/-- The block of a list at a place. -/
def blockAt (l : List UnitBlock) (bx by' : Nat) : Option UnitBlock := l.find? fun b => b.x == bx && b.y == by'

/-- The vector that a concealed block takes: that of its left neighbour, or failing that of the one above, if it is decoded or
concealed and inter-predicted (R285). -/
def neighbourVector (p : VidPic) (bx by' : Nat) : Option (Int × Int × Nat) :=
  let left := if bx = 0 then none else (blockAt p.done (bx - 1) by').bind (·.vector)
  let above := if by' = 0 then none else (blockAt p.done bx (by' - 1)).bind (·.vector)
  left.or above

/-- Conceal one block (R285): from its neighbour's vector and reference, from the nearest held picture, or grey. -/
def conceal (x : VidCtx) (acc : State × VidPic) (e : Nat × Nat) : State × VidPic :=
  let p := acc.2
  let v := neighbourVector p e.1 e.2
  let src := match v.bind fun v => slotByOrder x v.2.2 with
    | some k => some (k, (slotOf x k).size)
    | none => nearestHeld x p
  let (dx, dy) := match v with
    | some v => (v.1, v.2.1)
    | none => (0, 0)
  ((planesOf x p.layout).foldl (fun s pl => concealPlane s x p pl e.1 e.2 src dx dy) acc.1,
    { p with done := p.done ++ [{ x := e.1, y := e.2, vector := v }] })

/-- Conceal blocks in raster order, and count them (R285, R287). -/
def concealAll (s : State) (x : VidCtx) (p : VidPic) (l : List (Nat × Nat)) : State × VidPic :=
  let (s, p) := l.foldl (conceal x) (s, p)
  let n := l.length
  (satIncr s K.vidConcealed n, { p with cblocks := p.cblocks + n, flags := if n = 0 then p.flags else putFld p.flags 0 0 1 })

/-- Blocks of a picture that no unit brought, in raster order. -/
def missingBlocks (p : VidPic) : List (Nat × Nat) :=
  ((List.range (cdiv p.height 16)).flatMap fun y => (List.range (cdiv p.width 16)).map fun x => (x, y)).filter fun e =>
    (blockAt p.done e.1 e.2).isNone

/-- A picture whose units are all done: what none of them brought is concealed, and all rows are final (R276, R285). -/
def finishPic (s : State) (x : VidCtx) (core : Nat) (p : VidPic) : State × VidPic :=
  if bit p.flags 3 then (s, p)
  else
    let (s, p) := concealAll s x p (missingBlocks p)
    raiseFinal s x core p p.height

/-- A picture has no further units. -/
def closePic (s : State) (x : VidCtx) (p : VidPic) : State × VidCtx :=
  let p := { p with closed := true }
  let (s, p) := if p.open' = 0 then finishPic s x p.core p else (s, p)
  (s, setPic x p)

/-! ### What a header may ask for (R261, R262, R269) -/

/-- Profiles that the decode cores accept (R261). -/
def profileOk (codec : Nat) (p : VidProfile) : Bool :=
  match codec with
  | 0 => p == .constrainedBaseline || p == .main || p == .high
  | 1 => p == .main || p == .main10 || p == .mainStill
  | 2 => p == .main
  | _ => p == .baselineSequential

/-- Depths and chroma formats that they accept (R261), at the stream's own depth (R267; notes/assumptions/187). -/
def formatOk (x : VidCtx) (h : UnitHead) : Bool :=
  h.depth == vn x 6 1 && match vCodec x with
  | 0 => h.depth == 8 && (h.chroma == 1 || (h.chroma == 0 && h.profile == .high))
  | 1 => h.chroma == 1 && (h.depth == 8 || (h.depth == 10 && h.profile == .main10))
  | 2 => (h.depth == 8 || h.depth == 10) && decide (h.chroma < 2)
  | _ => h.depth == 8 && decide (h.chroma < 4)

/-- Features that the module refuses (R262). -/
def refusedFeature (codec : Nat) : VidFeature → Bool
  | .fmo | .aso | .redundantSlices | .fieldPicture | .mbaff => codec == 0
  | .extension => codec == 1
  | .largeScaleTile | .operatingPoint => codec == 2
  | .progressive | .arithmetic | .lossless | .hierarchical | .twelveBit | .components | .sampling => codec == 3
  | .upperLayer | .sei | .outsidePoint | .filmGrain => false

/-- Units that the module discards (R262): HEVC NAL units of other layers and SEI messages, AV1 OBUs outside operating point 0. -/
def discardedFeature (codec : Nat) : VidFeature → Bool
  | .upperLayer | .sei => codec == 1
  | .outsidePoint => codec == 2
  | _ => false

/-- Whether a header asks for what is not supported; what a chapter does not list is not (R9, R261, R262). -/
def unsupported (x : VidCtx) (h : UnitHead) : Bool :=
  !profileOk (vCodec x) h.profile || !formatOk x h || h.features.any (refusedFeature (vCodec x))

/-- LAYOUT of a picture (R269). -/
def layoutOf (x : VidCtx) (h : UnitHead) : Nat :=
  if h.chroma = 0 then 5 else if vCodec x = 3 then h.chroma + 1 else if vBytes x = 2 then 1 else 0

/-- COLOUR of a picture: BT.709 limited range, for JPEG BT.601 full range, if the bitstream says nothing; a matrix outside the three is
written as BT.709 (R269). -/
def colourOf (x : VidCtx) (h : UnitHead) : Nat :=
  match h.colour with
  | none => if vCodec x = 3 then 4 else 1
  | some (m, full) => (if m < 3 then m else 1) + 4 * b2n full

/-! ### Where parsing resumes (R284) -/

/-- The first place from p on at which a test holds. -/
def seekFrom (test : Bytes → Bool) : Bytes → Nat → Nat
  | [], p => p
  | b :: bs, p => if test (b :: bs) then p else seekFrom test bs (p + 1)

/-- A start code; an RSTn or SOI marker. -/
def startCode (bs : Bytes) : Bool := bs.take 3 == [0, 0, 1]
def restartMark (bs : Bytes) : Bool := num bs 0 1 == 0xFF && decide (0xD0 ≤ num bs 1 1) && decide (num bs 1 1 ≤ 0xD8)

/-- A leb128 number: its value and its bytes. -/
def leb128 : Nat → Bytes → Nat × Nat
  | 0, _ => (0, 0)
  | _, [] => (0, 0)
  | n + 1, b :: bs =>
    if bit b.toNat 7 then let r := leb128 n bs
                         (b.toNat % 128 + 128 * r.1, r.2 + 1)
    else (b.toNat, 1)

/-- The place of the OBU after the one at p; one without a size ends the data. -/
def obuNext (bs : Bytes) (p : Nat) : Nat :=
  let h := num bs p 1
  let at' := p + 1 + b2n (bit h 2)
  if bit h 1 then let r := leb128 8 (bs.drop at')
                  at' + r.2 + r.1
  else bs.length

/-- Where parsing resumes after a syntax error: the next start code, the next OBU, the next RSTn or SOI. -/
def resync (codec : Nat) (bs : Bytes) (p : Nat) : Nat :=
  match codec with
  | 0 | 1 => seekFrom startCode (bs.drop (p + 1)) (p + 1)
  | 2 => obuNext bs p
  | _ => seekFrom restartMark (bs.drop (p + 1)) (p + 1)

/-! ### Header parsing (R261, R262, R264, R273, R284) -/

/-- Change the first submission that satisfies a test. -/
def updSub (p : VidSub → Bool) (g : VidSub → VidSub) : List VidSub → List VidSub
  | [] => []
  | b :: bs => if p b then g b :: bs else b :: updSub p g bs

/-- The submission that is parsed. -/
def parsing (x : VidCtx) : Option VidSub := x.subs.find? (!·.parsed)

/-- The bytes of the stream up to a submission. -/
def streamTo (x : VidCtx) (n : Nat) : List Bytes := x.stream.take (n + 1)

/-- Parsing goes on at a place. -/
def parseGoes (x : VidCtx) (p : Nat) : VidCtx := { x with subs := updSub (!·.parsed) (fun b => { b with pos := p }) x.subs }

/-- Parsing goes on behind what was read. -/
def parseOn (x : VidCtx) (b : VidSub) : VidCtx := parseGoes x (Config.parseNext x.block (streamTo x b.idx) b.pos)

/-- Pictures that a header frees, and those that it lets out. -/
def applyHead (x : VidCtx) (h : UnitHead) : VidCtx :=
  { x with
    slots := x.slots.map fun v => if h.drop.contains v.order then { v with held := false } else v
    pics := x.pics.map fun p => { p with bumped := p.bumped || decide (p.order < h.bump) } }

/-- Enter a parsed unit of a picture. -/
def addUnit (x : VidCtx) (p : VidPic) (b : VidSub) (last : Bool) : VidCtx :=
  let x := { x with
    units := x.units ++ [⟨p.slot, last, b.idx, b.pos⟩]
    subs := updSub (!·.parsed) (fun b => { b with open' := b.open' + 1 }) x.subs }
  setPic (parseOn x b) { p with open' := p.open' + 1, closed := last }

/-- Whether a picture that a picture refers to carries CONCEALED (R285). -/
def inherits (x : VidCtx) (refs : List Nat) : Bool :=
  refs.any fun o => match slotByOrder x o with
    | some k => bit (((picAt x k).map (·.flags)).getD (slotOf x k).flags) 0
    | none => false

/-- A new picture in a free slot; a JPEG image is output as soon as it is next. -/
def newPic (s : State) (i : Nat) (x : VidCtx) (h : UnitHead) (b : VidSub) (k : Nat) : State :=
  let size := (h.width, h.height)
  let p : VidPic := {
    slot := k, order := h.order, pts := b.pts, deadline := b.deadline, width := h.width, height := h.height, layout := layoutOf x h
    colour := colourOf x h, flags := 2 * b2n (inherits x h.refs) + 16 * b2n (h.features.contains .filmGrain), isRef := h.isRef
    shown := h.shown, refs := h.refs, sub := b.idx, bumped := decide (h.order < h.bump) || vCodec x == 3 }
  let fresh := x.size != size
  let x := { setSlotOf x k { held := h.isRef, order := h.order, size := size } with size := size, pics := x.pics ++ [p] }
  let s := poke s (slotAddr x k) (toLE 2 0 ++ statusLine p (x.frameNo + x.pics.length - 1))
  let s := if fresh then streamEvent s i x 4 0 else s
  settleVideo s i (addUnit x p b h.last)

/-- A unit that begins a picture: a size beyond a limit, or more slots needed than there are, is VID_SIZE (R261, R273); while no slot
is free it waits. -/
def beginPic (s : State) (i : Nat) (x : VidCtx) (h : UnitHead) (b : VidSub) : State :=
  if !fitsIn (h.width, h.height) (vMax x) || !fitsIn (h.width, h.height) (codecMax (vCodec x)) then
    faultStream s i { x with size := (h.width, h.height) } eVidSize
  else
    let (s, x) := match openPic x with
      | some p => closePic s x p
      | none => (s, x)
    let x := applyHead x h
    match (List.range (vNpic x)).find? (slotFree x) with
    | some k => newPic s i x h b k
    | none => if (List.range (vNpic x)).all (slotNeeded x) then faultStream s i x eVidSize else settleVideo s i x

/-- A header asks for what is not supported: a JPEG image completes with VID_UNSUPPORTED and leaves nothing, any other stream enters
FAULT (R262). -/
def refuseHead (s : State) (i : Nat) (x : VidCtx) (b : VidSub) : State :=
  if vCodec x = 3 then
    settleVideo (finishId s b.cmd eVidUnsupported) i { x with
      subs := x.subs.filter (·.idx != b.idx), units := x.units.filter (·.sub != b.idx), pics := x.pics.filter (·.sub != b.idx) }
  else faultStream s i x eVidUnsupported

/-- A unit's header is parsed. -/
def parseUnit (s : State) (i : Nat) (x : VidCtx) (b : VidSub) (h : UnitHead) : State :=
  if h.features.any (discardedFeature (vCodec x)) then settleVideo s i (parseOn x b)
  else if unsupported x h then refuseHead s i x b
  else if h.first then beginPic s i x h b
  else match openPic x with
    | none => settleVideo s i (parseOn x b)
    | some p =>
      if bit p.flags 3 then settleVideo s i (setPic (parseOn x b) { p with closed := h.last })
      else settleVideo s i (addUnit x p b h.last)

/-- The bytes of a submission end: its picture is complete, and after EOS every picture is output. -/
def parseEnd (s : State) (i : Nat) (x : VidCtx) (b : VidSub) : State :=
  let (s, x) := match openPic x with
    | some p => closePic s x p
    | none => (s, x)
  let x := { x with subs := updSub (!·.parsed) (fun b => { b with parsed := true }) x.subs }
  let last := x.pics.foldl (fun m p => max m p.order) 0
  let x := if !b.mark then x else
    { x with pics := x.pics.map fun p => { p with bumped := true, flags := if p.order = last then putFld p.flags 7 7 1 else p.flags } }
  settleVideo s i x

/-- What parsing finds at the place where it stands: a unit, the end, or a syntax error, after which it resumes as R284 says. -/
def parseStep (s : State) (i : Nat) (x : VidCtx) (b : VidSub) : ParseOut → State
  | .unit h => parseUnit s i x b h
  | .ended => parseEnd s i x b
  | .syntaxError =>
    settleVideo (recordErr (satIncr s K.vidSyntax 1) pgVid eVidSyntax x.func 0) i
      (parseGoes x (resync (vCodec x) ((x.stream[b.idx]?).getD []) b.pos))

/-- Firmware parses the next header of a stream (R264). -/
def headerParsed (i : Nat) (s : State) : State :=
  let x := vctx s i
  if x.st < 2 || 4 < x.st || vidEncode x || haltedOnErr s pgVid then s
  else match parsing x with
    | none => s
    | some b => parseStep s i x b (Config.parse x.block (streamTo x b.idx) b.pos)

def execHeaderParseDone (ctx : Nat) (s : State) : Host.Outcome State Fault Refusal := .next (headerParsed ctx s)

/-! ### The choice of work (R274, R275, R288) -/

/-- The picture of a decode stream's next unit. -/
def headPic (x : VidCtx) : Option VidPic := x.units.head?.bind fun u => picAt x u.slot

/-- Whether a stream skips the picture of its next unit (R275). -/
def skips (s : State) (x : VidCtx) : Bool :=
  2 ≤ x.st && decide (x.st ≤ 4) && !vidEncode x && vLive x && vidDrop x && x.onCore.isNone &&
    match headPic x with
    | some p => !p.started && !p.isRef && p.deadline != 0 && decide (p.deadline < now s)
    | none => false

/-- Units leave their submissions. -/
def dropUnits (us : List VidUnit) (l : List VidSub) : List VidSub :=
  l.map fun b => { b with open' := b.open' - (us.filter (·.sub == b.idx)).length }

/-- Skip the pictures that a stream need not decode any more. -/
def skipLate : Nat → State → Nat → State
  | 0, s, _ => s
  | fuel + 1, s, i =>
    let x := vctx s i
    if !skips s x then s
    else match headPic x with
      | none => s
      | some p =>
        let x := { x with units := x.units.filter (·.slot != p.slot), subs := dropUnits (x.units.filter (·.slot == p.slot)) x.subs }
        let x := setPic x { p with flags := putFld p.flags 3 3 1, open' := 0 }
        skipLate fuel (settleVideo (satIncr s K.vidSkipped 1) i x) i

/-- Whether a write of FINAL_ROWS by another core is still under way; a later one must not overtake it (R276). -/
def finalPends (s : State) (core : Nat) (x : VidCtx) : Bool :=
  match headPic x with
  | some p => p.core != core && decide (0 < p.final) && writing s (uCore p.core)
  | none => false

/-- Whether a core may take a stream's next unit. -/
def canTake (s : State) (core i : Nat) (x : VidCtx) : Bool :=
  !finalPends s core x && 2 ≤ x.st && decide (x.st ≤ 4) && vidEncode x == decide (4 ≤ core) && x.onCore.isNone && canWork x && !messagesWait s i x

/-- Deadline of a stream's next frame for the order of R274: none, and any of a BATCH stream, comes last. -/
def workDeadline (x : VidCtx) : Nat :=
  let d := if vidEncode x then (((encNext x).bind (x.subs[·]?)).map (·.deadline)).getD 0 else ((headPic x).map (·.deadline)).getD 0
  if d = 0 || !vLive x then 2 ^ 64 else d

/-- Order of streams: priority, deadline, the one served longest ago. -/
def workKey (x : VidCtx) : Nat × Nat × Nat := (vPrio x, workDeadline x, x.served)

/-- The stream a core takes; the lowest context among equals. -/
def chooseWork (s : State) (core : Nat) : Option Nat :=
  (s.video.filter fun e => canTake s core e.1 e.2).foldl (fun (m : Option (Nat × VidCtx)) e =>
    match m with
    | some b => if keyBelow (workKey e.2) (workKey b.2) then some e else some b
    | none => some e) none |>.map (·.1)

/-- The taps that take a picture which starts (R280). -/
def startTaps (x : VidCtx) : VidCtx × List TapJob :=
  (List.range 4).foldl (fun (acc : VidCtx × List TapJob) t =>
    let b := x.taps.getD t []
    if b.isEmpty then acc
    else
      let n := x.since.getD t 0
      ({ acc.1 with since := acc.1.since.set t ((n + 1) % num b 0x3B 1) },
        if n = 0 then acc.2 ++ [{ tap := t, block := b }] else acc.2)) (x, [])

/-- A picture's first unit starts. -/
def startPic (x : VidCtx) : VidCtx :=
  match headPic x with
  | none => x
  | some p =>
    if p.started then x
    else
      let (x, js) := if p.shown then startTaps x else (x, [])
      setPic x { p with started := true, taps := js }

/-- Whether a core takes work (R43, R287). -/
def coreOn (s : State) (core : Nat) : Bool := bit (rd s K.vidCoreEn) core && !haltedOnErr s (0x61 + core)

/-- An idle core, or one at a pre-emption point, chooses. -/
def coreChoose (core : Nat) (s : State) : State :=
  if 6 ≤ core || (vcore s core).ctx.isSome || !coreOn s core then s
  else
    let s := s.video.foldl (fun s e => skipLate 64 s e.1) s
    match chooseWork s core with
    | none => s
    | some i =>
      let x := vctx s i
      let x := if vidEncode x then x else startPic x
      let other := match (vcore s core).unfinished with | some j => j != i | none => false
      let s := if other then satIncr s K.vidPreempt 1 else s
      setVctx (setVcore s core { vcore s core with ctx := some i, unfinished := none }) i { x with onCore := some core, served := s.clock, st := if x.st = 3 then 2 else x.st }

def execCoreChoose (core : Nat) (s : State) : Host.Outcome State Fault Refusal := .next (coreChoose core s)

/-! ### A unit ends (R273, R276, R284, R285) -/

/-- A core lets go of its stream. -/
def freeCore (s : State) (core : Nat) (left : Option Nat) : State :=
  setVcore s core { vcore s core with ctx := none, unfinished := left }

/-- Luma samples in units of 256, those left over kept for the next unit (R288). -/
def countLuma (s : State) (core reg luma : Nat) : State :=
  let n := (vcore s core).luma + luma
  satIncr (setVcore s core { vcore s core with luma := n % 256 }) reg (n / 256)

/-- VCLK cycles of a decoded unit (R273): luma samples at 2,000 Mpixel/s or bins at 1,600 Mbin/s. -/
def unitCycles (luma bins : Nat) : Nat := max (cdiv (2 * luma) 5) (cdiv bins 2)

/-- Count work of a decode core (R288). -/
def countDecode (s : State) (core luma cycles : Nat) : State :=
  satIncr (satIncr (countLuma s core (K.vdecPix core) luma) (K.vdecCyc core) cycles) (K.vdecUnits core) 1

/-- Luma rows that the blocks done cover without a gap from the top (R276). -/
def rowsCovered (p : VidPic) : Nat :=
  16 * ((List.range (cdiv p.height 16)).takeWhile fun y =>
    (List.range (cdiv p.width 16)).all fun x => (blockAt p.done x y).isSome).length

/-- A mid-grey picture (R285). -/
def greySlot (x : VidCtx) : Bytes :=
  (List.range (slotBytes x / vBytes x)).flatMap fun _ => toLE (vBytes x) (if vBytes x = 2 then 512 else 128)

/-- The slots that a picture's references lie in: one that was never received is replaced by the nearest held picture, or by
mid-grey (R285). -/
def refSlots (s : State) (x : VidCtx) (p : VidPic) : List Bytes := p.refs.map fun o =>
  match (slotByOrder x o).or ((nearestHeld x p).map (·.1)) with
  | some k => gread s (slotAddr x k) (slotBytes x)
  | none => greySlot x

/-- Blocks predicted from a replaced reference (R285). -/
def replacedBlocks (x : VidCtx) (l : List UnitBlock) : Nat :=
  (l.filter fun b => match b.vector with
    | some v => (slotByOrder x v.2.2).isNone
    | none => false).length

/-- Write the samples that stand after a unit, in blocks done and rows not final before: those of the standard's decoding process
(R265), in the slot's planes and at its depth (R268). -/
def writeSamples (s : State) (x : VidCtx) (p : VidPic) (u : VidUnit) : State :=
  let b := vBytes x
  let held := gread s (slotAddr x p.slot) (slotBytes x) :: refSlots s x p
  let planes := planesOf x p.layout
  ((List.range planes.length).zip planes).foldl (fun s e =>
    let pl := e.2
    let z := planeSize pl p.width p.height
    (List.range z.2).foldl (fun s cy => (List.range z.1).foldl (fun s cx =>
      if cy * pl.sy < p.final || (blockAt p.done (cx * pl.sx / 16) (cy * pl.sy / 16)).isNone then s
      else
        let v := Config.sample x.block (streamTo x u.sub) u.pos held (e.1, cx, cy) % 2 ^ (if b = 2 then 10 else 8)
        poke s (sampleAt (slotAddr x p.slot) pl cx cy) (toLE b v)) s) s) s

/-- Whether the bytes of a unit's submission are poisoned. -/
def unitPoisoned (s : State) (x : VidCtx) (u : VidUnit) : Bool :=
  match x.subs.find? (·.idx == u.sub) with
  | some b => poisonedIn s b.addr b.len
  | none => false

/-- The picture after a unit: samples written, or the unit discarded and its blocks concealed (R284, R285). -/
def unitSamples (s : State) (x : VidCtx) (core : Nat) (p : VidPic) (u : VidUnit) (f : UnitFacts) : State × VidPic :=
  let p := if inherits x p.refs then { p with flags := putFld p.flags 1 1 1 } else p
  if f.bad || unitPoisoned s x u then
    let s := if f.bad then recordErr (satIncr s K.vidSyntax 1) (0x61 + core) eVidSyntax x.func 0 else s
    concealAll s x p (f.blocks.map fun b => (b.x, b.y))
  else
    let n := replacedBlocks x f.blocks
    let p := { p with done := p.done ++ f.blocks }
    (satIncr (writeSamples s x p u) K.vidConcealed n,
      { p with cblocks := p.cblocks + n, flags := if n = 0 then p.flags else putFld p.flags 0 0 1 })

/-- A unit leaves its submission. -/
def unitLeaves (x : VidCtx) (u : VidUnit) : VidCtx :=
  { x with
    onCore := none, units := x.units.drop 1
    subs := x.subs.map fun b => if b.idx = u.sub then { b with open' := b.open' - 1 } else b }

/-- A decode core finishes its stream's first unit. -/
def decodedUnit (s : State) (core i : Nat) (x : VidCtx) (u : VidUnit) (p : VidPic) : State :=
  let f := Config.unitFacts x.block (streamTo x u.sub) u.pos
  let (s, p) := unitSamples s x core p u f
  let luma := 256 * f.blocks.length
  let s := countDecode s core luma (unitCycles luma f.bins)
  let p := { p with open' := p.open' - 1, closed := p.closed || u.last }
  let p := { p with rows := max p.rows (rowsCovered p) }
  let (s, p) := if picDone p then finishPic s x core p else raiseFinal s x core p (p.rows - lagRows (vCodec x))
  let x := unitLeaves (setSlotOf x p.slot { slotOf x p.slot with flags := p.flags }) u
  settleVideo (freeCore s core (if picDone p then none else some i)) i (setPic x p)

/-- A decode core finishes a unit. -/
def unitDecoded (core : Nat) (s : State) : State :=
  match (vcore s core).ctx with
  | none => s
  | some i =>
    let x := vctx s i
    if 4 ≤ core then s
    else
      match x.units.head?, headPic x with
      | some u, some p =>
        if x.st < 2 || 4 < x.st then setVctx (freeCore s core none) i { x with onCore := none, units := [] }
        else decodedUnit s core i x u p
      | _, _ => setVctx (freeCore s core none) i { x with onCore := none }

def execUnitDecoded (core : Nat) (s : State) : Host.Outcome State Fault Refusal := .next (unitDecoded core s)

/-! ### A context closes (R271) -/

/-- Units of a context's tap writes. -/
def tapUnits (i : Nat) : List Nat := (List.range 4).map fun t => uTap (4 * i + t)

/-- Whether a closing context's cores and taps have stopped and their writes are acknowledged. -/
def closable (s : State) (i : Nat) (x : VidCtx) : Bool :=
  x.st == 6 && x.onCore.isNone && !((tapUnits i).any (writing s)) && !((List.range 6).any fun c => writing s (uCore c))

/-- The context is FREE: unfinished submissions complete with VID_STATE, CLOSED is posted, and the closes complete. -/
def closed (i : Nat) (s : State) : State :=
  let x := vctx s i
  if !closable s i x then s
  else
    let s := x.subs.foldl (fun s b => finishId s b.cmd eVidState) (setVctx s i {})
    let s := streamEvent s i x 2 0
    x.closeCmds.foldl (fun s id => finishId s id 0) s

def execClosed (ctx : Nat) (s : State) : Host.Outcome State Fault Refusal := .next (closed ctx s)

end Sys2Proof.Machine
end

