-- ==== Sys2Proof/Machine/Encode.lean ====
section
/-! DEFINITION. The encode cores (R263, R265, R277-R279, R288): motion search, quantiser, reconstructed references and slices. -/

namespace Sys2Proof.Machine

/-! ### Predictor candidates (R278) -/

/-- A vector in quarter-pels, or a place in samples. -/
abbrev Vec := Int × Int

/-- The vector and reference of the block that covers a luma sample. -/
def vecAt (l : List BlockVec) (x y : Int) : Option BlockVec := l.find? fun b =>
  decide ((b.at'.x : Int) ≤ x) && decide (x < b.at'.x + b.at'.w) && decide ((b.at'.y : Int) ≤ y) && decide (y < b.at'.y + b.at'.h)

/-- a * n / d, rounded with ties away from zero. -/
def scaleAway (a n d : Int) : Int :=
  if d = 0 then a
  else
    let m := (2 * (a * n).natAbs + d.natAbs) / (2 * d.natAbs)
    if (a * n < 0) = (d < 0) then m else -m

/-- The middle of three numbers. -/
def middle (a b c : Int) : Int := max (min a b) (min (max a b) c)

/-- What the search of a frame's slice works on: the stream, the source slot, the references (place in output order, slot and vectors),
the frame's own place, GMV, the vectors of the previous coded picture, and the QP. -/
structure Search where
  x : VidCtx
  src : Bytes
  refs : List (Nat × Bytes × List BlockVec)
  order : Nat
  gmv : Vec
  prev : List BlockVec
  qp : Nat

/-- The reference nearest to the frame in output order, the first of equals. -/
def nearestRef (q : Search) : Option (Nat × Bytes × List BlockVec) :=
  let dist := fun (r : Nat × Bytes × List BlockVec) => max r.1 q.order - min r.1 q.order
  q.refs.foldl (fun (m : Option (Nat × Bytes × List BlockVec)) r => match m with
    | some b => if dist r < dist b then some r else some b
    | none => some r) none

/-- The vector that the nearest reference holds at a sample, scaled by picture distance to the reference searched (R278). -/
def colocated (q : Search) (ref : Nat) (x y : Int) : Option Vec :=
  (nearestRef q).bind fun r => (vecAt r.2.2 x y).map fun b =>
    let n := (q.order : Int) - ref
    let d := (r.1 : Int) - b.ref
    (scaleAway b.mv.1 n d, scaleAway b.mv.2 n d)

/-- The 16 candidates of R278 in order, none where unavailable: done holds the slice's final vectors so far. -/
def candidateList (q : Search) (done : List BlockVec) (ref : Nat) (b : PredBlock) : List (Option Vec) :=
  let x : Int := b.x
  let y : Int := b.y
  let w : Int := b.w
  let h : Int := b.h
  let near := fun (x y : Int) => (vecAt done x y).map (·.mv)
  let prev := fun (x y : Int) => (vecAt q.prev x y).map (·.mv)
  let left := near (x - 1) y
  let above := near x (y - 1)
  let right := near (x + w) (y - 1)
  let med := left.bind fun l => above.bind fun a => right.map fun r => (middle l.1 a.1 r.1, middle l.2 a.2 r.2)
  [some (0, 0), left, above, right, near (x - 1) (y - 1), colocated q ref x y, colocated q ref (x + w) (y + h), some q.gmv, med,
    prev (x - 1) (y - 1), prev x (y - 1), prev (x + w) (y - 1), prev (x - 1) y, prev (x + w) y, prev (x - 1) (y + h), prev x (y + h)]

/-- Up to ME[3:0] + 1 candidates; repeated vectors keep their first place. -/
def candidates (q : Search) (done : List BlockVec) (ref : Nat) (b : PredBlock) : List Vec :=
  ((candidateList q done ref b).filterMap id).foldl (fun l v => if l.contains v then l else l ++ [v]) []
    |>.take (vn q.x 0x45 1 % 16 + 1)

/-! ### The search (R279) -/

/-- A coordinate in whole pels, ties toward zero. -/
def wholePel (v : Int) : Int :=
  let m : Int := ((v.natAbs + 1) / 4 : Nat)
  if v < 0 then -m else m

/-- A candidate in whole pels, clamped to 128 pels beyond the reference's edge. -/
def clampVec (q : Search) (b : PredBlock) (v : Vec) : Vec :=
  let one := fun (p n size : Nat) (v : Int) => max (-128 - (p : Int)) (min ((size : Int) + 128 - n - p) (wholePel v))
  (one b.x b.w (vn q.x 2 2) v.1, one b.y b.h (vn q.x 4 2) v.2)

/-- A luma sample of a slot, clamped to the picture. -/
def lumaOf (x : VidCtx) (slot : Bytes) (cx cy : Int) : Nat :=
  num slot (64 + clampTo (vn x 4 2) cy * vPitch x + clampTo (vn x 2 2) cx * vBytes x) (vBytes x)

/-- Sum of absolute differences at a whole-pel vector. -/
def sad (q : Search) (ref : Bytes) (b : PredBlock) (v : Vec) : Nat :=
  ((List.range b.h).map fun j => ((List.range b.w).map fun k =>
    ((lumaOf q.x q.src (b.x + k) (b.y + j) : Int) - lumaOf q.x ref (b.x + k + v.1) (b.y + j + v.2)).natAbs).sum).sum

/-- The 4-point Hadamard transform. -/
def hadamard4 (l : List Int) : List Int :=
  let a := l.getD 0 0
  let b := l.getD 1 0
  let c := l.getD 2 0
  let d := l.getD 3 0
  [a + b + c + d, a - b + c - d, a + b - c - d, a - b - c + d]

/-- Sum of the absolute values of the transform of one 4 x 4 block, given as rows. -/
def satd4 (rows : List (List Int)) : Nat :=
  let t := rows.map hadamard4
  ((List.range 4).map fun k => ((hadamard4 (t.map fun r => r.getD k 0)).map Int.natAbs).sum).sum

/-- SATD over 4 x 4 Hadamard blocks at a quarter-pel vector. -/
def satd (q : Search) (ref : Bytes) (b : PredBlock) (v : Vec) : Nat :=
  let diff := fun (cx cy : Nat) => (lumaOf q.x q.src cx cy : Int) - Config.interpolated q.x.block ref (4 * cx + v.1) (4 * cy + v.2)
  ((List.range (b.h / 4)).map fun j => ((List.range (b.w / 4)).map fun k =>
    satd4 ((List.range 4).map fun r => (List.range 4).map fun c => diff (b.x + 4 * k + c) (b.y + 4 * j + r))).sum).sum

/-- λ·R of a quarter-pel vector, in units of 2^-16. -/
def rateCost (q : Search) (cands : List Vec) (v : Vec) : Nat := lambdaOf q.qp * Config.vectorBits (vCodec q.x) cands v

/-- The first vector of least cost. -/
def leastCost (cost : Vec → Nat) : List Vec → Vec
  | [] => (0, 0)
  | v :: vs => vs.foldl (fun m v => if cost v < cost m then v else m) v

/-- The vectors within n steps of one, in raster order. -/
def around (v : Vec) (n step : Nat) : List Vec :=
  (List.range (2 * n + 1)).flatMap fun j => (List.range (2 * n + 1)).map fun k =>
    (v.1 + step * ((k : Int) - n), v.2 + step * ((j : Int) - n))

/-- The vector that the search of a block finds in a reference, in quarter-pels: the best candidate, the 289 whole positions around
it, then half- and quarter-pel neighbours by SATD; the centre stands before its neighbours (notes/assumptions/188). -/
def searchBlock (q : Search) (cands : List Vec) (ref : Bytes) (b : PredBlock) : Vec :=
  let whole := fun (v : Vec) => 65536 * sad q ref b v + rateCost q cands (4 * v.1, 4 * v.2)
  let part := fun (v : Vec) => 65536 * satd q ref b v + rateCost q cands v
  let best := leastCost whole (around (leastCost whole (cands.map (clampVec q b))) 8 1)
  let c : Vec := (4 * best.1, 4 * best.2)
  let half := leastCost part (c :: (around c 1 2).filter (· != c))
  if bit (vn q.x 0x45 1) 4 then leastCost part (half :: (around half 1 1).filter (· != half)) else half

/-- The final vectors of a slice's blocks in coding order: each block is searched in every reference, and the mode decision takes one
of the vectors, or none. -/
def searchSlice (q : Search) (blocks : List PredBlock) : List BlockVec :=
  blocks.foldl (fun done b =>
    let found := q.refs.map fun r => searchBlock q (candidates q done r.1 b) r.2.1 b
    match (Config.modeChoice q.x.block q.src b found done).bind fun k => (q.refs.zip found)[k]? with
    | some e => done ++ [{ at' := b, mv := e.2, ref := e.1.1 }]
    | none => done) []

/-! ### Frames in progress (R263, R267, R269) -/

/-- The picture type of a frame: 0 a key picture, 2 one of the frames before an anchor that is coded, else 1. -/
def frameType (x : VidCtx) (b : VidSub) : Nat := if b.mark then 0 else if 0 < x.bLeft then 2 else 1

/-- QP of a slice: the block's under CQP, what rate control asks for within its bounds under CBR and VBR (R267). -/
def sliceQp (x : VidCtx) (t : Nat) : Nat :=
  if vn x 0x30 1 = 0 then vn x (0x31 + t) 1
  else max (vn x 0x4A 1) (min (vn x 0x4B 1) (Config.rateQp x.block t x.coded))

/-- References of a frame: none for a key picture, else up to REFS reconstructed pictures, the latest coded first. -/
def encRefsOf (x : VidCtx) (t : Nat) : List Nat := if t = 0 then [] else x.encRefs.take (vn x 0x43 1)

/-- A slot for the frame's reconstruction: the lowest that holds no reference. -/
def reconSlot (x : VidCtx) : Nat := ((List.range (vNpic x)).find? fun k => !x.encRefs.contains k).getD 0

/-- A signed 16-bit number. -/
def int16 (n : Nat) : Int := if n % 65536 < 32768 then (n % 65536 : Nat) else ((n % 65536 : Nat) : Int) - 65536

/-- What the search of a frame's slice works on. -/
def searchOf (s : State) (x : VidCtx) (b : VidSub) (t qp : Nat) : Search :=
  { x := x, src := gread s b.addr (slotBytes x), order := b.idx, gmv := (int16 b.gmv, int16 (b.gmv / 65536)), prev := x.prevVecs, qp := qp
    refs := (encRefsOf x t).map fun k => ((slotOf x k).order, gread s (slotAddr x k) (slotBytes x), (slotOf x k).vecs) }

/-- The picture that a frame's slot holds, for its status line: 4:2:0 at the stream's depth. -/
def encPic (x : VidCtx) (b : VidSub) : VidPic :=
  { slot := x.encSlot, order := b.idx, pts := b.pts, deadline := b.deadline, width := vn x 2 2, height := vn x 4 2
    layout := if vBytes x = 2 then 1 else 0, colour := 1 }

/-- A frame starts: it takes a slot, whose status line tells of it (R269). -/
def startFrame (s : State) (x : VidCtx) (b : VidSub) : State × VidCtx :=
  if b.slice ≠ 0 then (s, x)
  else
    let x := { x with encSlot := reconSlot x, vecs := [] }
    (poke s (slotAddr x x.encSlot) (toLE 2 0 ++ statusLine (encPic x b) x.frameNo), x)

/-- Reconstructed samples after a slice: all rows from 64 above it on, which its loop filters may change (R263). -/
def writeRecon (s : State) (x : VidCtx) (b : VidSub) (q : Search) (vecs : List BlockVec) : State :=
  let n := vBytes x
  let slots := q.src :: gread s (slotAddr x x.encSlot) (slotBytes x) :: q.refs.map (·.2.1)
  let planes := planesOf x (if n = 2 then 1 else 0)
  ((List.range planes.length).zip planes).foldl (fun s e =>
    let z := planeSize e.2 (vn x 2 2) (rowsNeeded x b)
    (List.range z.2).foldl (fun s cy => (List.range z.1).foldl (fun s cx =>
      if cy * e.2.sy + 64 < b.taken then s
      else
        let v := Config.recon x.block slots vecs q.qp (e.1, cx, cy) % 2 ^ (if n = 2 then 10 else 8)
        poke s (sampleAt (slotAddr x x.encSlot) e.2 cx cy) (toLE n v)) s) s) s

/-- The frame is coded: its vectors are those of the previous coded picture, and a picture that is no B picture becomes the latest
reference (notes/assumptions/188). -/
def endFrame (x : VidCtx) (b : VidSub) (t : Nat) : VidCtx :=
  let x := setSlotOf x x.encSlot { slotOf x x.encSlot with order := b.idx, vecs := x.vecs }
  let old := if t = 0 then [] else x.encRefs
  { x with prevVecs := x.vecs, encRefs := if t = 2 then x.encRefs else (x.encSlot :: old).take (min 4 (vNpic x - 1)) }

/-! ### Slices (R263, R275, R277, R288) -/

/-- The bytes of a slice: HEVC in an Annex B byte stream, AV1 as OBUs with a temporal delimiter before each frame (R263). -/
def sliceBytes (x : VidCtx) (b : VidSub) (t : Nat) (q : Search) (vecs : List BlockVec) : Bytes :=
  (if vCodec x = 1 then [0, 0, 0, 1] else if b.slice = 0 then [0x12, 0] else [])
    ++ Config.sliceBits x.block t q.qp b.slice q.src (q.refs.map (·.2.1)) vecs

/-- Write a slice into the output ring, wrapping at the end. -/
def writeRing (s : State) (x : VidCtx) (bs : Bytes) : State :=
  let size := vn x 0x20 4
  let off := x.wrote % size
  poke (poke s (vn x 0x18 8 + off) (bs.take (size - off))) (vn x 0x18 8) (bs.drop (size - off))

/-- Count work of an encode core: VCLK cycles at 1,000 Mpixel/s (R273, R288). -/
def countEncode (s : State) (core luma n : Nat) : State :=
  satIncr (satIncr (satIncr (countLuma s core (K.vencPix core) luma) (K.vencCyc core) (cdiv (4 * luma) 5)) (K.vencUnits core) 1) (K.vencBytes core) n

/-- The slice message. -/
def sliceMsg (i : Nat) (x : VidCtx) (b : VidSub) (last : Bool) (n qp : Nat) : Bytes :=
  toLE 1 i ++ toLE 1 (b2n last + 2 * b2n b.mark) ++ toLE 2 b.slice ++ toLE 4 (x.wrote % vn x 0x20 4) ++ toLE 4 n ++ toLE 4 0
    ++ toLE 8 b.pts ++ toLE 4 x.frameNo ++ toLE 1 qp

/-- After a slice of frame j: the next slice, or the frame is done. -/
def afterSlice (x : VidCtx) (j : Nat) (b : VidSub) (last : Bool) (n : Nat) : VidCtx :=
  let x := { x with wrote := x.wrote + n, needs := 0, onCore := none, coded := x.coded ++ [n] }
  if last then
    { endFrame x b (frameType x b) with
      subs := x.subs.eraseIdx j, frameNo := x.frameNo + 1, bLeft := if 0 < x.bLeft then x.bLeft - 1 else j }
  else { x with subs := x.subs.set j { b with slice := b.slice + 1, taken := rowsNeeded x b } }

/-- Code the next slice of frame j: it waits where the ring lacks room; else its bytes are written and SLICE_OUT is posted. -/
def codeSlice (s : State) (core i j : Nat) (x : VidCtx) (b : VidSub) : State :=
  let t := frameType x b
  let (s', x') := startFrame s x b
  let q := searchOf s x' b t (sliceQp x t)
  let vecs := if t = 0 then [] else searchSlice q (Config.predBlocks x.block q.src q.qp b.taken (rowsNeeded x b - b.taken))
  let data := sliceBytes x b t q vecs
  if ringRoom x < data.length then
    settleVideo (freeCore s core (some i)) i { x with onCore := none, needs := data.length }
  else
    let last := rowsNeeded x b == vn x 4 2
    let late := last && vLive x && b.deadline != 0 && decide (b.deadline < now s)
    let s := writeRecon (writeRing s' x' data) x' b q vecs
    let s := countEncode s core ((rowsNeeded x b - b.taken) * vn x 2 2) data.length
    let s := if late then satIncr s K.vidLate 1 else s
    let s := vpost s x 0x39 (sliceMsg i x b last data.length q.qp)
    let s := if last then finishId s b.cmd 0 else s
    settleVideo (freeCore s core (if last then none else some i)) i (afterSlice { x' with vecs := x'.vecs ++ vecs } j b last data.length)

/-- An encode core finishes a slice. -/
def sliceOut (core : Nat) (s : State) : State :=
  match (vcore s core).ctx with
  | none => s
  | some i =>
    let x := vctx s i
    if core < 4 then s
    else match (encNext x).bind fun j => (x.subs[j]?).map fun b => (j, b) with
      | none => setVctx (freeCore s core none) i { x with onCore := none }
      | some (j, b) =>
        if x.st < 2 || 4 < x.st then setVctx (freeCore s core none) i { x with onCore := none }
        else codeSlice s core i j x b

def execSliceOut (core : Nat) (s : State) : Host.Outcome State Fault Refusal := .next (sliceOut core s)

end Sys2Proof.Machine
end

