-- ==== Sys2Proof/Machine/Ramp.lean ====
section
/-! DEFINITION. The activity ramp limiter (R144-R147). -/

namespace Sys2Proof.Machine

/-- Presses of all bays in some state: bay and press. -/
def pressesIn (s : State) (v : Nat) : List (Nat × Nat) :=
  s.bays.flatMap fun e => ((List.range 4).filter fun p => e.2.presses.getD p 0 == v).map fun p => (e.1, p)

/-- Fields with an active press (R145). -/
def liveFields (s : State) : List Nat := ((pressesIn s 2 ++ pressesIn s 3).map fun e => fieldOf e.1).dedup

/-- The fraction of an allowance. -/
def fracR (q : Rat) : Rat := q - (q.floor : Rat)

/-- A turn of grants: what is left of the die's and the fields' allowances, the grants made, and whether the turn has
ended. -/
structure Turn where
  a : Rat
  aF : List Rat
  grants : List (Nat × Nat)
  ended : Bool
deriving DecidableEq, Repr

/-- One waiting press in turn order: the turn ends without a die unit; a field without one is passed over (R145). -/
def turnStep (t : Turn) (e : Nat × Nat) : Turn :=
  let f := fieldOf e.1
  if t.ended then t
  else if t.a < 1 then { t with ended := true }
  else if t.aF.getD f 0 < 1 then t
  else { a := t.a - 1, aF := t.aF.set f (t.aF.getD f 0 - 1), grants := t.grants ++ [e], ended := false }

/-- Allowances at the start of a tick (R145): up to 8 whole units of the die's carry; a field's keeps its fraction, or
starts from 0 where no press of it is active. -/
def topUp (s : State) (a : Rat) (aF : List Rat) : Turn :=
  let sl := rf s K.pwrSlope 6 0
  let live := liveFields s
  { a := (if a < 8 then a else 8) + mkRat 2304 (8 * sl)
    aF := (List.range 8).map fun f => (if live.contains f then fracR (aF.getD f 0) else 0) + mkRat 288 (8 * sl)
    grants := [], ended := false }

/-- Waiting presses in one full turn from a bay on. -/
def turnOrder (ptr : Nat) (l : List (Nat × Nat)) : List (Nat × Nat) :=
  l.filter (fun e => decide (ptr ≤ e.1)) ++ l.filter (fun e => decide (e.1 < ptr))

/-- Where the pointer goes: past the last bay that had a press granted. -/
def ptrAfter (ptr : Nat) (grants : List (Nat × Nat)) : Nat :=
  match grants.getLast? with
  | some e => (e.1 + 1) % nBays
  | none => ptr

/-- Set presses to a state. -/
def setPresses (s : State) (l : List (Nat × Nat)) (v : Nat) : State :=
  l.foldl (fun s e => setBay s e.1 { bay s e.1 with presses := (bay s e.1).presses.set e.2 v }) s

/-- Whether some press waits for admission, or is active. -/
def rampBusy (s : State) : Bool := !(pressesIn s 1 ++ pressesIn s 2 ++ pressesIn s 3).isEmpty

/-- Tick 0 (R145): allowances at 0; the pointer from the serving step it starts, or from the ramp counter, which then
increments. -/
def tick0 (s : State) : State :=
  let r := s.ramp
  let z : List Rat := [0, 0, 0, 0, 0, 0, 0, 0]
  let from? := r.step.getD r.counter
  { s with ramp := { r with
      on := true, ptr := from? % nBays, rptr := from? % nBays, aG := 0, bG := 0, aF := z, bF := z
      counter := if r.step.isSome then r.counter else r.counter + 1, step := none } }

/-- Press-cycles of a 125 ns tick at a field's clock, counted for presses that wait or run filler (R150). -/
def countPressCycles (s : State) : State :=
  let add := fun (j : Nat) (s : State) (e : Nat × Nat) =>
    setBay s e.1 (addPerf (bay s e.1) j (25 * fcur s (fieldOf e.1) / 8))
  (pressesIn s 3).foldl (add 4) ((pressesIn s 1).foldl (add 5) s)

/-- Tick k: admissions, then releases; both judge the fields at the start of the tick, and a press admitted in it is not
released in it. -/
def tickK (s : State) : State :=
  let r := s.ramp
  let wait := turnOrder r.ptr (pressesIn s 1)
  let leave := turnOrder r.rptr (pressesIn s 3)
  let t := wait.foldl turnStep (topUp s r.aG r.aF)
  let u := leave.foldl turnStep (topUp s r.bG r.bF)
  let s := setPresses (setPresses (countPressCycles s) t.grants 2) u.grants 0
  { s with ramp := { r with
      on := rampBusy s, ptr := ptrAfter r.ptr t.grants, rptr := ptrAfter r.rptr u.grants
      aG := t.a, aF := t.aF, bG := u.a, bF := u.aF } }

/-- One tick of the limiter, 125 ns (R145). -/
def rampTick (s : State) : State :=
  if s.ramp.on then tickK s
  else if (pressesIn s 1).isEmpty then s
  else tick0 s

def execRampTick (s : State) : Host.Outcome State Fault Refusal := .next (rampTick s)

end Sys2Proof.Machine
end

