-- ==== Sys2Proof/Machine/Session.lean ====
section
/-! DEFINITION. Identity, measurements and tenant sessions: the SPDM responder of each port's DOE mailbox (R363-R368). The
message codes, the order in which messages are accepted and the ERROR codes are those of DMTF DSP0274 (PRESUMED,
notes/assumptions/26). -/

namespace Sys2Proof.Machine

/-! ### Answers -/

/-- ASCII bytes of a text. -/
def ascii (t : String) : Bytes := t.toList.map fun c => BitVec.ofNat 8 c.toNat

/-- A label of the key schedule with its context (DSP0274; PRESUMED, notes/assumptions/26). -/
def keyLabel (len : Nat) (label : String) (context : Bytes) : Bytes := toLE 2 len ++ ascii "spdm1.3 " ++ ascii label ++ context

/-- HKDF-Expand of one block of SHA-384. -/
def expand (secret : Bytes) (len : Nat) (label : String) (context : Bytes) : Bytes :=
  (Config.hmac384 secret (keyLabel len label context ++ [1])).take len

/-- Key and nonce of record n of a direction (DSP0277): the IV combined with the record number. -/
def recordKey (secret : Bytes) : Bytes := expand secret 32 "key" []
def recordNonce (secret : Bytes) (n : Nat) : Bytes := ((expand secret 12 "iv" []).zip (toLE 12 n)).map fun e => e.1 ^^^ e.2

/-- An SPDM response on a port in no session. -/
def spdmPlain (s : State) (p sess code : Nat) (body : Bytes) : State := emit s (.spdm p sess code body)

/-- The session a number names on a port. -/
def session? (s : State) (p id : Nat) : Option Session := s.sec.sessions.find? fun x => x.id == id && x.port == p
def setSession (s : State) (x : Session) : State :=
  { s with sec := { s.sec with sessions := s.sec.sessions.map fun y => if y.id = x.id then x else y } }

/-- An SPDM response on a port, in a session (0: none): a session's is a record encrypted under the key of its response direction. -/
def spdm (s : State) (p sess code : Nat) (body : Bytes) : State :=
  match session? s p sess with
  | none => spdmPlain s p sess code body
  | some x =>
    let e := Config.gcmEnc (recordKey x.rsp) (recordNonce x.rsp x.sent) body
    spdmPlain (setSession s { x with sent := x.sent + 1 }) p sess code (e.1 ++ e.2)

/-- SPDM ERROR with its code. -/
def spdmError (s : State) (p sess code : Nat) : State := spdm s p sess 0x7F (toLE 1 code)

@[reducible] def errInvalid : Nat := 1
@[reducible] def errBusy : Nat := 3
@[reducible] def errUnexpected : Nat := 4
@[reducible] def errSession : Nat := 2

/-- How far a port's negotiation has come: 0 nothing, 1 version, 2 capabilities, 3 algorithms. -/
def spdmStage (s : State) (p : Nat) : Nat := s.sec.spdm.getD p 0
def setStage (s : State) (p v : Nat) : State := { s with sec := { s.sec with spdm := s.sec.spdm.set p v } }

/-- The mailbox answers while service core 7 serves and the port's link carries configuration requests (R291, R363). -/
def mailbox (s : State) (p : Nat) : Bool := decide (p < 2) && serving s && (portUp s p || (port s p).narrow)

/-- A request that needs a negotiated connection. -/
def negotiated (s : State) (p sess : Nat) (f : State → State) : State :=
  if !mailbox s p then s else if spdmStage s p < 3 then spdmError s p sess errUnexpected else f s

/-- A request in an established session, or outside every session where `outside` allows it. -/
def inSession (s : State) (p sess : Nat) (outside : Bool) (f : State → State) : State :=
  negotiated s p sess fun s =>
    if sess = 0 then (if outside then f s else spdmError s p sess errUnexpected)
    else match session? s p sess with
      | some x => if x.established then f s else spdmError s p sess errUnexpected
      | none => spdmError s p sess errSession

/-! ### Measurements and certificates (R364, R365) -/

/-- Measurement i, a SHA-384 digest (R365). -/
def measurement (s : State) (i : Nat) : Bytes :=
  if i ≤ 3 then Config.stageDigest i s.tray.image (s.flash.images.getD s.tray.image [])
  else if i = 4 then
    Config.sha384 (toLE 1 s.sec.measured.1 ++ toLE 1 s.sec.measured.2.1 ++ toLE 1 s.sec.measured.2.2 ++ toLE 1 (rf s K.secState 10 8))
  else Config.sha384 (s.sec.bundles.flatMap fun e => e.2.digest)

/-- Measurements 1 to 4 together, which the alias certificate carries. -/
def bootDigest (s : State) : Bytes := Config.sha384 ([1, 2, 3, 4].flatMap (measurement s))

/-- The chain of certificate slot 0 or 1. -/
def chain (s : State) (slot : Nat) : Bytes := Config.certChain slot (if slot = 1 then bootDigest s else [])

/-- Random bytes of a response, 32 of them. -/
def nonce32 (s : State) : Bytes × State :=
  (List.range 8).foldl (fun (acc : Bytes × State) _ => let (v, s) := draw acc.2; (acc.1 ++ toLE 4 v, s)) ([], s)

/-- A signature by the key of a certificate slot. -/
def signed (slot : Nat) (bs : Bytes) : Bytes := bs ++ Config.ecdsaSign slot (Config.sha384 bs)

/-! ### The messages (R363) -/

/-- GET_VERSION: version 1.3; the connection and its sessions begin anew. -/
def execGetVersion (p : Nat) (s : State) : Host.Outcome State Fault Refusal :=
  .next (if !mailbox s p then s
    else spdm (setStage (endSessions s fun x => x.port == p) p 1) p 0 0x04 (toLE 1 0x13))

/-- GET_CAPABILITIES: certificates, challenge, signed measurements, key exchange, encryption, MAC, mutual authentication,
key update, heartbeat and encapsulated requests. -/
def execGetCapabilities (p : Nat) (s : State) : Host.Outcome State Fault Refusal :=
  .next (if !mailbox s p then s
    else if spdmStage s p = 0 then spdmError s p 0 errUnexpected
    else spdm (setStage s p 2) p 0 0x61 (toLE 1 0x13))

/-- NEGOTIATE_ALGORITHMS: ECDSA P-384, SHA-384, secp384r1 and AES-256-GCM, which the requester must offer. -/
def execNegotiateAlgorithms (p : Nat) (offered : Bool) (s : State) : Host.Outcome State Fault Refusal :=
  .next (if !mailbox s p then s
    else if spdmStage s p < 2 then spdmError s p 0 errUnexpected
    else if !offered then spdmError s p 0 errInvalid
    else spdm (setStage s p 3) p 0 0x63 (toLE 1 0x13))

/-- GET_DIGESTS: the digests of the chains of slots 0 and 1. -/
def execGetDigests (p sess : Nat) (s : State) : Host.Outcome State Fault Refusal :=
  .next (inSession s p sess true fun s =>
    spdm s p sess 0x01 (toLE 1 3 ++ Config.sha384 (chain s 0) ++ Config.sha384 (chain s 1)))

/-- GET_CERTIFICATE: a part of a chain. -/
def execGetCertificate (p sess slot off len : Nat) (s : State) : Host.Outcome State Fault Refusal :=
  .next (inSession s p sess true fun s =>
    let c := chain s slot
    if 1 < slot || c.length ≤ off then spdmError s p sess errInvalid
    else
      let part := (c.drop off).take len
      spdm s p sess 0x02 (toLE 1 slot ++ toLE 2 part.length ++ toLE 2 (c.length - off - part.length) ++ part))

/-- CHALLENGE: chain digest, a fresh nonce and the measurements, signed. -/
def execChallenge (p slot : Nat) (nonce : Bytes) (s : State) : Host.Outcome State Fault Refusal :=
  .next (inSession s p 0 true fun s =>
    if 1 < slot then spdmError s p 0 errInvalid
    else
      let (n, s) := nonce32 s
      spdm s p 0 0x03 (signed slot (sub nonce 0 32 ++ toLE 1 slot ++ Config.sha384 (chain s slot) ++ n ++ bootDigest s)))

/-- GET_MEASUREMENTS: index 0 counts them, 0xFF asks for all (R365). -/
def execGetMeasurements (p sess index : Nat) (isSigned : Bool) (nonce : Bytes) (s : State) : Host.Outcome State Fault Refusal :=
  .next (inSession s p sess true fun s =>
    if index ≠ 0xFF && 5 < index then spdmError s p sess errInvalid
    else
      let l := if index = 0 then [] else if index = 0xFF then [1, 2, 3, 4, 5] else [index]
      let body := toLE 1 (if index = 0 then 5 else l.length) ++ l.flatMap fun i => toLE 1 i ++ measurement s i
      if isSigned then
        let (n, s) := nonce32 s
        spdm s p sess 0x60 (signed 0 (sub nonce 0 32 ++ body ++ n))
      else spdm s p sess 0x60 body)

/-- The secrets of a session's handshake (DSP0277): from the shared secret and the transcript. -/
def handshakeKeys (x : Session) (shared : Bytes) : Session :=
  let h := Config.hmac384 (toLE 48 0) shared
  let th := Config.sha384 x.transcript
  { x with handshake := h, req := expand h 48 "req hs data" th, rsp := expand h 48 "rsp hs data" th }

/-- The secrets of an established session, from the handshake secret and the whole transcript. -/
def dataKeys (x : Session) : Session :=
  let m := Config.hmac384 (expand x.handshake 48 "derived" []) (toLE 48 0)
  let th := Config.sha384 x.transcript
  { x with req := expand m 48 "req app data" th, rsp := expand m 48 "rsp app data" th, sent := 0 }

/-- Whether FINISH proves that the requester holds the handshake secret, and under mutual authentication its leaf key. -/
def finishOk (x : Session) (leaf sig mac : Bytes) : Bool :=
  mac == Config.hmac384 (expand x.req 48 "finished" []) (Config.sha384 (x.transcript ++ sig))
    && (!x.wantsMutual || Config.ecdsaVerify leaf (Config.sha384 x.transcript) sig)

/-- KEY_EXCHANGE: a new session, at most 4 on a port and 8 in all; beyond that ERROR Busy (R363). -/
def execKeyExchange (p slot : Nat) (wantsMutual : Bool) (share : Bytes) (s : State) : Host.Outcome State Fault Refusal :=
  .next (inSession s p 0 true fun s =>
    if 1 < slot || !Config.onCurve share then spdmError s p 0 errInvalid
    else if 4 ≤ (s.sec.sessions.filter (·.port == p)).length || 8 ≤ s.sec.sessions.length then spdmError s p 0 errBusy
    else
      let id := s.nextId + 1
      let (k, s) := draw { s with nextId := id }
      let (n, s) := nonce32 s
      let body := signed slot (toLE 4 id ++ toLE 1 (b2n wantsMutual) ++ Config.ephemeral k ++ n)
      let x := handshakeKeys { id := id, port := p, wantsMutual := wantsMutual, transcript := toLE 1 slot ++ share ++ body }
        (Config.ephemeralDh k share)
      spdmPlain { s with sec := { s.sec with sessions := s.sec.sessions ++ [x] } } p id 0x64 body)

/-- SEC_TID of a tenant function as bytes (R379). -/
def tenantId (s : State) (f : Nat) : Bytes := (List.range 12).flatMap fun j => toLE 4 (rd s (K.secTid (f - 1) j))

/-- The tenant function whose SEC_TID is the digest of a leaf key; an all-zero one matches nobody (R366, R379). -/
def tenantOf (s : State) (leaf : Bytes) : Option Nat :=
  ((List.range 8).map (· + 1)).find? fun f =>
    decide (tenantId s f = Config.sha384 leaf) && !(tenantId s f).all (· == 0)

/-- FINISH: the session is established, and bound to the tenant that its mutual authentication names (R366); one whose
signature or MAC fails ends. -/
def execFinish (p sess : Nat) (leaf sig mac : Bytes) (s : State) : Host.Outcome State Fault Refusal :=
  .next (negotiated s p sess fun s =>
    match session? s p sess with
    | none => spdmError s p sess errSession
    | some x =>
      if x.established then spdmError s p sess errUnexpected
      else if !finishOk x leaf sig mac then spdmError (endSessions s (·.id == sess)) p sess errInvalid
      else
        let y := { x with established := true, func := if x.wantsMutual then tenantOf s leaf else none, transcript := x.transcript ++ sig ++ mac }
        setSession (spdm s p sess 0x65 []) (dataKeys y))

/-- The secrets of a session after KEY_UPDATE: 1 the request direction, 2 both, 3 neither. -/
def updatedKeys (x : Session) (op : Nat) : Session :=
  let next := fun k => expand k 48 "traffic upd" []
  if op = 1 then { x with req := next x.req } else if op = 2 then { x with req := next x.req, rsp := next x.rsp, sent := 0 } else x

/-- KEY_UPDATE: operations 1 to 3; the answer goes out under the updated key. -/
def execKeyUpdate (p sess op : Nat) (s : State) : Host.Outcome State Fault Refusal :=
  .next (inSession s p sess false fun s =>
    if op < 1 || 3 < op then spdmError s p sess errInvalid
    else match session? s p sess with
      | some x => spdm (setSession s (updatedKeys x op)) p sess 0x69 (toLE 1 op)
      | none => s)

/-- HEARTBEAT of a session. -/
def execSpdmHeartbeat (p sess : Nat) (s : State) : Host.Outcome State Fault Refusal :=
  .next (inSession s p sess false fun s => spdm s p sess 0x68 [])

/-- END_SESSION. -/
def execEndSession (p sess : Nat) (s : State) : Host.Outcome State Fault Refusal :=
  .next (inSession s p sess false fun s => endSessions (spdm s p sess 0x6C []) (·.id == sess))

/-! ### Key slots (R367) -/

/-- A vendor-defined request in a session: refused with SEC_SESSION where the session is bound to no function, or to one that is
DISABLED (R367). The answer is a status of two bytes unless the request answers itself. -/
def keyRequest (s : State) (p sess : Nat) (f : State → Nat → State) : State :=
  inSession s p sess false fun s =>
    match (session? s p sess).bind (·.func) with
    | none => spdm s p sess 0x7E (toLE 2 eSecSession)
    | some g => if funcState s g = 0 then spdm s p sess 0x7E (toLE 2 eSecSession) else f s g

/-- KEY_PUT: a key and its usage go into a slot, from 0 to 7, of the tenant. -/
def execKeyPut (p sess slot usage : Nat) (key : Bytes) (s : State) : Host.Outcome State Fault Refusal :=
  .next (keyRequest s p sess fun s f =>
    if 8 ≤ slot || 4 ≤ usage then spdm s p sess 0x7E (toLE 2 eCmdReserved)
    else spdm { s with keySlots := minsert (8 * (f - 1) + slot) (usage, sub key 0 32) s.keySlots } p sess 0x7E (toLE 2 0))

/-- KEY_CLEAR. -/
def execKeyClear (p sess slot : Nat) (s : State) : Host.Outcome State Fault Refusal :=
  .next (keyRequest s p sess fun s f =>
    if 8 ≤ slot then spdm s p sess 0x7E (toLE 2 eCmdReserved)
    else spdm { s with keySlots := mdel (8 * (f - 1) + slot) s.keySlots } p sess 0x7E (toLE 2 0))

/-- KEY_LIST: the bitmap of full slots. -/
def execKeyList (p sess : Nat) (s : State) : Host.Outcome State Fault Refusal :=
  .next (keyRequest s p sess fun s f => spdm s p sess 0x7E (toLE 1 (slotMap s f)))

end Sys2Proof.Machine
end

