-- ==== Sys2Proof/Machine/Taps.lean ====
section
/-! DEFINITION. Frame taps (R280-R283): one output row of a tapped picture at a time. -/

namespace Sys2Proof.Machine

/-- A rational, a half and a whole number as FP32. -/
def fpOf (r : Rat) : Nat := enc32 (ofRat r)
def fpHalf : Nat := fpOf (1 / 2)
def fpNat (n : Nat) : Nat := fpOf n

/-- The crop rectangle clamped to the picture (R280). -/
structure Crop where
  x : Nat
  y : Nat
  w : Nat
  h : Nat
deriving DecidableEq, Repr

def cropOf (b : Bytes) (p : VidPic) : Crop :=
  let n := fun off => num b off 2
  let x := min (n 0x10) (p.width - 1)
  let y := min (n 0x12) (p.height - 1)
  { x := x, y := y, w := min (n 0x14) (p.width - x), h := min (n 0x16) (p.height - y) }

def cropClamped (b : Bytes) (p : VidPic) : Bool := cropOf b p != { x := num b 0x10 2, y := num b 0x12 2, w := num b 0x14 2, h := num b 0x16 2 }

/-- sx and sy (R281): place i of n outputs along an axis that starts at c and spans len. -/
def tapCoord (i n c len : Nat) : Nat :=
  add32 (sub32 (mul32 (add32 (fpNat i) fpHalf) (div32 (fpNat len) (fpNat n))) fpHalf) (fpNat c)

/-- clamp(u, 0, n - 1), and the sample below it. -/
def clamp32 (n u : Nat) : Nat := if nlt (dec32 u) (dec32 0) then 0 else if nlt (dec32 (fpNat (n - 1))) (dec32 u) then fpNat (n - 1) else u
def floor32 (u : Nat) : Nat := (finQ (dec32 u)).floor.toNat

/-- A sample of a plane as FP32. -/
def sample32 (s : State) (x : VidCtx) (p : VidPic) (pl : Plane) (cx cy : Nat) : Nat :=
  fpNat (gnum s (sampleAt (slotAddr x p.slot) pl cx cy) (vBytes x) % 2 ^ (if vBytes x = 2 then 10 else 8))

/-- bilin (R281). -/
def bilin (s : State) (x : VidCtx) (p : VidPic) (pl : Plane) (u v : Nat) : Nat :=
  let z := planeSize pl p.width p.height
  let u := clamp32 z.1 u
  let v := clamp32 z.2 v
  let x0 := floor32 u
  let y0 := floor32 v
  let x1 := min (x0 + 1) (z.1 - 1)
  let y1 := min (y0 + 1) (z.2 - 1)
  let fx := sub32 u (fpNat x0)
  let fy := sub32 v (fpNat y0)
  let at' := sample32 s x p pl
  let t := add32 (at' x0 y0) (mul32 fx (sub32 (at' x1 y0) (at' x0 y0)))
  let r := add32 (at' x0 y1) (mul32 fx (sub32 (at' x1 y1) (at' x0 y1)))
  add32 t (mul32 fy (sub32 r t))

/-- Chroma coordinates of a plane (R281). -/
def chromaXY (pl : Plane) (sx sy : Nat) : Nat × Nat :=
  let two := fpNat 2
  if pl.sx = 2 && pl.sy = 2 then (div32 sx two, div32 (sub32 sy fpHalf) two)
  else if pl.sx = 2 then (div32 sx two, sy)
  else (sx, sy)

/-- Kr and Kb of a matrix code (R269, R281). -/
def matrixK (m : Nat) : Rat × Rat :=
  if m = 0 then (299 / 1000, 114 / 1000) else if m = 2 then (2627 / 10000, 593 / 10000) else (2126 / 10000, 722 / 10000)

/-- Luma and chroma normalised (R281). -/
def normY (full : Bool) (n y : Nat) : Nat :=
  let k := 2 ^ (n - 8)
  if full then div32 y (fpNat (2 ^ n - 1)) else div32 (sub32 y (fpNat (16 * k))) (fpNat (219 * k))
def normC (full : Bool) (n c : Nat) : Nat :=
  let k := 2 ^ (n - 8)
  if full then div32 (sub32 c (fpNat (2 ^ (n - 1)))) (fpNat (2 ^ n - 1)) else div32 (sub32 c (fpNat (128 * k))) (fpNat (224 * k))

/-- Y, Cb and Cr of an output pixel, normalised. -/
def tapYuv (s : State) (x : VidCtx) (p : VidPic) (sx sy : Nat) : Nat × Nat × Nat :=
  let full := bit p.colour 2
  let n := if vBytes x = 2 then 10 else 8
  match planesOf x p.layout with
  | [l, cb, cr] =>
    let c := chromaXY cb sx sy
    (normY full n (bilin s x p l sx sy), normC full n (bilin s x p cb c.1 c.2), normC full n (bilin s x p cr c.1 c.2))
  | l :: _ => (normY full n (bilin s x p l sx sy), 0, 0)
  | [] => (0, 0, 0)

/-- Output channels of a pixel before normalisation by MEAN and SCALE (R280, R281). -/
def tapChannels (b : Bytes) (p : VidPic) (yuv : Nat × Nat × Nat) : List Nat :=
  let (y, cb, cr) := yuv
  let (kr, kb) := matrixK (p.colour % 4)
  let r := add32 y (mul32 (fpOf (2 - 2 * kr)) cr)
  let bl := add32 y (mul32 (fpOf (2 - 2 * kb)) cb)
  let g := div32 (sub32 (sub32 y (mul32 (fpOf kr) r)) (mul32 (fpOf kb) bl)) (fpOf (1 - kr - kb))
  match num b 0x0D 1 / 16 % 4 with
  | 0 => [r, g, bl]
  | 1 => [bl, g, r]
  | _ => [y]

/-- An output element (R94, R281): RNE and SAT. -/
def tapElem (b : Bytes) (v : Nat) : Bytes :=
  match num b 0x0D 1 % 16 with
  | 0xA => toLE 1 (twos 8 (narrowInt 127 false (dec32 v)))
  | 2 => toLE 2 (narrowFloat fp16 0 (dec32 v))
  | _ => toLE 2 (narrowFloat bf16 0 (dec32 v))

/-- The values of row y of a picture: for each pixel, its channels. -/
def tapRowValues (s : State) (x : VidCtx) (p : VidPic) (b : Bytes) (y : Nat) : List (List Nat) :=
  let c := cropOf b p
  let sy := tapCoord y (num b 0x1A 2) c.y c.h
  (List.range (num b 0x18 2)).map fun k =>
    let chs := tapChannels b p (tapYuv s x p (tapCoord k (num b 0x18 2) c.x c.w) sy)
    ((List.range chs.length).zip chs).map fun e =>
      mul32 (sub32 e.2 (num b (0x1C + 4 * e.1) 4)) (num b (0x28 + 4 * e.1) 4)

/-- The luma row that output row y needs (R282): min(floor(sy) + 1, H - 1). -/
def tapNeeds (b : Bytes) (p : VidPic) (y : Nat) : Nat :=
  let c := cropOf b p
  min ((finQ (dec32 (tapCoord y (num b 0x1A 2) c.y c.h))).floor + 1).toNat (p.height - 1)

/-- Write a row of every channel of frame n. -/
def writeTapRow (s : State) (unit : Nat) (b : Bytes) (n y : Nat) (rows : List (List Nat)) : State :=
  let base := num b 0 4 + n % num b 0x0C 1 * num b 8 4 + y * num b 0x0E 2
  let s := (List.range (tapChans b)).foldl (fun s c =>
    gwrite s unit (64 * (base + c * num b 4 4)) (rows.flatMap fun px => tapElem b (px.getD c 0))) s
  if num b 0x0D 1 % 16 = 0xA && rows.any fun px => px.any fun v => isNan (dec32 v) then recordErr s pgVid eArithNanLost internalFunc 0 else s

/-- The tokens of a band, or of the end of the frame (R280, R282). -/
def tapTokens (s : State) (unit : Nat) (b : Bytes) (y : Nat) : State :=
  let band := 8 * num b 0x39 1
  let due := decide (y + 1 = num b 0x1A 2) || (band != 0 && (y + 1) % band == 0)
  let a := num b 0x34 2
  if !due || a = 0x3FF then s
  else (List.range (num b 0x36 2 + 1 - a)).foldl (fun s k =>
    sendAfter s unit { src := unit, dst := a + k, kind := 0, ctr := num b 0x38 1, amount := 1 }) s

/-- The oldest picture that a tap works on. -/
def tapWork (x : VidCtx) (t : Nat) : Option (VidPic × TapJob) :=
  x.pics.findSome? fun p => (p.taps.find? (·.tap == t)).map fun j => (p, j)

/-- Tapped pictures on an engine (R283). -/
def enginesBusy (s : State) : Nat := (s.video.map fun e => (e.2.pics.map fun p => (p.taps.filter (·.begun)).length).sum).sum

/-- A picture loses a tap's job, with a flag. -/
def dropJob (p : VidPic) (t flag : Nat) : VidPic :=
  let p := { p with taps := p.taps.filter (·.tap != t) }
  if flag = 0 then p else { p with flags := putFld p.flags flag flag 1 }

/-- Do row y of a job that has begun. -/
def tapRowOf (s : State) (i : Nat) (x : VidCtx) (p : VidPic) (j : TapJob) : State :=
  let unit := uTap (4 * i + j.tap)
  let s' := writeTapRow s unit j.block j.frame j.row (tapRowValues s x p j.block j.row)
  let s' := tapTokens s' unit j.block j.row
  let p := if j.row + 1 = num j.block 0x1A 2 then dropJob p j.tap 0
    else { p with taps := p.taps.map fun k => if k.tap = j.tap then { j with row := j.row + 1 } else k }
  settleVideo s' i (setPic x p)

/-- One row of a tap (R282): it waits for final rows, and before its first row for a free ring slot and an engine. -/
def tapRow (i t : Nat) (s : State) : State :=
  let x := vctx s i
  if x.st < 2 || 4 < x.st then s
  else match tapWork x t with
    | none => s
    | some (p, j) =>
      let b := j.block
      if p.final ≤ tapNeeds b p j.row then s
      else if poisonedIn s (slotAddr x p.slot + 64) (slotBytes x - 64) then settleVideo s i (setPic x (dropJob p t 6))
      else if j.begun then tapRowOf s i x p j
      else
        let n := x.tapped.getD t 0
        if gnum s (64 * num b 0x3C 4) 8 + num b 0x0C 1 ≤ n then
          (if bit (num b 0x3A 1) 0 then settleVideo (satIncr s K.vidTapDrop 1) i (setPic x (dropJob p t 6)) else s)
        else if 8 ≤ enginesBusy s || haltedOnErr s pgVid then s
        else
          let p := if cropClamped b p then { p with flags := putFld p.flags 5 5 1 } else p
          tapRowOf s i { x with tapped := x.tapped.set t (n + 1) } p { j with begun := true, frame := n }

def execTapRow (ctx tap : Nat) (s : State) : Host.Outcome State Fault Refusal := .next (tapRow ctx tap s)

end Sys2Proof.Machine
end

