-- ==== Sys2Proof/Machine/Dispatch.lean ====
section
/-! DEFINITION. The one dispatch: one arm per command, each one call of its meaning. -/

namespace Sys2Proof.Machine

def exec (i : Instr) (s : State) : Host.Outcome State Fault Refusal :=
  match i with
  | .registerWrite a wide v => Sys2Proof.Machine.execRegisterWrite a wide v s
  | .unalignedAccess a => Sys2Proof.Machine.execUnalignedAccess a s
  | .unmappedAccess a read wide => Sys2Proof.Machine.execUnmappedAccess a read wide s
  | .latchedRead a wide bar4 => Sys2Proof.Machine.execLatchedRead a wide bar4 s
  | .blkExpert a v => Sys2Proof.Machine.execBlkExpert a v s
  | .sreset a v => Sys2Proof.Machine.execSreset a v s
  | .blkErrClear a v => Sys2Proof.Machine.execBlkErrClear a v s
  | .pageCommit a v => Sys2Proof.Machine.execPageCommit a v s
  | .pageDiscard a v => Sys2Proof.Machine.execPageDiscard a v s
  | .granaryRound chan q0 q1 q2 q3 => Sys2Proof.Machine.execGranaryRound chan q0 q1 q2 q3 s
  | .granaryWriteAck unit chan => Sys2Proof.Machine.execGranaryWriteAck unit chan s
  | .granaryReadReturn unit addr ecc lat weights => Sys2Proof.Machine.execGranaryReadReturn unit addr ecc lat weights s
  | .pllRelockDone f => Sys2Proof.Machine.execPllRelockDone f s
  | .tokenArrival src dst => Sys2Proof.Machine.execTokenArrival src dst s
  | .creditArrival src dst => Sys2Proof.Machine.execCreditArrival src dst s
  | .tallyAddArrival src => Sys2Proof.Machine.execTallyAddArrival src s
  | .ptpMessage link m => Sys2Proof.Machine.execPtpMessage link m s
  | .ptpAnnounceTimeout link => Sys2Proof.Machine.execPtpAnnounceTimeout link s
  | .txnOpen a => Sys2Proof.Machine.execTxnOpen a s
  | .txnListCmd a v => Sys2Proof.Machine.execTxnListCmd a v s
  | .txnListLineReturn slot ok data => Sys2Proof.Machine.execTxnListLineReturn slot ok data s
  | .txnListReadTimeout slot => Sys2Proof.Machine.execTxnListReadTimeout slot s
  | .raise a v => Sys2Proof.Machine.execRaise a v s
  | .strike a v => Sys2Proof.Machine.execStrike a v s
  | .release a v => Sys2Proof.Machine.execRelease a v s
  | .bentTakeEffect slot => Sys2Proof.Machine.execBentTakeEffect slot s
  | .retiredStorageFree => Sys2Proof.Machine.execRetiredStorageFree s
  | .retireStall => Sys2Proof.Machine.execRetireStall s
  | .programFetchReturn b => Sys2Proof.Machine.execProgramFetchReturn b s
  | .refusedWordAtHead b => Sys2Proof.Machine.execRefusedWordAtHead b s
  | .wordComplete b e => Sys2Proof.Machine.execWordComplete b e s
  | .haltComplete b => Sys2Proof.Machine.execHaltComplete b s
  | .load b => Sys2Proof.Machine.execLoad b s
  | .loadZrc b => Sys2Proof.Machine.execLoadZrc b s
  | .store b ecc => Sys2Proof.Machine.execStore b ecc s
  | .storeZrc b ecc => Sys2Proof.Machine.execStoreZrc b ecc s
  | .press b ecc => Sys2Proof.Machine.execPress b ecc s
  | .winnow b ecc => Sys2Proof.Machine.execWinnow b ecc s
  | .cvt b ecc => Sys2Proof.Machine.execCvt b ecc s
  | .add b ecc => Sys2Proof.Machine.execAdd b ecc s
  | .sub b ecc => Sys2Proof.Machine.execSub b ecc s
  | .mul b ecc => Sys2Proof.Machine.execMul b ecc s
  | .fma b ecc => Sys2Proof.Machine.execFma b ecc s
  | .max b ecc => Sys2Proof.Machine.execMax b ecc s
  | .min b ecc => Sys2Proof.Machine.execMin b ecc s
  | .muls b ecc => Sys2Proof.Machine.execMuls b ecc s
  | .adds b ecc => Sys2Proof.Machine.execAdds b ecc s
  | .exp2 b ecc => Sys2Proof.Machine.execExp2 b ecc s
  | .log2 b ecc => Sys2Proof.Machine.execLog2 b ecc s
  | .recip b ecc => Sys2Proof.Machine.execRecip b ecc s
  | .rsqrt b ecc => Sys2Proof.Machine.execRsqrt b ecc s
  | .tanh b ecc => Sys2Proof.Machine.execTanh b ecc s
  | .gelu b ecc => Sys2Proof.Machine.execGelu b ecc s
  | .silu b ecc => Sys2Proof.Machine.execSilu b ecc s
  | .relu b ecc => Sys2Proof.Machine.execRelu b ecc s
  | .rsum b ecc => Sys2Proof.Machine.execRsum b ecc s
  | .rmax b ecc => Sys2Proof.Machine.execRmax b ecc s
  | .argmax b ecc => Sys2Proof.Machine.execArgmax b ecc s
  | .tree b ecc => Sys2Proof.Machine.execTree b ecc s
  | .sendToken b => Sys2Proof.Machine.execSendToken b s
  | .sendCredit b => Sys2Proof.Machine.execSendCredit b s
  | .wait b => Sys2Proof.Machine.execWait b s
  | .tally b => Sys2Proof.Machine.execTally b s
  | .halt b => Sys2Proof.Machine.execHalt b s
  | .convolution b n => Sys2Proof.Machine.execConvolution b n s
  | .depthwiseConvolution b n => Sys2Proof.Machine.execDepthwiseConvolution b n s
  | .maxPooling b n => Sys2Proof.Machine.execMaxPooling b n s
  | .averagePooling b n => Sys2Proof.Machine.execAveragePooling b n s
  | .scarfResume b n => Sys2Proof.Machine.execScarfResume b n s
  | .prefill b n => Sys2Proof.Machine.execPrefill b n s
  | .decode b n => Sys2Proof.Machine.execDecode b n s
  | .append b n => Sys2Proof.Machine.execAppend b n s
  | .backward b n => Sys2Proof.Machine.execBackward b n s
  | .combine b n => Sys2Proof.Machine.execCombine b n s
  | .bayRunGo a v => Sys2Proof.Machine.execBayRunGo a v s
  | .bayRunHalt a v => Sys2Proof.Machine.execBayRunHalt a v s
  | .bayRunClear a v => Sys2Proof.Machine.execBayRunClear a v s
  | .bayTokenSet a v => Sys2Proof.Machine.execBayTokenSet a v s
  | .perfClr a v => Sys2Proof.Machine.execPerfClr a v s
  | .rampTick => Sys2Proof.Machine.execRampTick s
  | .rebuild a v => Sys2Proof.Machine.execRebuild a v s
  | .rebuildDone => Sys2Proof.Machine.execRebuildDone s
  | .swapOutDone seq => Sys2Proof.Machine.execSwapOutDone seq s
  | .swapInDone seq => Sys2Proof.Machine.execSwapInDone seq s
  | .admitSeq src => Sys2Proof.Machine.execAdmitSeq src s
  | .fork src => Sys2Proof.Machine.execFork src s
  | .cancel src => Sys2Proof.Machine.execCancel src s
  | .setMask src => Sys2Proof.Machine.execSetMask src s
  | .tokenArea src => Sys2Proof.Machine.execTokenArea src s
  | .stepBoundary => Sys2Proof.Machine.execStepBoundary s
  | .emptyBoundary => Sys2Proof.Machine.execEmptyBoundary s
  | .heldBatchPost func => Sys2Proof.Machine.execHeldBatchPost func s
  | .pause a v => Sys2Proof.Machine.execPause a v s
  | .pauseClear a v => Sys2Proof.Machine.execPauseClear a v s
  | .gleanerGroup ctr target rows => Sys2Proof.Machine.execGleanerGroup ctr target rows s
  | .streamOpen src => Sys2Proof.Machine.execStreamOpen src s
  | .decSubmit src => Sys2Proof.Machine.execDecSubmit src s
  | .picRelease src => Sys2Proof.Machine.execPicRelease src s
  | .encFrame src => Sys2Proof.Machine.execEncFrame src s
  | .encRows src => Sys2Proof.Machine.execEncRows src s
  | .tapSet src => Sys2Proof.Machine.execTapSet src s
  | .streamFlush src => Sys2Proof.Machine.execStreamFlush src s
  | .streamClose src => Sys2Proof.Machine.execStreamClose src s
  | .bsRelease src => Sys2Proof.Machine.execBsRelease src s
  | .headerParseDone a => Sys2Proof.Machine.execHeaderParseDone a s
  | .coreChoose core => Sys2Proof.Machine.execCoreChoose core s
  | .unitDecoded a => Sys2Proof.Machine.execUnitDecoded a s
  | .sliceOut a => Sys2Proof.Machine.execSliceOut a s
  | .tapRow ctx tap => Sys2Proof.Machine.execTapRow ctx tap s
  | .closed ctx => Sys2Proof.Machine.execClosed ctx s
  | .nop src => Sys2Proof.Machine.execNop src s
  | .funcEnable src => Sys2Proof.Machine.execFuncEnable src s
  | .funcDisableDrain src => Sys2Proof.Machine.execFuncDisableDrain src s
  | .funcDisableKill src => Sys2Proof.Machine.execFuncDisableKill src s
  | .flr port func => Sys2Proof.Machine.execFlr port func s
  | .funcDrainComplete func => Sys2Proof.Machine.execFuncDrainComplete func s
  | .funcDrainTimeout func => Sys2Proof.Machine.execFuncDrainTimeout func s
  | .funcKillDone func => Sys2Proof.Machine.execFuncKillDone func s
  | .scrubDone owner bad => Sys2Proof.Machine.execScrubDone owner bad s
  | .sqDoorbell a v => Sys2Proof.Machine.execSqDoorbell a v s
  | .eqHeadDoorbell a v => Sys2Proof.Machine.execEqHeadDoorbell a v s
  | .sqCfgWrite a v => Sys2Proof.Machine.execSqCfgWrite a v s
  | .eqCfgWrite a v => Sys2Proof.Machine.execEqCfgWrite a v s
  | .commandFetchReturn func ring data => Sys2Proof.Machine.execCommandFetchReturn func ring data s
  | .cmdFetch func ring => Sys2Proof.Machine.execCmdFetch func ring s
  | .configRequest port field v => Sys2Proof.Machine.execConfigRequest port field v s
  | .bar2Access port func rid off wr data => Sys2Proof.Machine.execBar2Access port func rid off wr data s
  | .perst port => Sys2Proof.Machine.execPerst port s
  | .perstRelease port => Sys2Proof.Machine.execPerstRelease port s
  | .linkDown port => Sys2Proof.Machine.execLinkDown port s
  | .dlUp port link => Sys2Proof.Machine.execDlUp port link s
  | .identSend a v => Sys2Proof.Machine.execIdentSend a v s
  | .heartbeat link mac frame => Sys2Proof.Machine.execHeartbeat link mac frame s
  | .hbHi a wide v => Sys2Proof.Machine.execHbHi a wide v s
  | .heartbeatTimer => Sys2Proof.Machine.execHeartbeatTimer s
  | .livenessTick => Sys2Proof.Machine.execLivenessTick s
  | .request link mac frame => Sys2Proof.Machine.execRequest link mac frame s
  | .relearn a v => Sys2Proof.Machine.execRelearn a v s
  | .mgmtLinkChange link up pol => Sys2Proof.Machine.execMgmtLinkChange link up pol s
  | .wainPost a wide v => Sys2Proof.Machine.execWainPost a wide v s
  | .abort a v => Sys2Proof.Machine.execAbort a v s
  | .resume a v => Sys2Proof.Machine.execResume a v s
  | .abortDone c => Sys2Proof.Machine.execAbortDone c s
  | .descriptorFetchReturn c ok data => Sys2Proof.Machine.execDescriptorFetchReturn c ok data s
  | .burstDone c k idx data => Sys2Proof.Machine.execBurstDone c k idx data s
  | .wainHostErr c k => Sys2Proof.Machine.execWainHostErr c k s
  | .descriptorComplete c readOk => Sys2Proof.Machine.execDescriptorComplete c readOk s
  | .wainCqHead a v => Sys2Proof.Machine.execWainCqHead a v s
  | .fwWrite src => Sys2Proof.Machine.execFwWrite src s
  | .fwWriteDone => Sys2Proof.Machine.execFwWriteDone s
  | .fwActivate src => Sys2Proof.Machine.execFwActivate src s
  | .fwSvnCommit src => Sys2Proof.Machine.execFwSvnCommit src s
  | .setInstall src => Sys2Proof.Machine.execSetInstall src s
  | .setRemove src => Sys2Proof.Machine.execSetRemove src s
  | .mgmtKeyInstall src => Sys2Proof.Machine.execMgmtKeyInstall src s
  | .debugUnlock src => Sys2Proof.Machine.execDebugUnlock src s
  | .bundleLoad src => Sys2Proof.Machine.execBundleLoad src s
  | .bundleLoaded => Sys2Proof.Machine.execBundleLoaded s
  | .bundleUnload src => Sys2Proof.Machine.execBundleUnload src s
  | .jobRun src => Sys2Proof.Machine.execJobRun src s
  | .getVersion port => Sys2Proof.Machine.execGetVersion port s
  | .getCapabilities port => Sys2Proof.Machine.execGetCapabilities port s
  | .negotiateAlgorithms port offered => Sys2Proof.Machine.execNegotiateAlgorithms port offered s
  | .getDigests port sess => Sys2Proof.Machine.execGetDigests port sess s
  | .getCertificate port sess slot off len => Sys2Proof.Machine.execGetCertificate port sess slot off len s
  | .challenge port slot nonce => Sys2Proof.Machine.execChallenge port slot nonce s
  | .getMeasurements port sess index signed nonce => Sys2Proof.Machine.execGetMeasurements port sess index signed nonce s
  | .keyExchange port slot wantsMutual share => Sys2Proof.Machine.execKeyExchange port slot wantsMutual share s
  | .finish port sess leaf sig mac => Sys2Proof.Machine.execFinish port sess leaf sig mac s
  | .keyUpdate port sess op => Sys2Proof.Machine.execKeyUpdate port sess op s
  | .spdmHeartbeat port sess => Sys2Proof.Machine.execSpdmHeartbeat port sess s
  | .endSession port sess => Sys2Proof.Machine.execEndSession port sess s
  | .keyPut port sess slot usage key => Sys2Proof.Machine.execKeyPut port sess slot usage key s
  | .keyClear port sess slot => Sys2Proof.Machine.execKeyClear port sess slot s
  | .keyList port sess => Sys2Proof.Machine.execKeyList port sess s
  | .pwrSetCap src => Sys2Proof.Machine.execPwrSetCap src s
  | .pwrPool src => Sys2Proof.Machine.execPwrPool src s
  | .fastLoop raw add => Sys2Proof.Machine.execFastLoop raw add s
  | .capMet => Sys2Proof.Machine.execCapMet s
  | .powerSample vin ma code atEnd => Sys2Proof.Machine.execPowerSample vin ma code atEnd s
  | .sensorOk => Sys2Proof.Machine.execSensorOk s
  | .estimateWindow => Sys2Proof.Machine.execEstimateWindow s
  | .mismatchOn => Sys2Proof.Machine.execMismatchOn s
  | .mismatchOff => Sys2Proof.Machine.execMismatchOff s
  | .learnerPeriod pfix dg dv fields => Sys2Proof.Machine.execLearnerPeriod pfix dg dv fields s
  | .brakeOn => Sys2Proof.Machine.execBrakeOn s
  | .brakeClockDrop => Sys2Proof.Machine.execBrakeClockDrop s
  | .brakeOff => Sys2Proof.Machine.execBrakeOff s
  | .droop f => Sys2Proof.Machine.execDroop f s
  | .poolRound => Sys2Proof.Machine.execPoolRound s
  | .poolRecordTimeout => Sys2Proof.Machine.execPoolRecordTimeout s
  | .poolStale => Sys2Proof.Machine.execPoolStale s
  | .poolShareRise => Sys2Proof.Machine.execPoolShareRise s
  | .junctionSample raw => Sys2Proof.Machine.execJunctionSample raw s
  | .thermalThrottleStep => Sys2Proof.Machine.execThermalThrottleStep s
  | .hbmTempSample raw => Sys2Proof.Machine.execHbmTempSample raw s
  | .thermalShutdown => Sys2Proof.Machine.execThermalShutdown s
  | .thermalRestart temps => Sys2Proof.Machine.execThermalRestart temps s
  | .operatingTimeSave => Sys2Proof.Machine.execOperatingTimeSave s
  | .coolantSample tin tout finn fout => Sys2Proof.Machine.execCoolantSample tin tout finn fout s
  | .flowLow => Sys2Proof.Machine.execFlowLow s
  | .leakSample wet lead => Sys2Proof.Machine.execLeakSample wet lead s
  | .leak => Sys2Proof.Machine.execLeak s
  | .thmLeakClr a v => Sys2Proof.Machine.execThmLeakClr a v s
  | .learnReset a v => Sys2Proof.Machine.execLearnReset a v s
  | .inputHigh mv => Sys2Proof.Machine.execInputHigh mv s
  | .inputHighTimeout => Sys2Proof.Machine.execInputHighTimeout s
  | .inputFault mv => Sys2Proof.Machine.execInputFault mv s
  | .inputReturn mv => Sys2Proof.Machine.execInputReturn mv s
  | .partSetup src => Sys2Proof.Machine.execPartSetup src s
  | .partLeave src => Sys2Proof.Machine.execPartLeave src s
  | .fenceCert src => Sys2Proof.Machine.execFenceCert src s
  | .fenced => Sys2Proof.Machine.execFenced s
  | .shadowElder src peer => Sys2Proof.Machine.execShadowElder src peer s
  | .shadowJoin src peerOk => Sys2Proof.Machine.execShadowJoin src peerOk s
  | .shadowEnd src => Sys2Proof.Machine.execShadowEnd src s
  | .shadowApply => Sys2Proof.Machine.execShadowApply s
  | .mirrorAckTimer => Sys2Proof.Machine.execMirrorAckTimer s
  | .shadowLost => Sys2Proof.Machine.execShadowLost s
  | .snapshot src => Sys2Proof.Machine.execSnapshot src s
  | .globalReset src => Sys2Proof.Machine.execGlobalReset src s
  | .wiringPlan src => Sys2Proof.Machine.execWiringPlan src s
  | .tallyAdd a v => Sys2Proof.Machine.execTallyAdd a v s
  | .tallyFire c => Sys2Proof.Machine.execTallyFire c s
  | .up port rid off data => Sys2Proof.Machine.execUp port rid off data s
  | .down port rid off data => Sys2Proof.Machine.execDown port rid off data s
  | .data port rid off data => Sys2Proof.Machine.execData port rid off data s
  | .mirrorAck port rid off data => Sys2Proof.Machine.execMirrorAck port rid off data s
  | .tallyStall c => Sys2Proof.Machine.execTallyStall c s
  | .prsntEarlyMade cold => Sys2Proof.Machine.execPrsntEarlyMade cold s
  | .prsntEarlyBreak => Sys2Proof.Machine.execPrsntEarlyBreak s
  | .quenchDone input => Sys2Proof.Machine.execQuenchDone input s
  | .ejectReq closed => Sys2Proof.Machine.execEjectReq closed s
  | .leverOpen cold => Sys2Proof.Machine.execLeverOpen cold s
  | .trayCfg src => Sys2Proof.Machine.execTrayCfg src s
  | .trayRemove src => Sys2Proof.Machine.execTrayRemove src s
  | .trayResume src => Sys2Proof.Machine.execTrayResume src s
  | .drained => Sys2Proof.Machine.execDrained s
  | .drainTimeout => Sys2Proof.Machine.execDrainTimeout s
  | .ledLine line => Sys2Proof.Machine.execLedLine line s
  | .ledRetry line => Sys2Proof.Machine.execLedRetry line s
  | .standbyPower => Sys2Proof.Machine.execStandbyPower s
  | .standbyLoss => Sys2Proof.Machine.execStandbyLoss s
  | .reeveBootDone pins eeprom links cold => Sys2Proof.Machine.execReeveBootDone pins eeprom links cold s
  | .preheatDone => Sys2Proof.Machine.execPreheatDone s
  | .preheatFail => Sys2Proof.Machine.execPreheatFail s
  | .railsDone => Sys2Proof.Machine.execRailsDone s
  | .railFail => Sys2Proof.Machine.execRailFail s
  | .bootDone trained => Sys2Proof.Machine.execBootDone trained s
  | .bootTimeout bad => Sys2Proof.Machine.execBootTimeout bad s
  | .bistDone bad => Sys2Proof.Machine.execBistDone bad s
  | .linksTimeout => Sys2Proof.Machine.execLinksTimeout s
  | .startRetry => Sys2Proof.Machine.execStartRetry s
  | .moduleResetWarm src => Sys2Proof.Machine.execModuleResetWarm src s
  | .moduleResetCold src => Sys2Proof.Machine.execModuleResetCold src s
  | .resetStart => Sys2Proof.Machine.execResetStart s
  | .dieWarmReset links => Sys2Proof.Machine.execDieWarmReset links s
  | .calSaveDone => Sys2Proof.Machine.execCalSaveDone s
  | .faultRead src => Sys2Proof.Machine.execFaultRead src s
  | .faultAck src => Sys2Proof.Machine.execFaultAck src s
  | .railRampDone f => Sys2Proof.Machine.execRailRampDone f s
  | .droopRecovered f cycles => Sys2Proof.Machine.execDroopRecovered f cycles s
  | .fenceCertChecked => Sys2Proof.Machine.execFenceCertChecked s
  | .msixTableWrite port func off v => Sys2Proof.Machine.execMsixTableWrite port func off v s

end Sys2Proof.Machine
end

