-- ==== Sys2Proof/Safety.lean ====
section
/-! DEFINITION. What a safe run is, in the terms the statements use: the invariant that every step keeps, when a command
record or a register access acts, and what the working units hold. -/

namespace Sys2Proof.Machine

/-- The granary is in its canonical form: addresses strictly rising and no entry equal to what an unlisted address reads
as, so that equal contents are equal data. -/
def Inv (s : State) : Prop := Memory.wf s.mem = true

/-- What the working units of the module hold: the granary with its poison, line versions, retained lines and KV pages,
the bays, bents, wains, sequences, video, tenants, key slots, ramp limiter and mesh. -/
structure Working where
  mem : List Host.Cell
  poison : List Nat
  lineVer : Map Nat
  retained : List Retained
  deferred : List Deferred
  kvBlocks : Map (List (Nat × Nat))
  kvPoison : List (Nat × Nat × Nat)
  bays : Map Bay
  slots : Map Slot
  wains : Map Wain
  seqs : Map Seq
  video : Map VidCtx
  cores : Map VidCore
  tenants : Map Tenant
  keySlots : Map (Nat × Bytes)
  ramp : Ramp
  mesh : List MeshMsg
  unitTokens : Map Nat

def working (s : State) : Working :=
  ⟨s.mem, s.poison, s.lineVer, s.retained, s.deferred, s.kvBlocks, s.kvPoison, s.bays, s.slots, s.wains, s.seqs, s.video,
    s.cores, s.tenants, s.keySlots, s.ramp, s.mesh, s.unitTokens⟩

/-- The granary's bytes. -/
def granary (s : State) : List Host.Cell := s.mem

/-- A command record is about to run: it is the oldest of its source that has not started, has the opcode, is not held by
FENCE, passes the claim check if it is a control opcode, and meets no shared state check (R301, R302, R305, R326). -/
def Ready (s : State) (src op : Nat) (c : Cmd) : Prop :=
  nextCmd s src = some c ∧ cmdOp c = op ∧ fenceHeld s c = false ∧ (isControl op = true → claimCode s (cmdClaim c) = 0) ∧
    gateCode s src op = 0

/-- A register access reaches a place and meets no locked expert range (R40, R47, R55). -/
def Reaches (s : State) (a : Access) (pl : Place) : Prop := place s a = some pl ∧ expertLocked s pl a.func = false

/-- A place whose writes only store by the access types of its register's row: it has no command of its own, no interrupt
follows it, and no note of a register table says more of it (R43, R49, and the notes on MSG and tenant rings and doorbells,
PORT_QOS, CLAIM, TXN, WAIN and BAY registers). -/
def plainReg (pl : Place) : Bool :=
  let ty := pageType pl.page
  !ownRow ty pl.off && pl.off != 0x18 && pl.off != 0x1C && !(ty == 0xA && decide (0x404 ≤ pl.off) && decide (pl.off < 0x44C))
    && !(ty == 0x7 && pl.off == 0x48) && ty != 0x11 && !((ty == 0x8 || ty == 0x30) && decide (0x100 ≤ pl.off) && decide (pl.off < 0x380))
    && !(ty == 0x9 && [0x58, 0x5C, 0x80, 0xC0].contains pl.off) && !(ty == 0x20 && pl.off == 0x88)

end Sys2Proof.Machine
end

