-- ==== Sys2Proof/Safety/Claims.lean ====
section
/-! DEFINITION. Terms the statements share: what it is for a command's cause to hold. -/

namespace Sys2Proof.Machine

/-- An access to a register of the TXN page that acts on the function's own selected slot (R82). -/
def OwnSlot (s : State) (a : Access) (off n : Nat) (x : Slot) : Prop :=
  (∃ pl, Reaches s a pl ∧ pl.page = pgTxn ∧ pl.off = off) ∧ n = rd s (K.txnSel a.func) % 32 ∧ x = slot s n ∧ x.st ≠ .free ∧
    x.owner = a.func

/-- The word at the head of a running bay's queue is of a class and OP, was not refused at decode and may issue: every
condition of R129 holds. -/
def Issues (s : State) (b : Nat) (q : QWord) (cls op : Nat) : Prop :=
  (bay s b).st = .running ∧ (bay s b).halting = false ∧ (bay s b).queue.head? = some q ∧ q.refused = none ∧
    wCls q.word.toNat = cls ∧ wOp q.word.toNat = op ∧ holdCode s b q.word.toNat = 0

/-- No line that a word reads in the bay has an uncorrectable error (R490). -/
def ReadsClean (s : State) (b : Nat) (q : QWord) : Prop := storeBad s b (wordRanges s b (bay s b) q.word.toNat).1 = false

/-- Operands A, B and D of a VEC word widened to FP32, and the scalar at B (R140, R141). -/
def vecA (x : Bay) (w : Nat) : List Num := widened x (vLine w 0) (vFin w) (vCount w)
def vecB (x : Bay) (w : Nat) : List Num := widened x (vLine w 1) (vFin w) (vCount w)
def vecD (x : Bay) (w : Nat) : List Num := widened x (vLine w 2) (vFout w) (vCount w)
def vecS (x : Bay) (w : Nat) : Num := scalarAt x (vLine w 1)

/-- Values of a list combined one by one. -/
def each2 (f : Num → Num → Num) (l m : List Num) : List Num := (l.zip m).map fun p => f p.1 p.2

/-- The bay after a VEC word stored bytes from the line of D on: its epoch and queue as issued, and the vector unit's busy cycles counted
(R150). -/
def vecStored (s : State) (b : Nat) (q : QWord) (bs : Bytes) : State :=
  let s := issueHead s b q
  boundIssued (setBay s b (addPerf (bwrite (bay s b) (vLine q.word.toNat 2) bs) 8 (cdiv (vCount q.word.toNat) 64))) b

/-- Values as the element codes of FOUT under CVT, packed (R93, R94). -/
def vecBytes (w : Nat) (vs : List Num) : Bytes := packBits (elemBits (vFout w)) (narrowCodes (vFout w) (vCvt w) vs).1

/-- An access to a register of a bay's page at an offset (R148, R151). -/
def OnBay (s : State) (a : Access) (b off : Nat) : Prop :=
  ∃ pl, Reaches s a pl ∧ pageType pl.page = 0x20 ∧ pl.off = off ∧ b = pl.page - 0x100

/-- The commands that may store in the granary at once: an acknowledgement (R26), a bent's effect, a tally's fire, storage
given back, a table edit or output copied in or out by a sequencer, engine or bundle load, and what removes power from the HBM. -/
def storesAtOnce : Instr → Bool
  | .granaryWriteAck .. | .bentTakeEffect .. | .retiredStorageFree | .rebuildDone
  | .stepBoundary | .emptyBoundary | .decSubmit .. | .encFrame .. | .picRelease .. | .encRows .. | .streamFlush .. | .bsRelease ..
  | .headerParseDone .. | .coreChoose .. | .unitDecoded .. | .sliceOut .. | .tapRow .. | .scrubDone .. | .dlUp ..
  | .bundleLoaded .. | .jobRun .. | .thermalShutdown | .thermalRestart .. | .inputHighTimeout | .inputFault ..
  | .inputReturn .. | .shadowApply | .tallyFire .. | .prsntEarlyBreak | .quenchDone .. | .ejectReq .. | .drained
  | .drainTimeout | .standbyLoss | .preheatFail | .railsDone | .railFail | .bootDone ..
  | .bootTimeout .. | .bistDone .. | .linksTimeout | .startRetry | .resetStart | .dieWarmReset ..
  | .reeveBootDone .. => true
  | _ => false

/-- The commands of service, power, sensing, links, keys and registers that no working unit takes part in. -/
def leavesWork : Instr → Bool
  | .unalignedAccess .. | .unmappedAccess .. | .blkExpert .. | .pageDiscard .. | .granaryRound ..
  | .pllRelockDone .. | .ptpAnnounceTimeout .. | .retireStall | .rebuild .. | .tokenArea .. | .heldBatchPost ..
  | .pause .. | .pauseClear .. | .nop .. | .sqDoorbell .. | .eqHeadDoorbell .. | .sqCfgWrite .. | .eqCfgWrite ..
  | .commandFetchReturn .. | .cmdFetch .. | .bar2Access .. | .identSend .. | .heartbeatTimer | .livenessTick
  | .request .. | .relearn .. | .mgmtLinkChange .. | .fwWrite .. | .fwWriteDone .. | .fwActivate .. | .fwSvnCommit ..
  | .setInstall .. | .setRemove .. | .mgmtKeyInstall .. | .bundleLoad .. | .bundleUnload .. | .getVersion ..
  | .getCapabilities .. | .negotiateAlgorithms .. | .getDigests .. | .getCertificate .. | .finish .. | .keyUpdate ..
  | .spdmHeartbeat .. | .endSession .. | .keyList .. | .pwrSetCap .. | .pwrPool .. | .fastLoop .. | .capMet
  | .powerSample .. | .sensorOk | .estimateWindow .. | .mismatchOn | .mismatchOff | .learnerPeriod .. | .brakeOn
  | .brakeClockDrop | .brakeOff | .droop .. | .poolRound .. | .poolRecordTimeout | .poolStale | .poolShareRise
  | .junctionSample .. | .thermalThrottleStep | .hbmTempSample .. | .operatingTimeSave | .coolantSample .. | .flowLow
  | .leakSample .. | .leak | .thmLeakClr .. | .learnReset .. | .inputHigh .. | .partSetup .. | .partLeave ..
  | .fenceCert .. | .fenced | .shadowElder .. | .shadowJoin .. | .shadowEnd .. | .mirrorAckTimer | .shadowLost
  | .snapshot .. | .globalReset .. | .wiringPlan .. | .tallyAdd .. | .up .. | .down .. | .data .. | .mirrorAck ..
  | .tallyStall .. | .prsntEarlyMade .. | .leverOpen .. | .trayCfg .. | .trayRemove .. | .trayResume .. | .ledLine ..
  | .ledRetry .. | .preheatDone | .moduleResetWarm .. | .moduleResetCold .. | .calSaveDone | .faultRead ..
  | .faultAck .. | .railRampDone .. | .droopRecovered .. | .msixTableWrite .. => true
  | _ => false

/-- An error as a block meets it: its code, function, offset and detail (R42). -/
structure Err where
  code : Nat
  func : Nat
  off : Nat
  detail : Nat
deriving DecidableEq, Repr

/-- A page's errors recorded one after another. -/
def recordAll (s : State) (page : Nat) (es : List Err) : State :=
  es.foldl (fun s e => recordErr s page e.code e.func e.off e.detail) s

/-- How readily a full fault log gives a record up: 0 acknowledged, 1 not acknowledged, 2 an unacknowledged UNCLEAN or
INPUT_LOSS record (R494). -/
def keepRank (r : FaultRec) : Nat := if r.acked then 0 else if r.kind == 1 || r.kind == 2 then 2 else 1

/-- Bytes of the records of a log. -/
def logBytes (l : List FaultRec) : Nat := (l.map fun r => r.bytes.length).sum

end Sys2Proof.Machine
end

