-- ==== Sys2Proof/Certificates/Slice0/Obligations.lean ====
section
/-! DEFINITION. The statements for the provers, each about every state and operand unless it names one. -/

section
open Sys2Proof Sys2Proof.Machine

/-- A step runs the front command. For every state with command c in front of its queue, step is exec of c on that state
with the queue's rest; on an empty queue step answers the state after one idle ACLK cycle, in which clocks and the
cycle counters of bays count and a snapshot whose writing has finished completes (the model's choice, log entry 4).
(95_what_each_step_holds.md, 00_scope.md) -/
def Obligations.StepRunsTheFrontCommand : Prop :=
  (∀ (s : State) (c : Instr) (rest : List Instr), s.pending = c :: rest → step s = exec c { s with pending := rest }) ∧
  (∀ s : State, s.pending = [] → step s = .next (snapshotsOut (oneCycle s)))

/-- What reset leaves. After reset the invariant holds, no command waits, every granary byte reads 0, every register reads
its reset value, no page has an error, every expert range is locked, the tray is UNPOWERED, no command record, queued
granary write or bent slot is in use, and every bay is IDLE and unassigned with an empty queue. Granary contents and
reset values the spec does not give are the model's choice (log entries 2 and 3). (R43, R45, R46, R64, R128, R149,
R461) -/
def Obligations.ResetState : Prop :=
  Inv State.reset ∧ State.reset.pending = [] ∧ (∀ a, gbyte State.reset a = 0) ∧
    (∀ k, rd State.reset k = (regReset k).toNat) ∧ (∀ p, rd State.reset (K.blkErr p) = 0) ∧
    (∀ p f, isUnlocked State.reset p f = false) ∧ State.reset.tray.hs = .unpowered ∧ State.reset.cmds = [] ∧
    State.reset.gwq = [] ∧ (∀ b, (bay State.reset b).st = .idle ∧ (bay State.reset b).owner = 15 ∧ (bay State.reset b).queue = []) ∧
    (∀ n, (slot State.reset n).st = .free)

/-- Every step keeps the granary canonical. From every state whose granary list is in canonical form, whatever command
stands in front of the queue, and also on an empty queue, the next state's granary is in canonical form. The form is
the model's (it makes equal contents equal data). (R16, R26, 00_scope.md, 01_architecture.md) -/
def Obligations.StepKeepsInvariant : Prop :=
  ∀ s t : State, Inv s → step s = .next t → Inv t

/-- Equal reads mean equal granaries. Two states in the invariant that read the same byte at every granary address hold
the same granary. The form is the model's (log entry 2). (R16, 01_architecture.md) -/
def Obligations.GranaryIsExtensional : Prop :=
  ∀ s t : State, Inv s → Inv t → (∀ a, gbyte s a = gbyte t a) → s.mem = t.mem

/-- Commands that store nothing leave every byte. Every command outside the named list of commands that store in the
granary at once leaves every byte of the granary as it was, as its writes only enter the write queue and become
visible at their acknowledgement. (R16, R26, 95_what_each_step_holds.md) -/
def Obligations.GranaryFrame : Prop :=
  ∀ (c : Instr) (s t : State), storesAtOnce c = false → exec c s = .next t → ∀ a, gbyte t a = gbyte s a

/-- Service commands leave the working units alone. A command of the named list (service, power, sensing, link, key, ring
and register commands that no working unit takes part in) leaves the granary, poison, line versions, bays, bents,
wains, sequences, video, tenants, key slots, ramp limiter and mesh as they were. (95_what_each_step_holds.md, R49,
R303, R382, R403, R453) -/
def Obligations.WorkingFrame : Prop :=
  ∀ (c : Instr) (s t : State), leavesWork c = true → exec c s = .next t → working t = working s

/-- A register write acts by access type. For a register without a row or note of its own: a write merges into the staged
value where fields are RWS, into the active value where they are RW, clears W1C bits written 1 and a W1C counter
written 1, and changes no other register; an offset with no register ignores it; writes to BLK_IRQ_RAW and BLK_IRQ_EN
are followed by the interrupt update; an 8-byte write is its low word's write followed by its high word's; a write to
an offset no page occupies only counts in SYS_UNMAPPED. (R41, R42, R43, R49, R298) -/
def Obligations.RegisterWriteByAccessType : Prop :=
  ∀ (s : State) (a : Access) (pl : Place) (v : Nat), inTallyWindow a = false → Reaches s a pl → v < 2 ^ 32 →
    (∀ d, plainReg pl = true → findReg (pageType (pl.key / 0x1000)) (pl.key % 0x1000) = some d → ∃ u, exec (.registerWrite a false v) s = .next u ∧
      rdStaged u pl.key = (if d.rws = 0 then rdStaged s pl.key else merge (rdStaged s pl.key) v d.rws % 2 ^ 32) ∧
      rd u pl.key = (if d.cnt = true ∧ v % 2 = 1 then 0 else
        let x := if d.rw = 0 then rd s pl.key else merge (rd s pl.key) v d.rw % 2 ^ 32
        if d.w1c = 0 then x else x - Nat.land x (Nat.land v d.w1c)) ∧
      (∀ k, k ≠ pl.key → rd u k = rd s k ∧ rdStaged u k = rdStaged s k) ∧
      working u = working s ∧ u.out = s.out) ∧
    (plainReg pl = true → findReg (pageType (pl.key / 0x1000)) (pl.key % 0x1000) = none → exec (.registerWrite a false v) s = .next s) ∧
    (pl.off = 0x18 ∨ pl.off = 0x1C → exec (.registerWrite a false v) s = .next (irqUpdate (storeReg s pl.key v) pl.page)) ∧
    (∀ a' w u pl', a' = { a with off := a.off + 4 } → inTallyWindow a' = false → w < 2 ^ 32 → exec (.registerWrite a false v) s = .next u →
      Reaches u a' pl' → exec (.registerWrite a true (v + 2 ^ 32 * w)) s = exec (.registerWrite a' false w) u) ∧
    (∀ a', unoccupied a' = true → noAnswer s a' = false → inTallyWindow a' = false →
      exec (.registerWrite a' false v) s = .next (satIncr s K.sysUnmapped 1))

/-- Unaligned and unmapped accesses. Where the function and port answer requests: an unaligned access completes with
Completer Abort and records REG_ALIGN in SYS, or counts in TALLY_BAD and records it in the tally window of a serving
module; an access to an MF offset that no page occupies adds one to SYS_UNMAPPED, changes no other register, and a
read of it returns 4 or 8 zero bytes. Where nothing answers, reads and unaligned accesses complete with Unsupported
Request and a write does nothing. (R41, R42, R434, R292) -/
def Obligations.AccessErrorsRecorded : Prop :=
  ∀ (s : State) (a : Access) (read wide : Bool),
    (noAnswer s a = false → (inTallyWindow a && serving s) = false →
      exec (.unalignedAccess a) s = .next (emit (recordErr s pgSys eRegAlign a.func a.off) (.completerAbort a.port a.func a.off))) ∧
    (noAnswer s a = false → (inTallyWindow a && serving s) = true →
      exec (.unalignedAccess a) s = .next (recordErr (satIncr s K.tallyBad 1) pgTally eTallyBad a.func (a.off % 0x1000))) ∧
    (noAnswer s a = false → unoccupied a = true → ∃ u, exec (.unmappedAccess a read wide) s = .next u ∧
      rd u K.sysUnmapped = min (rd s K.sysUnmapped + 1) 0xFFFFFFFF ∧ (∀ k, k ≠ K.sysUnmapped → rd u k = rd s k) ∧ working u = working s ∧
      u.out = s.out ++ (if read then [.readData a.port a.func a.off (List.replicate (if wide then 8 else 4) 0)] else [])) ∧
    (noAnswer s a = false → unoccupied a = false → exec (.unmappedAccess a read wide) s = .next s) ∧
    (noAnswer s a = true → exec (.unalignedAccess a) s = .next (emit s (.unsupported a.port a.func a.off)) ∧
      exec (.unmappedAccess a true wide) s = .next (emit s (.unsupported a.port a.func a.off)) ∧
      exec (.unmappedAccess a false wide) s = .next s)

/-- A read returns its register and latches a high word. A 4-byte read that reaches a register answers the register's
value and, where it is the low word of a 64-bit value, latches the high word for the later read; an 8-byte read
answers the low word and then the high word as read after it; a read of an offset no page occupies returns zeros and
counts in SYS_UNMAPPED; where nothing answers it completes with Unsupported Request. A read that reaches registers
changes none. TXN_OPEN's read has its own statement. (R24, R41, R42, R43, R49, R292) -/
def Obligations.ReadReturnsAndLatches : Prop :=
  ∀ (s : State) (a : Access) (pl : Place), Reaches s a pl → ¬(pl.page = pgTxn ∧ pl.off = 0x400) →
    (∃ u, exec (.latchedRead a false false) s = .next u ∧ u.out = s.out ++ [.readData a.port a.func a.off (toLE 4 (readReg s a.func pl))] ∧
      (∀ w, wideValue s a.func pl = some w →
        (mget (fun _ => 0) u.latched (latchKey a.func { pl with key := pl.key + 4 })).toNat = w / 2 ^ 32 % 2 ^ 32) ∧
      (wideValue s a.func pl = none → u.latched = s.latched) ∧ u.regs = s.regs ∧ working u = working s) ∧
    (∀ a' pl', a' = { a with off := a.off + 4 } → Reaches (readAt s a pl).1 a' pl' → ¬(pl'.page = pgTxn ∧ pl'.off = 0x400) →
      ∃ u, exec (.latchedRead a true false) s = .next u ∧ u.regs = s.regs ∧ working u = working s ∧
        u.out = s.out ++ [.readData a.port a.func a.off
          (toLE 8 (readReg s a.func pl + 2 ^ 32 * readReg (readAt s a pl).1 a.func pl'))]) ∧
    (∀ a' wide, noAnswer s a' = false → unoccupied a' = true → ∃ u, exec (.latchedRead a' wide false) s = .next u ∧
      rd u K.sysUnmapped = min (rd s K.sysUnmapped + 1) 0xFFFFFFFF ∧
      u.out = s.out ++ [.readData a'.port a'.func a'.off (List.replicate (if wide then 8 else 4) 0)]) ∧
    (∀ a' wide bar4, noAnswer s a' = true → exec (.latchedRead a' wide bar4) s = .next (emit s (.unsupported a'.port a'.func a'.off)))

/-- Expert unlock, error clear and soft reset. Writing 0x4C51 to BLK_EXPERT unlocks the page for a function that may, or
records EXPERT_DENIED; any other value relocks it; writing 1 to BLK_ERR.VALID clears BLK_ERR and BLK_ERR_INFO (on a
wain page the channel then starts a waiting chain); SRESET on a page that accepts it soft-resets the page, on the
named pages clearing the error, adding one to BLK_PAGEVER and relocking every function, and elsewhere records
SRESET_REFUSED. (R43, R44, R45, R46, R47, R476) -/
def Obligations.HeaderCommands : Prop :=
  ∀ (s : State) (a : Access) (pl : Place) (v : Nat), Reaches s a pl →
    (pl.off = 0xC → v % 2 ^ 16 = 0x4C51 → mayUnlock s a.func = true → ∃ u, exec (.blkExpert a v) s = .next u ∧
      isUnlocked u pl.page a.func = true ∧ u.regs = s.regs ∧ working u = working s) ∧
    (pl.off = 0xC → v % 2 ^ 16 = 0x4C51 → mayUnlock s a.func = false →
      exec (.blkExpert a v) s = .next (recordErr s pl.page eExpertDenied a.func 0xC)) ∧
    (pl.off = 0xC → v % 2 ^ 16 ≠ 0x4C51 → ∃ u, exec (.blkExpert a v) s = .next u ∧
      isUnlocked u pl.page a.func = false ∧ u.regs = s.regs ∧ working u = working s) ∧
    (pl.off = 0x20 → bit v 31 = true → pageType pl.page ≠ 0x11 → ∃ u, exec (.blkErrClear a v) s = .next u ∧
      rd u (K.blkErr pl.page) = 0 ∧ rd u (K.blkErrInfo pl.page) = 0 ∧
      (∀ k, k ≠ K.blkErr pl.page → k ≠ K.blkErrInfo pl.page → rd u k = rd s k) ∧ working u = working s) ∧
    (pl.off = 0x20 → bit v 31 = true → pageType pl.page = 0x11 →
      exec (.blkErrClear a v) s = .next (startChain (clearErr s pl.page) (wainOf pl.page))) ∧
    (pl.off = 0x10 → bit v 0 = true → acceptsSreset pl.page = true → exec (.sreset a v) s = .next (softReset s pl.page)) ∧
    (pl.off = 0x10 → bit v 0 = true → pl.page ∈ [0x40, 0x41, 0x42, 0x43, 0x51, 0x52, 0x60] → ∃ u, exec (.sreset a v) s = .next u ∧
      rd u (K.blkErr pl.page) = 0 ∧ rd u (K.blkPagever pl.page) = (rd s (K.blkPagever pl.page) + 1) % 2 ^ 16 ∧
      rf u K.sysResetCause 3 0 = 1 ∧ (∀ f, isUnlocked u pl.page f = false) ∧ granary u = granary s) ∧
    (pl.off = 0x10 → bit v 0 = true → acceptsSreset pl.page = false →
      exec (.sreset a v) s = .next (recordErr s pl.page eSresetRefused a.func 0x10))

/-- A page commit makes all staged values active. BLK_COMMIT.GO with every check passed makes every staged field of the
page active, adds one to the page version, changes no other register and no staged value; with a failed check, or
without the claim on a control page, nothing is made active and the code is recorded; DISCARD copies the active values
back to the staged ones. (R50, R51, R52, R326) -/
def Obligations.CommitMakesStagedValuesActive : Prop :=
  ∀ (s : State) (a : Access) (pl : Place) (v : Nat), Reaches s a pl → pl.off = 0x30 →
    (bit v 31 = true → bit v 30 = false → (controlPage pl.page = true → claimCode s (claimKey s a.port) = 0) → commitCode s pl.page v = 0 →
      ∃ u, exec (.pageCommit a v) s = .next (raiseIrq (afterApply s u pl.page) pl.page 1) ∧
        (∀ k ∈ stagedKeys s pl.page, rd u k = merge (rd s k) (rdStaged s k) (rwsMask k) % 2 ^ 32) ∧
        (∀ k, k ∉ stagedKeys s pl.page → k ≠ K.blkPagever pl.page → rd u k = rd s k) ∧
        rd u (K.blkPagever pl.page) = (rd s (K.blkPagever pl.page) + 1) % 2 ^ 16 ∧ u.staged = s.staged ∧ granary u = granary s) ∧
    (bit v 31 = true → bit v 30 = false → (controlPage pl.page = true → claimCode s (claimKey s a.port) = 0) → commitCode s pl.page v ≠ 0 →
      exec (.pageCommit a v) s = .next (raiseIrq (recordErr s pl.page (commitCode s pl.page v) a.func 0x30) pl.page 1)) ∧
    (bit v 31 = true → bit v 30 = false → controlPage pl.page = true → claimCode s (claimKey s a.port) ≠ 0 →
      exec (.pageCommit a v) s = .next (raiseIrq (recordErr (refuseAct s (claimKey s a.port) (claimCode s (claimKey s a.port)) 0) pl.page
        (claimCode s (claimKey s a.port)) a.func 0x30) pl.page 1)) ∧
    (bit v 30 = true → ∃ u, exec (.pageDiscard a v) s = .next (raiseIrq u pl.page 1) ∧
        (∀ k ∈ stagedKeys s pl.page, rdStaged u k = merge (rdStaged s k) (rd s k) (rwsMask k) % 2 ^ 32) ∧
        (∀ k, k ∉ stagedKeys s pl.page → rdStaged u k = rdStaged s k) ∧ u.regs = s.regs ∧ granary u = granary s)

/-- A granary round counts its grants. A round of a channel orders each class's requests, reads and waiting writes, by
arrival; grants every class at least the smaller of its demand and its weight's share under the grant limit; adds the
grants to the class's counter modulo 2^64; marks the granted writes and counts the granted reads of each class, oldest
first; and changes no working unit or output. (R19, R20, R21, R24, R404) -/
def Obligations.GranaryArbitration : Prop :=
  ∀ (s : State) (chan : Nat) (q0 q1 q2 q3 : List Bool),
    let reqs := fun c => requestOrder ([q0, q1, q2, q3].getD c []) (waitingWrites s chan c)
    let grants := fun c => (roundGrants s chan [(reqs 0).length, (reqs 1).length, (reqs 2).length, (reqs 3).length]).2.getD c 0
    ∃ u, exec (.granaryRound chan q0 q1 q2 q3) s = .next u ∧
      (∀ c, c < 4 → rd64 u (K.grnGrantLo (chan / 32) c) = (rd64 s (K.grnGrantLo (chan / 32) c) + grants c) % 2 ^ 64) ∧
      (∀ c, c < 4 → min (reqs c).length
        (fld (rd s (K.grnWeight (chan / 32))) (8 * c + 7) (8 * c) * grantLimit s (chan / 32) / 100) ≤ grants c) ∧
      (u.gwq = s.gwq.map fun w =>
        if some w.id ∈ (List.range 4).flatMap (fun c => (reqs c).take (grants c)) then { w with granted := true } else w) ∧
      (∀ c, c < 4 → mget (fun _ => 0) u.readGrants (4 * chan + c) =
        mget (fun _ => 0) s.readGrants (4 * chan + c) + ((reqs c).take (grants c)).countP Option.isNone) ∧
      working u = working s ∧ u.out = s.out

/-- An acknowledged write becomes visible. Acknowledging the oldest write of a unit on a channel, once a round has granted
it, makes every byte of that write visible in one step, leaves every other byte of the granary as it was, takes the
write out of the queue, and releases what was held for it; a write not yet granted is not acknowledged and nothing
changes. (R20, R26, R123, R426) -/
def Obligations.AcknowledgedWriteBecomesVisible : Prop :=
  ∀ (s : State) (unit chan : Nat) (w : GWrite),
    s.gwq.find? (fun w => w.unit == unit && channelOf (64 * w.line) == chan) = some w →
    (w.granted = false → exec (.granaryWriteAck unit chan) s = .next s) ∧
    (w.granted = true → ∃ u, exec (.granaryWriteAck unit chan) s = .next (releaseHeld (mirrorWrite u w)) ∧
      (∀ a, a ∉ w.cells.map (·.1) → gbyte (releaseHeld (mirrorWrite u w)) a = gbyte s a) ∧
      ((w.cells.map (·.1)).Nodup → ∀ c ∈ w.cells, gbyte (releaseHeld (mirrorWrite u w)) c.1 = c.2) ∧
      u.gwq = dropFirst (fun w => w.unit == unit && channelOf (64 * w.line) == chan) s.gwq ∧ u.bays = s.bays ∧ u.regs = s.regs)

/-- Tokens and credits arrive and saturate. The oldest message between a source and a destination arrives: a token or
credit at a bay adds its increment to the counter or pool, saturating at 4,095, changes no other counter and no other
bay, and an add past 4,095 records BAY_TOKEN_OVF or BAY_CREDIT_OVF; a token to a unit adds to the unit's counter; a
tally add counts in its tally. (R15, R124, R126, R496) -/
def Obligations.MeshArrivalsSaturate : Prop :=
  ∀ (s : State) (src dst : Nat) (m : MeshMsg), arriving s src dst = some m →
    (m.kind = 0 → dst < nBays → ∃ u, exec (.tokenArrival src dst) s = .next u ∧
      tok (bay u dst) m.ctr = min (tok (bay s dst) m.ctr + m.amount) 4095 ∧
      (∀ c, c ≠ m.ctr → tok (bay u dst) c = tok (bay s dst) c) ∧ (∀ b, b ≠ dst → bay u b = bay s b) ∧ granary u = granary s) ∧
    (m.kind = 0 → dst < nBays → 4095 < tok (bay s dst) m.ctr + m.amount →
      ∃ u, exec (.tokenArrival src dst) s = .next (recordErr u (bayPage dst) eBayTokenOvf internalFunc 0)) ∧
    (m.kind = 0 → ¬ dst < nBays → exec (.tokenArrival src dst) s = .next (addUnitToken (takeMsg s src dst) (dst - uGleaner) m.ctr m.amount)) ∧
    (m.kind = 1 → dst < nBays → ∃ u, exec (.creditArrival src dst) s = .next u ∧
      cred (bay u dst) m.ctr = min (cred (bay s dst) m.ctr + m.amount) 4095 ∧
      (∀ c, c ≠ m.ctr → cred (bay u dst) c = cred (bay s dst) c) ∧ (∀ b, b ≠ dst → bay u b = bay s b) ∧ granary u = granary s) ∧
    (m.kind = 1 → dst < nBays → 4095 < cred (bay s dst) m.ctr + m.amount →
      ∃ u, exec (.creditArrival src dst) s = .next (recordErr u (bayPage dst) eBayCreditOvf internalFunc 0)) ∧
    (m.kind = 2 → dst = uTally →
      exec (.tallyAddArrival src) s = .next (addTally (takeMsg s src uTally) m.ctr (bay s src).owner m.amount 0))

/-- Granary reads return clean, corrected or poisoned. A read return uses one read grant of the unit's class and channel,
and without one nothing changes. A clean read of a bay counts its latency and changes no other bay or register; a
corrected error counts in GRN_ECC_CE; an uncorrectable one poisons the line and counts in GRN_ECC_UE; an uncorrectable
error of a line in the reserved range is a memory fault of the firmware (DEDUCED, log entry 196). (R20, R486, R487,
R150) -/
def Obligations.GranaryReadReturns : Prop :=
  ∀ (s : State) (unit addr ecc lat : Nat) (weights : Bool), addr < granEnd →
    let g := readGrantOf unit addr weights
    let n := mget (fun _ => 0) s.readGrants g
    let took : State := { s with readGrants := mset (fun _ => 0) s.readGrants g (n - 1) }
    (n = 0 → exec (.granaryReadReturn unit addr ecc lat weights) s = .next s) ∧
    (n ≠ 0 → addr < granReserved → unit < nBays → ∃ u, exec (.granaryReadReturn unit addr 0 lat weights) s = .next u ∧
      perfOf (bay u unit) 12 = (perfOf (bay s unit) 12 + lat) % 2 ^ 64 ∧ perfOf (bay u unit) 13 = (perfOf (bay s unit) 13 + 1) % 2 ^ 64 ∧
      (∀ b, b ≠ unit → bay u b = bay s b) ∧ u.readGrants = took.readGrants ∧ u.regs = s.regs ∧ granary u = granary s) ∧
    (n ≠ 0 → addr < granReserved → nBays ≤ unit → exec (.granaryReadReturn unit addr 0 lat weights) s = .next took) ∧
    (n ≠ 0 → addr < granReserved → nBays ≤ unit → exec (.granaryReadReturn unit addr 1 lat weights) s =
      .next (satIncr took (K.grnEccCe (channelOf addr / 32)) 1)) ∧
    (n ≠ 0 → addr < granReserved → ∃ u, exec (.granaryReadReturn unit addr 2 lat weights) s = .next u ∧
      addr / 64 ∈ u.poison ∧ (∀ l ∈ s.poison, l ∈ u.poison) ∧
      rd u (K.grnEccUe (channelOf addr / 32)) = min (rd s (K.grnEccUe (channelOf addr / 32)) + 1) 0xFFFFFFFF ∧ granary u = granary s) ∧
    (n ≠ 0 → granReserved ≤ addr → s.tray.rails = true → ∃ u, exec (.granaryReadReturn unit addr 2 lat weights) s =
      .next (memoryFault u ePoison (addr / 64 * 64)) ∧ addr / 64 ∈ u.poison ∧ (∀ l ∈ s.poison, l ∈ u.poison) ∧ granary u = granary s)

/-- PTP disciplines MTIME within its span. An Announce in the domain is kept and the best master chosen again; a measured
offset writes MGMT_PTP_OFS saturated and sets the increment within its span of the nominal; the first time before any
claim steps MTIME and sets CLK_PTP.STEPPED; a missed master is dropped and the choice repeated. The order of the
comparison is PRESUMED (log entry 15). (R36, R331) -/
def Obligations.PtpDiscipline : Prop :=
  ∀ (s : State) (k : Nat), k < 2 →
    (∀ p1 cc ac va p2 id st, mgmtUp s k = true →
      exec (.ptpMessage k (.announce p1 cc ac va p2 id st (rf s K.mgmtPtp 7 0))) s
        = .next (choosePtp { s with ptp := s.ptp.set k (some ⟨p1, cc, ac, va, p2, id, st⟩) })) ∧
    (∀ ns, mgmtUp s k = true → ptpSource s k = true → ∃ u, exec (.ptpMessage k (.offset ns (rf s K.mgmtPtp 7 0))) s = .next u ∧
      rd u K.mgmtPtpOfs = sat32 ns % 2 ^ 32 ∧ u.mtime = s.mtime ∧
      (∃ inc, incNominal - incSpan ≤ inc ∧ inc ≤ incNominal + incSpan ∧ rd u K.clkMtimeIncF = inc % 2 ^ 32 ∧ rd u K.clkMtimeIncI = inc / 2 ^ 32 % 2 ^ 32)) ∧
    (∀ ns, mgmtUp s k = true → ptpSource s k = true → s.everClaimed = false →
      ∃ u, exec (.ptpMessage k (.time ns (rf s K.mgmtPtp 7 0))) s = .next u ∧ u.mtime = BitVec.ofNat 96 (2 ^ 32 * ns) ∧ bit (rd u K.clkPtp) 1 = true ∧ granary u = granary s) ∧
    (∀ ns, s.everClaimed = true → exec (.ptpMessage k (.time ns (rf s K.mgmtPtp 7 0))) s = .next s) ∧
    (ptpSource s k = true → exec (.ptpAnnounceTimeout k) s = .next (choosePtp { s with ptp := s.ptp.set k none })) ∧
    (ptpSource s k = false → exec (.ptpAnnounceTimeout k) s = .next s)

/-- Bent slots are opened, filled, armed, struck and released. TXN_OPEN with the claim and quota allocates and selects the
lowest free host slot or answers OK = 0; TXN_LIST_CMD starts a readable fetch; RAISE arms an open bent of mode
IMMEDIATE or STEP, or of mode TALLY whose tally its owner holds, in order of the RAISE writes, and is kept pending
while the bent fetches; STRIKE strikes with code 0; RELEASE frees a RAISED or STRUCK slot and records TXN_STATE
otherwise. An opened, armed, struck or released slot changes no other slot. (R64, R68, R79, R82, R326) -/
def Obligations.TxnPageCommands : Prop :=
  ∀ (s : State) (a : Access),
    (∀ pl n, Reaches s a pl → pl.page = pgTxn → pl.off = 0x400 → (a.func = 0 → claimCode s (claimKey s a.port) = 0) →
      freeSlot s = some n → slotsHeld s a.func < quota s a.func → ∃ u, exec (.txnOpen a) s = .next u ∧
        slot u n = { owner := a.func, st := .opened, claimAt := claimA s } ∧ (∀ m, m ≠ n → slot u m = slot s m) ∧
        rd u (K.txnSel a.func) = n ∧ u.out = s.out ++ [.readData a.port a.func a.off (toLE 4 (n + 2 ^ 31))] ∧ granary u = granary s) ∧
    (∀ pl, Reaches s a pl → pl.page = pgTxn → pl.off = 0x400 → (a.func = 0 → claimCode s (claimKey s a.port) = 0) →
      (freeSlot s = none ∨ ¬ slotsHeld s a.func < quota s a.func) → exec (.txnOpen a) s = .next (answerWord a (s, 0))) ∧
    (∀ n x v, OwnSlot s a 0x418 n x → bit v 31 = true → fld v 8 0 ≠ 0 → x.st = .opened →
      listReadable s { x with
        st := .fetching, toFetch := fld v 8 0, fetchAddr := x.listLo + 2 ^ 32 * (x.listHi % 2 ^ 31)
        fetchGran := bit x.listHi 31, fetchBuf := [], fetchPort := a.port } = true →
      exec (.txnListCmd a v) s = .next (setSlot s n { x with
        st := .fetching, toFetch := fld v 8 0, fetchAddr := x.listLo + 2 ^ 32 * (x.listHi % 2 ^ 31)
        fetchGran := bit x.listHi 31, fetchBuf := [], fetchPort := a.port })) ∧
    (∀ n x v, OwnSlot s a 0x41C n x → fld v 1 0 = 1 → x.st = .opened → x.mode = 0 ∨ x.mode = 1 ∨
        x.mode = 2 ∧ rf s (K.tallyOwner x.tally) 3 0 = x.owner →
      exec (.raise a v) s = .next (setSlot { s with raises := s.raises + 1 } n { x with st := .armed, armSeq := s.raises, raisePend := false })) ∧
    (∀ n x v, OwnSlot s a 0x41C n x → fld v 1 0 = 1 → x.st = .fetching → x.raisePend = false →
      exec (.raise a v) s = .next (setSlot { s with raises := s.raises + 1 } n { x with raisePend := true, armSeq := s.raises })) ∧
    (∀ n x v, OwnSlot s a 0x41C n x → fld v 1 0 = 2 → x.st = .opened ∨ x.st = .fetching ∨ x.st = .armed → ∃ u, exec (.strike a v) s = .next u ∧
      (slot u n).st = .struck ∧ (slot u n).code = 0 ∧ (∀ m, m ≠ n → slot u m = slot s m) ∧ granary u = granary s) ∧
    (∀ n x v, OwnSlot s a 0x41C n x → fld v 1 0 = 3 → x.st = .raised ∨ x.st = .struck → exec (.release a v) s = .next (setSlot s n {})) ∧
    (∀ n x v, OwnSlot s a 0x41C n x → fld v 1 0 = 3 → x.st = .opened ∨ x.st = .fetching ∨ x.st = .armed →
      exec (.release a v) s = .next (recordErr s pgTxn eTxnState a.func 0x41C))

/-- A staging list is fetched and checked. A returned line joins the record being assembled; a complete valid record is
appended (and the last one opens the slot), an invalid one strikes the bent with TXN_INVALID at its index; a failed or
timed-out host read strikes it with TXN_INVALID at the index of the first record not fetched, held to 255 (log entry
171); the granary does not change. (R66, R68, R79) -/
def Obligations.TxnListFetch : Prop :=
  ∀ (s : State) (n : Nat) (ok : Bool) (data : Bytes), (slot s n).st = .fetching →
    (∀ x s1, s1 = (match choosePort s (slot s n).fetchPort with | some p => countRx s p 64 | none => s) → x = { slot s n with
        fetchBuf := (slot s n).fetchBuf ++ (sub data 0 64).drop ((slot s n).fetchAddr % 64), fetchAddr := 64 * ((slot s n).fetchAddr / 64) + 64 } →
      listReadable s (slot s n) = true → (slot s n).fetchGran = false → ok = true → x.toFetch ≠ 0 →
      (x.fetchBuf.length < 96 → exec (.txnListLineReturn n ok data) s = .next (setSlot s1 n x)) ∧
      (96 ≤ x.fetchBuf.length → x.actions.length < 256 → recOk (setSlot s1 n x) x.owner (x.fetchBuf.take 96) = false → ∃ u,
        exec (.txnListLineReturn n ok data) s = .next u ∧ (slot u n).st = .struck ∧ (slot u n).code = eTxnInvalid ∧
        (slot u n).index = x.actions.length ∧ granary u = granary s) ∧
      (96 ≤ x.fetchBuf.length → x.actions.length < 256 → recOk (setSlot s1 n x) x.owner (x.fetchBuf.take 96) = true → x.toFetch = 1 →
        x.raisePend = false → ∃ u, exec (.txnListLineReturn n ok data) s = .next u ∧ (slot u n).st = .opened ∧
        (slot u n).actions = x.actions ++ [recAction (setSlot s1 n x) x.owner (x.fetchBuf.take 96)] ∧ granary u = granary s)) ∧
    ((slot s n).fetchGran = false → (ok = false ∨ listReadable s (slot s n) = false) → ∃ u, exec (.txnListLineReturn n ok data) s = .next u ∧
      (slot u n).st = .struck ∧ (slot u n).code = eTxnInvalid ∧ (slot u n).index = min 255 (slot s n).actions.length ∧ granary u = granary s) ∧
    ((slot s n).fetchGran = false → ∃ u, exec (.txnListReadTimeout n) s = .next u ∧
      (slot u n).st = .struck ∧ (slot u n).code = eTxnInvalid ∧ (slot u n).index = min 255 (slot s n).actions.length ∧ granary u = granary s)

/-- A bent takes effect whole or not at all. The first armed bent whose actions all pass their checks and which is
acceptable as a whole is applied in one step and becomes RAISED with the epoch it made; one with a failing action
becomes STRUCK with that action's index and code, one not acceptable as a whole with that code and INDEX 0, and the
granary, line versions, retained lines, bays, wains and other slots are then unchanged. (R65, R70, R71, R72, R73) -/
def Obligations.BentTakesEffectOrChangesNothing : Prop :=
  ∀ (s : State) (n : Nat), firstArmed s n = true →
    (firstFail s (slot s n) = none → wholeCode s (slot s n) = 0 → ∃ u, exec (.bentTakeEffect n) s =
        .next (postBentChains (txnDone (showRetain (incr u K.txnRaised 1)) n) (slot s n)) ∧
      u = setSlot (applyBent s (slot s n)) n { slot (applyBent s (slot s n)) n with
        st := .raised, code := 0, epochAt := rd (applyBent s (slot s n)) K.txnEpoch, doneAt := now (applyBent s (slot s n)) }) ∧
    (∀ i c, firstFail s (slot s n) = some (i, c) → ∃ u, exec (.bentTakeEffect n) s = .next u ∧
      (slot u n).st = .struck ∧ (slot u n).code = c ∧ (slot u n).index = i ∧ (∀ m, m ≠ n → slot u m = slot s m) ∧
      granary u = granary s ∧ u.lineVer = s.lineVer ∧ u.retained = s.retained ∧ u.bays = s.bays ∧ u.wains = s.wains) ∧
    (∀ c, firstFail s (slot s n) = none → wholeCode s (slot s n) = c → c ≠ 0 → ∃ u,
      exec (.bentTakeEffect n) s = .next (if c = eTxnCapacity && spanFull u then raiseIrq u pgTxn 17 else u) ∧
      (slot u n).st = .struck ∧ (slot u n).code = c ∧ (slot u n).index = 0 ∧ (∀ m, m ≠ n → slot u m = slot s m) ∧
      granary u = granary s ∧ u.lineVer = s.lineVer ∧ u.retained = s.retained ∧ u.bays = s.bays ∧ u.wains = s.wains)

/-- Storage returns at its retirement epoch. Once TXN_OLDEST has reached an epoch, a page whose reference COUNT is 0 among
those dropped at it is returned and its retained lines are given up, and none later; a page referenced again is not
returned; a stall longer than TXN_RETIRE_WARN raises RETIRE_STALL, a shorter one changes nothing. (R76, R77, R78) -/
def Obligations.RetirementReturnsStorage : Prop :=
  ∀ (s : State),
    (∃ (u : State) (pages : List (Nat × Nat × Nat)), exec .retiredStorageFree s = .next (showRetain (pagesReturn (fwRetry u) pages)) ∧
      rd u K.txnOldest = oldest s % 2 ^ 32 ∧
      (∀ d ∈ s.deferred, atOrAfter (oldest (noteOldest s)) d.epoch = true ∨ d ∈ u.deferred) ∧
      (∀ e, e ∈ pages ↔ ∃ d ∈ s.deferred, atOrAfter (oldest (noteOldest s)) d.epoch = true ∧
        gnum u ((geoOf u d.a).rcAddr d.b) 4 = 0 ∧ e = (d.a, d.b, d.c)) ∧
      (∀ d ∈ u.deferred, d ∈ s.deferred ∧ atOrAfter (oldest (noteOldest s)) d.epoch = false) ∧
      (∀ r, r ∈ u.retained ↔ r ∈ s.retained ∧ atOrAfter (oldest (noteOldest s)) r.epoch = false) ∧
      granary u = granary s ∧ u.bays = s.bays) ∧
    (∀ t, s.stallFrom = some t → t + usCycles (1000 * rf s K.txnRetireWarn 15 0) < s.clock → exec .retireStall s = .next (raiseIrq s pgTxn 17)) ∧
    (∀ t, s.stallFrom = some t → s.clock ≤ t + usCycles (1000 * rf s K.txnRetireWarn 15 0) → exec .retireStall s = .next s) ∧
    (s.stallFrom = none → exec .retireStall s = .next s)

/-- VEC words compute their operation. A VEC word at the head of a running bay that may issue and reads clean operands
writes, from operand D's line on, the codes of exactly its operation's values: add, subtract, multiply, fused
multiply-add, maximum, minimum, the scalar forms, the nine function words, row sums by the fixed tree, row maxima and
argmaxima, tree combination, and conversion. Formats are those up to FP32 without a block-scaled input (FIN 0xD); the
768-bit evaluation of the function words is the model's (log entry 6). (R93, R94, R106, R140, R141, R142, R143, R497) -/
def Obligations.VectorWordsCompute : Prop :=
  ∀ (s : State) (b : Nat) (q : QWord), Issues s b q 5 0 → ReadsClean s b q → vFout q.word.toNat ≤ 4 → vFin q.word.toNat ≠ 0xD →
    (∀ e ∈ ([(.add b 0, 0x01, fun x w => each2 (fun a b => r32 (nadd a b)) (vecA x w) (vecB x w)),
        (.sub b 0, 0x02, fun x w => each2 (fun a b => r32 (nadd a (nneg b))) (vecA x w) (vecB x w)),
        (.mul b 0, 0x03, fun x w => each2 (fun a b => r32 (nmul a b)) (vecA x w) (vecB x w)),
        (.fma b 0, 0x04, fun x w => ((vecA x w).zip ((vecB x w).zip (vecD x w))).map fun t => r32 (nadd (nmul t.1 t.2.1) t.2.2)),
        (.max b 0, 0x05, fun x w => each2 nmax (vecA x w) (vecB x w)),
        (.min b 0, 0x06, fun x w => each2 nmin (vecA x w) (vecB x w)),
        (.muls b 0, 0x07, fun x w => (vecA x w).map fun a => r32 (nmul a (vecS x w))),
        (.adds b 0, 0x08, fun x w => (vecA x w).map fun a => r32 (nadd a (vecS x w))),
        (.exp2 b 0, 0x10, fun x w => (vecA x w).map fExp2), (.log2 b 0, 0x11, fun x w => (vecA x w).map fLog2),
        (.recip b 0, 0x12, fun x w => (vecA x w).map fRecip), (.rsqrt b 0, 0x13, fun x w => (vecA x w).map fRsqrt),
        (.tanh b 0, 0x14, fun x w => (vecA x w).map fTanh), (.gelu b 0, 0x15, fun x w => (vecA x w).map fGelu),
        (.silu b 0, 0x16, fun x w => (vecA x w).map fSilu),
        (.relu b 0, 0x17, fun x w => (vecA x w).map fun v => if isNan v then .nan else if nlt (.fin false 0) v then v else .fin false 0),
        (.rsum b 0, 0x20, fun x w => (chunksOf (vRowlen w) (vCount w) (vecA x w)).map sumLeaves),
        (.rmax b 0, 0x21, fun x w => (chunksOf (vRowlen w) (vCount w) (vecA x w)).map rowMax),
        (.tree b 0, 0x23, fun x w => (List.range (vCount w)).map fun i => dec32 (treeSum ((List.range (vRowlen w)).map fun p =>
          num (bread x (vLine w 0 + p * linesOf (4 * vCount w)) (4 * vCount w)) (4 * i) 4)))] : List (Instr × Nat × (Bay → Nat → List Machine.Num))),
      vVop q.word.toNat = e.2.1 →
      exec e.1 s = .next (vecStored s b q (vecBytes q.word.toNat (e.2.2 (bay (issueHead s b q) b) q.word.toNat)))) ∧
    (vVop q.word.toNat = 0x22 → exec (.argmax b 0) s = .next (vecStored s b q
      (((chunksOf (vRowlen q.word.toNat) (vCount q.word.toNat) (vecA (bay (issueHead s b q) b) q.word.toNat)).map argmaxRow).flatMap
        fun p => toLE 4 p.1 ++ toLE 4 (encNum fp32 p.2)))) ∧
    (vVop q.word.toNat = 0x00 → exec (.cvt b 0) s = .next (vecStored s b q (vecBytes q.word.toNat
      (cvtUnscale (bay (issueHead s b q) b) q.word.toNat (cvtWiden (bay (issueHead s b q) b) q.word.toNat)))))

/-- LOAD and STORE move lines. A LOAD whose lines are allocatable and unpoisoned writes them to the bay store, and
otherwise puts the bay in ERROR with MEM_RANGE or POISON writing nothing; a ZRC LOAD writes the expanded rows; a STORE
queues its lines to the granary, folding each into its fingerprint, and changes no granary byte before
acknowledgement; a ZRC STORE queues the compressed rows. (R26, R121, R122, R172, R487) -/
def Obligations.MoveWords : Prop :=
  ∀ (s : State) (b : Nat) (q : QWord),
    (Issues s b q 1 0 → ((moveLines q.word.toNat).all fun l => allocatable (64 * l) 64) = true → (moveLines q.word.toNat).any s.poison.contains = false →
      exec (.load b) s = .next (boundIssued (setBay (issueHead s b q) b (bwrite (bay (issueHead s b q) b) (mvBline q.word.toNat)
        ((moveLines q.word.toNat).flatMap fun l => greadOf s b (64 * l) 64))) b)) ∧
    (Issues s b q 1 0 → ((moveLines q.word.toNat).all fun l => allocatable (64 * l) 64) = false →
      exec (.load b) s = .next (bayError (dropIssued (issueHead s b q) b) b eMemRange q.addr)) ∧
    (Issues s b q 1 0 → ((moveLines q.word.toNat).all fun l => allocatable (64 * l) 64) = true → (moveLines q.word.toNat).any s.poison.contains = true →
      exec (.load b) s = .next (bayError (dropIssued (issueHead s b q) b) b ePoison q.addr)) ∧
    (∀ rows, Issues s b q 1 1 → ((zrcSlots q.word.toNat).all fun a => allocatable a 64) = true → (zrcSlots q.word.toNat).any (fun a => poisonedIn s a 64) = false →
      (zrcSlots q.word.toNat).mapM (m := Except Nat) (fun a => zrcRead (issueHead s b q) b a (zrcPitch q.word.toNat) (64 * mvRowlines q.word.toNat / zrcSize q.word.toNat) (zrcSize q.word.toNat)) = Except.ok rows →
      exec (.loadZrc b) s = .next (boundIssued (setBay (issueHead s b q) b (bwrite (bay (issueHead s b q) b) (mvBline q.word.toNat) rows.flatten)) b)) ∧
    (Issues s b q 2 0 → ReadsClean s b q → ((moveLines q.word.toNat).all fun l => allocatable (64 * l) 64) = true →
      ∃ u, exec (.store b 0) s = .next u ∧ granary u = granary s ∧
        u = boundIssued (noteOut (((List.range (moveLines q.word.toNat).length).zip (moveLines q.word.toNat)).foldl (fun s e =>
          foldLine (gwrite s b (64 * e.2) (bline (bay s b) (mvBline q.word.toNat + e.1))) (bay s b).owner e.2
            (bline (bay s b) (mvBline q.word.toNat + e.1))) (issueHead s b q)) b false) b) ∧
    (Issues s b q 2 1 → ReadsClean s b q → ∀ rows,
      rows = (List.range (mvRows q.word.toNat)).map (fun r =>
        zrcEncode (elemsOf (zrcSize q.word.toNat) (bread (bay (issueHead s b q) b) (mvBline q.word.toNat + r * mvRowlines q.word.toNat) (64 * mvRowlines q.word.toNat)))) →
      (((zrcSlots q.word.toNat).zip rows).all fun p => allocatable p.1 p.2.length) = true →
      ∃ u, exec (.storeZrc b 0) s = .next u ∧ granary u = granary s ∧
        u = boundIssued (noteOut (((zrcSlots q.word.toNat).zip rows).foldl (fun s p => gwrite s b p.1 p.2) (issueHead s b q)) b false) b)

/-- PRESS and WINNOW form products. A PRESS word accumulates its product over its K elements: without END the bay's store
does not change, with END the output is written and the accumulator emptied; a word refused at issue puts the bay in
ERROR; a WINNOW word with allocatable, unpoisoned reads issues and completes its effect on its own bay only. (R134,
R135, R136, R137, R121) -/
def Obligations.ProductWords : Prop :=
  ∀ (s : State) (b : Nat) (q : QWord),
    (Issues s b q 3 0 → ReadsClean s b q → pressPre s b q.word.toNat = 0 → ∀ x d cs, x = bay (issueHead s b q) b → d = pressDescs x q.word.toNat →
      cs = (matChunks d.1.fmt d.2.fmt (operandRows (bread x) d.1 0 (prM q.word.toNat) (prK q.word.toNat))
        (operandRows (bread x) d.2 0 (prN q.word.toNat) (prK q.word.toNat))).map (fun l => l.map (·.1)) →
      ∃ u, exec (.press b 0) s = .next (boundIssued u b) ∧ granary u = granary s ∧ (∀ c, c ≠ b → bay u c = bay s c) ∧
        (prEnd q.word.toNat = false → (bay u b).acc = some (pressAcc x q.word.toNat d cs) ∧ (bay u b).store = x.store) ∧
        (prEnd q.word.toNat = true → (bay u b).acc = none ∧ (bay u b).store = (pressEnd x (pressAcc x q.word.toNat d cs) (prOut q.word.toNat)
          (postScales (bread x) d.1 0 (prM q.word.toNat)) (postScales (bread x) d.2 0 (prN q.word.toNat))).store)) ∧
    (Issues s b q 3 0 → ReadsClean s b q → pressPre s b q.word.toNat ≠ 0 →
      exec (.press b 0) s = .next (bayError s b (pressPre s b q.word.toNat) q.addr)) ∧
    (Issues s b q 4 0 → ReadsClean s b q → winnowPre s b q.word.toNat = 0 → allocatable (64 * wnDesc q.word.toNat) 64 = true →
      ∀ d, d = winnowDesc (issueHead s b q) b q.word.toNat →
      ((winnowReads d (wnRow0 q.word.toNat) (wnRows q.word.toNat)).all fun r => allocatable r.1 r.2) = true →
      poisonedIn s (64 * wnDesc q.word.toNat) 64 = false →
      (winnowReads d (wnRow0 q.word.toNat) (wnRows q.word.toNat)).any (fun r => poisonedIn s r.1 r.2) = false →
      ∃ u, winnowEff (issueHead s b q) b q = .ok u ∧ exec (.winnow b 0) s = .next (boundIssued u b) ∧ granary u = granary s ∧
        (∀ c, c ≠ b → bay u c = bay s c)) ∧
    (Issues s b q 4 0 → ReadsClean s b q → winnowPre s b q.word.toNat ≠ 0 →
      exec (.winnow b 0) s = .next (bayError s b (winnowPre s b q.word.toNat) q.addr))

/-- SEND, WAIT, TALLY and HALT words. SEND queues one token or credit message for every bay of its range (or one for a
unit), TALLY one add, WAIT only issues; issuing a word takes its awaited tokens and its credits from the counters;
HALT makes the bay HALTED with its code and, where asked, raises the interrupt; SEND does not change the granary.
(R123, R125, R126, R127, R132) -/
def Obligations.MeshAndControlWords : Prop :=
  ∀ (s : State) (b : Nat) (q : QWord),
    (Issues s b q 6 0 → fld q.word.toNat 41 32 = 1023 → exec (.sendToken b) s = .next (send (issueHead s b q)
      { src := b, dst := uGleaner + fld q.word.toNat 67 64, kind := 0, ctr := fld q.word.toNat 55 52, amount := fld q.word.toNat 63 56 })) ∧
    (Issues s b q 6 0 → fld q.word.toNat 41 32 ≠ 1023 → ∃ u, exec (.sendToken b) s = .next u ∧ u.bays = (issueHead s b q).bays ∧ granary u = granary s ∧
      u.mesh = s.mesh ++ (List.range (fld q.word.toNat 51 42 + 1 - fld q.word.toNat 41 32)).map fun i =>
        { src := b, dst := fld q.word.toNat 41 32 + i, kind := 0, ctr := fld q.word.toNat 55 52, amount := fld q.word.toNat 63 56 }) ∧
    (Issues s b q 6 1 → fld q.word.toNat 41 32 ≠ 1023 → ∃ u, exec (.sendCredit b) s = .next u ∧ u.bays = (issueHead s b q).bays ∧ granary u = granary s ∧
      u.mesh = s.mesh ++ (List.range (fld q.word.toNat 51 42 + 1 - fld q.word.toNat 41 32)).map fun i =>
        { src := b, dst := fld q.word.toNat 41 32 + i, kind := 1, ctr := fld q.word.toNat 53 52, amount := fld q.word.toNat 63 56 }) ∧
    (Issues s b q 8 0 → exec (.tally b) s = .next (send (issueHead s b q)
      { src := b, dst := uTally, kind := 2, ctr := fld q.word.toNat 39 32, amount := fld q.word.toNat 55 40 })) ∧
    (Issues s b q 7 0 → exec (.wait b) s = .next (issueHead s b q)) ∧
    (∀ cls op, Issues s b q cls op →
      (∀ c, tok (bay (issueHead s b q) b) c = tok (bay s b) c -
        (((headCond q.word.toNat ++ waitConds q.word.toNat).filter fun d => d.1 == c && d.2.2).map (·.2.1)).sum) ∧
      (∀ p, cred (bay (issueHead s b q) b) p =
        cred (bay s b) p - if p = fld q.word.toNat 26 25 then fld q.word.toNat 30 27 else 0)) ∧
    (Issues s b q 15 0 → ∃ u, (bay u b).st = .halted ∧ (bay u b).hcode = fld q.word.toNat 47 32 ∧ (bay u b).epoch = none ∧
      (bit q.word.toNat 48 = false → exec (.halt b) s = .next (jobsCheck u)) ∧
      (bit q.word.toNat 48 = true → exec (.halt b) s = .next (raiseIrq (jobsCheck u) (bayPage b) 16)))

/-- A bay fetches, refuses, completes and halts. A returned program line joins the prefetch buffer and the queue is
refilled; a refused word at the head puts the bay in ERROR with its code; a completing word leaves the issued list
without changing any store, other bay or the granary; a halting bay with nothing issued becomes HALTED with code 0,
and one in a composite stops at its row with the status of the rows done. (R121, R128, R131, R132) -/
def Obligations.BayQueue : Prop :=
  ∀ (s : State) (b : Nat),
    ((bay s b).st = .running → (bay s b).prefetch.length + (fetchWords s b).length ≤ 512 → (bay s b).fetch < granEnd →
      exec (.programFetchReturn b) s = .next (refill (setBay s b { bay s b with
        prefetch := (bay s b).prefetch ++ fetchWords s b, fetch := 64 * ((bay s b).fetch / 64) + 64 }) b)) ∧
    (∀ q l c, (bay s b).st = .running → (bay s b).halting = false → (bay s b).queue = q :: l → q.refused = some c →
      exec (.refusedWordAtHead b) s = .next (bayError s b c q.addr)) ∧
    (∀ e i, (bay s b).issued.find? (fun i => i.eng == engineNo e) = some i → mayComplete s b (bay s b) i = true → ∃ u,
      exec (.wordComplete b e) s = .next u ∧ (bay u b).issued = dropFirst (fun i => i.eng == engineNo e) (bay s b).issued ∧
      (bay u b).store = (bay s b).store ∧ (∀ c, c ≠ b → bay u c = bay s c) ∧ granary u = granary s) ∧
    ((bay s b).st = .running → (bay s b).halting = true → (bay s b).comp = none → (bay s b).issued = [] →
      ∃ u, exec (.haltComplete b) s = .next (jobsCheck u) ∧ (bay u b).st = .halted ∧ (bay u b).hcode = 0 ∧ (bay u b).epoch = none ∧ granary u = granary s) ∧
    (∀ c, (bay s b).halting = true → (bay s b).comp = some c → exec (.haltComplete b) s = .next (endComposite s b c
      (statusBytes false false true c.poison c.range 0 c.full)))

/-- BAY_RUN, token set and counter clear. GO starts a stopped bay (one HALT_ON_ERR does not hold) at BAY_PROG with empty
queue and pools loaded from BAY_CREDIT_INIT, keeping store and tokens, and records BAY_DISABLED or BAY_BUSY otherwise;
HALT stops issue; CLEAR clears the written bits of a stopped bay; BAY_TOKEN_SET sets one counter; PERF_CLR clears the
counters; no other bay changes. (R43, R126, R132, R148, R150, R151, R152) -/
def Obligations.BayPageCommands : Prop :=
  ∀ (s : State) (a : Access) (b v : Nat),
    (OnBay s a b 0x414 → bit v 0 = true → bit v 1 = false → bit v 2 = false → (bay s b).off = false → (bay s b).st ≠ .running →
      haltedOnErr s (bayPage b) = false → ∃ u, exec (.bayRunGo a v) s = .next u ∧ (bay u b).st = .running ∧ (bay u b).queue = [] ∧
        (bay u b).fetch = 16 * (rd s (K.bayProgLo b) / 16) + 2 ^ 32 * rf s (K.bayProgHi b) 5 0 ∧
        cred (bay u b) 0 = rf s (K.bayCreditInitA b) 11 0 ∧ cred (bay u b) 1 = rf s (K.bayCreditInitA b) 27 16 ∧
        cred (bay u b) 2 = rf s (K.bayCreditInitB b) 11 0 ∧ cred (bay u b) 3 = rf s (K.bayCreditInitB b) 27 16 ∧
        (bay u b).store = (bay s b).store ∧ (bay u b).tokens = (bay s b).tokens ∧ (∀ c, c ≠ b → bay u c = bay s c) ∧ u.regs = s.regs ∧ granary u = granary s) ∧
    (OnBay s a b 0x414 → bit v 0 = true → bit v 1 = false → bit v 2 = false → (bay s b).off = true →
      exec (.bayRunGo a v) s = .next (recordErr s (bayPage b) eBayDisabled a.func 0x414)) ∧
    (OnBay s a b 0x414 → bit v 0 = true → bit v 1 = false → (bay s b).off = false → (bay s b).st = .running →
      exec (.bayRunGo a v) s = .next (recordErr s (bayPage b) eBayBusy a.func 0x414)) ∧
    (OnBay s a b 0x414 → bit v 1 = true → (bay s b).st = .running →
      exec (.bayRunHalt a v) s = .next (setBay s b { bay s b with halting := true })) ∧
    (OnBay s a b 0x414 → bit v 2 = true → bit v 1 = false → bit v 0 = false → (bay s b).st ≠ .running →
      exec (.bayRunClear a v) s = .next (setBay s b { bay s b with written := [], ue := [] })) ∧
    (OnBay s a b 0x418 → bit v 31 = true → ∃ u, exec (.bayTokenSet a v) s = .next u ∧ tok (bay u b) (fld v 3 0) = fld v 27 16 ∧
      (∀ c, c ≠ fld v 3 0 → tok (bay u b) c = tok (bay s b) c) ∧ (∀ c, c ≠ b → bay u c = bay s c) ∧ u.regs = s.regs ∧ granary u = granary s) ∧
    (OnBay s a b 0x10 → bit v 16 = true → exec (.perfClr a v) s = .next (setBay s b { bay s b with perf := [] }))

/-- CONV and ATTN words run row by row. For each of the nine composite words: an issuable word with an acceptable
descriptor starts its composite, an unacceptable one puts the bay in ERROR; a row that succeeds counts and advances
the composite, the last one finishes it, a failing one ends it with the row's code; one that must wait for a halo
token becomes waiting, and a waiting one does nothing until it is resumed. (R133, R162, R168, R169, R207, R208, R211,
R213, R214, R174) -/
def Obligations.CompositesRunRowByRow : Prop :=
  ∀ (s : State) (b : Nat), ∀ e ∈ ([(.convolution, 10, 0, convPre 0, convStart 0, convWorks),
      (.depthwiseConvolution, 10, 1, convPre 1, convStart 1, convWorks), (.maxPooling, 10, 2, convPre 2, convStart 2, convWorks),
      (.averagePooling, 10, 3, convPre 3, convStart 3, convWorks), (.prefill, 9, 0, attPre 0, attStart 0, attWorks attendRow),
      (.decode, 9, 1, attPre 1, attStart 1, attWorks attendRow), (.append, 9, 2, attPre 2, attStart 2, attWorks appendRow),
      (.backward, 9, 3, attPre 3, attStart 3, attWorks backwardRow), (.combine, 9, 4, attPre 4, attStart 4, attWorks combineRow)] :
      List ((Nat → Nat → Instr) × Nat × Nat × (State → Nat → Nat → Nat) × (State → Nat → QWord → Except Nat State) × Works)),
    (∀ q u c, (bay s b).comp = none → Issues s b q e.2.1 e.2.2.1 → e.2.2.2.1 s b q.word.toNat = 0 →
      e.2.2.2.2.1 (issueHead s b q) b q = .ok u → (bay (boundIssued u b) b).comp = some c → c.next < e.2.2.2.2.2.total c →
      exec (e.1 b 0) s = .next (boundIssued u b)) ∧
    (∀ q, (bay s b).comp = none → Issues s b q e.2.1 e.2.2.1 → e.2.2.2.1 s b q.word.toNat ≠ 0 → (bay (bayError s b (e.2.2.2.1 s b q.word.toNat) q.addr) b).comp = none →
      exec (e.1 b 0) s = .next (bayError s b (e.2.2.2.1 s b q.word.toNat) q.addr)) ∧
    (∀ c, (bay s b).comp = some c → c.cls = e.2.1 → c.op = e.2.2.1 → (bay s b).halting = false → c.waiting = false → c.next < e.2.2.2.2.2.total c →
      ∀ t w, (t, w) = e.2.2.2.2.2.wait s b c → ∀ v, v = setBay t b { bay t b with comp := some w } →
      (w.waiting = true → exec (e.1 b 1) s = .next v) ∧
      (∀ u d, w.waiting = false → e.2.2.2.2.2.row v b w = .ok (u, d) → d.next < e.2.2.2.2.2.total d →
        exec (e.1 b 1) s = .next (countRow (setBay u b { bay u b with comp := some d }) b)) ∧
      (∀ u d, w.waiting = false → e.2.2.2.2.2.row v b w = .ok (u, d) → e.2.2.2.2.2.total d ≤ d.next → (bay u b).halting = false →
        exec (e.1 b 1) s = .next (e.2.2.2.2.2.finish (countRow (setBay u b { bay u b with comp := some d }) b) b d)) ∧
      (∀ code, w.waiting = false → e.2.2.2.2.2.row v b w = .error code → exec (e.1 b 1) s = .next (failComposite v b w code))) ∧
    (∀ c, (bay s b).comp = some c → c.cls = e.2.1 → c.op = e.2.2.1 → (bay s b).halting = false → c.waiting = true →
      exec (e.1 b 1) s = .next s)

/-- A waiting CONV resumes at its halo token. A CONV waiting for a halo token resumes its rows once the side's counter is
above 0, and otherwise stays as it is. (R174) -/
def Obligations.ScarfResumes : Prop :=
  ∀ (s : State) (b n : Nat) (k : Composite) (side : Nat), (bay s b).comp = some k → k.waiting = true → (bay s b).halting = false →
    ((convDesc k.op k.body).needs k.took ((convDesc k.op k.body).toFetch k)).head? = some side →
    (0 < tok (bay s b) (if side = 0 then (convDesc k.op k.body).wn else (convDesc k.op k.body).ws) →
      exec (.scarfResume b n) s = .next (runRows convWorks b (max n 1) (setBay s b { bay s b with comp := some { k with waiting := false } }))) ∧
    (tok (bay s b) (if side = 0 then (convDesc k.op k.body).wn else (convDesc k.op k.body).ws) = 0 → exec (.scarfResume b n) s = .next s)

/-- The ramp limiter grants within its allowance. A tick tops up the die's allowance and spends one of it for each press
admitted and each one released, never below 0, and admits and releases only presses that wait for it; with the limiter
idle it starts at tick 0 with no allowance once a press asks, and otherwise nothing changes. (R144, R145, R146) -/
def Obligations.RampGrantsWithinAllowance : Prop :=
  (∀ s : State, s.ramp.on = true → 0 ≤ s.ramp.aG → 0 ≤ s.ramp.bG → ∃ u grants leaves, exec .rampTick s = .next u ∧ granary u = granary s ∧
    u.ramp.aG + (List.length (α := Nat × Nat) grants : Rat) = (topUp s s.ramp.aG s.ramp.aF).a ∧ 0 ≤ u.ramp.aG ∧
    u.ramp.bG + (List.length (α := Nat × Nat) leaves : Rat) = (topUp s s.ramp.bG s.ramp.bF).a ∧ 0 ≤ u.ramp.bG ∧
    (∀ e ∈ grants, e ∈ pressesIn s 1) ∧ (∀ e ∈ leaves, e ∈ pressesIn s 3)) ∧
  (∀ s : State, s.ramp.on = false → pressesIn s 1 = [] → exec .rampTick s = .next s) ∧
  (∀ s : State, s.ramp.on = false → pressesIn s 1 ≠ [] → ∃ u, exec .rampTick s = .next u ∧ u.ramp.on = true ∧ u.ramp.aG = 0 ∧ u.ramp.bG = 0 ∧
    u.ramp.ptr = s.ramp.step.getD s.ramp.counter % nBays ∧ u.bays = s.bays ∧ granary u = granary s)

/-- Functions are enabled, drained, killed and scrubbed. FUNC_ENABLE of a DISABLED function with acceptable resources
starts enabling it and fails with FUNC_BAD_STATE or FUNC_RESOURCE otherwise; FUNC_DISABLE drains or kills; FLR
disables the function's rings, drops its commands and kills an enabled function at once; a drain that is complete or
has timed out kills, and one that is neither goes on; a kill whose units have stopped goes on to scrub the function's
regions, those already begun first. (R300, R301, R311, R312, R313) -/
def Obligations.FunctionLifecycle : Prop :=
  ∀ (s : State) (src f port : Nat) (c : Cmd),
    (Ready s src 0x80 c → namedFunc c = some f → funcState (markStarted s c) f = 0 → resourcesOk (applyResources (markStarted s c) f) f = true →
      exec (.funcEnable src) s = .next (beginEnable (markClash (bumpVer (applyResources (markStarted s c) f) (pgFunc (f - 1))) (pgFunc (f - 1))) f (some c.id))) ∧
    (Ready s src 0x80 c → namedFunc c = some f → funcState (markStarted s c) f ≠ 0 →
      exec (.funcEnable src) s = .next (finish (markStarted s c) c eFuncBadState)) ∧
    (Ready s src 0x80 c → namedFunc c = some f → funcState (markStarted s c) f = 0 → resourcesOk (applyResources (markStarted s c) f) f = false →
      exec (.funcEnable src) s = .next (finish (markStarted s c) c eFuncResource)) ∧
    (Ready s src 0x81 c → arg c 0x11 1 = 0 → namedFunc c = some f → funcState (markStarted s c) f = 2 → exec (.funcDisableDrain src) s =
      .next (startDrain (setTenant (markStarted s c) f { tenant (markStarted s c) f with disableCmds := (tenant (markStarted s c) f).disableCmds ++ [c.id] }) f)) ∧
    (Ready s src 0x81 c → arg c 0x11 1 = 1 → namedFunc c = some f → funcState (markStarted s c) f = 2 ∨ funcState (markStarted s c) f = 3 →
      exec (.funcDisableKill src) s =
      .next (startKill (setTenant (markStarted s c) f { tenant (markStarted s c) f with disableCmds := (tenant (markStarted s c) f).disableCmds ++ [c.id] }) f 2 false)) ∧
    (Ready s src 0x81 c → arg c 0x11 1 = 1 → namedFunc c = some f → funcState (markStarted s c) f = 0 →
      exec (.funcDisableKill src) s = .next (finish (markStarted s c) c eFuncBadState)) ∧
    (portUp s port = true → 1 ≤ f → f ≤ 8 → funcState (relockFunc (dropCommands (disableRings s f) f true) f) f = 2 →
      exec (.flr port f) s = .next (startKill (relockFunc (dropCommands (disableRings s f) f true) f) f 3 true)) ∧
    (1 ≤ f → funcState s f = 3 → Machine.drained s f = true → exec (.funcDrainComplete f) s = .next (startKill s f 1 false)) ∧
    (1 ≤ f → funcState s f = 3 → Machine.drained s f = false → exec (.funcDrainComplete f) s = .next s) ∧
    (1 ≤ f → funcState s f = 3 → (tenant s f).drainStart + usCycles (1000 * rf s (K.funcDrainTimeout (f - 1)) 15 0) ≤ s.clock →
      exec (.funcDrainTimeout f) s = .next (startKill s f 1 false)) ∧
    (1 ≤ f → funcState s f = 3 → s.clock < (tenant s f).drainStart + usCycles (1000 * rf s (K.funcDrainTimeout (f - 1)) 15 0) →
      exec (.funcDrainTimeout f) s = .next s) ∧
    (1 ≤ f → funcState s f = 4 → stopped s f = true → exec (.funcKillDone f) s =
      .next (disabled (setTenant (setFuncState s f 5) f (if (tenant s f).scrub.isEmpty
        then { tenant s f with scrub := regionsOf s f, scrubbed := 0 }
        else { tenant s f with scrub := (tenant s f).begun ++ (tenant s f).scrub.take 1, scrubbed := 0,
                               held := (tenant s f).begun ++ (tenant s f).scrub.take 1 })) f))

/-- Heartbeats request the claim. A PCIe heartbeat (written as two words or as one 8-byte value) or an acceptable
management heartbeat with a valid identity requests the claim it carries; generation 0 or a wrong identity does not; a
frame that is not acceptable is counted in MGMT_DROP; a claim at or below the present one changes nothing, a higher
one is accepted once its host has settled and counted in CLAIM_EARLY before. (R318, R319, R320, R324, R329) -/
def Obligations.HeartbeatRequestsClaim : Prop :=
  ∀ (s : State) (a : Access) (pl : Place) (k mac v claim : Nat) (f : Bytes), k < 2 →
    (∀ a' pl', Reaches s a pl → pl.page = pgClaim → pl.off = 0x84 + 0x40 * k → Reaches s a' pl' → pl'.page = pgClaim → pl'.off = 0x80 + 0x40 * k →
      a'.port = a.port → claim = (host s k).hbLo + 2 ^ 32 * (v % 2 ^ 32) → claim < 2 ^ 64 → exec (.hbHi a' true claim) s = exec (.hbHi a false v) s) ∧
    (Reaches s a pl → pl.page = pgClaim → pl.off = 0x84 + 0x40 * k → claim = (host s k).hbLo + 2 ^ 32 * (v % 2 ^ 32) →
      ∀ s0, s0 = wiringSeen (setHost s k { host s k with port := a.port }) k a.port →
      (generation claim = 0 → exec (.hbHi a false v) s = .next s0) ∧
      (generation claim ≠ 0 → idOk s0 k (claim % 256) = false →
        exec (.hbHi a false v) s = .next (recordErr s0 pgClaim eClaimHost 0 (0x84 + 0x40 * k))) ∧
      (generation claim ≠ 0 → idOk s0 k (claim % 256) = true → exec (.hbHi a false v) s = .next
        (requestClaim (arrives (wf s0 (K.claimHost k) 8 0 (256 + claim % 256)) k 0 (some claim)) k claim))) ∧
    (mgmtUp s k = true → claim = num f 8 8 → frameOk s k mac 1 f = true → generation claim ≠ 0 → idOk s k (claim % 256) = true →
      exec (.heartbeat k mac f) s = .next
        (requestClaim (arrives (wf (takeFrame s k mac f) (K.claimHost k) 8 0 (256 + claim % 256)) k 1 (some claim)) k claim)) ∧
    (mgmtUp s k = true → claim = num f 8 8 → (frameOk s k mac 1 f = false ∨ generation claim = 0 ∨ idOk s k (claim % 256) = false) →
      exec (.heartbeat k mac f) s = .next (satIncr s (K.mgmtDrop k) 1)) ∧
    (claim ≤ claimA s → requestClaim s k claim = s) ∧
    (claimA s < claim → settled s k = true → requestClaim s k claim = acceptClaim s k claim) ∧
    (claimA s < claim → settled s k = false → requestClaim s k claim = incr s (K.claimEarly k) 1)

/-- Silent paths and a silent controller. Each liveness tick records, for each host, the paths that have gone silent: with
another path still live it posts that, and with none left and the host holding the claim it marks the controller
silent and raises the interrupt; with no silent path nothing changes; heartbeats are sent while powered. (R322, R323,
R324, R325) -/
def Obligations.LivenessOfHosts : Prop :=
  ∀ (s : State),
    (exec .livenessTick s = .next (silentRecord (silentRecord s 0) 1)) ∧
    (s.tray.hs ≠ .unpowered → exec .heartbeatTimer s = .next (sendHeartbeats s)) ∧
    (s.tray.hs = .unpowered → exec .heartbeatTimer s = .next s) ∧
    (∀ k, pathSilent s k 0 = false → pathSilent s k 1 = false → silentRecord s k = s) ∧
    (∀ k p s1, p < 2 → pathSilent s k p = true → pathSilent s k (1 - p) = false →
      s1 = showSplit (wr64 (setPathLive s k p false) (reportKey k p) 0) →
      (pathLive s1 k 0 || pathLive s1 k 1) = true → silentRecord s k = claimEvent s1 5 k 0 0 0) ∧
    (∀ k p s1 s2, p < 2 → pathSilent s k p = true → pathSilent s k (1 - p) = false →
      s1 = showSplit (wr64 (setPathLive s k p false) (reportKey k p) 0) → (pathLive s1 k 0 || pathLive s1 k 1) = false →
      s2 = setHost s1 k { host s1 k with liveSince := none } → claimA s2 ≠ 0 → holder s2 = k →
      silentRecord s k = claimEvent (raiseIrq (wf s2 K.claimState 1 0 2) pgClaim 17) 3 k eControllerSilent 0 0)

/-- Management requests, RELEARN and link changes. An acceptable REQUEST frame becomes a command record that its checks
may refuse at once, another is dropped and counted; MGMT RELEARN under the claim forgets the learned hosts and
otherwise records the refusal; a link change shows in MGMT_LINK and counts a fall. (R326, R328, R329, R330) -/
def Obligations.ManagementFrames : Prop :=
  ∀ (s : State) (a : Access) (pl : Place) (k mac v : Nat) (f : Bytes) (up pol : Bool) (c : Cmd) (s1 : State), k < 2 →
    (mgmtUp s k = true → frameOk s k mac 3 f = true → s1 = arrives (takeFrame s k mac f) k 1 none →
      c = { id := s1.nextId, src := 0x100 + k, body := sub (fBody f) 0 64 } →
      ∀ s2, s2 = { s1 with cmds := s1.cmds ++ [c], nextId := s1.nextId + 1 } →
      (requestCode s2 c.src c.body = 0 → exec (.request k mac f) s = .next s2) ∧
      (requestCode s2 c.src c.body ≠ 0 → exec (.request k mac f) s = .next (finish s2 c (requestCode s2 c.src c.body)))) ∧
    (mgmtUp s k = true → frameOk s k mac 3 f = false → exec (.request k mac f) s = .next (dropFrame s k)) ∧
    (Reaches s a pl → pl.page = pgMgmt → pl.off = 0x48 → s1 = storeReg s pl.key v →
      (bit v 1 = false → exec (.relearn a v) s = .next s1) ∧
      (bit v 1 = true → claimCode s1 (claimKey s1 a.port) = 0 →
        exec (.relearn a v) s = .next (wf (wf s1 (K.claimHost 0) 8 0 0) (K.claimHost 1) 8 0 0)) ∧
      (bit v 1 = true → claimCode s1 (claimKey s1 a.port) ≠ 0 → exec (.relearn a v) s = .next
        (recordErr (refuseAct s1 (claimKey s1 a.port) (claimCode s1 (claimKey s1 a.port)) 0) pgMgmt
          (claimCode s1 (claimKey s1 a.port)) a.func 0x48))) ∧
    (s.tray.hs ≠ .unpowered → exec (.mgmtLinkChange k up pol) s = .next (wr s (K.mgmtLink k) (b2n up + 2 * b2n (up && pol) +
      2 ^ 16 * (if mgmtUp s k && !up then (rf s (K.mgmtLink k) 31 16 + 1) % 2 ^ 16 else rf s (K.mgmtLink k) 31 16))))

/-- Partitions and fence certificates. WIRING_PLAN runs the wiring check; PART_SETUP with a good record outside a
partition installs it with fence state and table reset, a bad record completes PART_PARAM, a poisoned one POISON;
PART_LEAVE erases partition, keys and fence table, or completes PART_STATE while FENCING; FENCE_CERT keeps the
certificate for checking, POISON if it is poisoned, a refused one completes its code, an accepted one starts fencing
or unfences; when the fencing steps are done the module is FENCED with its sequence number in flash, and until then
nothing changes. (R417, R418, R419, R421, R422, R423, R439) -/
def Obligations.PartitionsAndFencing : Prop :=
  (∀ (s : State) (src : Nat) (c : Cmd) (s0 : State) (b : Bytes), s0 = markStarted s c →
    (Ready s src 0xB8 c → arg c 0x12 1 ≤ 1 ∨ arg c 0x12 1 = 0xFF → exec (.wiringPlan src) s = .next
      (finish (wiringCheck (let t := wf s0 K.wiringState 7 0 (arg c 0x10 1 + 64 + 128 * arg c 0x11 1)
        { t with wiring := { t.wiring with plan := arg c 0x12 1 } })) c 0)) ∧
    (Ready s src 0xB0 c → allocatable (arg c 0x10 8) 0x350 = true → poisonedIn s0 (arg c 0x10 8) 0x350 = false → b = gread s0 (arg c 0x10 8) 0x350 →
      partRecordOk b = true → (fenceState s0 = 0 ∧ partOf s0 = 0) → ∃ t, exec (.partSetup src) s = .next (finish (postFence (unfence (raiseIrq t pgFence 16)) 4 0 0) c 0) ∧
        t.flash.part = num b 0 2 ∧ t.flash.keys = recordKeys b ∧ t.flash.fenceState = 0 ∧ t.flash.fenceSeq = 0 ∧ t.flash.fenceTable = []) ∧
    (Ready s src 0xB0 c → allocatable (arg c 0x10 8) 0x350 = true → poisonedIn s0 (arg c 0x10 8) 0x350 = true →
      exec (.partSetup src) s = .next (finish s0 c ePoison)) ∧
    (Ready s src 0xB0 c → allocatable (arg c 0x10 8) 0x350 = true → poisonedIn s0 (arg c 0x10 8) 0x350 = false →
      partRecordOk (gread s0 (arg c 0x10 8) 0x350) = false → exec (.partSetup src) s = .next (finish s0 c ePartParam)) ∧
    (Ready s src 0xB1 c → fenceState s0 = 0 → (List.range 256).any (fun t => tMode s0 t == 2) = false →
      [1, 2, 3].contains (shadowSt s0) = false → ∃ t, exec (.partLeave src) s = .next (finish (postFence (unfence (raiseIrq t pgFence 16)) 5 0 0) c 0) ∧
        t.flash.part = 0 ∧ t.flash.keys = [] ∧ t.flash.fenceState = 0 ∧ t.flash.fenceTable = [] ∧ t.flash.restartJoin = false) ∧
    (Ready s src 0xB1 c → fenceState s0 = 1 → exec (.partLeave src) s = .next (finish s0 c ePartState))) ∧
  (∀ (s : State) (src : Nat) (c : Cmd) (s0 : State) (j : CertJob) (rest : List CertJob) (cmd : Nat),
    (Ready s src 0xB2 c → s0 = markStarted s c → allocatable (arg c 0x10 8) 0x40 = true →
      ∀ n, n = 0x40 + 112 * min 8 (num (gread s0 (arg c 0x10 8) 0x40) 5 1) → allocatable (arg c 0x10 8) n = true →
      (poisonedIn s0 (arg c 0x10 8) n = false → exec (.fenceCert src) s = .next
        { s0 with certs := s0.certs ++ [{ cert := gread s0 (arg c 0x10 8) n, cmd := c.id }] }) ∧
      (poisonedIn s0 (arg c 0x10 8) n = true → exec (.fenceCert src) s = .next (finish s0 c ePoison))) ∧
    (s.certs = j :: rest → s0 = { s with certs := rest } → s.cmds.any (·.id == j.cmd) = true →
      (certCode s0 j.cert ≠ 0 → exec .fenceCertChecked s = .next (finishId (postFence s0 3 0 (certCode s0 j.cert)) j.cmd (certCode s0 j.cert))) ∧
      (certCode s0 j.cert = 0 → num j.cert 4 1 = 1 → exec .fenceCertChecked s = .next (startFencing s0 j.cmd)) ∧
      (certCode s0 j.cert = 0 → num j.cert 4 1 = 2 → exec .fenceCertChecked s = .next (doUnfence s0 j.cmd))) ∧
    (s.fencing = some cmd → fenceState s = 1 → fencedDone s = true →
      s0 = setSys (wf { s with fencing := none } K.fenceState 1 0 2) 5 → exec .fenced s = .next
        (finishId (postFence (raiseIrq { s0 with flash := { s0.flash with fenceState := 2, fenceSeq := rd s0 K.fenceSeq } } pgFence 16) 1 0 0) cmd 0)) ∧
    (s.fencing = none ∨ fencedDone s = false → exec .fenced s = .next s))

/-- BAR2 accesses the granary. On a link narrower than x8, before service, for a function not enabled on the port, or past
BAR2's size a write is dropped and a read completes with Unsupported Request; a range outside the function's window
records MEM_RANGE; a write queues its bytes, a read of poisoned bytes answers poisoned data, and a clean read answers
the granary's bytes as the port's own writes order them; a fenced requester's write is dropped and its read
unsupported. (R291, R292, R294, R295, R418, R487) -/
def Obligations.HostMemoryWindow : Prop :=
  ∀ (s : State) (p f rid off x : Nat) (data : Bytes), f ≤ 8 → data ≠ [] →
    ((port s p).narrow = true → portUp s p = false → exec (.bar2Access p f rid off true data) s = .next s ∧
      exec (.bar2Access p f rid off false data) s = .next (emit s (.unsupported p f off))) ∧
    (portUp s p = true → (serving s = false ∨ vfHere s p f = false ∨ bar2Size s p f < off + data.length) →
      exec (.bar2Access p f rid off true data) s = .next s ∧
      exec (.bar2Access p f rid off false data) s = .next (emit s (.unsupported p f off))) ∧
    (portUp s p = true → serving s = true → vfHere s p f = true → off + data.length ≤ bar2Size s p f →
      ((f = 0 → fenceRefuses s p rid = false) → bar2Addr s p f off data.length = none →
        exec (.bar2Access p f rid off true data) s = .next (recordErr s (pgPort p) eMemRange f 0) ∧
        exec (.bar2Access p f rid off false data) s = .next (emit (recordErr s (pgPort p) eMemRange f 0) (.unsupported p f off))) ∧
      ((f = 0 → fenceRefuses s p rid = false) → bar2Addr s p f off data.length = some x →
        exec (.bar2Access p f rid off true data) s = .next (gwrite (countRx s p data.length) (uHost p) x data)) ∧
      ((f = 0 → fenceRefuses s p rid = false) → bar2Addr s p f off data.length = some x → poisonedIn s x data.length = true →
        exec (.bar2Access p f rid off false data) s = .next (emit s (.poisonedData p f off))) ∧
      ((f = 0 → fenceRefuses s p rid = false) → bar2Addr s p f off data.length = some x → poisonedIn s x data.length = false →
        exec (.bar2Access p f rid off false data) s = .next (emit (countTx s p data.length) (.readData p f off (greadOf s (uHost p) x data.length)))) ∧
      (f = 0 → fenceRefuses s p rid = true →
        exec (.bar2Access p f rid off true data) s = .next (fenceDrop s p rid) ∧
        exec (.bar2Access p f rid off false data) s = .next (emit (fenceDrop s p rid) (.unsupported p f off))))

/-- Shadows join and follow the mirror ring. SHADOW_ELDER and SHADOW_JOIN with good operands and a peer that answers begin
the relation, a bad peer completes SHADOW_PARAM, SHADOW_END marks it ending; a shadow applies the next well-formed
record of its ring in order, reports its consumed offset, and becomes LOST after 1 s without a record, telling the
elder, and not before. How the peer answers is an operand (log entries 17, 195). (R425, R426, R429, R435) -/
def Obligations.ShadowJoining : Prop :=
  (∀ (s : State) (src : Nat) (c : Cmd) (s0 : State), s0 = markStarted s c →
    (∀ serial, Ready s src 0xB3 c → shadowOk s0 (arg c 0x10 1) true true = true → exec (.shadowElder src (some serial)) s = .next
      (finish (beginShadow s0 1 { func := arg c 0x10 1, host := arg c 0x18 8, ring := arg c 0x20 8, serial := serial }) c 0)) ∧
    (Ready s src 0xB3 c → exec (.shadowElder src none) s = .next (finish s0 c eShadowParam)) ∧
    (Ready s src 0xB4 c → shadowOk s0 (arg c 0x10 1) true false = true → allocatable (arg c 0x20 8) mirrorSize = true → arg c 0x20 8 % 64 = 0 →
      exec (.shadowJoin src true) s = .next (finish (beginShadow s0 2
        { func := arg c 0x10 1, elderFunc := arg c 0x11 1, serial := arg c 0x18 8, ring := arg c 0x20 8, heard := s0.clock }) c 0)) ∧
    (Ready s src 0xB4 c → exec (.shadowJoin src false) s = .next (finish s0 c eShadowParam)) ∧
    (Ready s src 0xB5 c → [1, 2, 3].contains (shadowSt s0) = true → s0.shadow.func = arg c 0x10 1 → s0.shadow.endCmd = none →
      exec (.shadowEnd src) s = .next { s0 with shadow := { s0.shadow with ending := true, endCmd := some c.id } })) ∧
  (∀ (s : State) (h : Bytes), 
    (h = ringRead s (s.shadow.consumed % mirrorSize) 32 → shadowSt s = 2 ∨ shadowSt s = 3 → s.joinWait = false →
      1 ≤ num h 0 1 → num h 0 1 ≤ 4 → s.shadow.lastRec ≤ num h 0x10 8 → num h 4 4 + 32 ≤ mirrorSize →
      exec .shadowApply s = .next (applyRecord { s with shadow := { s.shadow with
        consumed := s.shadow.consumed + 64 * cdiv (32 + num h 4 4) 64, lastRec := num h 0x10 8, heard := s.clock } }
        (num h 0 1) (num h 8 8) (ringRead s (s.shadow.consumed % mirrorSize + 32) (num h 4 4)))) ∧
    (shadowSt s = 2 ∨ shadowSt s = 3 → fenceState s = 0 → exec .mirrorAckTimer s = .next
      (emit s (.peer s.shadow.serial (tallyMsg s 4 0 0 0 (s.shadow.consumed % mirrorSize / 64) [])))) ∧
    (shadowSt s = 2 ∨ shadowSt s = 3 → s.shadow.heard + usCycles 1000000 ≤ s.clock → exec .shadowLost s = .next
      (tellElder (Machine.shadowLost s) 8 eShadowLost 0 0 0 0)) ∧
    (s.clock < s.shadow.heard + usCycles 1000000 → exec .shadowLost s = .next s))

/-- Tallies count, fire and stall. TALLY_ADD adds to the selected counter; a LOCAL counter fires exactly when its COUNT
has reached its TARGET and a TREE counter that is not the root when DOWN has come; a fire has its effects and a
counter that may not fire changes nothing; a TREE counter waiting TALLY_STALL_MS posts TALLY_STALL once. (R432, R433,
R434, R436) -/
def Obligations.TallyFires : Prop :=
  ∀ (s : State) (a : Access) (pl : Place) (c v : Nat),
    (Reaches s a pl → pl.page = pgTally → pl.off = 0x6C → exec (.tallyAdd a v) s = .next
      (addTally s (rd s (K.tallySelOf a.func) % 256) a.func (fld v 15 0) 0x6C)) ∧
    (c < 256 → serving s = true → mayFire s c = true → exec (.tallyFire c) s = .next (fireTally s c)) ∧
    (mayFire s c = false → exec (.tallyFire c) s = .next s) ∧
    (tMode s c = 1 → mayFire s c = decide (rd s (K.tallyTarget c) ≤ rd s (K.tallyCount c))) ∧
    (tMode s c = 2 → tRoot s c = false → mayFire s c = s.tallyDown.contains c) ∧
    (tMode s c = 2 → rf s K.tallyStallMs 15 0 ≠ 0 → (sinceOf s c).1 ≠ 0 → (sinceOf s c).2 = false →
      (sinceOf s c).1 + usCycles (1000 * rf s K.tallyStallMs 15 0) ≤ s.clock → exec (.tallyStall c) s = .next
        (postFence (raiseIrq (setSince s c ((sinceOf s c).1, true)) pgTally 16) 9 c eTallyStall)) ∧
    (rf s K.tallyStallMs 15 0 = 0 → exec (.tallyStall c) s = .next s)

/-- TALLY_IN messages and global operations. A message from a fenced requester is dropped; a malformed one is TALLY_BAD;
UP records the child's report and may fire the tree, DOWN fires a non-root counter, DATA goes up the tree and is
broadcast down, MIRROR_ACK moves the consumed offset; SNAPSHOT waits for its step or completes PART_PARAM,
GLOBAL_RESET arms the reset at the counter's fire. (R420, R434, R435, R437) -/
def Obligations.TallyMessages : Prop :=
  (∀ (s : State) (p rid off : Nat) (b : Bytes), portUp s p = true → serving s = true → 0xC00 ≤ off → off < 0x1000 →
    (fenceRefuses s p rid = true → ∀ i, i = Instr.up p rid off b ∨ i = .down p rid off b ∨ i = .data p rid off b ∨ i = .mirrorAck p rid off b →
      exec i s = .next (fenceDrop s p rid)) ∧
    (fenceRefuses s p rid = false → (b.length ≠ 64 ∨ off % 64 ≠ 0 ∨ msgOk s b = false) →
      ∀ i, i = Instr.up p rid off b ∨ i = .down p rid off b ∨ i = .data p rid off b ∨ i = .mirrorAck p rid off b →
      exec i s = .next (tallyBad s 0 off)) ∧
    (fenceRefuses s p rid = false → b.length = 64 → off % 64 = 0 → msgOk s b = true → ∀ s0, s0 = countRx s p 64 →
      (num b 0 1 = 1 → num b 2 1 < 16 → exec (.up p rid off b) s = .next
        (treeUpdate (setBit s0 (K.tallyUp (num b 1 1)) (num b 2 1) true) (num b 1 1))) ∧
      (num b 0 1 = 2 → tRoot s0 (num b 1 1) = false → s0.tallyDown.contains (num b 1 1) = false → exec (.down p rid off b) s = .next
        { s0 with tallyDown := s0.tallyDown ++ [num b 1 1] }) ∧
      (num b 0 1 = 3 → (bit (num b 3 1) 0 = true ∨ tRoot s0 (num b 1 1) = true) → exec (.data p rid off b) s = .next
        (sendDown (takeRecord s0 (num b 1 1) (sub b 0x20 32)) (num b 1 1) 3 1 (sub b 0x20 32))) ∧
      (num b 0 1 = 3 → bit (num b 3 1) 0 = false → tRoot s0 (num b 1 1) = false → exec (.data p rid off b) s = .next
        (sendParent s0 (num b 1 1) 3 0 (sub b 0x20 32))) ∧
      (num b 0 1 = 4 → exec (.mirrorAck p rid off b) s = .next { s0 with shadow := { s0.shadow with
        consumed := s0.shadow.consumed + (64 * num b 4 4 + mirrorSize - s0.shadow.consumed % mirrorSize) % mirrorSize } }))) ∧
  (∀ (s : State) (src : Nat) (c : Cmd) (s0 : State), s0 = markStarted s c →
    (Ready s src 0xB6 c → rd64 s0 K.srvStepLo ≤ arg c 0x20 8 → arg c 0x11 1 ≤ 8 → arg c 0x12 1 < 32 → exec (.snapshot src) s = .next
      { s0 with tallyWaits := s0.tallyWaits ++ [{ kind := 0, ctr := arg c 0x10 1, cmd := c.id, step := arg c 0x20 8, func := arg c 0x11 1, wain := arg c 0x12 1, dest := arg c 0x18 8 }] }) ∧
    (Ready s src 0xB6 c → arg c 0x20 8 < rd64 s0 K.srvStepLo → exec (.snapshot src) s = .next (finish s0 c ePartParam)) ∧
    (Ready s src 0xB7 c → exec (.globalReset src) s = .next
      (addFirmware { s0 with tallyWaits := s0.tallyWaits ++ [{ kind := 2, ctr := arg c 0x10 1, cmd := c.id }] } (arg c 0x10 1) 1)))

/-- Power pools share a total. PWR_POOL with legal members joins with a share that divides the total, first members taking
the remainder, and completes PWR_RANGE otherwise; each round broadcasts the member's record once per boundary, with
PWR_CPI the share of the period spent waiting (0 in the first); a missing record after 2 ms counts a missed round,
three make the pool STALE; a share that rises is applied at its time. (R400, R401, R402) -/
def Obligations.PowerPools : Prop :=
  ∀ (s : State) (src b t w : Nat) (c : Cmd) (s0 : State) (p i n k : Nat),
    (Ready s src 0x91 c → s0 = markStarted s c → p = arg c 0x10 4 → i = arg c 0x14 1 → n = arg c 0x15 1 → k = arg c 0x16 1 → p ≠ 0 →
      (2 ≤ n → n ≤ 64 → i < n → 250 * n ≤ p → tOwner s0 k = 0 → ∃ u, exec (.pwrPool src) s = .next (finish (setShare u (p / n + (if i < p % n then 1 else 0))) c 0) ∧
        u.power.poolTotal = p ∧ u.power.poolFirst = true ∧ u.power.poolMissed = 0) ∧
      (n < 2 ∨ 64 < n ∨ n ≤ i ∨ p < 250 * n ∨ tOwner s0 k ≠ 0 → exec (.pwrPool src) s = .next (finish s0 c ePwrRange))) ∧
    (inPool s = true → s.power.poolBoundary ≠ some (poolPeriod s) → ∃ u, exec .poolRound s = .next
      (addFirmware (broadcast u (poolCounter u) (toLE 2 (if s.power.poolFirst then 0 else waitShare s) ++ toLE 2 (rf u K.pwrBounds 9 0)
        ++ toLE 2 (min (rf u K.pwrCap 9 0) (rf u K.pwrBounds 25 16)) ++ toLE 2 (rf u K.pwrShare 9 0) ++ toLE 1 (poolIndex u))) (poolCounter u) 1) ∧
      rd u K.pwrCpi = waitShare s ∧ u.power.waited = 0 ∧ u.power.poolRecs = [] ∧ u.power.poolDone = false ∧ u.power.poolBoundary = some (poolPeriod s)) ∧
    (s.power.poolBoundary = some b → inPool s = true → s.power.poolDone = false → s.power.poolRecs.length < poolMembers s →
      10000000 * b + 2000000 ≤ mtimeNs s → exec .poolRecordTimeout s = .next
        { s with power := { s.power with poolDone := true, poolMissed := s.power.poolMissed + 1 } }) ∧
    (inPool s = true → 3 ≤ s.power.poolMissed → bit (rd s K.pwrState) 5 = false → exec .poolStale s = .next
      (postThermal (setBit s K.pwrState 5 true) 13 15 ePoolStale (rf s K.pwrShare 9 0))) ∧
    (s.power.poolMissed < 3 → exec .poolStale s = .next s) ∧
    (s.power.poolRise = some (w, t) → t ≤ s.clock → exec .poolShareRise s = .next
      (setShare { s with power := { s.power with poolRise := none } } w)) ∧
    (s.power.poolRise = some (w, t) → s.clock < t → exec .poolShareRise s = .next s)

/-- Rings and doorbells. Enabling a submission ring empties it, changing an enabled ring records RING_STATE and a bad size
CMD_RESERVED; event rings are enabled and disabled by their CFG; a submission doorbell of an enabled ring in range
sets the tail and remembers its port, and records RING_STATE, DOORBELL_BAD or the doorbell's code otherwise; an
event-head doorbell frees entries, and with ARM sets ARMED and interrupts a non-empty ring. (R297, R303, R304, R305,
R308) -/
def Obligations.RingsAndDoorbells : Prop :=
  ∀ (s : State) (a : Access) (f n o v off : Nat),
    (ringAccess s a = some (f, o) → o = 0x108 + 16 * n → n < 16 → 4 ≤ fld v 3 0 → fld v 3 0 ≤ 12 →
      (bit (rd s (K.sqCfg f n)) 16 = false → bit v 16 = true → exec (.sqCfgWrite a v) s = .next
        (let t := wr s (K.sqCfg f n) (Nat.land v 0xF0F)
         setSqr (setBit (wr t (K.sqHead f n) 0) (K.sqCfg f n) 16 true) f n { lastPort := (sqr t f n).lastPort })) ∧
      (bit (rd s (K.sqCfg f n)) 16 = true → bit v 16 = true → Nat.land (rd s (K.sqCfg f n)) 0xF0F ≠ Nat.land v 0xF0F →
        exec (.sqCfgWrite a v) s = .next (recordErr s (ringPage f) eRingState f o))) ∧
    (ringAccess s a = some (f, o) → o = 0x108 + 16 * n → n < 16 → (fld v 3 0 < 4 ∨ 12 < fld v 3 0) →
      exec (.sqCfgWrite a v) s = .next (recordErr s (ringPage f) eCmdReserved f o)) ∧
    (ringAccess s a = some (f, o) → o = 0x208 + 16 * n → n < 16 → 6 ≤ fld v 4 0 → fld v 4 0 ≤ 16 → fld v 17 16 ≠ 3 → (f = 0 ∨ fld v 15 8 < 64) →
      (bit (rd s (K.eqCfg f n)) 24 = false → bit v 24 = true → exec (.eqCfgWrite a v) s = .next
        (enableEq (wr s (K.eqCfg f n) (Nat.land v 0x3FF1F)) f n)) ∧
      (bit (rd s (K.eqCfg f n)) 24 = true → bit v 24 = false → exec (.eqCfgWrite a v) s = .next
        (wr (disableEq s f n) (K.eqCfg f n) (Nat.land v 0x3FF1F)))) ∧
    (doorbellAt s a 0x300 0x1000 = some (n, off) → n < 16 →
      (doorbellCode s a.func = 0 → sqEnabled s a.func n = true → fld v 15 0 < sqSize s a.func n → exec (.sqDoorbell a v) s = .next
        (setSqr s a.func n { tail := fld v 15 0, lastPort := a.port, stopped := false })) ∧
      (doorbellCode s a.func = 0 → sqEnabled s a.func n = false → exec (.sqDoorbell a v) s = .next
        (recordErr s (ringPage a.func) eRingState a.func off)) ∧
      (doorbellCode s a.func = 0 → sqEnabled s a.func n = true → sqSize s a.func n ≤ fld v 15 0 → exec (.sqDoorbell a v) s = .next
        (recordErr s (ringPage a.func) eDoorbellBad a.func off)) ∧
      (doorbellCode s a.func ≠ 0 → exec (.sqDoorbell a v) s = .next
        (recordErr s (ringPage a.func) (doorbellCode s a.func) a.func off))) ∧
    (doorbellAt s a 0x340 0x2000 = some (n, off) → n < 16 → doorbellCode s a.func = 0 → eqEnabled s a.func n = true →
      fld v 15 0 < eqSize s a.func n → ∀ s0, s0 = passBatches (setEqr s a.func n { eqr s a.func n with head := fld v 15 0, lastPort := a.port }) a.func n →
      (bit v 31 = false → exec (.eqHeadDoorbell a v) s = .next (flushRing s0 a.func n)) ∧
      (bit v 31 = true → ∀ s1, s1 = setEqr s0 a.func n { eqr s0 a.func n with armed := true } →
        (unread s1 a.func n = 0 → exec (.eqHeadDoorbell a v) s = .next (flushRing s1 a.func n)) ∧
        (unread s1 a.func n ≠ 0 → exec (.eqHeadDoorbell a v) s = .next (flushRing (ringIrq s1 a.func n) a.func n))))

/-- Command records are fetched. A fetched record advances the head, reserves its completion's entry, joins the commands
with its ring and is mirrored; then records of the ring that complete at fetch, refused ones and NOP, complete in
fetch order; a record that a fence or reset holds waits; a fetch that fails stops the ring with CMD_FETCH; a ring with
nothing to fetch changes nothing. (R301, R303, R305, R426) -/
def Obligations.CommandRecordsAreFetched : Prop :=
  ∀ (s : State) (src f n p : Nat) (body : Bytes) (c : Cmd) (s0 : State),
    (mayFetch s f n = true → portUp s 0 = true ∨ portUp s 1 = true → choosePort s (sqr s f n).lastPort = some p →
      exec (.commandFetchReturn f n body) s = .next (takeCommand (countRx s p 64) f n (sub body 0 64))) ∧
    (∀ head e t, head = (rd s (K.sqHead f n) + 1) % sqSize s f n → e = rf s (K.sqCfg f n) 11 8 →
      t = setEqr (wr s (K.sqHead f n) head) f e { eqr s f e with reserved := (eqr s f e).reserved + 1 } →
      c = { id := t.nextId, src := 16 * f + n, body := body, sqHead := head, eq := e } →
      s0 = mirror { t with cmds := t.cmds ++ [c], nextId := t.nextId + 1 } f 2 0 body →
      takeCommand s f n body = settleFetch s0.cmds.length s0 (16 * f + n)) ∧
    (s.cmds.find? (fun c => c.src == src && (fetchCode src c.body != 0 || cmdOp c == 0)) = none → exec (.nop src) s = .next s) ∧
    (s.cmds.find? (fun c => c.src == src && (fetchCode src c.body != 0 || cmdOp c == 0)) = some c →
      (fetchCode src c.body ≠ 0 → exec (.nop src) s = .next (settleFetch (s.cmds.length - 1) (finish s c (fetchCode src c.body)) src)) ∧
      (fetchCode src c.body = 0 → fenceHeld s c = false →
        exec (.nop src) s = .next (settleFetch (s.cmds.length - 1) (finish s c (gateCode s src 0)) src)) ∧
      (fetchCode src c.body = 0 → fenceHeld s c = true → exec (.nop src) s = .next s)) ∧
    (mayFetch s f n = true → exec (.cmdFetch f n) s = .next
      (recordErr (setSqr s f n { sqr s f n with stopped := true }) (ringPage f) eCmdFetch f (0x100 + 16 * n))) ∧
    (mayFetch s f n = false → exec (.commandFetchReturn f n body) s = .next s ∧ exec (.cmdFetch f n) s = .next s)

/-- PCIe links, resets and MSI-X vectors. A configuration request of a link that is up is answered from 80 ms after PERST#
is released and may be answered with Retry Status before (which is free, log entry 5); an answer reads or writes the
named configuration field; PERST# takes the link down, clears the port's vectors and resets its configuration space; a
link change drops it; IDENT_SEND sends the identity; a vector-table write is kept, and unmasking a pending vector
whose function is not masked sends it. The fields are the model's (log entry 165). (R292, R297, R314, R310) -/
def Obligations.LinksAndVectors : Prop :=
  ∀ (s : State) (a : Access) (pl : Place) (p f off v : Nat) (fl : Option CfgField) (x : Option Nat),
    ((port s p).up = true ∨ (port s p).narrow = true →
      ((port s p).since + usCycles 80000 ≤ s.clock → exec (.configRequest p fl x) s = .next (cfgAnswer s p fl x)) ∧
      (s.clock < (port s p).since + usCycles 80000 → exec (.configRequest p fl x) s = .next (cfgAnswer (draw s).2 p fl x) ∨
        exec (.configRequest p fl x) s = .next (emit (draw s).2 (.config p false 0)))) ∧
    (∀ c, cfgAnswer s p (some c) none = emit s (.config p true (cfgValue (port s p) c)) ∧
      cfgAnswer s p (some c) (some v) = emit (cfgWrite s p c v) (.config p true 0)) ∧
    (cfgAnswer s p none x = emit s (.config p true 0)) ∧
    (exec (.perst p) s = .next (let t := Machine.linkDown p s
      let t := { t with msixTab := t.msixTab.filter (fun e => e.1 / 2 ^ 20 != p), pba := t.pba.filter (·.1 != p) }
      setPort t p { cfgReset (port t p) with perst := true, released := false })) ∧
    (exec (.perstRelease p) s = .next (setPort s p { port s p with perst := false, released := true, since := s.clock })) ∧
    ((port s p).up = true → exec (.linkDown p) s = .next (Machine.linkDown p s)) ∧
    ((port s p).up = false → (port s p).narrow = false → exec (.linkDown p) s = .next s) ∧
    (Reaches s a pl → pl.page = pgPort p → p < 2 → pl.off = 0x44 → bit v 0 = true →
      (port (storeReg s pl.key v) p).up = true ∨ (port (storeReg s pl.key v) p).narrow = true →
      exec (.identSend a v) s = .next (sendIdentity (storeReg s pl.key v) p)) ∧
    (portUp s p = true → vfHere s p f = true → f ≤ 8 → off < (if f = 0 then 0x1000 else 0x400) → off % 4 = 0 → 
      ∀ t, t = { s with msixTab := mset msixReset s.msixTab (msixKey p f off) (BitVec.ofNat 32 v) } →
      (off % 16 = 12 → msixMasked t p f (off / 16) = false → (port t p).msixMask.contains f = false → t.pba.contains (p, f, off / 16) = true → exec (.msixTableWrite p f off v) s = .next
        (emit { t with pba := t.pba.filter (· != (p, f, off / 16)) } (.msix p f (off / 16)))) ∧
      (off % 16 ≠ 12 → exec (.msixTableWrite p f off v) s = .next t))

/-- Start-up stages. Standby power boots the reeve; each stage's end starts the next and each stage's failure enters FAULT
with its code: pre-heat (300 s), rails, boot (an image abandoned gives way to the other), BIST (bays disabled; more
than 36, or more than 8 in a field, fail), links (500 ms); a released link trains once links have begun; an event
outside its stage changes nothing; one retry follows a start-up FAULT after 10 s. (R360, R461, R470, R472, R473) -/
def Obligations.StartUpStages : Prop :=
  ∀ (s : State) (pins p link : Nat) (eeprom : Bytes) (links : Nat) (cold bad : Bool) (bays : List Nat) (t : Nat),
    (s.tray.hs = .standby → s.tray.booted = false → ∃ u, u.tray.booted = true ∧
      (u.tray.coldStart = true → u.tray.present = true → u.tray.eject = false → exec (.reeveBootDone pins eeprom links cold) s = .next (beginStart u cold)) ∧
      (u.tray.coldStart = true → u.tray.present = true → u.tray.eject = true → exec (.reeveBootDone pins eeprom links cold) s = .next (toDrained u)) ∧
      (u.tray.coldStart = false ∨ u.tray.present = false → exec (.reeveBootDone pins eeprom links cold) s = .next u)) ∧
    (s.tray.hs = .unpowered → ∃ u, exec .standbyPower s = .next u ∧ u.tray.hs = .standby) ∧
    (exec .standbyLoss s = .next (standbyLost s)) ∧
    (inStage s 1 = true → exec .preheatDone s = .next (beginRails (wr s K.calStartPreheat (msSince s s.tray.stageFrom)))) ∧
    (inStage s 1 = true → s.tray.stageFrom + usCycles 300000000 ≤ s.clock → exec .preheatFail s = .next (startFault s 6 ePreheatFail 1)) ∧
    (inStage s 1 = false → exec .preheatDone s = .next s ∧ exec .preheatFail s = .next s) ∧
    (inStage s 2 = true → ∃ u, exec .railsDone s = .next (nextStage u fun s => beginBoot (chooseImage s)) ∧ u.tray.rails = true) ∧
    (inStage s 2 = true → exec .railFail s = .next (startFault s 6 eRailFail 2)) ∧
    (inStage s 2 = false → exec .railsDone s = .next s ∧ exec .railFail s = .next s) ∧
    (booting s = true → bootable s = true → exec (.bootDone false) s = .next (startFault s 6 eHbmTrain 3)) ∧
    (booting s = true → bootable s = true → ∃ u, exec (.bootDone true) s = .next (nextStage u fun s => if s.tray.warmBoot then beginLinks s else setSys (beginStage s 4) 1) ∧
      u.tray = s.tray) ∧
    (booting s = false ∨ bootable s = false → exec (.bootDone bad) s = .next s) ∧
    (inStage s 3 = true → s.tray.abandoned = true → exec (.bootTimeout true) s = .next (setCause (startFault s 5 eSecImage s.tray.image) 5)) ∧
    (inStage s 3 = true → s.tray.abandoned = false → exec (.bootTimeout true) s = .next
      (let v := setBit (setBit (setCause (startClocks (dieReset (writeRecord s 5 eSecImage s.tray.image) true)) 5) K.secState 1 false) K.secState 2 false
       beginBoot { v with tray := { v.tray with image := 1 - v.tray.image, trial := false, abandoned := true } })) ∧
    (inStage s 4 = false → exec (.bistDone bays) s = .next s) ∧
    (∀ n fails, n = (bays.filter (decide <| · < nBays)).dedup → fails = fieldList.any (fun f => decide (8 < (n.filter (fieldOf · == f)).length)) →
      inStage s 4 = true → ∃ u, u.bays = (n.mergeSort).map (fun b => (b, { off := true })) ∧
        (36 < n.length ∨ fails = true → exec (.bistDone bays) s = .next (startFault u 6 eBistFail 4)) ∧
        (n.length ≤ 36 → fails = false → exec (.bistDone bays) s = .next (nextStage u beginLinks))) ∧
    (s.tray.hs = .starting → s.tray.stage = 5 → s.tray.stageFrom + usCycles 500000 ≤ s.clock →
      exec .linksTimeout s = .next (nextStage s ready)) ∧
    (s.clock < s.tray.stageFrom + usCycles 500000 → exec .linksTimeout s = .next s) ∧
    (p < 2 → (port s p).released = true → linksBegun s = true → s.tray.rails = true → portUp s p = false →
      (portUp (linkUp s p link) p = true → exec (.dlUp p link) s = .next (tellInputFault (wiringCheck (linksDone (linkUp s p link))))) ∧
      (portUp (linkUp s p link) p = false → exec (.dlUp p link) s = .next (linkUp s p link))) ∧
    (s.tray.faultFrom = some t → s.tray.hs = .fault → s.tray.faults = 1 → t + usCycles 10000000 ≤ s.clock → exec .startRetry s = .next (coldReset s)) ∧
    (s.tray.faultFrom = some t → s.tray.faults ≠ 1 → exec .startRetry s = .next s)

/-- Module resets and thermal shutdown. MODULE_RESET schedules a die warm or module cold reset that starts 10 ms later; a
die warm reset of a module in service or draining chooses its image and restarts boot or links; the calibration set is
saved; a shutdown cause quenches into FAULT with its record, message and time; the module makes a cold reset once 60 s
have passed, every temperature is at or below 70 C and fewer than three restarts lie in the last 24 h of operating
time, which is saved every 10 s. (R405, R475, R477, R478, R482) -/
def Obligations.ModuleResets : Prop :=
  ∀ (s : State) (src l t cause : Nat) (c : Cmd) (links : List Nat) (temps : List Int),
    (Ready s src 0x9C c → arg c 0x10 1 = 0 → ∃ u, exec (.moduleResetWarm src) s = .next
      (let v := finish u c 0; { v with tray := { v.tray with reset := some (0, v.clock) } }) ∧ u = markStarted s c) ∧
    (Ready s src 0x9C c → arg c 0x10 1 = 1 → exec (.moduleResetCold src) s = .next
      (let v := finish (markStarted s c) c 0; { v with tray := { v.tray with reset := some (1, v.clock) } })) ∧
    (Ready s src 0x9C c → 1 < arg c 0x10 1 → exec (.moduleResetWarm src) s = .next (finish (markStarted s c) c eCmdReserved)) ∧
    (s.tray.reset = some (l, t) → t + usCycles 10000 ≤ s.clock → l = 1 → s.flash.calSaving = false →
      exec .resetStart s = .next (coldReset { s with tray := { s.tray with reset := none } })) ∧
    (s.tray.reset = some (l, t) → t + usCycles 10000 ≤ s.clock → l = 0 →
      exec .resetStart s = .next { s with tray := { { s.tray with reset := none } with warm := some 2 } }) ∧
    (s.tray.reset = some (l, t) → s.clock < t + usCycles 10000 → exec .resetStart s = .next s) ∧
    (s.tray.warm = some cause → s.tray.rails = true → s.tray.hs = .inService ∨ s.tray.hs = .draining → ∃ u,
      warmReset links s = (if (chooseImage u).tray.trial then beginBoot (chooseImage u)
        else (List.range 2).foldl (fun s p => dlUp p (links.getD p 0) s) (beginLinks (chooseImage u))) ∧
      u.tray.hs = .inService ∧ u.tray.warm = none ∧ u.tray.reset = none ∧
      exec (.dieWarmReset links) s = .next (let t := warmReset links s; if t.tray.warmBoot && t.tray.stage == 5 then ready t else t)) ∧
    (s.flash.calSaving = true → ∃ u, exec .calSaveDone s = .next (wf u K.calState 31 16 (rf u K.calState 31 16 + 1)) ∧
      u.flash.calSaving = s.flash.calAgain ∧ u.flash.calAgain = false) ∧
    (s.flash.calSaving = false → exec .calSaveDone s = .next s) ∧
    (thermalCause s = some (l, t) → s.tray.rails = true → exec .thermalShutdown s = .next
      (let u := toFault (writeRecord (postThermal s 14 l eThermalShutdown t) 4 eThermalShutdown (l + 2 ^ 16 * t))
       { u with power := { u.power with shutAt := if 3 ≤ (recentRestarts u).length then none else some u.clock } })) ∧
    (thermalCause s = none → exec .thermalShutdown s = .next s) ∧
    (s.power.shutAt = some t → s.tray.hs = .fault → t + usCycles 60000000 ≤ s.clock → temps.all (fun x => decide (x ≤ 1120)) = true →
      (recentRestarts s).length < 3 → exec (.thermalRestart temps) s = .next
        (coldReset (let u := saveOp s; { u with power := { u.power with
          restarts := recentRestarts s ++ [opNow s], shutAt := none } }))) ∧
    (s.tray.hs ≠ .unpowered → s.power.opFrom + usCycles 10000000 ≤ s.clock → exec .operatingTimeSave s = .next (saveOp s)) ∧
    (s.clock < s.power.opFrom + usCycles 10000000 → exec .operatingTimeSave s = .next s)

/-- The tray hot-swap states. The lever starts a drain, ends it or restarts a drained module after 2 s; insertion starts
start-up; early break with the die powered starts the unclean quench; TRAY_CFG, TRAY_REMOVE and TRAY_RESUME act in the
states the spec gives them; a drain that completes or times out shuts the module down. (R458, R459, R461, R462, R463,
R464) -/
def Obligations.TrayHotSwap : Prop :=
  ∀ (s : State) (src : Nat) (c : Cmd) (cold : Bool) (s0 : State), s0 = markStarted s c →
    (s.tray.hs = .inService → ∃ u, exec (.ejectReq true) s = .next (startTrayDrain u 0) ∧ u.tray.eject = true ∧ u.tray.wasClosed = true) ∧
    (s.tray.hs = .draining → ∃ u, exec (.ejectReq true) s = .next (postEject u 1 0 0 (presentDeadline u)) ∧ u.tray.eject = true ∧ u.tray.hs = .draining) ∧
    (s.tray.hs = .draining → ∃ u, exec (.ejectReq false) s = .next (postEject u 4 0 0) ∧ u.tray.eject = false ∧ u.tray.hs = .draining) ∧
    (s.tray.hs = .drained → s.tray.wasClosed = true → s.tray.eject = false → s.tray.openFrom + usCycles 2000000 ≤ s.clock →
      exec (.leverOpen cold) s = .next (beginStart s cold)) ∧
    (s.tray.wasClosed = false ∨ s.tray.eject = true ∨ s.clock < s.tray.openFrom + usCycles 2000000 → exec (.leverOpen cold) s = .next s) ∧
    (s.tray.hs = .standby → s.tray.lastUnclean = none → s.tray.booted = true → s.tray.eject = false → s.tray.inputFaultDue = false →
      exec (.prsntEarlyMade cold) s = .next (beginStart { s with tray := { s.tray with present := true } } cold)) ∧
    (s.tray.hs = .starting ∨ s.tray.hs = .inService ∨ s.tray.hs = .draining → exec .prsntEarlyBreak s = .next
      (startQuench { s with tray := { s.tray with present := false } } 1 eTrayUnclean)) ∧
    (s.tray.hs = .quenching → exec .prsntEarlyBreak s = .next { s with tray := { { s.tray with present := false } with
      inputFaultDue := false, drafts := s.tray.drafts.map orderLost } }) ∧
    (Ready s src 0x98 c → 1 ≤ arg c 0x10 2 → arg c 0x10 2 ≤ 600 → exec (.trayCfg src) s = .next
      (finish { s0 with tray := { s0.tray with timeout := arg c 0x10 2, locate := bit (arg c 0x12 1) 0 } } c 0)) ∧
    (Ready s src 0x98 c → arg c 0x10 2 < 1 ∨ 600 < arg c 0x10 2 → exec (.trayCfg src) s = .next (finish s0 c eCmdReserved)) ∧
    (Ready s src 0x99 c → s0.tray.hs = .inService → exec (.trayRemove src) s = .next (finish (startTrayDrain s0 1) c 0)) ∧
    (Ready s src 0x99 c → s0.tray.hs ≠ .inService → exec (.trayRemove src) s = .next (finish s0 c 0)) ∧
    (Ready s src 0x9A c → s0.tray.hs = .draining → exec (.trayResume src) s = .next
      (finish (postEject (setSys (setHs s0 .inService) (if fenceState (setHs s0 .inService) = 2 then 5 else 3)) 5 3 0) c 0)) ∧
    (s.tray.hs = .draining → trayDrained s = true → exec .drained s = .next (shutDown s)) ∧
    (trayDrained s = false → exec .drained s = .next s) ∧
    (s.tray.hs = .draining → s.tray.drainBy ≤ s.clock → exec .drainTimeout s = .next
      (shutDown ((allLive (writeRecord (postEject s 2 s.tray.drainSrc eDrainTimeout) 8 eDrainTimeout 0)).foldl endFunction
        (writeRecord (postEject s 2 s.tray.drainSrc eDrainTimeout) 8 eDrainTimeout 0)))) ∧
    (s.clock < s.tray.drainBy → exec .drainTimeout s = .next s)

/-- Input monitor, quench and LED lines. Input between 60 and 64 V posts INPUT_FAULT and after 1 s quenches; above 64 V or
below 38 V it quenches at once; its return within 40 to 60 V makes a cold reset; a quench ends in STANDBY or, without
input, UNPOWERED; a faulty LED line is turned off and retried after 1 s; other values change nothing. (R453, R461,
R467) -/
def Obligations.InputMonitorAndLeds : Prop :=
  ∀ (s : State) (mv line t : Nat) (input : Bool),
    (s.tray.hs ≠ .unpowered → 60000 < mv → mv ≤ 64000 → ∀ u, u = { s with tray := { s.tray with vin := mv, highFrom := some (s.tray.highFrom.getD s.clock) } } →
      exec (.inputHigh mv) s = .next (if s.tray.rails then postEject u 7 2 eInputVoltage else u)) ∧
    (mv ≤ 60000 → exec (.inputHigh mv) s = .next s) ∧
    (s.tray.highFrom = some t → s.tray.rails = true → seated s = true → t + usCycles 1000000 ≤ s.clock → exec .inputHighTimeout s = .next (inputQuench s)) ∧
    (s.tray.highFrom = some t → s.clock < t + usCycles 1000000 → exec .inputHighTimeout s = .next s) ∧
    (s.tray.rails = true → seated s = true → 64000 < mv ∨ mv < 38000 → exec (.inputFault mv) s = .next
      (inputQuench { s with tray := { s.tray with vin := mv } })) ∧
    (38000 ≤ mv → mv ≤ 64000 → exec (.inputFault mv) s = .next s) ∧
    (s.tray.inputFaultDue = true → s.tray.hs = .standby → 40000 ≤ mv → mv ≤ 60000 → exec (.inputReturn mv) s = .next
      (coldReset { s with tray := { s.tray with vin := mv } })) ∧
    (s.tray.hs = .quenching → ∃ u, exec (.quenchDone input) s = .next (if input then u else standbyLost u) ∧ u.tray.hs = .standby ∧ u.tray.drafts = []) ∧
    (s.tray.hs ≠ .quenching → exec (.quenchDone input) s = .next s) ∧
    (s.tray.hs ≠ .unpowered → line < 2 → s.tray.drivers.getD line none = none → exec (.ledLine line) s = .next
      (emit (postEject { s with tray := { s.tray with drivers := s.tray.drivers.set line (some s.clock) } } 8 4 eLedLine) (.pin line 0))) ∧
    (s.tray.drivers.getD line none = some t → t + usCycles 1000000 ≤ s.clock → exec (.ledRetry line) s = .next
      (emit { s with tray := { s.tray with drivers := s.tray.drivers.set line none } } (.pin line 1))) ∧
    (s.tray.drivers.getD line none = some t → s.clock < t + usCycles 1000000 → exec (.ledRetry line) s = .next s)

/-- FAULT_READ and FAULT_ACK. FAULT_READ answers 16 bytes of the named record, CMD_RESERVED for an unaligned offset and
FAULT_NONE for no record or an offset past its end; FAULT_ACK sets ACKED on the named record, or answers FAULT_NONE.
(R492, R495) -/
def Obligations.FaultLogCommands : Prop :=
  ∀ (s : State) (src : Nat) (c : Cmd) (s0 : State) (r : FaultRec), s0 = markStarted s c →
    (Ready s src 0x9D c → arg c 0x14 4 % 16 ≠ 0 → exec (.faultRead src) s = .next (finish s0 c eCmdReserved)) ∧
    (Ready s src 0x9D c → arg c 0x14 4 % 16 = 0 → namedRecord s0 (arg c 0x10 4) = none → exec (.faultRead src) s = .next (finish s0 c eFaultNone)) ∧
    (Ready s src 0x9D c → arg c 0x14 4 % 16 = 0 → namedRecord s0 (arg c 0x10 4) = some r → arg c 0x14 4 < r.bytes.length →
      exec (.faultRead src) s = .next (finish s0 c 0 (num r.bytes (arg c 0x14 4) 8) (num r.bytes (arg c 0x14 4 + 8) 8))) ∧
    (Ready s src 0x9D c → arg c 0x14 4 % 16 = 0 → namedRecord s0 (arg c 0x10 4) = some r → r.bytes.length ≤ arg c 0x14 4 →
      exec (.faultRead src) s = .next (finish s0 c eFaultNone)) ∧
    (Ready s src 0x9E c → namedRecord s0 (arg c 0x10 4) = some r → ∃ u, exec (.faultAck src) s = .next (finish (showUnclean u) c 0) ∧
      u = flagSeq s0 r.seq 4 true ∧ (∀ x ∈ u.faultLog, x.seq = r.seq → x.acked = true)) ∧
    (Ready s src 0x9E c → namedRecord s0 (arg c 0x10 4) = none → exec (.faultAck src) s = .next (finish s0 c eFaultNone))

/-- Power cap, loops, estimator and learner. PWR_SET_CAP sets a cap within its bounds and else completes PWR_RANGE; the
fast loop lowers gates above the target, raises them with room and otherwise holds; a 100 ms window counts as
differing exactly when the mean measurement and estimate are more than 15% apart; CAP_MET, SENSOR_FAULT, SENSOR_OK and
ESTIMATOR_MISMATCH begin and end at their counts of samples and windows and not before; the learner moves an entry by
an eighth of its error and the period reallocates clocks; LEARN_RESET empties the learned table. (R382, R383, R384,
R385, R386, R387, R389, R394, R412) -/
def Obligations.PowerControlLoops : Prop :=
  ∀ (s : State) (src raw add vin code cap pfix dg dv t : Nat) (ma : Int) (atEnd : Bool) (fields : List Nat) (a : Access) (pl : Place) (v : Nat) (c : Cmd) (s0 : State),
    (Ready s src 0x90 c → s0 = markStarted s c → cap = arg c 0x10 2 →
      (rf s0 K.pwrBounds 9 0 ≤ cap → cap ≤ rf s0 K.pwrBounds 25 16 → ∃ u, exec (.pwrSetCap src) s = .next (finish (judgeLag (retarget (bumpVer u pgPwr))) c 0) ∧
        rf u K.pwrCap 9 0 = cap % 1024) ∧
      (cap < rf s0 K.pwrBounds 9 0 ∨ rf s0 K.pwrBounds 25 16 < cap → exec (.pwrSetCap src) s = .next (finish s0 c ePwrRange))) ∧
    (s0 = judgeLag (noteEst s (corrected s raw)) →
      (s0.power.brake = 1 → exec (.fastLoop raw add) s = .next (brakeTick s0)) ∧
      (s0.power.brake ≠ 1 → s0.power.ti < controlled s0 → exec (.fastLoop raw add) s = .next (raiseGates s0)) ∧
      (s0.power.brake ≠ 1 → controlled s0 + add ≤ s0.power.ti → controlled s0 ≤ s0.power.ti → exec (.fastLoop raw add) s = .next (lowerGates s0)) ∧
      (s0.power.brake ≠ 1 → controlled s0 ≤ s0.power.ti → s0.power.ti < controlled s0 + add → exec (.fastLoop raw add) s = .next s0)) ∧
    (capLag s = true → s.power.lagOk = some t → t + usCycles 100 ≤ s.clock → ∃ u, exec .capMet s = .next (postThermal u 4 15 0 (measW (setBit (countLag s) K.pwrState 1 false))) ∧
      u.power.lagOk = none) ∧
    (capLag s = false → exec .capMet s = .next s) ∧
    (∀ u m, m = measured (noteCode s code) vin ma → 
      u = (let x := wr (noteCode s code) K.pwrVin (vin % 2 ^ 16 + 2 ^ 16 * unsgn 16 ma)
           { x with tray := { x.tray with vin := 10 * vin, highFrom := if vin ≤ 6000 then none else x.tray.highFrom } }) →
      (implausible u vin ma m atEnd = false → sensorFault (takeSample u m) = false → exec (.powerSample vin ma code atEnd) s = .next (outerLoop (takeSample u m) m)) ∧
      (implausible u vin ma m atEnd = true → sensorFault u = false → ∃ y, exec (.powerSample vin ma code atEnd) s = .next
        (postThermal (raiseIrq y pgPwr 18) 9 15 eSensorFault (measW y)) ∧ y.power.plausible = 0)) ∧
    (sensorFault s = true → 10000 ≤ s.power.plausible → exec .sensorOk s = .next
      (let u := setBit s K.pwrState 3 false
       postThermal { u with power := { u.power with plausible := 0 } } 10 15 0 (measW u))) ∧
    (s.power.plausible < 10000 → exec .sensorOk s = .next s) ∧
    (∀ m e, m = meanOf s.power.winM s.power.winMN → e = meanOf s.power.winE s.power.winEN →
      (3 * max m e < 20 * (max m e - min m e) → exec .estimateWindow s = .next { s with power := { s.power with
        differ := s.power.differ + 1, agree := 0, winM := 0, winMN := 0, winE := 0, winEN := 0 } }) ∧
      (20 * (max m e - min m e) ≤ 3 * max m e → exec .estimateWindow s = .next { s with power := { s.power with
        agree := s.power.agree + 1, differ := 0, winM := 0, winMN := 0, winE := 0, winEN := 0 } })) ∧
    (mismatch s = false → 10 ≤ s.power.differ → exec .mismatchOn s = .next (postThermal (raiseIrq (setBit s K.pwrState 2 true) pgPwr 18) 7 15 eMismatch (measW s))) ∧
    (s.power.differ < 10 → exec .mismatchOn s = .next s) ∧
    (mismatch s = true → 100 ≤ s.power.agree → exec .mismatchOff s = .next (postThermal (setBit s K.pwrState 2 false) 8 15 0 (measW s))) ∧
    (s.power.agree < 100 → exec .mismatchOff s = .next s) ∧
    (∃ u, exec (.learnerPeriod pfix dg dv fields) s = .next (allocate u pfix dg dv (fieldList.map fun f => observe s f (fields.getD f 0))) ∧
      u.power.estN = 0 ∧ granary u = granary s) ∧
    (∀ f o, o.steady = true → o.dominant = true → bit (rd s K.pwrLearnCtrl) 0 = false → learn s f o = { s with power := { s.power with
      learned := mset (fun _ => none) s.power.learned (learnKey o.phase f (fcur s f))
        (some (learnW s o.phase f (fcur s f) + (o.power - learnW s o.phase f (fcur s f)) / 8)) } }) ∧
    (Reaches s a pl → pl.key = K.pwrLearnCtrl → bit v 1 = true → ∃ u, exec (.learnReset a v) s = .next { u with power := { u.power with learned := [] } } ∧
      u = storeReg s pl.key v) ∧
    (Reaches s a pl → pl.key = K.pwrLearnCtrl → bit v 1 = false → exec (.learnReset a v) s = .next (storeReg s pl.key v))

/-- Field clocks, droop and brake. A field's clock change goes through its ramp and relock phases, the relock waiting
until the words the field has issued finish and then counting; a droop stretches the clock until it recovers; a brake
sets the 180 W target and, 20 us in (1,950 ACLK cycles), drops every field to 0.4 GHz; its end restores the target;
events out of turn change nothing. (R34, R392, R396, R398) -/
def Obligations.ClocksDroopAndBrake : Prop :=
  ∀ (s : State) (f cycles : Nat),
    (f < 8 → (fctl s f).phase = 2 → fieldDrained s f = true → ∃ u, u = setBit (wf (showClock s f (fctl s f).target (vcur s f) false) (K.fieldRelocks f) 15 0
          (rf (showClock s f (fctl s f).target (vcur s f) false) (K.fieldRelocks f) 15 0 + 1)) K.clkLock f true ∧
      ((fctl s f).volt < vcur u f → exec (.pllRelockDone f) s = .next (setFctl u f { fctl s f with phase := 3, moved := true })) ∧
      (vcur u f ≤ (fctl s f).volt → exec (.pllRelockDone f) s = .next (startChange (setFctl u f { fctl s f with phase := 0, moved := true }) f))) ∧
    ((fctl s f).phase ≠ 2 ∨ fieldDrained s f = false → exec (.pllRelockDone f) s = .next s) ∧
    (f < 8 → (fctl s f).phase = 3 → exec (.railRampDone f) s = .next
      (startChange (setFctl (showClock s f (fcur s f) (fctl s f).volt false) f { fctl s f with phase := 0 }) f)) ∧
    (f < 8 → (fctl s f).phase = 1 → fcur (showClock s f (fcur s f) (fctl s f).volt false) f ≠ (fctl s f).target →
      exec (.railRampDone f) s = .next (startRelock (showClock s f (fcur s f) (fctl s f).volt false) f)) ∧
    (f < 8 → exec (.droop f) s = .next (setFctl s f { fctl s f with droop := true })) ∧
    (f < 8 → (fctl s f).droop = true → exec (.droopRecovered f cycles) s = .next
      (satIncr (setFctl s f { fctl s f with droop := false }) (K.fieldStretch f) cycles)) ∧
    ((fctl s f).droop = false → exec (.droopRecovered f cycles) s = .next s) ∧
    (braking s = false → ∃ u v, exec .brakeOn s = .next (judgeLag (postThermal (raiseIrq v pgPwr 17) 5 15 0 (measW v))) ∧
      v = setInner (retarget u) 1620 ∧ braking u = true ∧ u.power.brake = 1 ∧ u.power.brakeFrom = s.clock) ∧
    (braking s = true → exec .brakeOn s = .next s) ∧
    (braking s = true → s.power.brake ≠ 3 → s.power.brakeFrom + 1950 ≤ s.clock → exec .brakeClockDrop s = .next
      (fieldList.foldl (fun s f => setClock s f 16) { s with power := { s.power with brake := 3, videoDuty := true } })) ∧
    (s.clock < s.power.brakeFrom + 1950 → exec .brakeClockDrop s = .next s) ∧
    (braking s = true → ∃ u, exec .brakeOff s = .next (judgeLag (postThermal (retarget u) 6 15 0 (measW (retarget u)))) ∧
      braking u = false ∧ u.power.brake = 0 ∧ u.power.videoDuty = false) ∧
    (braking s = false → exec .brakeOff s = .next s)

/-- Junction, HBM, coolant and leak sampling. Each junction sample treats every field; throttling lowers a ceiling one
step a millisecond at 100 C and raises it one step in 10 ms at 97 C; HBM samples treat each stack; coolant above 45 C
lowers the ceiling by its formula; a low flow for 1 s and three wet leak samples post their events once, and
THM_LEAK_CLR clears a dry leak. (R403, R404, R406, R407, R413) -/
def Obligations.ThermalSampling : Prop :=
  ∀ (s : State) (raw : List Int) (tin tout : Int) (fin fout wet : Bool) (t v : Nat) (a : Access) (pl : Place),
    (exec (.junctionSample raw) s = .next (fieldList.foldl (fun s f => junctionField s f (junction s raw f)) { s with power := { s.power with hotTwice := false } })) ∧
    (exec .thermalThrottleStep s = .next (fieldList.foldl throttleField s)) ∧
    (∀ f j, (fctl s f).jceil = some j → 1600 ≤ sgn 16 (rf s (K.thmTj f) 15 0) →
      throttleField s f = enforceCeil (setFctl s f { fctl s f with jceil := some (max 16 (j - 4)), coolMs := 0 }) f) ∧
    (∀ f j, (fctl s f).jceil = some j → sgn 16 (rf s (K.thmTj f) 15 0) ≤ 1552 → (fctl s f).coolMs = 9 →
      throttleField s f = endThrottle (setFctl s f { fctl s f with jceil := some (min 80 (j + 1)), coolMs := 0 }) f (sgn 16 (rf s (K.thmTj f) 15 0))) ∧
    (∀ f, (fctl s f).jceil = none → throttleField s f = s) ∧
    (exec (.hbmTempSample raw) s = .next (((List.range 4).zip raw).foldl (fun s e => hbmStack s e.1 (e.2 + sgn 16 (rd s (K.calFacHbm e.1)) + uHbm s)) s)) ∧
    (∃ u, exec (.coolantSample tin tout fin fout) s = .next (retarget (flowRules u (tin + uCool s) (tout + uCool s) (!fin && !fout)))) ∧
    (720 < tin → coolantCeiling tin = some (max 250 ((900 : Rat) - 25 * (tin - 720 : Int) / 16).floor.toNat)) ∧
    (tin ≤ 720 → coolantCeiling tin = none) ∧
    (s.power.flowLowFrom = some t → t + usCycles 1000000 ≤ s.clock → s.power.flowPosted = false → ∃ u, exec .flowLow s = .next (postThermal u 11 12 eFlowLow (rf s K.thmCoolIn 15 0)) ∧
      u.power.flowPosted = true) ∧
    (s.power.flowPosted = true → exec .flowLow s = .next s) ∧
    (∃ u, exec (.leakSample wet false) s = .next u ∧ rf u K.thmLeak 1 0 = b2n wet ∧ u.power.wet = if wet then s.power.wet + 1 else 0) ∧
    (bit (rd s K.thmLeak) 1 = false → ∃ u, exec (.leakSample wet true) s = .next (postThermal u 12 14 eLeakSensor 0) ∧ rf u K.thmLeak 1 0 = 2 ∧ u.power.wet = 0) ∧
    (3 ≤ s.power.wet → bit (rd s K.thmLeak) 2 = false → exec .leak s = .next (retarget (postThermal (setBit s K.thmLeak 2 true) 12 14 eLeak 0))) ∧
    (s.power.wet < 3 → exec .leak s = .next s) ∧
    (Reaches s a pl → pl.key = K.thmLeakClr → bit v 0 = true → bit (rd s K.thmLeak) 0 = false → exec (.thmLeakClr a v) s = .next (retarget (setBit s K.thmLeak 2 false))) ∧
    (Reaches s a pl → bit (rd s K.thmLeak) 0 = true → exec (.thmLeakClr a v) s = .next s)

/-- Wain channels. A post queues a chain, by two words or one 8-byte write, or records FENCED, WAIN_STATE or
WAIN_POST_FULL; ABORT and RESUME act in their states; a descriptor fetched from the host or the granary is checked and
started or fails with its code; units of a descriptor are copied, gathered or encrypted; the funnel lets whole lines
go, but for the ends of the destination run; the descriptor succeeds when all its units have moved and its writes are
acknowledged, a DURABLE one to host memory when its last write is also read back, and not before; a failed one waits
for its writes, and for a completion entry if it failed when it was fetched, and ends with its code; an abort ends in
IDLE with the code of the jobs it ended. (R335, R336, R337, R338, R340, R341, R343, R345, R349) -/
def Obligations.WainChannels : Prop :=
  ∀ (s : State) (a : Access) (pl : Place) (c v i : Nat) (data idx : Bytes) (ok : Bool) (ch : Chain) (d : RunDesc), c < 32 →
    (Reaches s a pl → pl.page = pgWain c →
      (∀ s0 w, s0 = storeReg s (K.wainPostLo c) (w % 2 ^ 32) → pl.off = 0x48 → fenceState s0 = 0 → exec (.wainPost a true w) s = .next
        (postChain s0 c a.func { addr := 64 * (rd s0 (K.wainPostLo c) / 64) + 2 ^ 32 * (w / 2 ^ 32), gran := bit (rd s0 (K.wainPostLo c)) 0, port := a.port } 0x4C)) ∧
      (pl.off = 0x4C → fenceState s = 0 → exec (.wainPost a false v) s = .next
        (postChain s c a.func { addr := 64 * (rd s (K.wainPostLo c) / 64) + 2 ^ 32 * (v % 2 ^ 32), gran := bit (rd s (K.wainPostLo c)) 0, port := a.port } 0x4C)) ∧
      (pl.off = 0x4C → fenceState s ≠ 0 → exec (.wainPost a false v) s = .next (recordErr s pl.page eFenced a.func 0x4C)) ∧
      (pl.off = 0x50 → bit v 0 = true → exec (.abort a v) s = .next (abortWain s c eWainAborted)) ∧
      (pl.off = 0x50 → bit v 1 = true → bit v 0 = false → wainSt s c = 2 → exec (.resume a v) s = .next (startChain (setWainSt s c 1) c)) ∧
      (pl.off = 0x50 → bit v 1 = true → bit v 0 = false → wainSt s c ≠ 2 → exec (.resume a v) s = .next (recordErr s pl.page eWainState a.func 0x50)) ∧
      (pl.off = 0x70 → (wain (storeReg s pl.key v) c).desc = some d → d.waitCq = true → wainSt (storeReg s pl.key v) c = 1 →
        exec (.wainCqHead a v) s = .next (startDesc (storeReg s pl.key v) c d)) ∧
      (pl.off = 0x70 → (wain (storeReg s pl.key v) c).desc = none → exec (.wainCqHead a v) s = .next (storeReg s pl.key v))) ∧
    (∀ off func, wainSt s c = 3 → postChain s c func ch off = recordErr s (pgWain c) eWainState func off) ∧
    (∀ off func, wainSt s c ≠ 3 → 64 ≤ (wain s c).posts.length → postChain s c func ch off = recordErr s (pgWain c) eWainPostFull func off) ∧
    ((wain s c).next = some ch → wainSt s c = 1 → (wain s c).desc = none → writing s (uWain c) = false → ch.firmware = false → ∀ t,
      t = wr64 (setWain s c { wain s c with next := none }) (K.wainCurLo c) ch.addr →
      (ch.gran = false → d = { addr := ch.addr, gran := false, body := sub data 0 64, port := ch.port, firmware := false, rest := ch.descs.drop 1, job := ch.job } →
        ∀ u, u = ((choosePort t ch.port).map fun p => hostIn t c p ch.addr 64).getD t →
        (descCode t c (sub data 0 64) false = 0 → exec (.descriptorFetchReturn c true data) s = .next (startDesc u c d)) ∧
        (descCode t c (sub data 0 64) false ≠ 0 → exec (.descriptorFetchReturn c true data) s = .next
          (startDesc u c { d with failed := some (descCode t c (sub data 0 64) false, 0) })) ∧
        exec (.descriptorFetchReturn c false data) s = .next (startDesc u c { d with failed := some (eWainHostErr, 0) })) ∧
      (ch.gran = true → d = { addr := ch.addr, gran := true, body := greadOf s (uWain c) ch.addr 64, port := ch.port, firmware := false, rest := ch.descs.drop 1, job := ch.job } →
        (rangeCode t c ch.addr 64 false ≠ 0 → exec (.descriptorFetchReturn c ok data) s = .next
          (startDesc t c { d with failed := some (rangeCode t c ch.addr 64 false, 0) })) ∧
        (rangeCode t c ch.addr 64 false = 0 → poisonedIn t ch.addr 64 = true → exec (.descriptorFetchReturn c ok data) s = .next
          (startDesc t c { d with failed := some (ePoison, 0) })) ∧
        (rangeCode t c ch.addr 64 false = 0 → poisonedIn t ch.addr 64 = false → descCode t c d.body false ≠ 0 →
          exec (.descriptorFetchReturn c ok data) s = .next (startDesc t c { d with failed := some (descCode t c d.body false, 0) })) ∧
        (rangeCode t c ch.addr 64 false = 0 → poisonedIn t ch.addr 64 = false → descCode t c d.body false = 0 →
          exec (.descriptorFetchReturn c ok data) s = .next (startDesc t c d)))) ∧
    (writing s (uWain c) = true → exec (.descriptorFetchReturn c ok data) s = .next s) ∧
    (∀ f, d.failed = some f →
      (d.firmware = false → cqFull s c = true →
        startDesc s c d = wf (setWain s c { wain s c with desc := some { d with waitCq := true } }) (K.wainState c) 3 3 1) ∧
      (cqFull s c = false → startDesc s c d = failDesc s c d f.1 f.2)) ∧
    (∀ code detail e, d.funnel = [] → wainSt s c ≠ 3 → e = { d with failed := some (code, detail), waitCq := false } →
      (writing s (uWain c) = true → failDesc s c d code detail = setWain s c { wain s c with desc := some e }) ∧
      (writing s (uWain c) = false → failDesc s c d code detail = endFailed s c e code detail)) ∧
    (∀ l r b bs, r.1 ≤ b → b + bs.length ≤ r.2 → (funnelStep l r b bs).2.1 = [] ∨
      (((funnelStep l r b bs).1 % 64 = 0 ∨ (funnelStep l r b bs).1 = r.1) ∧
        (((funnelStep l r b bs).1 + (funnelStep l r b bs).2.1.length) % 64 = 0 ∨
          (funnelStep l r b bs).1 + (funnelStep l r b bs).2.1.length = r.2))) ∧
    ((wain s c).next = none → exec (.descriptorFetchReturn c ok data) s = .next s) ∧
    ((wain s c).desc = some d → d.waitCq = false → d.failed = none → wainSt s c = 1 →
      (d.bursts.contains i = false → i < units d.body → dIndexed d.body = false → dCrypt d.body = false → exec (.burstDone c i idx data) s = .next
        (copyUnit s c d i (dSrc d.body + (unitAt d.body i).1) (dDst d.body + (unitAt d.body i).1) (unitAt d.body i).2 data)) ∧
      (d.bursts.contains i = false → i < units d.body → dIndexed d.body = true → exec (.burstDone c i idx data) s = .next (moveElement s c d i idx data)) ∧
      (d.bursts.contains i = false → i < units d.body → dIndexed d.body = false → dCrypt d.body = true → i = d.bursts.length →
        exec (.burstDone c i idx data) s = .next (moveFrame s c d i data)) ∧
      (exec (.wainHostErr c i) s = .next (failDesc s c d eWainHostErr i)) ∧
      (allMoved d = true → writing s (uWain c) = false →
        (dDurable d.body = true → dDstGrn d.body = true) → exec (.descriptorComplete c ok) s = .next (succeed s c d)) ∧
      (allMoved d = true → writing s (uWain c) = false → dDurable d.body = true → dDstGrn d.body = false →
        exec (.descriptorComplete c true) s = .next (succeed (hostIn s c d.port (lastWritten d) 4) c d) ∧
        exec (.descriptorComplete c false) s = .next (failDesc s c d eWainHostErr
          (if dCrypt d.body then frameBurst d.body 0 (lastWritten d + 3 - dDst d.body) else units d.body - 1))) ∧
      (allMoved d = false ∨ writing s (uWain c) = true → exec (.descriptorComplete c ok) s = .next s)) ∧
    (∀ f, (wain s c).desc = some d → d.waitCq = false → d.failed = some f →
      exec (.burstDone c i idx data) s = .next s ∧ exec (.wainHostErr c i) s = .next s ∧
      (wainSt s c = 1 → writing s (uWain c) = false → exec (.descriptorComplete c ok) s = .next (endFailed s c d f.1 f.2)) ∧
      (writing s (uWain c) = true → exec (.descriptorComplete c ok) s = .next s)) ∧
    ((wain s c).desc = none → exec (.burstDone c i idx data) s = .next s ∧ exec (.wainHostErr c i) s = .next s ∧ exec (.descriptorComplete c ok) s = .next s) ∧
    (wainSt s c = 3 → writing s (uWain c) = false → (wain s c).newOwner = none → (wain s c).resetAfter = false →
      ∀ t ended, ended = ((wain s c).next.toList ++ (wain s c).posts).flatMap (fun h => h.descs.map fun _ => (h.job, (wain s c).abortCode)) →
      ((wain s c).desc = none → t = raiseIrq s (pgWain c) 18 →
        exec (.abortDone c) s = .next (startChain (wf (showPosted (setWainSt (setWain { t with fwDone := t.fwDone ++ ended } c
          { phase := (wain t c).phase }) c 0) c) (K.wainState c) 3 3 0) c)) ∧
      ((wain s c).desc = some d → d.waitCq = false → d.firmware = false →
        t = raiseIrq (wainMsg (wainRecord s c d (wain s c).abortCode (residue d) 0) c d 3 (wain s c).abortCode (residue d) 0) (pgWain c) 18 →
        exec (.abortDone c) s = .next (startChain (wf (showPosted (setWainSt (setWain { t with fwDone := t.fwDone ++ ended } c
          { phase := (wain t c).phase }) c 0) c) (K.wainState c) 3 3 0) c))) ∧
    (wainSt s c ≠ 3 → exec (.abortDone c) s = .next s)

/-- Firmware images, device sets and debug. FW_WRITE, FW_ACTIVATE and FW_SVN_COMMIT are busy during a write; FW_WRITE
makes the inactive image invalid until its image, which is not the one running, verifies: then it is valid with its
version, SVN and digest, and otherwise the command completes SEC_IMAGE; FW_ACTIVATE needs a valid image and
FW_SVN_COMMIT a committed boot; device-set and management keys are unwrapped and kept; DEBUG_UNLOCK draws a fresh
nonce and opens scopes only for a good token. An image's layout is the model's uninterpreted function (log entry 191).
(R359, R361, R362, R369, R370, R371, R376) -/
def Obligations.FirmwareAndDeviceKeys : Prop :=
  ∀ (s : State) (src : Nat) (c : Cmd) (s0 : State) (id ad n k : Nat) (key r : Bytes), s0 = markStarted s c →
    (Ready s src 0xA0 c → s0.sec.fwWrite = none → allocatable (arg c 0x10 8) (arg c 0x18 8) = true → s0.tray.image ≠ inactive s0 → exec (.fwWrite src) s = .next
      (setImageOk { s0 with sec := { s0.sec with fwWrite := some (c.id, arg c 0x10 8, arg c 0x18 8) } }
        (inactive s0) false)) ∧
    (∀ i, Ready s src 0xA0 c ∧ i = .fwWrite src ∨ Ready s src 0xA1 c ∧ i = .fwActivate src ∨ Ready s src 0xA2 c ∧ i = .fwSvnCommit src →
      s0.sec.fwWrite ≠ none → exec i s = .next (finish s0 c eSecBusy)) ∧
    (s.sec.fwWrite = some (id, ad, n) → ∀ u, u = { s with sec := { s.sec with fwWrite := none } } →
      ∀ h, h = Config.image (gread s ad n) →
      (imageOk s h = false ∨ poisonedIn s ad n = true → exec .fwWriteDone s = .next (finishId u id eSecImage)) ∧
      (imageOk s h = true → poisonedIn s ad n = false → ∃ t, exec .fwWriteDone s = .next
        (finishId (setImageOk (setImageVer (setSvn t (inactive s) (h.svn % 128)) (inactive s) (h.ver % 2 ^ 32)) (inactive s) true) id 0) ∧
        t = { u with flash := { u.flash with images := s.flash.images.set (inactive s) (Config.sha384 (gread s ad n)) } })) ∧
    (s.sec.fwWrite = none → exec .fwWriteDone s = .next s) ∧
    (Ready s src 0xA1 c → s0.sec.fwWrite = none →
      (bit (rd s0 K.secState) (3 + inactive s0) = true → exec (.fwActivate src) s = .next (finish (setBit s0 K.secState 1 true) c 0)) ∧
      (bit (rd s0 K.secState) (3 + inactive s0) = false → exec (.fwActivate src) s = .next (finish s0 c eSecImage))) ∧
    (Ready s src 0xA2 c → s0.sec.fwWrite = none → ∀ f, f = max (fuses s0) (svnOf s0 s0.tray.image) →
      (bit (rd s0 K.secState) 2 = false → f ≤ svnOf s0 (1 - s0.tray.image) → exec (.fwSvnCommit src) s = .next (finish (wf s0 K.secSvn 6 0 f) c 0 f)) ∧
      (bit (rd s0 K.secState) 2 = true ∨ (svnOf s0 (1 - s0.tray.image) < f ∧ arg c 0x10 1 % 2 = 0) → exec (.fwSvnCommit src) s = .next (finish s0 c eSecRollback))) ∧
    (allocatable (arg c 0x10 8) 192 = true → poisonedIn s0 (arg c 0x10 8) 192 = false → r = gread s0 (arg c 0x10 8) 192 → num r 0x71 3 = 0 → num r 0xB0 16 = 0 →
      unwrapRecord s0 r = some key →
      (Ready s src 0xA3 c → num r 0 8 ≠ 0 → setStore s0 (num r 0 8) = some k → exec (.setInstall src) s = .next (finish (putSet s0 k (some (num r 0 8, key))) c 0)) ∧
      (Ready s src 0xA5 c → num r 0 8 = 0 → ∃ u, exec (.mgmtKeyInstall src) s = .next (finish u c 0) ∧ u.flash.mgmtKey = key)) ∧
    (Ready s src 0xA4 c → ((List.range 16).find? fun n => (s0.flash.sets.getD n none).map (·.1) == some (arg c 0x10 8)) = some k →
      exec (.setRemove src) s = .next (finish (putSet s0 k none) c 0)) ∧
    (Ready s src 0xA6 c → allocatable (arg c 0x10 8) 137 = true → ∀ t, t = gread s0 (arg c 0x10 8) 137 →
      (tokenOk s0 t = false → exec (.debugUnlock src) s = .next (finish (freshNonce s0) c eSecDebug)) ∧
      (tokenOk s0 t = true → poisonedIn s0 (arg c 0x10 8) 137 = false → ∃ u, exec (.debugUnlock src) s = .next
        (openScopes (((List.range 8).map (· + 1)).foldl (fun s f => if bit (rd s (K.funcState (f - 1))) 8 then killNow s f else s) u)) ∧
        u.sec.unlocks = (freshNonce s0).sec.unlocks ++ [(c.id, num t 40 1 % 8)]))

/-- Bundles, jobs and scrubs. A bundle load starts in its turn after its header checks and else completes its code; a body
that verifies becomes LOADED at its destination, one that does not completes AUTH_FAIL; unloading a used bundle is
busy, an unused one is scrubbed; JOB_RUN patches its arguments and starts its entry's bays when every check holds, and
completes SEC_BUNDLE for no such entry; a scrub's end releases what it held. (R372, R373, R374, R375, R313) -/
def Obligations.BundlesAndJobs : Prop :=
  ∀ (s : State) (src owner bad f n : Nat) (c : Cmd) (s0 : State) (h : Bytes) (k : Option Bytes) (code : Nat) (b : Bundle) (e : JobEntry) (j : LoadJob) (body : Bytes),
    s0 = markStarted s c → f = cmdFunc c → n = arg c 0x10 1 →
    (Ready s src 0x20 c → loadTurn s src = true → n < 16 → arg c 0x28 8 % 4096 = 0 → allocatable (arg c 0x18 8) 512 = true → h = gread s0 (arg c 0x18 8) 512 →
      (loadCheck s0 f c h = .ok k → exec (.bundleLoad src) s = .next { s0 with sec := { s0.sec with load := some { cmd := c.id, func := f, num := n, src := arg c 0x18 8, dest := arg c 0x28 8, header := h, key := k } } }) ∧
      (loadCheck s0 f c h = .error code → exec (.bundleLoad src) s = .next (refuseLoad s0 f c.id (arg c 0x28 8) (num h 0x10 8) code))) ∧
    (loadTurn s src = false → exec (.bundleLoad src) s = .next s) ∧
    (s.sec.load = some j → s.cmds.any (·.id == j.cmd) = true → ∀ t, t = { s with sec := { s.sec with load := none } } → poisonedIn t j.src (imageLen j.header) = false →
      (bundleBody t j = some body → ∃ u, exec .bundleLoaded s = .next (finishId u j.cmd 0 (num j.header 0x10 8)) ∧
        u.sec.bundles = minsert (bundleKey j.func j.num) { dest := j.dest, len := num j.header 0x10 8, digest := Config.sha384 j.header, info := Config.bundleInfo j.header body } (poke t j.dest body).sec.bundles ∧
        granary u = granary (poke t j.dest body)) ∧
      (bundleBody t j = none → exec .bundleLoaded s = .next (refuseLoad t j.func j.cmd j.dest (num j.header 0x10 8) eAuthFail))) ∧
    (s.sec.load = none → exec .bundleLoaded s = .next s) ∧
    (Ready s src 0x21 c → bundle? s0 f n = some b → bundleBusy s0 c f n = true → exec (.bundleUnload src) s = .next (finish s0 c eSecBusy)) ∧
    (Ready s src 0x21 c → bundle? s0 f n = some b → bundleBusy s0 c f n = false → b.len ≠ 0 → exec (.bundleUnload src) s = .next { s0 with sec := { s0.sec with
      bundles := mdel (bundleKey f n) s0.sec.bundles, scrubs := s0.sec.scrubs ++ [(b.dest, b.len, some c.id)] } }) ∧
    (Ready s src 0x22 c → ((bundle? s0 f n).bind fun b => b.info.entries[arg c 0x12 2]?) = some e → ownsRange s0 f (arg c 0x18 8) (8 * e.args) = true →
      poisonedIn s0 (arg c 0x18 8) (8 * e.args) = false →
      ((e.programs.map (·.1)).any fun b => !(decide (b < nBays) && (bay s0 b).owner == f)) = false →
      ((e.programs.map (·.1)).any fun b => (bay s0 b).off) = false → ((e.programs.map (·.1)).any fun b => (bay s0 b).st == .running) = false →
      ∃ t, exec (.jobRun src) s = .next (jobsCheck t) ∧
        t = (let u := e.programs.foldl startJobBay (e.patches.foldl (fun s p => poke s p.2 (toLE 8 (gnum s (arg c 0x18 8 + 8 * p.1) 8))) s0)
             { u with sec := { u.sec with jobs := u.sec.jobs ++ [{ func := f, num := n, cmd := c.id, bays := e.programs.map (·.1), start := now u }] } })) ∧
    (Ready s src 0x22 c → ((bundle? s0 f n).bind fun b => b.info.entries[arg c 0x12 2]?) = none → n < 16 → exec (.jobRun src) s = .next (finish s0 c eSecBundle)) ∧
    (∀ a m rest, s.orphans = (a, m) :: rest → exec (.scrubDone 9 bad) s = .next (releaseHeldPages (scrubWith { s with orphans := rest } a m bad))) ∧
    (∀ a m id rest, s.sec.scrubs = (a, m, some id) :: rest → exec (.scrubDone 10 bad) s = .next
      (releaseHeldPages (finishId (scrubWith { s with sec := { s.sec with scrubs := rest } } a m bad) id 0))) ∧
    (1 ≤ owner → owner ≤ 8 → (tenant s owner).scrub ≠ [] → exec (.scrubDone owner 0) s = .next (releaseHeldPages (tenantScrubbed s owner)))

/-- SPDM requests and tenant keys. Requests are answered in the order of the connection and otherwise with an error:
version, capabilities, algorithms, digests, certificates, challenge, measurements, key exchange (drawing an ephemeral
key, and busy beyond four sessions of a port or eight in all), finish (its signature and MAC checked against the
session's transcript and keys), key update, heartbeat and end of session; KEY_PUT, KEY_CLEAR and KEY_LIST act on the
bound tenant's slots. Codes and the key schedule are PRESUMED from DSP0274 and DSP0277 (log entry 26). (R363, R364,
R365, R366, R367) -/
def Obligations.SpdmMailbox : Prop :=
  ∀ (s : State) (p sess slot off len index usage op : Nat) (nonce share leaf sig mac key : Bytes) (wm : Bool) (x : Session) (g : Nat), mailbox s p = true →
    (exec (.getVersion p) s = .next (spdm (setStage (endSessions s fun x => x.port == p) p 1) p 0 0x04 (toLE 1 0x13))) ∧
    (spdmStage s p ≠ 0 → exec (.getCapabilities p) s = .next (spdm (setStage s p 2) p 0 0x61 (toLE 1 0x13))) ∧
    (spdmStage s p = 0 → exec (.getCapabilities p) s = .next (spdmError s p 0 errUnexpected)) ∧
    (2 ≤ spdmStage s p → exec (.negotiateAlgorithms p true) s = .next (spdm (setStage s p 3) p 0 0x63 (toLE 1 0x13))) ∧
    (spdmStage s p < 3 → exec (.getDigests p sess) s = .next (spdmError s p sess errUnexpected)) ∧
    (3 ≤ spdmStage s p → (sess = 0 ∨ session? s p sess = some x ∧ x.established = true) →
      (exec (.getDigests p sess) s = .next (spdm s p sess 0x01 (toLE 1 3 ++ Config.sha384 (chain s 0) ++ Config.sha384 (chain s 1)))) ∧
      (slot ≤ 1 → off < (chain s slot).length → exec (.getCertificate p sess slot off len) s = .next (spdm s p sess 0x02 (toLE 1 slot ++ toLE 2 (((chain s slot).drop off).take len).length
        ++ toLE 2 ((chain s slot).length - off - (((chain s slot).drop off).take len).length) ++ ((chain s slot).drop off).take len))) ∧
      (1 < slot → exec (.getCertificate p sess slot off len) s = .next (spdmError s p sess errInvalid)) ∧
      (1 ≤ index → index ≤ 5 → exec (.getMeasurements p sess index false nonce) s = .next (spdm s p sess 0x60 (toLE 1 1 ++ (toLE 1 index ++ measurement s index))))) ∧
    (3 ≤ spdmStage s p → slot ≤ 1 → exec (.challenge p slot nonce) s = .next (spdm (nonce32 s).2 p 0 0x03
      (signed slot (sub nonce 0 32 ++ toLE 1 slot ++ Config.sha384 (chain (nonce32 s).2 slot) ++ (nonce32 s).1 ++ bootDigest (nonce32 s).2)))) ∧
    (3 ≤ spdmStage s p → slot ≤ 1 → Config.onCurve share = true →
      ((s.sec.sessions.filter (·.port == p)).length < 4 → s.sec.sessions.length < 8 →
        ∀ (d v : State) (k : Nat) (n body : Bytes), (k, d) = draw { s with nextId := s.nextId + 1 } → (n, v) = nonce32 d →
        body = signed slot (toLE 4 (s.nextId + 1) ++ toLE 1 (b2n wm) ++ Config.ephemeral k ++ n) →
        exec (.keyExchange p slot wm share) s = .next (spdmPlain { v with sec := { v.sec with sessions := v.sec.sessions ++ [handshakeKeys
          { id := s.nextId + 1, port := p, wantsMutual := wm, transcript := toLE 1 slot ++ share ++ body } (Config.ephemeralDh k share)] } }
          p (s.nextId + 1) 0x64 body)) ∧
      (4 ≤ (s.sec.sessions.filter (·.port == p)).length ∨ 8 ≤ s.sec.sessions.length → exec (.keyExchange p slot wm share) s = .next (spdmError s p 0 errBusy))) ∧
    (3 ≤ spdmStage s p → session? s p sess = some x → x.established = false →
      (finishOk x leaf sig mac = true → exec (.finish p sess leaf sig mac) s = .next (setSession (spdm s p sess 0x65 []) (dataKeys
        { x with established := true, func := if x.wantsMutual then tenantOf s leaf else none, transcript := x.transcript ++ sig ++ mac }))) ∧
      (finishOk x leaf sig mac = false → exec (.finish p sess leaf sig mac) s = .next (spdmError (endSessions s (·.id == sess)) p sess errInvalid))) ∧
    (3 ≤ spdmStage s p → sess ≠ 0 → session? s p sess = some x → x.established = true →
      (1 ≤ op → op ≤ 3 → exec (.keyUpdate p sess op) s = .next (spdm (setSession s (updatedKeys x op)) p sess 0x69 (toLE 1 op))) ∧
      (exec (.spdmHeartbeat p sess) s = .next (spdm s p sess 0x68 [])) ∧
      (exec (.endSession p sess) s = .next (endSessions (spdm s p sess 0x6C []) (·.id == sess))) ∧
      (x.func = some g → funcState s g ≠ 0 →
        (slot < 8 → usage < 4 → exec (.keyPut p sess slot usage key) s = .next
          (spdm { s with keySlots := minsert (8 * (g - 1) + slot) (usage, sub key 0 32) s.keySlots } p sess 0x7E (toLE 2 0))) ∧
        (slot < 8 → exec (.keyClear p sess slot) s = .next (spdm { s with keySlots := mdel (8 * (g - 1) + slot) s.keySlots } p sess 0x7E (toLE 2 0))) ∧
        (exec (.keyList p sess) s = .next (spdm s p sess 0x7E (toLE 1 (slotMap s g))))) ∧
      (x.func = none → exec (.keyList p sess) s = .next (spdm s p sess 0x7E (toLE 2 eSecSession))))

/-- Sequence commands. ADMIT and FORK with acceptable requests take a FREE entry as QUEUED and return its handle, and else
complete SEQ_PARAM; CANCEL and SET_MASK act on a named sequence or complete SEQ_UNKNOWN or SEQ_STATE; TOKEN_AREA sets
an area whose sequences are all FREE; PAUSE and its clear set and clear the pause. (R225, R229, R252, R254, R255,
R258, R260) -/
def Obligations.SequenceCommands : Prop :=
  ∀ (s : State) (src f i k : Nat) (c : Cmd) (s0 : State) (q p : Seq) (bu : Bundle) (b : Bytes) (a : Access) (pl : Place) (v : Nat),
    s0 = markStarted s c → f = cmdFunc c → b = gread s0 (arg c 0x10 8) 96 →
    (Ready s src 0x40 c → bundle? s0 f (arg c 0x1C 1) = some bu → arg c 0x1C 1 < 16 → poisonedIn s0 (arg c 0x10 8) 96 = false → freeEntry s0 = some i →
      q = { gen := (seqOf s0 i).gen, st := 1, func := f, bundle := arg c 0x1C 1, specN := num b 0x54 1, admitNo := s0.srv.nextAdmit, user := arg c 0x18 4,
            req := b.take 86, bias := biasList s0 (num b 0x18 8) (num b 0x4E 2), fork := none, target := num b 0x20 4 } →
      (requestOk s0 f (arg c 0x10 8) bu.info = true → exec (.admitSeq src) s = .next
        (finish (setSeq { s0 with srv := { s0.srv with nextAdmit := s0.srv.nextAdmit + 1 } } i q) c 0 (handleOf i q))) ∧
      (requestOk s0 f (arg c 0x10 8) bu.info = false → exec (.admitSeq src) s = .next (finish s0 c eSeqParam))) ∧
    (Ready s src 0x41 c → named s0 f (arg c 0x1C 4) = some k → p = seqOf s0 k → bundle? s0 f p.bundle = some bu → seqLives p = true → freeEntry s0 = some i →
      requestOk s0 f (arg c 0x10 8) bu.info = true → num b 0x55 1 = reqPool p → arg c 0x20 4 ≠ 0 → poisonedIn s0 (arg c 0x10 8) 96 = false →
      q = { gen := (seqOf s0 i).gen, st := 1, func := f, bundle := p.bundle, specN := num b 0x54 1, admitNo := s0.srv.nextAdmit, user := arg c 0x18 4,
            req := b.take 86, bias := biasList s0 (num b 0x18 8) (num b 0x4E 2), fork := some (arg c 0x1C 4, arg c 0x20 4), target := num b 0x20 4 } →
      (arg c 0x20 4 ≤ p.lenMax → arg c 0x20 4 < num b 0x20 4 → exec (.fork src) s = .next
        (finish (setSeq { s0 with srv := { s0.srv with nextAdmit := s0.srv.nextAdmit + 1 } } i q) c 0 (handleOf i q))) ∧
      (p.lenMax < arg c 0x20 4 ∨ num b 0x20 4 ≤ arg c 0x20 4 → exec (.fork src) s = .next (finish s0 c eSeqParam))) ∧
    (∀ i', Ready s src 0x42 c ∧ i' = .cancel src ∨ Ready s src 0x43 c ∧ i' = .setMask src → named s0 f (arg c 0x10 4) = none →
      exec i' s = .next (finish s0 c eSeqUnknown)) ∧
    (named s0 f (arg c 0x10 4) = some k → p = seqOf s0 k →
      (Ready s src 0x42 c → seqLives p = true → exec (.cancel src) s = .next
        (finish (satIncr (setSeq s0 k { p with st := 7, result := none }) K.srvCancelled 1) c 0)) ∧
      (Ready s src 0x42 c → seqLives p = false → exec (.cancel src) s = .next (finish s0 c eSeqState)) ∧
      (Ready s src 0x43 c → seqWorks p = true → reqMasked p = true → arg c 0x14 4 = nextPos p → arg c 0x18 8 % 64 = 0 →
        ownsRange s0 p.func (arg c 0x18 8) (cdiv (vocabOf s0 p) 8) = true → exec (.setMask src) s = .next
          (finish (setSeq s0 k { p with mask := some (nextPos p, arg c 0x18 8), st := if p.st = 4 then 3 else p.st }) c 0)) ∧
      (Ready s src 0x43 c → arg c 0x14 4 ≠ nextPos p → exec (.setMask src) s = .next (finish s0 c eSeqState))) ∧
    (Ready s src 0x44 c → 16 ≤ arg c 0x18 1 → arg c 0x18 1 ≤ 26 → arg c 0x19 1 < 16 → arg c 0x10 8 % 4096 = 0 →
      (seqHeld s0 f = false → exec (.tokenArea src) s = .next
        (finish (setArea s0 f { addr := arg c 0x10 8, size := 2 ^ arg c 0x18 1, ring := arg c 0x19 1, held := (area s0 f).held }) c 0)) ∧
      (seqHeld s0 f = true → exec (.tokenArea src) s = .next (finish s0 c eSeqState))) ∧
    (Reaches s a pl → pl.page = pgSrv → pl.off = 0x10 →
      (bit v 16 = true → exec (.pause a v) s = .next { s with srv := { s.srv with pause := true } }) ∧
      (bit v 16 = false → exec (.pauseClear a v) s = .next { s with srv := { s.srv with pause := false } }))

/-- Steps, batches, gleaner groups and swaps. A step boundary starts when it may and its step has ended or is due, waits
while copies it started run on their wain channels, ends when they are over, and otherwise nothing changes; a held
batch is posted once it fits; a gleaner group runs once its counter has its target, taking it; swap-out and swap-in
end when their copies have ended, a good swap-out leaves the pages SWAPPED in the next boundary's bent, a failed one
fails the sequence with KV_EXHAUSTED where recompute is off; REBUILD runs only from idle and ends with its interrupt,
and not while a step runs; HALT_ON_ERR with an error on its page keeps a group or REBUILD from starting. The
boundary's two phases are the model's (log entry 115). (R191, R193, R194, R232, R236, R256, R257) -/
def Obligations.StepsAndSwap : Prop :=
  ∀ (s u : State) (i f ctr target : Nat) (rows : List GlnRow) (bt : Batch) (rest : List Batch) (a : Access) (pl : Place) (v : Nat) (m : Mid) (b : Draft) (q : Seq)
    (c : Instr) (due : Bool),
    (u = snapshotsOut s → (c = .stepBoundary ∧ due = (stepEnded s || stepDue s) ∨ c = .emptyBoundary ∧ due = emptyDue s) →
      (u.srv.mid = none → mayBound u = true → due = true → exec c s = .next (boundary u)) ∧
      (u.srv.mid = none → mayBound u = false ∨ due = false → exec c s = .next u) ∧
      (u.srv.mid = some m → (m.jobs.all fun j => jobOver u j.1 j.2.1) = true → exec c s = .next (endBoundary u m)) ∧
      (u.srv.mid = some m → (m.jobs.all fun j => jobOver u j.1 j.2.1) = false → exec c s = .next u)) ∧
    ((s.tallyWaits.any fun w => w.kind == 0 && w.phase == 1) = false → snapshotsOut s = s) ∧
    ((area s f).held = bt :: rest → batchFits s f bt = true → exec (.heldBatchPost f) s = .next (postBatch (setArea s f { area s f with held := rest }) f bt)) ∧
    ((area s f).held = [] ∨ (area s f).held = bt :: rest ∧ batchFits s f bt = false → exec (.heldBatchPost f) s = .next s) ∧
    (ctr < 16 → s.srv.running = true → target ≤ mget (fun _ => 0) s.unitTokens ctr → haltedOnErr s pgGln = false → exec (.gleanerGroup ctr target rows) s = .next
      (rows.foldl glnSeq { s with unitTokens := mset (fun _ => 0) s.unitTokens ctr (mget (fun _ => 0) s.unitTokens ctr - target) })) ∧
    (mget (fun _ => 0) s.unitTokens ctr < target ∨ haltedOnErr s pgGln = true → exec (.gleanerGroup ctr target rows) s = .next s) ∧
    (q = seqOf s i →
      (swapOver s q 1 = true → exec (.swapOutDone i) s = .next (setSeq s i { q with swap := 5 })) ∧
      (swapOver s q 1 = false → exec (.swapOutDone i) s = .next s) ∧
      (swapOver s q 3 = true → exec (.swapInDone i) s = .next (setSeq s i { q with swap := 7 })) ∧
      (swapOver s q 3 = false → exec (.swapInDone i) s = .next s)) ∧
    (q = b.seq i → (swapCodes b.s q).all (· == 0) = true → b.swappedOut i = (({ b with
        s := incr b.s K.kvmSwapout q.pages.length, decs := b.decs ++ q.pages.map fun p => (i, rcOf b.s (reqPool q) ((b.tab i).getD p.1 0)) } : Draft).setTab i
      (q.pages.foldl (fun t p => t.set p.1 (putFld (putFld (t.getD p.1 0) 28 0 p.2.1) 35 35 1)) (b.tab i))).setSeq i { q with swap := 2, swapJob := none }) ∧
    (q = b.seq i → (swapCodes b.s q).all (· == 0) = false → bit (swapCfg b.s q.func) 12 = false →
      b.swappedOut i = b.setSeq i { q with swap := 0, pages := [], swapJob := none, fail := eKvExhausted }) ∧
    (Reaches s a pl → pl.page = pgKvm → pl.off = 0x44 → bit v 0 = true →
      (rf s K.kvmState 1 0 = 0 → haltedOnErr s pgKvm = false → exec (.rebuild a v) s = .next (wf s K.kvmState 1 0 1)) ∧
      (rf s K.kvmState 1 0 ≠ 0 ∨ haltedOnErr s pgKvm = true → exec (.rebuild a v) s = .next s)) ∧
    (rf s K.kvmState 1 0 = 1 → s.srv.running = false → s.srv.mid = none → exec .rebuildDone s = .next
      (raiseIrq (wf ((List.range 8).foldl rebuildPool s) K.kvmState 1 0 0) pgKvm 16)) ∧
    (s.srv.running = true ∨ s.srv.mid = some m → exec .rebuildDone s = .next s)

/-- Video stream commands. STREAM_OPEN takes the lowest free context for an acceptable block; commands for a context that
is free or another function's complete VID_STATE; DEC_SUBMIT keeps its bytes for parsing and ENC_FRAME queues its
frame, each waking a stalled context, PIC_RELEASE frees a posted slot, ENC_ROWS and TAP_SET set rows and taps, FLUSH
and CLOSE move the state, BS_RELEASE frees ring room, each in the states the spec gives it. (R266, R267, R268, R269,
R270, R271, R280) -/
def Obligations.StreamCommands : Prop :=
  ∀ (s : State) (src f i : Nat) (c : Cmd) (s0 : State) (b : Bytes) (x : VidCtx), s0 = markStarted s c → f = cmdFunc c → b = gread s0 (arg c 0x10 8) 128 →
    (Ready s src 0x60 c → arg c 0x10 8 % 64 = 0 → ownsRange s0 f (arg c 0x10 8) 128 = true → poisonedIn s0 (arg c 0x10 8) 128 = false →
      (bit (num b 1 1) 3 = false ∨ shadowSt s0 ≠ 1 ∨ s0.shadow.func ≠ f) → streamOk s0 f b = true →
      (((List.range 256).find? fun i => (vctx s0 i).st == 0) = some i → exec (.streamOpen src) s = .next (finish (setVctx s0 i
        { st := 1, func := f, block := b, slots := List.replicate (num b 7 1) {}, size := (num b 2 2, num b 4 2) }) c 0 i)) ∧
      (((List.range 256).find? fun i => (vctx s0 i).st == 0) = none → exec (.streamOpen src) s = .next (finish s0 c eVidLimit))) ∧
    (Ready s src 0x60 c → streamOk s0 f b = false → exec (.streamOpen src) s = .next (finish s0 c eVidParam)) ∧
    (∀ j, Ready s src 0x61 c ∧ j = .decSubmit src ∨ Ready s src 0x62 c ∧ j = .picRelease src ∨ Ready s src 0x63 c ∧ j = .encFrame src ∨
        Ready s src 0x64 c ∧ j = .encRows src ∨ Ready s src 0x65 c ∧ j = .tapSet src ∨ Ready s src 0x66 c ∧ j = .streamFlush src ∨
        Ready s src 0x67 c ∧ j = .streamClose src ∨ Ready s src 0x68 c ∧ j = .bsRelease src →
      (vctx s0 (arg c 0x10 1)).st = 0 ∨ (vctx s0 (arg c 0x10 1)).func ≠ f → exec j s = .next (finish s0 c eVidState)) ∧
    (i = arg c 0x10 1 → x = vctx s0 i → x.func = f →
      (Ready s src 0x61 c → 1 ≤ x.st → x.st ≤ 3 → vidEncode x = false → ownsRange s0 x.func (arg c 0x18 8) (arg c 0x14 4) = true →
        exec (.decSubmit src) s = .next (settleVideo s0 i { wake x with
          subs := x.subs ++ [{ cmd := c.id, addr := arg c 0x18 8, len := arg c 0x14 4, pts := arg c 0x20 8, deadline := arg c 0x28 8, idx := x.count, mark := bit (arg c 0x11 1) 0 }],
          stream := x.stream ++ [gread s0 (arg c 0x18 8) (arg c 0x14 4)], count := x.count + 1 })) ∧
      (Ready s src 0x62 c → 1 ≤ x.st → x.st ≤ 5 → vidEncode x = false → arg c 0x11 1 < vNpic x → (slotOf x (arg c 0x11 1)).posted = true →
        exec (.picRelease src) s = .next (finish (settleVideo s0 i (setSlotOf x (arg c 0x11 1) { slotOf x (arg c 0x11 1) with posted := false })) c 0)) ∧
      (Ready s src 0x62 c → 1 ≤ x.st → x.st ≤ 5 → vidEncode x = false → (slotOf x (arg c 0x11 1)).posted = false →
        exec (.picRelease src) s = .next (finish s0 c eVidState)) ∧
      (Ready s src 0x63 c → 1 ≤ x.st → x.st ≤ 3 → vidEncode x = true → arg c 0x18 8 % 64 = 0 → ownsRange s0 x.func (arg c 0x18 8) (slotBytes x) = true →
        ∀ key, key = (bit (arg c 0x11 1) 0 || x.gop == 0) → exec (.encFrame src) s = .next (settleVideo s0 i { wake x with
          subs := x.subs ++ [{ cmd := c.id, addr := arg c 0x18 8, len := slotBytes x, pts := arg c 0x20 8, deadline := arg c 0x28 8, mark := key, gmv := arg c 0x30 4, ready := min (arg c 0x12 2) (vn x 4 2), idx := x.count }], count := x.count + 1,
          gop := (if key then 1 else x.gop + 1) % vn x 0x40 2 })) ∧
      (Ready s src 0x64 c → 2 ≤ x.st → x.st ≤ 4 → vidEncode x = true → exec (.encRows src) s = .next
        (finish (settleVideo s0 i { x with subs := addReady (vn x 4 2) (arg c 0x12 2) x.subs }) c 0)) ∧
      (Ready s src 0x65 c → 1 ≤ x.st → x.st ≤ 5 → vidEncode x = false → arg c 0x11 1 < 4 →
        (arg c 0x18 8 = 0 → exec (.tapSet src) s = .next (finish (setVctx s0 i { x with
          taps := x.taps.set (arg c 0x11 1) [], tapped := x.tapped.set (arg c 0x11 1) 0, since := x.since.set (arg c 0x11 1) 0 }) c 0)) ∧
        (arg c 0x18 8 ≠ 0 → ownsRange s0 x.func (arg c 0x18 8) 64 = true → tapOk s0 x.func (gread s0 (arg c 0x18 8) 64) = true → poisonedIn s0 (arg c 0x18 8) 64 = false →
          exec (.tapSet src) s = .next (finish (setVctx s0 i { x with
            taps := x.taps.set (arg c 0x11 1) (gread s0 (arg c 0x18 8) 64), tapped := x.tapped.set (arg c 0x11 1) 0, since := x.since.set (arg c 0x11 1) 0 }) c 0))) ∧
      (Ready s src 0x66 c → x.st = 2 ∨ x.st = 3 → exec (.streamFlush src) s = .next (settleVideo (finish s0 c 0) i { x with st := 4 })) ∧
      (Ready s src 0x67 c → 1 ≤ x.st → x.st ≤ 6 → exec (.streamClose src) s = .next (setVctx s0 i { x with st := 6, closeCmds := x.closeCmds ++ [c.id] })) ∧
      (Ready s src 0x68 c → 1 ≤ x.st → x.st ≤ 5 → vidEncode x = true → exec (.bsRelease src) s = .next
        (finish (settleVideo s0 i { x with released := releasedTo x (arg c 0x14 4) }) c 0)))

/-- Video cores, slices and taps. Parsing the next unit of a submission skips a damaged one to its resynchronisation
point, ends the submission, drops a discarded one, faults the stream (or ends a JPEG submission) for an unsupported
feature and faults it for a size, or opens a picture in a free slot or adds a unit to the open one; a core chooses the
context due next or stays idle; a decoded unit ends and frees the core; an encode core codes the next slice with the
motion search, the rate control's QP and the reconstruction, and a slice without ring room waits; a tap row runs once
its rows are final, frames over the ring are dropped with their flag; HALT_ON_ERR with an error on the page keeps a
parse, a core's choice and a tapped frame from starting; a context closes once nothing of it runs. What a bitstream
says, and the coding of a slice, are uninterpreted functions (log entries 7, 186). (R262, R264, R265, R272, R274,
R276, R278, R279, R280, R284, R263, R271) -/
def Obligations.VideoCores : Prop :=
  ∀ (s s' : State) (core i j k t : Nat) (x x' : VidCtx) (h : UnitHead) (b : VidSub) (u : VidUnit) (p : VidPic) (tj : TapJob) (q : Search) (vecs : List BlockVec) (data : Bytes),
    (x = vctx s i → 2 ≤ x.st → x.st ≤ 4 → vidEncode x = false → haltedOnErr s pgVid = false → parsing x = some b → ∀ out, out = Config.parse x.block (streamTo x b.idx) b.pos →
      (out = .syntaxError → exec (.headerParseDone i) s = .next (settleVideo (recordErr (satIncr s K.vidSyntax 1) pgVid eVidSyntax x.func 0) i
        (parseGoes x (resync (vCodec x) ((x.stream[b.idx]?).getD []) b.pos)))) ∧
      (out = .ended → exec (.headerParseDone i) s = .next (parseEnd s i x b)) ∧
      (out = .unit h → h.features.any (discardedFeature (vCodec x)) = true → exec (.headerParseDone i) s = .next (settleVideo s i (parseOn x b))) ∧
      (out = .unit h → h.features.any (discardedFeature (vCodec x)) = false →
        (unsupported x h = true → vCodec x ≠ 3 → exec (.headerParseDone i) s = .next (faultStream s i x eVidUnsupported)) ∧
        (unsupported x h = true → vCodec x = 3 → exec (.headerParseDone i) s = .next (settleVideo (finishId s b.cmd eVidUnsupported) i { x with
          subs := x.subs.filter (·.idx != b.idx), units := x.units.filter (·.sub != b.idx), pics := x.pics.filter (·.sub != b.idx) })) ∧
        (unsupported x h = false →
          (h.first = true → fitsIn (h.width, h.height) (vMax x) = false ∨ fitsIn (h.width, h.height) (codecMax (vCodec x)) = false →
            exec (.headerParseDone i) s = .next (faultStream s i { x with size := (h.width, h.height) } eVidSize)) ∧
          (h.first = true → fitsIn (h.width, h.height) (vMax x) = true → fitsIn (h.width, h.height) (codecMax (vCodec x)) = true → openPic x = none →
            (List.range (vNpic (applyHead x h))).find? (slotFree (applyHead x h)) = some k → exec (.headerParseDone i) s = .next (newPic s i (applyHead x h) h b k)) ∧
          (h.first = false → openPic x = some p → bit p.flags 3 = false → exec (.headerParseDone i) s = .next (settleVideo s i (addUnit x p b h.last)))))) ∧
    ((vctx s i).st = 0 ∨ haltedOnErr s pgVid = true ∨ parsing (vctx s i) = none → exec (.headerParseDone i) s = .next s) ∧
    (core < 6 → (vcore s core).ctx = none → coreOn s core = true → ∀ s1, s1 = s.video.foldl (fun s e => skipLate 64 s e.1) s →
      (chooseWork s1 core = none → exec (.coreChoose core) s = .next s1) ∧
      (chooseWork s1 core = some i → ∃ t y, exec (.coreChoose core) s = .next (setVctx (setVcore t core { vcore t core with ctx := some i, unfinished := none }) i y) ∧
        y.onCore = some core ∧ y.served = t.clock ∧ y.st ≠ 3)) ∧
    ((vcore s core).ctx ≠ none ∨ coreOn s core = false → exec (.coreChoose core) s = .next s) ∧
    ((vcore s core).ctx = some i → core < 4 → x = vctx s i → x.units.head? = some u → headPic x = some p → 2 ≤ x.st → x.st ≤ 4 →
      ∃ t y n, exec (.unitDecoded core) s = .next (settleVideo (freeCore t core n) i y) ∧ y.onCore = none ∧ y.units = x.units.drop 1) ∧
    ((vcore s core).ctx = none → exec (.unitDecoded core) s = .next s ∧ exec (.sliceOut core) s = .next s) ∧
    ((vcore s core).ctx = some i → 4 ≤ core → x = vctx s i → encNext x = some j → x.subs[j]? = some b → 2 ≤ x.st → x.st ≤ 4 →
      (s', x') = startFrame s x b → q = searchOf s x' b (frameType x b) (sliceQp x (frameType x b)) →
      vecs = (if frameType x b = 0 then [] else searchSlice q (Config.predBlocks x.block q.src q.qp b.taken (rowsNeeded x b - b.taken))) →
      data = sliceBytes x b (frameType x b) q vecs →
      (ringRoom x < data.length → exec (.sliceOut core) s = .next
        (settleVideo (freeCore s core (some i)) i { x with onCore := none, needs := data.length })) ∧
      (data.length ≤ ringRoom x → (rowsNeeded x b == vn x 4 2) = false → exec (.sliceOut core) s = .next
        (settleVideo (freeCore (vpost (countEncode (writeRecon (writeRing s' x' data) x' b q vecs) core ((rowsNeeded x b - b.taken) * vn x 2 2) data.length)
          x 0x39 (sliceMsg i x b false data.length q.qp)) core (some i)) i (afterSlice { x' with vecs := x'.vecs ++ vecs } j b false data.length))) ∧
      (data.length ≤ ringRoom x → (rowsNeeded x b == vn x 4 2) = true → ∃ t, exec (.sliceOut core) s = .next
        (settleVideo (freeCore (finishId t b.cmd 0) core none) i (afterSlice { x' with vecs := x'.vecs ++ vecs } j b true data.length)))) ∧
    (x = vctx s i → 2 ≤ x.st → x.st ≤ 4 → tapWork x t = some (p, tj) → poisonedIn s (slotAddr x p.slot + 64) (slotBytes x - 64) = false →
      (p.final ≤ tapNeeds tj.block p tj.row → exec (.tapRow i t) s = .next s) ∧
      (tapNeeds tj.block p tj.row < p.final → tj.begun = true → exec (.tapRow i t) s = .next (tapRowOf s i x p tj)) ∧
      (tapNeeds tj.block p tj.row < p.final → tj.begun = false → x.tapped.getD t 0 < gnum s (64 * num tj.block 0x3C 4) 8 + num tj.block 0x0C 1 → enginesBusy s < 8 → haltedOnErr s pgVid = false →
        cropClamped tj.block p = false → exec (.tapRow i t) s = .next
          (tapRowOf s i { x with tapped := x.tapped.set t (x.tapped.getD t 0 + 1) } p { tj with begun := true, frame := x.tapped.getD t 0 })) ∧
      (tapNeeds tj.block p tj.row < p.final → tj.begun = false → gnum s (64 * num tj.block 0x3C 4) 8 + num tj.block 0x0C 1 ≤ x.tapped.getD t 0 →
        bit (num tj.block 0x3A 1) 0 = true → exec (.tapRow i t) s = .next (settleVideo (satIncr s K.vidTapDrop 1) i (setPic x (dropJob p t 6))))) ∧
    (x = vctx s i → closable s i x = true → exec (.closed i) s = .next
      (x.closeCmds.foldl (fun s id => finishId s id 0) (streamEvent (x.subs.foldl (fun s b => finishId s b.cmd eVidState) (setVctx s i {})) i x 2 0))) ∧
    (closable s i (vctx s i) = false → exec (.closed i) s = .next s)

/-- The first error is kept and all are counted. However many errors a page records one after another: from a clear
BLK_ERR, CODE and BLK_ERR_INFO are those of the first and COUNT is their number up to the field's 0x3FFF; from a
BLK_ERR that is already valid, CODE and BLK_ERR_INFO do not change and COUNT rises by their number up to 0x3FFF. (R44) -/
def Obligations.FirstErrorIsKept : Prop :=
  ∀ (s : State) (page : Nat) (e : Err) (es : List Err), e.code < 2 ^ 16 → e.func < 16 → e.detail < 2 ^ 16 →
    let t := recordAll s page (e :: es)
    (bit (rd s (K.blkErr page)) 31 = false →
      rd t (K.blkErr page) = 2 ^ 31 + 2 ^ 16 * min (es.length + 1) 0x3FFF + e.code ∧
      rd t (K.blkErrInfo page) = e.func + 16 * (e.off % 0x1000) + 2 ^ 16 * e.detail) ∧
    (bit (rd s (K.blkErr page)) 31 = true →
      fld (rd t (K.blkErr page)) 15 0 = fld (rd s (K.blkErr page)) 15 0 ∧
      rd t (K.blkErrInfo page) = rd s (K.blkErrInfo page) ∧
      fld (rd t (K.blkErr page)) 29 16 = min (fld (rd s (K.blkErr page)) 29 16 + es.length + 1) 0x3FFF)

/-- What a full fault log overwrites. Committing a record keeps a sublist of the log and appends the sealed record;
nothing is dropped while it fits; what is kept fits; and whenever a record is dropped, no record that stands only
before it and is kept ranks at or below it and no kept record after it ranks below it, where acknowledged records rank
lowest and unacknowledged UNCLEAN and INPUT_LOSS records highest. (R494) -/
def Obligations.FullLogOverwrites : Prop :=
  ∀ (s : State) (r : FaultRec), ∃ kept : List FaultRec,
    (commitRecord s r).faultLog = kept ++ [sealRecord r s.faultSeq] ∧ List.Sublist kept s.faultLog ∧
      (logBytes s.faultLog + (sealRecord r s.faultSeq).bytes.length ≤ logCapacity → kept = s.faultLog) ∧
      ((sealRecord r s.faultSeq).bytes.length ≤ logCapacity → logBytes kept + (sealRecord r s.faultSeq).bytes.length ≤ logCapacity) ∧
      ∀ before x after, s.faultLog = before ++ x :: after → x ∉ kept →
        (∀ y ∈ before, y ∉ x :: after → y ∈ kept → keepRank x < keepRank y) ∧ ∀ y ∈ after, y ∈ kept → keepRank x ≤ keepRank y

end
end

