-- ==== Sys2Proof/Laws/Map.lean ====
section
/-! SUPPORT. Laws of the sparse maps: reading after writing, and that every operation keeps the canonical form. -/

namespace Sys2Proof.Machine

variable {α : Type} [DecidableEq α] {d : Nat → α}

/-- The canonical form, entry by entry. -/
theorem mwfFrom_iff (lo : Option Nat) (m : Map α) :
    mwfFrom d lo m = true ↔
      (∀ e ∈ m, (∀ l, lo = some l → l < e.1) ∧ e.2 ≠ d e.1) ∧ m.Pairwise (fun a b => a.1 < b.1) := by
  induction m generalizing lo with
  | nil => simp [mwfFrom]
  | cons e m ih =>
    obtain ⟨k, v⟩ := e
    cases lo with
    | none =>
      simp only [mwfFrom, ih, Bool.and_eq_true, decide_eq_true_eq, List.pairwise_cons, List.mem_cons, Option.some.injEq]
      constructor
      · rintro ⟨⟨-, hv⟩, h, hp⟩
        refine ⟨?_, fun e he => (h e he).1 k rfl, hp⟩
        rintro e (rfl | he)
        · exact ⟨by simp, hv⟩
        · exact ⟨by simp, (h e he).2⟩
      · rintro ⟨h, hk, hp⟩
        exact ⟨⟨trivial, (h _ (.inl rfl)).2⟩, fun e he => ⟨fun l hl => hl ▸ hk e he, (h e (.inr he)).2⟩, hp⟩
    | some l =>
      simp only [mwfFrom, ih, Bool.and_eq_true, decide_eq_true_eq, List.pairwise_cons, List.mem_cons, Option.some.injEq]
      constructor
      · rintro ⟨⟨hl, hv⟩, h, hp⟩
        refine ⟨?_, fun e he => (h e he).1 k rfl, hp⟩
        rintro e (rfl | he)
        · exact ⟨fun _ hl' => hl' ▸ hl, hv⟩
        · exact ⟨fun _ hl' => hl' ▸ hl.trans ((h e he).1 k rfl), (h e he).2⟩
      · rintro ⟨h, hk, hp⟩
        exact ⟨⟨(h _ (.inl rfl)).1 l rfl, (h _ (.inl rfl)).2⟩, fun e he => ⟨fun l hl => hl ▸ hk e he, (h e (.inr he)).2⟩, hp⟩

theorem mwf_iff (m : Map α) : mwf d m = true ↔ (∀ e ∈ m, e.2 ≠ d e.1) ∧ m.Pairwise (fun a b => a.1 < b.1) := by
  simp [mwf, mwfFrom_iff]

omit [DecidableEq α] in
theorem mem_minsert {k : Nat} {v : α} {m : Map α} {e : Nat × α} (h : e ∈ minsert k v m) : e = (k, v) ∨ e ∈ m := by
  induction m with
  | nil => simp_all [minsert]
  | cons x m ih =>
    obtain ⟨j, w⟩ := x
    simp only [minsert] at h
    split at h
    · simpa using h
    · split at h
      · rcases List.mem_cons.1 h with h | h <;> simp_all
      · rcases List.mem_cons.1 h with h | h
        · simp_all
        · rcases ih h with h | h <;> simp_all

omit [DecidableEq α] in
theorem minsert_sorted {k : Nat} {v : α} {m : Map α} (h : m.Pairwise (fun a b => a.1 < b.1)) :
    (minsert k v m).Pairwise (fun a b => a.1 < b.1) := by
  induction m with
  | nil => simp [minsert]
  | cons x m ih =>
    obtain ⟨j, w⟩ := x
    obtain ⟨hx, hm⟩ := List.pairwise_cons.1 h
    simp only [minsert]
    split
    · rename_i hk
      refine List.pairwise_cons.2 ⟨?_, h⟩
      rintro e he
      rcases List.mem_cons.1 he with rfl | he
      · exact hk
      · exact hk.trans (hx e he)
    · split
      · rename_i hk
        subst hk
        exact List.pairwise_cons.2 ⟨hx, hm⟩
      · refine List.pairwise_cons.2 ⟨fun e he => ?_, ih hm⟩
        rcases mem_minsert he with rfl | he
        · show j < k; omega
        · exact hx e he

/-- Dropping entries keeps the canonical form. -/
theorem mwf_filter {m : Map α} (h : mwf d m = true) (p : Nat × α → Bool) : mwf d (m.filter p) = true := by
  rw [mwf_iff] at *
  exact ⟨fun e he => h.1 e (List.mem_filter.1 he).1, h.2.filter p⟩

/-- A write keeps the canonical form. -/
theorem mwf_mset {m : Map α} (h : mwf d m = true) (k : Nat) (v : α) : mwf d (mset d m k v) = true := by
  unfold mset
  split
  · exact mwf_filter h _
  · rename_i hv
    rw [mwf_iff] at *
    refine ⟨fun e he => ?_, minsert_sorted h.2⟩
    rcases mem_minsert he with rfl | he
    · exact hv
    · exact h.1 e he

/-- A run of writes keeps the canonical form. -/
theorem mwf_msetMany {m : Map α} (h : mwf d m = true) (k : Nat) (vs : List α) : mwf d (msetMany d m k vs) = true := by
  induction vs generalizing m k with
  | nil => exact h
  | cons v vs ih => exact ih (mwf_mset h k v) (k + 1)

omit [DecidableEq α] in
theorem mget_minsert (m : Map α) (k j : Nat) (v : α) : mget d (minsert k v m) j = if k = j then v else mget d m j := by
  induction m with
  | nil => simp [minsert, mget]
  | cons x m ih =>
    obtain ⟨i, w⟩ := x
    simp only [minsert]
    split
    · simp [mget]
    · split
      · rename_i h; subst h; simp only [mget]; split <;> simp_all
      · simp only [mget, ih]; split <;> split <;> simp_all

omit [DecidableEq α] in
theorem mget_mdel (m : Map α) (k j : Nat) (h : m.Pairwise (fun a b => a.1 < b.1)) :
    mget d (mdel k m) j = if k = j then d k else mget d m j := by
  induction m with
  | nil => simp only [mdel, List.filter_nil, mget]; split <;> simp_all
  | cons x m ih =>
    obtain ⟨i, w⟩ := x
    obtain ⟨hx, hm⟩ := List.pairwise_cons.1 h
    have ih := ih hm
    simp only [mdel, List.filter_cons] at ih ⊢
    by_cases hi : i = k
    · subst hi
      simp only [bne_self_eq_false, Bool.false_eq_true, if_false, ih, mget]
      split <;> simp_all
    · have : (i != k) = true := by simp [hi]
      simp only [this, if_true, mget, ih]
      split <;> split <;> simp_all

/-- Reading after a write gives the value written at its key and what was there at every other. -/
theorem mget_mset {m : Map α} (h : mwf d m = true) (k j : Nat) (v : α) :
    mget d (mset d m k v) j = if k = j then v else mget d m j := by
  unfold mset
  split
  · rename_i hv
    rw [mget_mdel _ _ _ ((mwf_iff m).1 h).2, hv]
  · exact mget_minsert m k j v

end Sys2Proof.Machine
end

