-- ==== Sys2Proof/Laws/Regs.lean ====
section
/-! SUPPORT. What is read after a write: the sparse maps, bit fields, register places and the banks of the state. -/

namespace Sys2Proof.Machine

/-! ### Maps -/

theorem mget_del {α : Type} (d : Nat → α) (m : Map α) (k j : Nat) :
    mget d (mdel k m) j = if j = k then d k else mget d m j := by
  induction m with
  | nil => simp only [mdel, List.filter_nil, mget]; split <;> simp_all
  | cons e m ih =>
    obtain ⟨i, v⟩ := e
    simp only [mdel, List.filter_cons] at ih ⊢
    by_cases hi : i = k
    · subst hi
      simp only [bne_self_eq_false, Bool.false_eq_true, if_false, ih, mget]
      by_cases hj : j = i
      · simp [hj]
      · simp [hj, Ne.symm hj]
    · have : (i != k) = true := by simpa using hi
      simp only [this, if_true, mget, ih]
      by_cases h2 : i = j
      · subst h2; simp [hi]
      · simp [h2]

/-- What a key reads as after a write, of any map. -/
@[simp] theorem mget_set {α : Type} [DecidableEq α] (d : Nat → α) (m : Map α) (k j : Nat) (v : α) :
    mget d (mset d m k v) j = if k = j then v else mget d m j := by
  unfold mset
  split
  · next h =>
    rw [mget_del]
    by_cases hj : j = k
    · subst hj; simp [h]
    · simp [hj, Ne.symm hj]
  · exact mget_minsert m k j v

/-! ### Bit fields -/

theorem fld_lt (n hi lo : Nat) : fld n hi lo < 2 ^ (hi + 1 - lo) := Nat.mod_lt _ (Nat.two_pow_pos _)

theorem fld_sub (n hi lo : Nat) : fld n hi lo * 2 ^ lo ≤ n := by
  unfold fld
  rw [Nat.shiftRight_eq_div_pow]
  calc (n / 2 ^ lo) % 2 ^ (hi + 1 - lo) * 2 ^ lo ≤ (n / 2 ^ lo) * 2 ^ lo := Nat.mul_le_mul_right _ (Nat.mod_le _ _)
    _ ≤ n := Nat.div_mul_le_self _ _

/-- A number as what lies below a field, the field and what lies above it. -/
theorem fld_split (n hi lo : Nat) (h : lo ≤ hi) :
    n = n % 2 ^ lo + fld n hi lo * 2 ^ lo + n / 2 ^ (hi + 1) * 2 ^ (hi + 1) := by
  unfold fld
  rw [Nat.shiftRight_eq_div_pow]
  have e : 2 ^ (hi + 1) = 2 ^ (hi + 1 - lo) * 2 ^ lo := by rw [← Nat.pow_add]; congr 1; omega
  have h1 := Nat.mod_add_div n (2 ^ lo)
  have h2 := Nat.mod_add_div (n / 2 ^ lo) (2 ^ (hi + 1 - lo))
  rw [Nat.div_div_eq_div_mul, Nat.mul_comm (2 ^ lo), ← e] at h2
  generalize n / 2 ^ (hi + 1) = a at *
  generalize n / 2 ^ lo = b at *
  generalize b % 2 ^ (hi + 1 - lo) = c at *
  rw [e, ← h1, ← h2]
  simp only [Nat.add_mul_mod_self_left, Nat.mod_mod]
  ring

theorem putFld_eq (n hi lo v : Nat) (h : lo ≤ hi) :
    putFld n hi lo v = n % 2 ^ lo + v % 2 ^ (hi + 1 - lo) * 2 ^ lo + n / 2 ^ (hi + 1) * 2 ^ (hi + 1) := by
  unfold putFld
  have := fld_split n hi lo h
  have := fld_sub n hi lo
  omega

/-- The field that was put is read back. -/
@[simp] theorem fld_putFld (n hi lo v : Nat) (h : lo ≤ hi) : fld (putFld n hi lo v) hi lo = v % 2 ^ (hi + 1 - lo) := by
  rw [putFld_eq n hi lo v h]
  unfold fld
  rw [Nat.shiftRight_eq_div_pow]
  have e : 2 ^ (hi + 1) = 2 ^ lo * 2 ^ (hi + 1 - lo) := by rw [← Nat.pow_add]; congr 1; omega
  have hl : n % 2 ^ lo < 2 ^ lo := Nat.mod_lt _ (Nat.two_pow_pos _)
  rw [e]
  have : n % 2 ^ lo + v % 2 ^ (hi + 1 - lo) * 2 ^ lo + n / (2 ^ lo * 2 ^ (hi + 1 - lo)) * (2 ^ lo * 2 ^ (hi + 1 - lo))
      = n % 2 ^ lo + 2 ^ lo * (v % 2 ^ (hi + 1 - lo) + n / (2 ^ lo * 2 ^ (hi + 1 - lo)) * 2 ^ (hi + 1 - lo)) := by ring
  rw [this, Nat.add_mul_div_left _ _ (Nat.two_pow_pos _), Nat.div_eq_of_lt hl, Nat.zero_add, Nat.add_mul_mod_self_right,
    Nat.mod_mod]

theorem putFld_lt {n hi lo v m : Nat} (h : lo ≤ hi) (hm : hi + 1 ≤ m) (hn : n < 2 ^ m) : putFld n hi lo v < 2 ^ m := by
  rw [putFld_eq n hi lo v h]
  have e : 2 ^ (hi + 1) = 2 ^ (hi + 1 - lo) * 2 ^ lo := by rw [← Nat.pow_add]; congr 1; omega
  have e2 : 2 ^ m = 2 ^ (m - (hi + 1)) * 2 ^ (hi + 1) := by rw [← Nat.pow_add]; congr 1; omega
  have hl : n % 2 ^ lo < 2 ^ lo := Nat.mod_lt _ (Nat.two_pow_pos _)
  have hv : v % 2 ^ (hi + 1 - lo) + 1 ≤ 2 ^ (hi + 1 - lo) := Nat.mod_lt _ (Nat.two_pow_pos _)
  have hd : n / 2 ^ (hi + 1) + 1 ≤ 2 ^ (m - (hi + 1)) := by
    rw [Nat.succ_le_iff, Nat.div_lt_iff_lt_mul (Nat.two_pow_pos _), ← e2]; exact hn
  have a1 := Nat.mul_le_mul_right (2 ^ lo) hv
  have a2 := Nat.mul_le_mul_right (2 ^ (hi + 1)) hd
  rw [← e2, Nat.add_mul] at a2
  rw [← e, Nat.add_mul] at a1
  omega

theorem bit_fld (n i : Nat) : bit n i = decide (fld n i i = 1) := by
  unfold bit fld
  rw [Nat.testBit_eq_decide_div_mod_eq, Nat.shiftRight_eq_div_pow]
  simp

@[simp] theorem fld_mod32 (n hi lo : Nat) (h : hi ≤ 31) (hl : lo ≤ hi) : fld (n % 2 ^ 32) hi lo = fld n hi lo := by
  unfold fld
  rw [Nat.shiftRight_eq_div_pow, Nat.shiftRight_eq_div_pow]
  have e : 2 ^ 32 = 2 ^ lo * 2 ^ (32 - lo) := by rw [← Nat.pow_add]; congr 1; omega
  rw [e, Nat.mod_mul_right_div_self]
  have e3 : 2 ^ (32 - lo) = 2 ^ (hi + 1 - lo) * 2 ^ (31 - hi) := by rw [← Nat.pow_add]; congr 1; omega
  rw [e3, Nat.mod_mul_right_mod]

/-! ### Register places -/

theorem rd_lt (s : State) (k : Nat) : rd s k < 2 ^ 32 := (mget regReset s.regs k).isLt

/-- What a place reads as after a write of a place. -/
@[simp] theorem rd_wr (s : State) (k v j : Nat) : rd (wr s k v) j = if k = j then v % 2 ^ 32 else rd s j := by
  unfold rd wr
  simp only [mget_set]
  split
  · simp
  · rfl

@[simp] theorem rd_wrStaged (s : State) (k v j : Nat) : rd (wrStaged s k v) j = rd s j := rfl
@[simp] theorem rdStaged_wr (s : State) (k v j : Nat) : rdStaged (wr s k v) j = rdStaged s j := rfl
@[simp] theorem rdStaged_wrStaged (s : State) (k v j : Nat) :
    rdStaged (wrStaged s k v) j = if k = j then v % 2 ^ 32 else rdStaged s j := by
  unfold rdStaged wrStaged
  simp only [mget_set]
  split
  · simp
  · rfl

theorem rd_wf (s : State) (k hi lo v j : Nat) (h : lo ≤ hi) (h2 : hi ≤ 31) :
    rd (wf s k hi lo v) j = if k = j then putFld (rd s k) hi lo v else rd s j := by
  unfold wf
  rw [rd_wr]
  split
  · exact Nat.mod_eq_of_lt (putFld_lt h (by omega) (rd_lt s k))
  · rfl

theorem rd_wf_ne (s : State) (k hi lo v j : Nat) (h : k ≠ j) : rd (wf s k hi lo v) j = rd s j := by
  unfold wf; rw [rd_wr, if_neg h]

/-- A field that was written is read back. -/
theorem rf_wf (s : State) (k hi lo v : Nat) (h : lo ≤ hi) (h2 : hi ≤ 31) :
    rf (wf s k hi lo v) k hi lo = v % 2 ^ (hi + 1 - lo) := by
  unfold rf
  rw [rd_wf s k hi lo v k h h2, if_pos rfl, fld_putFld _ _ _ _ h]

/-- A bit that was written is read back. -/
theorem bit_setBit (s : State) (k i : Nat) (b : Bool) (h : i ≤ 31) : bit (rd (setBit s k i b) k) i = b := by
  have := rf_wf s k i i (b2n b) (Nat.le_refl i) h
  unfold setBit
  rw [bit_fld]
  unfold rf at this
  rw [this]
  cases b <;> simp [b2n]

theorem rd_setBit_ne (s : State) (k i : Nat) (b : Bool) (j : Nat) (h : k ≠ j) : rd (setBit s k i b) j = rd s j :=
  rd_wf_ne s k i i _ j h

@[simp] theorem rd_satIncr (s : State) (k n : Nat) : rd (satIncr s k n) k = min (rd s k + n) 0xFFFFFFFF := by
  unfold satIncr
  rw [rd_wr, if_pos rfl]
  exact Nat.mod_eq_of_lt (by omega)

theorem rd_satIncr_ne (s : State) (k n j : Nat) (h : k ≠ j) : rd (satIncr s k n) j = rd s j := by
  unfold satIncr; rw [rd_wr, if_neg h]

/-! ### Banks -/

@[simp] theorem bay_setBay (s : State) (b c : Nat) (x : Bay) : bay (setBay s b x) c = if b = c then x else bay s c := by
  simp [bay, setBay]

@[simp] theorem tok_setTok (x : Bay) (c v j : Nat) : tok (setTok x c v) j = if c = j then v else tok x j := by
  simp [tok, setTok]

@[simp] theorem cred_setCred (x : Bay) (c v j : Nat) : cred (setCred x c v) j = if c = j then v else cred x j := by
  simp [cred, setCred]

@[simp] theorem eqr_setEqr (s : State) (f n g m : Nat) (x : EvRing) :
    eqr (setEqr s f n x) g m = if eqKey f n = eqKey g m then x else eqr s g m := by
  simp [eqr, setEqr]

end Sys2Proof.Machine
end

