-- ==== Sys2Proof/Laws/Commands.lean ====
section
/-! SUPPORT. What the shared entries of the commands do: a command record that is ready runs its own effect, and a
register access that reaches a place runs its effect there. -/

namespace Sys2Proof.Machine

/-- A ready command record is marked as started and runs its own effect. -/
theorem withCmd_ready {s : State} {src op : Nat} {c : Cmd} (h : Ready s src op c) (f : State → Cmd → State) :
    withCmd s src op f = f (markStarted s c) c := by
  obtain ⟨hn, ho, hf, hc, hg⟩ := h
  unfold withCmd
  simp only [hn, ho, hf, ne_eq, not_true_eq_false, decide_false, Bool.or_self, Bool.false_eq_true, if_false, hg]
  by_cases hi : isControl op = true
  · simp [hi, hc hi]
  · simp [hi]

/-- An access that reaches a place runs its effect there. -/
theorem atPlace_reaches {s : State} {a : Access} {pl : Place} (h : Reaches s a pl) (f : State → Place → State) :
    atPlace s a f = f s pl := by
  unfold atPlace
  simp [h.1, h.2]

end Sys2Proof.Machine
end

