-- ==== Sys2Proof/Laws/FrameGranary.lean ====
section
/-! SUPPORT. Every operation and command that stores nothing at once in the granary leaves its bytes as they were. -/

set_option linter.unusedTactic false
set_option linter.unreachableTactic false
set_option linter.unusedSimpArgs false
set_option linter.unusedVariables false

namespace Sys2Proof.Machine

@[simp] theorem granary_mk (pending : List Instr) (clock : Nat) (mtime : BitVec 96) (lastSample : Nat) (free : Nat) (nextId :
    Nat) (out : List Output) (regs : Map Word) (staged : Map Word) (latched : Map Word) (unlocked : List (Nat × Nat))
    (lockSeen : List Nat) (irqHigh : List Nat) (mem : List Host.Cell) (gwq : List GWrite) (readGrants : Map Nat) (held : List
    Held) (poison : List Nat) (lineVer : Map Nat) (retained : List Retained) (deferred : List Deferred) (lentLast : Map Nat)
    (bays : Map Bay) (mesh : List MeshMsg) (unitTokens : Map Nat) (ramp : Ramp) (slots : Map Slot) (raises : Nat) (stepEpoch
    : Option Nat) (stallFrom : Option Nat) (cmds : List Cmd) (sqs : Map SqRing) (eqs : Map EvRing) (ports : List Port)
    (msixTab : Map Word) (pba : List (Nat × Nat × Nat)) (tenants : Map Tenant) (hosts : List HostRec) (ptp : List (Option
    PtpMaster)) (everClaimed : Bool) (mgmtKey : Bytes) (claimKeys : List Nat) (wains : Map Wain) (wiring : Wiring) (shadow :
    Shadow) (tallyWaits : List TallyWait) (certs : List CertJob) (fencing : Option Nat) (tallySince : Map (Nat × Bool))
    (tallyDown : List Nat) (tallyOut : List (Nat × Nat × Bytes)) (joinWait : Bool) (tray : Tray) (faultLog : List FaultRec)
    (faultSeq : Nat) (flash : Flash) (power : Power) (kvBlocks : Map (List (Nat × Nat))) (kvPoison : List (Nat × Nat × Nat))
    (keySlots : Map (Nat × Bytes)) (nonces : Map Nat) (fwDone : List (Nat × Nat)) (fwWait : List (Nat × Chain)) (fwAgain :
    List (List Action)) (lastTb : Nat) (orphans : List (Nat × Nat)) (kvMarks : List (Nat × Nat)) (sec : Security) (keysLocked
    : Bool) (seqs : Map Seq) (seqPub : Map Seq) (srv : Serve) (video : Map VidCtx) (cores : Map VidCore) :
    granary ⟨pending, clock, mtime, lastSample, free, nextId, out, regs, staged, latched, unlocked, lockSeen, irqHigh, mem,
    gwq, readGrants, held, poison, lineVer, retained, deferred, lentLast, bays, mesh, unitTokens, ramp, slots, raises,
    stepEpoch, stallFrom, cmds, sqs, eqs, ports, msixTab, pba, tenants, hosts, ptp, everClaimed, mgmtKey, claimKeys, wains,
    wiring, shadow, tallyWaits, certs, fencing, tallySince, tallyDown, tallyOut, joinWait, tray, faultLog, faultSeq, flash,
    power, kvBlocks, kvPoison, keySlots, nonces, fwDone, fwWait, fwAgain, lastTb, orphans, kvMarks, sec, keysLocked, seqs,
    seqPub, srv, video, cores⟩ = mem := (rfl)
theorem granary_eta (s : State) : s.mem = granary s := (rfl)

@[simp] theorem granary_ite {c : Prop} [Decidable c] {a b : State} : granary (if c then a else b) = if c then granary a else
    granary b := by split <;> rfl
theorem foldl_same_granary {α β : Type} {f : β → State} {g : β → α → β} (hg : ∀ s x, granary (f (g s x)) = granary (f s)) (l
    : List α) (s : β) :
    granary (f (l.foldl g s)) = granary (f s) := by
  induction l generalizing s with
  | nil => rfl
  | cons x l ih => exact (ih _).trans (hg s x)
@[simp] theorem foldl_granary {α : Type} {g : State → α → State} {l : List α} {s : State} (hg : ∀ s x, granary (g s x) =
    granary s) :
    granary (l.foldl g s) = granary s := foldl_same_granary (f := id) hg l s
@[simp] theorem foldl_fst_granary {α β : Type} {g : State × β → α → State × β} {l : List α} {s : State × β}
    (hg : ∀ s x, granary (g s x).1 = granary s.1) : granary (l.foldl g s).1 = granary s.1 := foldl_same_granary (f :=
    Prod.fst) hg l s
@[simp] theorem foldl_snd_granary {α β : Type} {g : β × State → α → β × State} {l : List α} {s : β × State}
    (hg : ∀ s x, granary (g s x).2 = granary s.2) : granary (l.foldl g s).2 = granary s.2 := foldl_same_granary (f :=
    Prod.snd) hg l s

/-! ### Machine/Ops.lean -/

@[simp] theorem wr_granary (s : State) (k v : Nat) : granary (wr s k v) = granary s := by
  unfold wr; simp [granary_eta, *]

@[simp] theorem wrStaged_granary (s : State) (k v : Nat) : granary (wrStaged s k v) = granary s := by
  unfold wrStaged; simp [granary_eta, *]

@[simp] theorem wf_granary (s : State) (k hi lo v : Nat) : granary (wf s k hi lo v) = granary s := by
  unfold wf; simp [granary_eta, *]

@[simp] theorem setBit_granary (s : State) (k i : Nat) (b : Bool) : granary (setBit s k i b) = granary s := by
  unfold setBit; simp [granary_eta, *]

@[simp] theorem incr_granary (s : State) (k n : Nat) : granary (incr s k n) = granary s := by
  unfold incr; simp [granary_eta, *]

@[simp] theorem satIncr_granary (s : State) (k n : Nat) : granary (satIncr s k n) = granary s := by
  unfold satIncr; simp [granary_eta, *]

@[simp] theorem wr64_granary (s : State) (k v : Nat) : granary (wr64 s k v) = granary s := by
  unfold wr64; simp [granary_eta, *]

@[simp] theorem emit_granary (s : State) (o : Output) : granary (emit s o) = granary s := by
  unfold emit; simp [granary_eta, *]

@[simp] theorem draw_granary (s : State) : granary (draw s).2 = granary s := by
  unfold draw; simp [granary_eta, *]

@[simp] theorem setPort_granary (s : State) (p : Nat) (x : Port) : granary (setPort s p x) = granary s := by
  unfold setPort; simp [granary_eta, *]

@[simp] theorem countTx_granary (s : State) (p n : Nat) : granary (countTx s p n) = granary s := by
  unfold countTx; simp [granary_eta, *]

@[simp] theorem countRx_granary (s : State) (p n : Nat) : granary (countRx s p n) = granary s := by
  unfold countRx; simp [granary_eta, *]

@[simp] theorem hostWrite_granary (s : State) (p f addr : Nat) (bs : Bytes) : granary (hostWrite s p f addr bs) = granary s := by
  unfold hostWrite; simp [granary_eta, *]

@[simp] theorem sendMsix_granary (s : State) (p f vec : Nat) : granary (sendMsix s p f vec) = granary s := by
  unfold sendMsix; simp [granary_eta, *]

@[simp] theorem setEqr_granary (s : State) (f n : Nat) (x : EvRing) : granary (setEqr s f n x) = granary s := by
  unfold setEqr; simp [granary_eta, *]

@[simp] theorem writeMsg_granary (s : State) (f n p : Nat) (m : Msg) : granary (writeMsg s f n p m) = granary s := by
  unfold writeMsg; simp [granary_eta, *]

@[simp] theorem loseMsg_granary (s : State) (f n : Nat) : granary (loseMsg s f n) = granary s := by
  unfold loseMsg; simp [granary_eta, *]

@[simp] theorem flushOverflow_granary (s : State) (f n : Nat) : granary (flushOverflow s f n) = granary s := by
  unfold flushOverflow
  repeat' (first
    | with_reducible rfl
    | with_reducible assumption
    | (extract_lets +lift +onlyGivenNames t; have ht : granary t = granary s := (by (first | (simp [granary_eta, t, *]; done) | (dsimp only [t]; (repeat' split) <;> (simp [granary_eta, *]; done)))); clear_value t)
    | (extract_lets +lift +onlyGivenNames t; clear_value t)
    | split
    | with_reducible refine (foldl_granary fun s x => ?_).trans ?_
    | (simp [granary_eta, *]; done)
    | (simp +zetaDelta [granary_eta, *]; done))

@[simp] theorem flushWaiting_granary (k : Nat) (s : State) (f n : Nat) : granary (flushWaiting k s f n) = granary s := by
  induction k generalizing s with
  | zero => rfl
  | succ k ih =>
    unfold flushWaiting
    repeat' split
    all_goals simp [granary_eta, *]

@[simp] theorem flushResend_granary (s : State) (f n : Nat) : granary (flushResend s f n) = granary s := by
  unfold flushResend; (repeat' split) <;> simp [granary_eta, *]

@[simp] theorem flushRing_granary (s : State) (f n : Nat) : granary (flushRing s f n) = granary s := by
  unfold flushRing; simp [granary_eta, *]

@[simp] theorem post_granary (s : State) (f n : Nat) (held : Bool) (m : Msg) : granary (post s f n held m) = granary s := by
  unfold post
  repeat' (first
    | with_reducible rfl
    | with_reducible assumption
    | (extract_lets +lift +onlyGivenNames t; have ht : granary t = granary s := (by (first | (simp [granary_eta, t, *]; done) | (dsimp only [t]; (repeat' split) <;> (simp [granary_eta, *]; done)))); clear_value t)
    | (extract_lets +lift +onlyGivenNames t; clear_value t)
    | split
    | with_reducible refine (foldl_granary fun s x => ?_).trans ?_
    | (simp [granary_eta, *]; done)
    | (simp +zetaDelta [granary_eta, *]; done))

@[simp] theorem setSticky_granary (s : State) (f i : Nat) : granary (setSticky s f i) = granary s := by
  unfold setSticky; simp [granary_eta, *]

@[simp] theorem postAsync_granary (s : State) (ring type func flags : Nat) (payload : Bytes) : granary (postAsync s ring type
    func flags payload) = granary s := by
  unfold postAsync; simp [granary_eta, *]

@[simp] theorem postCrit_granary (s : State) (ring type sticky : Nat) (payload : Bytes) : granary (postCrit s ring type
    sticky payload) = granary s := by
  unfold postCrit; simp [granary_eta, *]

@[simp] theorem setBay_granary (s : State) (b : Nat) (x : Bay) : granary (setBay s b x) = granary s := by
  unfold setBay; simp [granary_eta, *]

@[simp] theorem postBlockIrq_granary (s : State) (page : Nat) : granary (postBlockIrq s page) = granary s := by
  unfold postBlockIrq; dsimp only; split
  · simp [granary_eta]
  · refine (foldl_granary fun s t => ?_).trans (by simp [granary_eta])
    split <;> simp [granary_eta]

@[simp] theorem irqUpdate_granary (s : State) (page : Nat) : granary (irqUpdate s page) = granary s := by
  unfold irqUpdate; simp [granary_eta, *]

@[simp] theorem raiseIrq_granary (s : State) (page i : Nat) : granary (raiseIrq s page i) = granary s := by
  unfold raiseIrq; simp [granary_eta, *]

@[simp] theorem recordErr_granary (s : State) (page code func off : Nat) (detail : Nat) : granary (recordErr s page code func
    off detail) = granary s := by
  unfold recordErr; simp [granary_eta, *]

@[simp] theorem clearErr_granary (s : State) (page : Nat) : granary (clearErr s page) = granary s := by
  unfold clearErr; simp [granary_eta, *]

@[simp] theorem bumpVer_granary (s : State) (page : Nat) : granary (bumpVer s page) = granary s := by
  unfold bumpVer; simp [granary_eta, *]

@[simp] theorem queueWrite_granary (s : State) (unit : Nat) (cells : List Host.Cell) : granary (queueWrite s unit cells) =
    granary s := by
  unfold queueWrite
  repeat' (first
    | with_reducible rfl
    | with_reducible assumption
    | (extract_lets +lift +onlyGivenNames t; have ht : granary t = granary s := (by (first | (simp [granary_eta, t, *]; done) | (dsimp only [t]; (repeat' split) <;> (simp [granary_eta, *]; done)))); clear_value t)
    | (extract_lets +lift +onlyGivenNames t; clear_value t)
    | split
    | with_reducible refine (foldl_granary fun s x => ?_).trans ?_
    | (simp [granary_eta, *]; done)
    | (simp +zetaDelta [granary_eta, *]; done))

@[simp] theorem gwrite_granary (s : State) (unit a : Nat) (bs : Bytes) : granary (gwrite s unit a bs) = granary s := by
  unfold gwrite; simp [granary_eta, *]

@[simp] theorem send_granary (s : State) (m : MeshMsg) : granary (send s m) = granary s := by
  unfold send; simp [granary_eta, *]

@[simp] theorem sendAfter_granary (s : State) (unit : Nat) (m : MeshMsg) : granary (sendAfter s unit m) = granary s := by
  unfold sendAfter; simp [granary_eta, *]

@[simp] theorem setHost_granary (s : State) (k : Nat) (h : HostRec) : granary (setHost s k h) = granary s := by
  unfold setHost; simp [granary_eta, *]

@[simp] theorem sendFrame_granary (s : State) (k kind : Nat) (body : Bytes) : granary (sendFrame s k kind body) = granary s := by
  unfold sendFrame; simp [granary_eta, *]

/-! ### Machine/Control.lean -/

@[simp] theorem setFuncState_granary (s : State) (f v : Nat) : granary (setFuncState s f v) = granary s := by
  unfold setFuncState; simp [granary_eta, *]

@[simp] theorem sendHeartbeat_granary (s : State) (k : Nat) : granary (sendHeartbeat s k) = granary s := by
  unfold sendHeartbeat
  repeat' (first
    | with_reducible rfl
    | with_reducible assumption
    | (extract_lets +lift +onlyGivenNames t; have ht : granary t = granary s := (by (first | (simp [granary_eta, t, *]; done) | (dsimp only [t]; (repeat' split) <;> (simp [granary_eta, *]; done)))); clear_value t)
    | (extract_lets +lift +onlyGivenNames t; clear_value t)
    | split
    | with_reducible refine (foldl_granary fun s x => ?_).trans ?_
    | (simp [granary_eta, *]; done)
    | (simp +zetaDelta [granary_eta, *]; done))

@[simp] theorem sendHeartbeats_granary (s : State) : granary (sendHeartbeats s) = granary s := by
  unfold sendHeartbeats; simp [granary_eta, *]

@[simp] theorem claimEvent_granary (s : State) (ev rec code other cid : Nat) : granary (claimEvent s ev rec code other cid) =
    granary s := by
  unfold claimEvent; simp [granary_eta, *]

@[simp] theorem refuseAct_granary (s : State) (claim code cid : Nat) : granary (refuseAct s claim code cid) = granary s := by
  unfold refuseAct; simp [granary_eta, *]

@[simp] theorem finishC_granary (s : State) (c : Cmd) (status result detail cflags : Nat) : granary (finishC s c status
    result detail cflags) = granary s := by
  unfold finishC; simp [granary_eta, *]

@[simp] theorem finish_granary (s : State) (c : Cmd) (status : Nat) (result : Nat) (detail : Nat) : granary (finish s c
    status result detail) = granary s := by
  unfold finish; simp [granary_eta, *]

@[simp] theorem finishId_granary (s : State) (id status : Nat) (result : Nat) (detail : Nat) : granary (finishId s id status
    result detail) = granary s := by
  unfold finishId
  repeat' (first
    | with_reducible rfl
    | with_reducible assumption
    | (extract_lets +lift +onlyGivenNames t; have ht : granary t = granary s := (by (first | (simp [granary_eta, t, *]; done) | (dsimp only [t]; (repeat' split) <;> (simp [granary_eta, *]; done)))); clear_value t)
    | (extract_lets +lift +onlyGivenNames t; clear_value t)
    | split
    | with_reducible refine (foldl_granary fun s x => ?_).trans ?_
    | (simp [granary_eta, *]; done)
    | (simp +zetaDelta [granary_eta, *]; done))

@[simp] theorem markStarted_granary (s : State) (c : Cmd) : granary (markStarted s c) = granary s := by
  unfold markStarted; simp [granary_eta, *]

@[simp] theorem withCmd_granary (s : State) (src op : Nat) (f : State → Cmd → State) (hf : ∀ (x0 : State) (x1 : Cmd), granary
    (f x0 x1) = granary x0) : granary (withCmd s src op f) = granary s := by
  unfold withCmd
  repeat' (first
    | with_reducible rfl
    | with_reducible assumption
    | (extract_lets +lift +onlyGivenNames t; have ht : granary t = granary s := (by (first | (simp [granary_eta, t, *]; done) | (dsimp only [t]; (repeat' split) <;> (simp [granary_eta, *]; done)))); clear_value t)
    | (extract_lets +lift +onlyGivenNames t; clear_value t)
    | split
    | with_reducible refine (foldl_granary fun s x => ?_).trans ?_
    | (simp [granary_eta, *]; done)
    | (simp +zetaDelta [granary_eta, *]; done))

@[simp] theorem noteLocked_granary (s : State) (pl : Place) (func : Nat) : granary (noteLocked s pl func) = granary s := by
  unfold noteLocked; simp [granary_eta, *]

@[simp] theorem atPlace_granary (s : State) (a : Access) (f : State → Place → State) (hf : ∀ (x0 : State) (x1 : Place),
    granary (f x0 x1) = granary x0) : granary (atPlace s a f) = granary s := by
  unfold atPlace
  repeat' (first
    | with_reducible rfl
    | with_reducible assumption
    | (extract_lets +lift +onlyGivenNames t; have ht : granary t = granary s := (by (first | (simp [granary_eta, t, *]; done) | (dsimp only [t]; (repeat' split) <;> (simp [granary_eta, *]; done)))); clear_value t)
    | (extract_lets +lift +onlyGivenNames t; clear_value t)
    | split
    | with_reducible refine (foldl_granary fun s x => ?_).trans ?_
    | (simp [granary_eta, *]; done)
    | (simp +zetaDelta [granary_eta, *]; done))

@[simp] theorem relockFunc_granary (s : State) (func : Nat) : granary (relockFunc s func) = granary s := by
  unfold relockFunc; simp [granary_eta, *]

@[simp] theorem relockPage_granary (s : State) (page : Nat) : granary (relockPage s page) = granary s := by
  unfold relockPage; simp [granary_eta, *]

@[simp] theorem storeReg_granary (s : State) (k v : Nat) : granary (storeReg s k v) = granary s := by
  unfold storeReg; (repeat' split) <;> simp [granary_eta, *]

@[simp] theorem applyStaged_granary (s : State) (page : Nat) : granary (applyStaged s page) = granary s := by
  unfold applyStaged; simp [granary_eta, *]

@[simp] theorem discardStaged_granary (s : State) (page : Nat) : granary (discardStaged s page) = granary s := by
  unfold discardStaged; simp [granary_eta, *]

@[simp] theorem resetPage_granary (s : State) (page : Nat) : granary (resetPage s page) = granary s := by
  unfold resetPage; simp [granary_eta, *]

/-! ### Machine/Power.lean -/

@[simp] theorem setInner_granary (s : State) (x : Rat) : granary (setInner s x) = granary s := by
  unfold setInner; simp [granary_eta, *]

@[simp] theorem retarget_granary (s : State) : granary (retarget s) = granary s := by
  unfold retarget; simp [granary_eta, *]

@[simp] theorem postThermal_granary (s : State) (event source code value : Nat) : granary (postThermal s event source code
    value) = granary s := by
  unfold postThermal; simp [granary_eta, *]

@[simp] theorem countLag_granary (s : State) : granary (countLag s) = granary s := by
  unfold countLag; simp [granary_eta, *]

@[simp] theorem judgeLag_granary (s : State) : granary (judgeLag s) = granary s := by
  unfold judgeLag; extract_lets +lift; (repeat' split) <;> simp +zetaDelta [granary_eta, *]

@[simp] theorem setGate_granary (s : State) (f g : Nat) : granary (setGate s f g) = granary s := by
  unfold setGate; simp [granary_eta, *]

@[simp] theorem raiseGates_granary (s : State) : granary (raiseGates s) = granary s := by
  unfold raiseGates; simp [granary_eta, *]

@[simp] theorem lowerGates_granary (s : State) : granary (lowerGates s) = granary s := by
  unfold lowerGates; simp [granary_eta, *]

@[simp] theorem brakeTick_granary (s : State) : granary (brakeTick s) = granary s := by
  unfold brakeTick
  extract_lets +lift t
  have ht : granary t = granary s := by simp [granary_eta, t]
  clear_value t
  rw [granary_ite, granary_mk, granary_eta, ht, ite_self]

@[simp] theorem noteEst_granary (s : State) (e : Rat) : granary (noteEst s e) = granary s := by
  unfold noteEst; simp [granary_eta, *]

@[simp] theorem fastLoop_granary (raw add : Nat) (s : State) : granary (fastLoop raw add s) = granary s := by
  unfold fastLoop
  extract_lets +lift t
  have ht : granary t = granary s := by simp [granary_eta, t]
  clear_value t
  rw [granary_ite, granary_ite, granary_ite, brakeTick_granary, raiseGates_granary, lowerGates_granary, ite_self, ite_self, ite_self, ht]

theorem execFastLoop_granary (raw add : Nat) (s : State) : ∀ t, execFastLoop raw add s = .next t → granary t = granary s := by
  unfold execFastLoop; simp [granary_eta, *]

theorem execCapMet_granary (s : State) : ∀ t, execCapMet s = .next t → granary t = granary s := by
  unfold execCapMet
  repeat' (first
    | with_reducible rfl
    | with_reducible assumption
    | (extract_lets +lift +onlyGivenNames t; have ht : granary t = granary s := (by (first | (simp [granary_eta, t, *]; done) | (dsimp only [t]; (repeat' split) <;> (simp [granary_eta, *]; done)))); clear_value t)
    | (extract_lets +lift +onlyGivenNames t; clear_value t)
    | split
    | with_reducible refine (foldl_granary fun s x => ?_).trans ?_
    | (simp [granary_eta, *]; done)
    | (simp +zetaDelta [granary_eta, *]; done))

@[simp] theorem noteCode_granary (s : State) (code : Nat) : granary (noteCode s code) = granary s := by
  unfold noteCode; simp [granary_eta, *]

@[simp] theorem takeSample_granary (s : State) (m : Rat) : granary (takeSample s m) = granary s := by
  unfold takeSample; simp [granary_eta, *]

@[simp] theorem outerLoop_granary (s : State) (m : Rat) : granary (outerLoop s m) = granary s := by
  unfold outerLoop; simp [granary_eta, *]

@[simp] theorem powerSample_granary (vin : Nat) (ma : Int) (code : Nat) (atEnd : Bool) (s : State) : granary (powerSample vin
    ma code atEnd s) = granary s := by
  unfold powerSample; simp [granary_eta, *]

theorem execPowerSample_granary (vin : Nat) (ma : Int) (code : Nat) (atEnd : Bool) (s : State) : ∀ t, execPowerSample vin ma
    code atEnd s = .next t → granary t = granary s := by
  unfold execPowerSample; simp [granary_eta, *]

theorem execSensorOk_granary (s : State) : ∀ t, execSensorOk s = .next t → granary t = granary s := by
  unfold execSensorOk
  repeat' (first
    | with_reducible rfl
    | with_reducible assumption
    | (extract_lets +lift +onlyGivenNames t; have ht : granary t = granary s := (by (first | (simp [granary_eta, t, *]; done) | (dsimp only [t]; (repeat' split) <;> (simp [granary_eta, *]; done)))); clear_value t)
    | (extract_lets +lift +onlyGivenNames t; clear_value t)
    | split
    | with_reducible refine (foldl_granary fun s x => ?_).trans ?_
    | (simp [granary_eta, *]; done)
    | (simp +zetaDelta [granary_eta, *]; done))

@[simp] theorem estimateWindow_granary (s : State) : granary (estimateWindow s) = granary s := by
  unfold estimateWindow; simp [granary_eta, *]

theorem execEstimateWindow_granary (s : State) : ∀ t, execEstimateWindow s = .next t → granary t = granary s := by
  unfold execEstimateWindow
  repeat' (first
    | with_reducible rfl
    | with_reducible assumption
    | (extract_lets +lift +onlyGivenNames t; have ht : granary t = granary s := (by (first | (simp [granary_eta, t, *]; done) | (dsimp only [t]; (repeat' split) <;> (simp [granary_eta, *]; done)))); clear_value t)
    | (extract_lets +lift +onlyGivenNames t; clear_value t)
    | split
    | with_reducible refine (foldl_granary fun s x => ?_).trans ?_
    | (simp [granary_eta, *]; done)
    | (simp +zetaDelta [granary_eta, *]; done))

theorem execMismatchOn_granary (s : State) : ∀ t, execMismatchOn s = .next t → granary t = granary s := by
  unfold execMismatchOn
  repeat' (first
    | with_reducible rfl
    | with_reducible assumption
    | (extract_lets +lift +onlyGivenNames t; have ht : granary t = granary s := (by (first | (simp [granary_eta, t, *]; done) | (dsimp only [t]; (repeat' split) <;> (simp [granary_eta, *]; done)))); clear_value t)
    | (extract_lets +lift +onlyGivenNames t; clear_value t)
    | split
    | with_reducible refine (foldl_granary fun s x => ?_).trans ?_
    | (simp [granary_eta, *]; done)
    | (simp +zetaDelta [granary_eta, *]; done))

theorem execMismatchOff_granary (s : State) : ∀ t, execMismatchOff s = .next t → granary t = granary s := by
  unfold execMismatchOff
  repeat' (first
    | with_reducible rfl
    | with_reducible assumption
    | (extract_lets +lift +onlyGivenNames t; have ht : granary t = granary s := (by (first | (simp [granary_eta, t, *]; done) | (dsimp only [t]; (repeat' split) <;> (simp [granary_eta, *]; done)))); clear_value t)
    | (extract_lets +lift +onlyGivenNames t; clear_value t)
    | split
    | with_reducible refine (foldl_granary fun s x => ?_).trans ?_
    | (simp [granary_eta, *]; done)
    | (simp +zetaDelta [granary_eta, *]; done))

theorem execPwrSetCap_granary (src : Nat) (s : State) : ∀ t, execPwrSetCap src s = .next t → granary t = granary s := by
  unfold execPwrSetCap; simp [granary_eta, *]

@[simp] theorem setFctl_granary (s : State) (f : Nat) (x : FieldCtl) : granary (setFctl s f x) = granary s := by
  unfold setFctl; simp [granary_eta, *]

@[simp] theorem showClock_granary (s : State) (f step mv : Nat) (rel : Bool) : granary (showClock s f step mv rel) = granary s := by
  unfold showClock; simp [granary_eta, *]

@[simp] theorem startRelock_granary (s : State) (f : Nat) : granary (startRelock s f) = granary s := by
  unfold startRelock; simp [granary_eta, *]

@[simp] theorem startChange_granary (s : State) (f : Nat) : granary (startChange s f) = granary s := by
  unfold startChange; simp [granary_eta, *]

@[simp] theorem setClock_granary (s : State) (f step : Nat) : granary (setClock s f step) = granary s := by
  unfold setClock; simp [granary_eta, *]

theorem execPllRelockDone_granary (f : Nat) (s : State) : ∀ t, execPllRelockDone f s = .next t → granary t = granary s := by
  unfold execPllRelockDone
  repeat' (first
    | with_reducible rfl
    | with_reducible assumption
    | (extract_lets +lift +onlyGivenNames t; have ht : granary t = granary s := (by (first | (simp [granary_eta, t, *]; done) | (dsimp only [t]; (repeat' split) <;> (simp [granary_eta, *]; done)))); clear_value t)
    | (extract_lets +lift +onlyGivenNames t; clear_value t)
    | split
    | with_reducible refine (foldl_granary fun s x => ?_).trans ?_
    | (simp [granary_eta, *]; done)
    | (simp +zetaDelta [granary_eta, *]; done))

theorem execRailRampDone_granary (f : Nat) (s : State) : ∀ t, execRailRampDone f s = .next t → granary t = granary s := by
  unfold execRailRampDone
  repeat' (first
    | with_reducible rfl
    | with_reducible assumption
    | (extract_lets +lift +onlyGivenNames t; have ht : granary t = granary s := (by (first | (simp [granary_eta, t, *]; done) | (dsimp only [t]; (repeat' split) <;> (simp [granary_eta, *]; done)))); clear_value t)
    | (extract_lets +lift +onlyGivenNames t; clear_value t)
    | split
    | with_reducible refine (foldl_granary fun s x => ?_).trans ?_
    | (simp [granary_eta, *]; done)
    | (simp +zetaDelta [granary_eta, *]; done))

@[simp] theorem enforceCeil_granary (s : State) (f : Nat) : granary (enforceCeil s f) = granary s := by
  unfold enforceCeil; simp [granary_eta, *]

@[simp] theorem newPeriod_granary (s : State) (f : Nat) : granary (newPeriod s f) = granary s := by
  unfold newPeriod; simp [granary_eta, *]

@[simp] theorem countWord_granary (s : State) (f p : Nat) : granary (countWord s f p) = granary s := by
  unfold countWord; simp [granary_eta, *]

@[simp] theorem learn_granary (s : State) (f : Nat) (o : FieldObs) : granary (learn s f o) = granary s := by
  unfold learn; simp [granary_eta, *]

@[simp] theorem allocate_granary (s : State) (pfix dg dv : Nat) (obs : List FieldObs) : granary (allocate s pfix dg dv obs) =
    granary s := by
  unfold allocate; simp [granary_eta, *]

@[simp] theorem noteObs_granary (s : State) (f : Nat) (o : FieldObs) : granary (noteObs s f o) = granary s := by
  unfold noteObs; simp [granary_eta, *]

@[simp] theorem learnerPeriod_granary (pfix dg dv : Nat) (fields : List Nat) (s : State) : granary (learnerPeriod pfix dg dv
    fields s) = granary s := by
  unfold learnerPeriod; simp [granary_eta, *]

theorem execLearnerPeriod_granary (pfix dg dv : Nat) (fields : List Nat) (s : State) : ∀ t, execLearnerPeriod pfix dg dv
    fields s = .next t → granary t = granary s := by
  unfold execLearnerPeriod; simp [granary_eta, *]

theorem execLearnReset_granary (a : Access) (v : Nat) (s : State) : ∀ t, execLearnReset a v s = .next t → granary t = granary s := by
  unfold execLearnReset; simp [granary_eta, *]

theorem execDroop_granary (f : Nat) (s : State) : ∀ t, execDroop f s = .next t → granary t = granary s := by
  unfold execDroop
  repeat' (first
    | with_reducible rfl
    | with_reducible assumption
    | (extract_lets +lift +onlyGivenNames t; have ht : granary t = granary s := (by (first | (simp [granary_eta, t, *]; done) | (dsimp only [t]; (repeat' split) <;> (simp [granary_eta, *]; done)))); clear_value t)
    | (extract_lets +lift +onlyGivenNames t; clear_value t)
    | split
    | with_reducible refine (foldl_granary fun s x => ?_).trans ?_
    | (simp [granary_eta, *]; done)
    | (simp +zetaDelta [granary_eta, *]; done))

theorem execDroopRecovered_granary (f cycles : Nat) (s : State) : ∀ t, execDroopRecovered f cycles s = .next t → granary t =
    granary s := by
  unfold execDroopRecovered
  repeat' (first
    | with_reducible rfl
    | with_reducible assumption
    | (extract_lets +lift +onlyGivenNames t; have ht : granary t = granary s := (by (first | (simp [granary_eta, t, *]; done) | (dsimp only [t]; (repeat' split) <;> (simp [granary_eta, *]; done)))); clear_value t)
    | (extract_lets +lift +onlyGivenNames t; clear_value t)
    | split
    | with_reducible refine (foldl_granary fun s x => ?_).trans ?_
    | (simp [granary_eta, *]; done)
    | (simp +zetaDelta [granary_eta, *]; done))

theorem execBrakeOn_granary (s : State) : ∀ t, execBrakeOn s = .next t → granary t = granary s := by
  unfold execBrakeOn; (repeat' split) <;> simp [granary_eta, *]

theorem execBrakeClockDrop_granary (s : State) : ∀ t, execBrakeClockDrop s = .next t → granary t = granary s := by
  unfold execBrakeClockDrop
  repeat' (first
    | with_reducible rfl
    | with_reducible assumption
    | (extract_lets +lift +onlyGivenNames t; have ht : granary t = granary s := (by (first | (simp [granary_eta, t, *]; done) | (dsimp only [t]; (repeat' split) <;> (simp [granary_eta, *]; done)))); clear_value t)
    | (extract_lets +lift +onlyGivenNames t; clear_value t)
    | split
    | with_reducible refine (foldl_granary fun s x => ?_).trans ?_
    | (simp [granary_eta, *]; done)
    | (simp +zetaDelta [granary_eta, *]; done))

theorem execBrakeOff_granary (s : State) : ∀ t, execBrakeOff s = .next t → granary t = granary s := by
  unfold execBrakeOff; (repeat' split) <;> simp [granary_eta, *]

@[simp] theorem endThrottle_granary (s : State) (f : Nat) (temp : Int) : granary (endThrottle s f temp) = granary s := by
  unfold endThrottle
  repeat' (first
    | with_reducible rfl
    | with_reducible assumption
    | (extract_lets +lift +onlyGivenNames t; have ht : granary t = granary s := (by (first | (simp [granary_eta, t, *]; done) | (dsimp only [t]; (repeat' split) <;> (simp [granary_eta, *]; done)))); clear_value t)
    | (extract_lets +lift +onlyGivenNames t; clear_value t)
    | split
    | with_reducible refine (foldl_granary fun s x => ?_).trans ?_
    | (simp [granary_eta, *]; done)
    | (simp +zetaDelta [granary_eta, *]; done))

@[simp] theorem junctionField_granary (s : State) (f : Nat) (l : List Int) : granary (junctionField s f l) = granary s := by
  unfold junctionField; dsimp only; (repeat' split) <;> simp [granary_eta, *]

theorem execJunctionSample_granary (raw : List Int) (s : State) : ∀ t, execJunctionSample raw s = .next t → granary t =
    granary s := by
  unfold execJunctionSample; simp [granary_eta, *]

@[simp] theorem throttleField_granary (s : State) (f : Nat) : granary (throttleField s f) = granary s := by
  unfold throttleField
  repeat' (first
    | with_reducible rfl
    | with_reducible assumption
    | (extract_lets +lift +onlyGivenNames t; have ht : granary t = granary s := (by (first | (simp [granary_eta, t, *]; done) | (dsimp only [t]; (repeat' split) <;> (simp [granary_eta, *]; done)))); clear_value t)
    | (extract_lets +lift +onlyGivenNames t; clear_value t)
    | split
    | with_reducible refine (foldl_granary fun s x => ?_).trans ?_
    | (simp [granary_eta, *]; done)
    | (simp +zetaDelta [granary_eta, *]; done))

theorem execThermalThrottleStep_granary (s : State) : ∀ t, execThermalThrottleStep s = .next t → granary t = granary s := by
  unfold execThermalThrottleStep; simp [granary_eta, *]

@[simp] theorem hbmStack_granary (s : State) (k : Nat) (temp : Int) : granary (hbmStack s k temp) = granary s := by
  unfold hbmStack; simp [granary_eta, *]

theorem execHbmTempSample_granary (raw : List Int) (s : State) : ∀ t, execHbmTempSample raw s = .next t → granary t = granary s := by
  unfold execHbmTempSample; simp [granary_eta, *]

@[simp] theorem coolSensor_granary (s : State) (key source : Nat) (t : Int) (fault : Bool) : granary (coolSensor s key source
    t fault) = granary s := by
  unfold coolSensor; simp [granary_eta, *]

@[simp] theorem inletRules_granary (s : State) (t : Int) : granary (inletRules s t) = granary s := by
  unfold inletRules; simp [granary_eta, *]

@[simp] theorem flowRules_granary (s : State) (tin tout : Int) (ok : Bool) : granary (flowRules s tin tout ok) = granary s := by
  unfold flowRules; simp [granary_eta, *]

@[simp] theorem coolantSample_granary (tin tout : Int) (fin fout : Bool) (s : State) : granary (coolantSample tin tout fin
    fout s) = granary s := by
  unfold coolantSample; simp [granary_eta, *]

theorem execCoolantSample_granary (tin tout : Int) (fin fout : Bool) (s : State) : ∀ t, execCoolantSample tin tout fin fout s
    = .next t → granary t = granary s := by
  unfold execCoolantSample; simp [granary_eta, *]

theorem execFlowLow_granary (s : State) : ∀ t, execFlowLow s = .next t → granary t = granary s := by
  unfold execFlowLow
  repeat' (first
    | with_reducible rfl
    | with_reducible assumption
    | (extract_lets +lift +onlyGivenNames t; have ht : granary t = granary s := (by (first | (simp [granary_eta, t, *]; done) | (dsimp only [t]; (repeat' split) <;> (simp [granary_eta, *]; done)))); clear_value t)
    | (extract_lets +lift +onlyGivenNames t; clear_value t)
    | split
    | with_reducible refine (foldl_granary fun s x => ?_).trans ?_
    | (simp [granary_eta, *]; done)
    | (simp +zetaDelta [granary_eta, *]; done))

theorem execLeakSample_granary (wet lead : Bool) (s : State) : ∀ t, execLeakSample wet lead s = .next t → granary t = granary s := by
  unfold execLeakSample
  repeat' (first
    | with_reducible rfl
    | with_reducible assumption
    | (extract_lets +lift +onlyGivenNames t; have ht : granary t = granary s := (by (first | (simp [granary_eta, t, *]; done) | (dsimp only [t]; (repeat' split) <;> (simp [granary_eta, *]; done)))); clear_value t)
    | (extract_lets +lift +onlyGivenNames t; clear_value t)
    | split
    | with_reducible refine (foldl_granary fun s x => ?_).trans ?_
    | (simp [granary_eta, *]; done)
    | (simp +zetaDelta [granary_eta, *]; done))

theorem execLeak_granary (s : State) : ∀ t, execLeak s = .next t → granary t = granary s := by
  unfold execLeak
  repeat' (first
    | with_reducible rfl
    | with_reducible assumption
    | (extract_lets +lift +onlyGivenNames t; have ht : granary t = granary s := (by (first | (simp [granary_eta, t, *]; done) | (dsimp only [t]; (repeat' split) <;> (simp [granary_eta, *]; done)))); clear_value t)
    | (extract_lets +lift +onlyGivenNames t; clear_value t)
    | split
    | with_reducible refine (foldl_granary fun s x => ?_).trans ?_
    | (simp [granary_eta, *]; done)
    | (simp +zetaDelta [granary_eta, *]; done))

theorem execThmLeakClr_granary (a : Access) (v : Nat) (s : State) : ∀ t, execThmLeakClr a v s = .next t → granary t = granary s := by
  unfold execThmLeakClr; simp [granary_eta, *]

/-! ### Machine/Tree.lean -/

@[simp] theorem tallyBad_granary (s : State) (func off : Nat) : granary (tallyBad s func off) = granary s := by
  unfold tallyBad; simp [granary_eta, *]

@[simp] theorem flushTally_granary (s : State) : granary (flushTally s) = granary s := by
  unfold flushTally
  repeat' (first
    | with_reducible rfl
    | with_reducible assumption
    | (extract_lets +lift +onlyGivenNames t; have ht : granary t = granary s := (by (first | (simp [granary_eta, t, *]; done) | (dsimp only [t]; (repeat' split) <;> (simp [granary_eta, *]; done)))); clear_value t)
    | (extract_lets +lift +onlyGivenNames t; clear_value t)
    | split
    | with_reducible refine (foldl_granary fun s x => ?_).trans ?_
    | (simp [granary_eta, *]; done)
    | (simp +zetaDelta [granary_eta, *]; done))

@[simp] theorem tallySend_granary (s : State) (sel addr : Nat) (bs : Bytes) : granary (tallySend s sel addr bs) = granary s := by
  unfold tallySend; simp [granary_eta, *]

@[simp] theorem sendParent_granary (s : State) (c kind flags : Nat) (payload : Bytes) : granary (sendParent s c kind flags
    payload) = granary s := by
  unfold sendParent; simp [granary_eta, *]

@[simp] theorem sendChild_granary (s : State) (c kind flags : Nat) (payload : Bytes) (k : Nat) : granary (sendChild s c kind
    flags payload k) = granary s := by
  unfold sendChild; simp [granary_eta, *]

@[simp] theorem sendDown_granary (s : State) (c kind flags : Nat) (payload : Bytes) : granary (sendDown s c kind flags
    payload) = granary s := by
  unfold sendDown; simp [granary_eta, *]

@[simp] theorem setSince_granary (s : State) (c : Nat) (v : Nat × Bool) : granary (setSince s c v) = granary s := by
  unfold setSince; simp [granary_eta, *]

@[simp] theorem noteWait_granary (s : State) : granary (noteWait s) = granary s := by
  unfold noteWait
  repeat' (first
    | with_reducible rfl
    | with_reducible assumption
    | (extract_lets +lift +onlyGivenNames t; have ht : granary t = granary s := (by (first | (simp [granary_eta, t, *]; done) | (dsimp only [t]; (repeat' split) <;> (simp [granary_eta, *]; done)))); clear_value t)
    | (extract_lets +lift +onlyGivenNames t; clear_value t)
    | split
    | with_reducible refine (foldl_granary fun s x => ?_).trans ?_
    | (simp [granary_eta, *]; done)
    | (simp +zetaDelta [granary_eta, *]; done))

@[simp] theorem treeUpdate_granary (s : State) (c : Nat) : granary (treeUpdate s c) = granary s := by
  unfold treeUpdate; simp [granary_eta, *]

@[simp] theorem addCount_granary (s : State) (c n : Nat) : granary (addCount s c n) = granary s := by
  unfold addCount; simp [granary_eta, *]

@[simp] theorem addTally_granary (s : State) (c func n off : Nat) : granary (addTally s c func n off) = granary s := by
  unfold addTally; simp [granary_eta, *]

@[simp] theorem addFirmware_granary (s : State) (c n : Nat) : granary (addFirmware s c n) = granary s := by
  unfold addFirmware; simp [granary_eta, *]

/-! ### Machine/Mirror.lean -/

@[simp] theorem postFence_granary (s : State) (event ctr code : Nat) (step tensor d1 d2 : Nat) : granary (postFence s event
    ctr code step tensor d1 d2) = granary s := by
  unfold postFence; simp [granary_eta, *]

@[simp] theorem setShadowSt_granary (s : State) (v : Nat) : granary (setShadowSt s v) = granary s := by
  unfold setShadowSt; simp [granary_eta, *]

@[simp] theorem shadowLost_granary (s : State) : granary (shadowLost s) = granary s := by
  unfold shadowLost; simp [granary_eta, *]

@[simp] theorem ringWrite_granary (s : State) (bs : Bytes) : granary (ringWrite s bs) = granary s := by
  unfold ringWrite
  repeat' (first
    | with_reducible rfl
    | with_reducible assumption
    | (extract_lets +lift +onlyGivenNames t; have ht : granary t = granary s := (by (first | (simp [granary_eta, t, *]; done) | (dsimp only [t]; (repeat' split) <;> (simp [granary_eta, *]; done)))); clear_value t)
    | (extract_lets +lift +onlyGivenNames t; clear_value t)
    | split
    | with_reducible refine (foldl_granary fun s x => ?_).trans ?_
    | (simp [granary_eta, *]; done)
    | (simp +zetaDelta [granary_eta, *]; done))

@[simp] theorem mirror_granary (s : State) (f kind addr : Nat) (body : Bytes) : granary (mirror s f kind addr body) = granary s := by
  unfold mirror; simp [granary_eta, *]

/-! ### Machine/Residents.lean -/

@[simp] theorem setSeq_granary (s : State) (i : Nat) (q : Seq) : granary (setSeq s i q) = granary s := by
  unfold setSeq; simp [granary_eta, *]

@[simp] theorem cancelSeq_granary (s : State) (i : Nat) : granary (cancelSeq s i) = granary s := by
  unfold cancelSeq; simp [granary_eta, *]

@[simp] theorem setArea_granary (s : State) (f : Nat) (x : Area) : granary (setArea s f x) = granary s := by
  unfold setArea; simp [granary_eta, *]

@[simp] theorem cancelSeqs_granary (s : State) (f : Nat) : granary (cancelSeqs s f) = granary s := by
  unfold cancelSeqs; simp [granary_eta, *]

@[simp] theorem endSeqs_granary (s : State) (code : Nat) : granary (endSeqs s code) = granary s := by
  unfold endSeqs; simp [granary_eta, *]

@[simp] theorem batchGone_granary (s : State) (f n : Nat) : granary (batchGone s f n) = granary s := by
  unfold batchGone; simp [granary_eta, *]

@[simp] theorem assignBay_granary (s : State) (b owner : Nat) : granary (assignBay s b owner) = granary s := by
  unfold assignBay; simp [granary_eta, *]

@[simp] theorem haltBay_granary (s : State) (b : Nat) : granary (haltBay s b) = granary s := by
  unfold haltBay; simp [granary_eta, *]

@[simp] theorem stopBay_granary (s : State) (b : Nat) : granary (stopBay s b) = granary s := by
  unfold stopBay; simp [granary_eta, *]

@[simp] theorem foldLine_granary (s : State) (f line : Nat) (bs : Bytes) : granary (foldLine s f line bs) = granary s := by
  unfold foldLine; simp [granary_eta, *]

@[simp] theorem closeDigest_granary (s : State) (f step : Nat) (entries : List Bytes) : granary (closeDigest s f step
    entries) = granary s := by
  unfold closeDigest; simp [granary_eta, *]

@[simp] theorem jobsCheck_granary (s : State) : granary (jobsCheck s) = granary s := by
  unfold jobsCheck
  refine (foldl_granary ?_).trans ?_
  · intro s j
    dsimp only
    split <;> simp [granary_eta]
  · rw [granary_mk, granary_eta]

@[simp] theorem failJob_granary (s : State) (b code : Nat) : granary (failJob s b code) = granary s := by
  unfold failJob; simp [granary_eta, *]

@[simp] theorem bayFailed_granary (s : State) (b code : Nat) : granary (bayFailed s b code) = granary s := by
  unfold bayFailed; simp [granary_eta, *]

@[simp] theorem endSessions_granary (s : State) (p : Session → Bool) : granary (endSessions s p) = granary s := by
  unfold endSessions; simp [granary_eta, *]

@[simp] theorem dropBundles_granary (s : State) (f : Nat) : granary (dropBundles s f) = granary s := by
  unfold dropBundles; simp [granary_eta, *]

@[simp] theorem forgetFunction_granary (s : State) (f : Nat) : granary (forgetFunction s f) = granary s := by
  unfold forgetFunction; simp [granary_eta, *]

@[simp] theorem openScopes_granary (s : State) : granary (openScopes s) = granary s := by
  unfold openScopes; simp [granary_eta, *]

@[simp] theorem setVctx_granary (s : State) (i : Nat) (x : VidCtx) : granary (setVctx s i x) = granary s := by
  unfold setVctx; simp [granary_eta, *]

@[simp] theorem setVcore_granary (s : State) (c : Nat) (x : VidCore) : granary (setVcore s c x) = granary s := by
  unfold setVcore; simp [granary_eta, *]

@[simp] theorem closeVideo_granary (s : State) (f : Nat) : granary (closeVideo s f) = granary s := by
  unfold closeVideo; simp [granary_eta, *]

@[simp] theorem abandonCore_granary (s : State) (core : Nat) : granary (abandonCore s core) = granary s := by
  unfold abandonCore
  repeat' (first
    | with_reducible rfl
    | with_reducible assumption
    | (extract_lets +lift +onlyGivenNames t; have ht : granary t = granary s := (by (first | (simp [granary_eta, t, *]; done) | (dsimp only [t]; (repeat' split) <;> (simp [granary_eta, *]; done)))); clear_value t)
    | (extract_lets +lift +onlyGivenNames t; clear_value t)
    | split
    | with_reducible refine (foldl_granary fun s x => ?_).trans ?_
    | (simp [granary_eta, *]; done)
    | (simp +zetaDelta [granary_eta, *]; done))

/-! ### Machine/Rules.lean -/

@[simp] theorem assignMfBays_granary (s : State) : granary (assignMfBays s) = granary s := by
  unfold assignMfBays; simp [granary_eta, *]

@[simp] theorem startSave_granary (s : State) : granary (startSave s) = granary s := by
  unfold startSave; simp [granary_eta, *]

@[simp] theorem showPool_granary (s : State) (n : Nat) : granary (showPool s n) = granary s := by
  unfold showPool; simp [granary_eta, *]

@[simp] theorem endMovedSessions_granary (old s : State) : granary (endMovedSessions old s) = granary s := by
  unfold endMovedSessions; simp [granary_eta, *]

@[simp] theorem afterApply_granary (old s : State) (page : Nat) : granary (afterApply old s page) = granary s := by
  unfold afterApply
  repeat' (first
    | with_reducible rfl
    | with_reducible assumption
    | (extract_lets +lift +onlyGivenNames t; have ht : granary t = granary s := (by (first | (simp [granary_eta, t, *]; done) | (dsimp only [t]; (repeat' split) <;> (simp [granary_eta, *]; done)))); clear_value t)
    | (extract_lets +lift +onlyGivenNames t; clear_value t)
    | split
    | with_reducible refine (foldl_granary fun s x => ?_).trans ?_
    | (simp [granary_eta, *]; done)
    | (simp +zetaDelta [granary_eta, *]; done))

@[simp] theorem markClash_granary (s : State) (page : Nat) : granary (markClash s page) = granary s := by
  unfold markClash; simp [granary_eta, *]

@[simp] theorem commit_granary (s : State) (page : Nat) (a : Access) (v : Nat) : granary (commit s page a v) = granary s := by
  unfold commit; simp [granary_eta, *]

theorem execPageCommit_granary (a : Access) (v : Nat) (s : State) : ∀ t, execPageCommit a v s = .next t → granary t = granary s := by
  unfold execPageCommit; simp [granary_eta, *]

theorem execPageDiscard_granary (a : Access) (v : Nat) (s : State) : ∀ t, execPageDiscard a v s = .next t → granary t =
    granary s := by
  unfold execPageDiscard; simp [granary_eta, *]

/-! ### Machine/Granary.lean -/

@[simp] theorem grantFirst_granary (s : State) (chan c : Nat) (l : List (Option Nat)) : granary (grantFirst s chan c l) =
    granary s := by
  unfold grantFirst; simp [granary_eta, *]

@[simp] theorem granaryRound_granary (s : State) (chan : Nat) (q : List (List Bool)) : granary (granaryRound s chan q) =
    granary s := by
  unfold granaryRound; simp [granary_eta, *]

theorem execGranaryRound_granary (chan : Nat) (q0 q1 q2 q3 : List Bool) (s : State) : ∀ t, execGranaryRound chan q0 q1 q2 q3
    s = .next t → granary t = granary s := by
  unfold execGranaryRound; simp [granary_eta, *]

@[simp] theorem poisonLine_granary (s : State) (line : Nat) : granary (poisonLine s line) = granary s := by
  unfold poisonLine; simp [granary_eta, *]

@[simp] theorem readReturn_granary (s : State) (unit addr ecc lat : Nat) (weights : Bool) : granary (readReturn s unit addr
    ecc lat weights) = granary s := by
  unfold readReturn; simp [granary_eta, *]

@[simp] theorem takeMsg_granary (s : State) (src dst : Nat) : granary (takeMsg s src dst) = granary s := by
  unfold takeMsg; simp [granary_eta, *]

@[simp] theorem addToken_granary (s : State) (b c n : Nat) : granary (addToken s b c n) = granary s := by
  unfold addToken; simp [granary_eta, *]

@[simp] theorem addCredit_granary (s : State) (b c n : Nat) : granary (addCredit s b c n) = granary s := by
  unfold addCredit; simp [granary_eta, *]

@[simp] theorem addUnitToken_granary (s : State) (unit c n : Nat) : granary (addUnitToken s unit c n) = granary s := by
  unfold addUnitToken; simp [granary_eta, *]

@[simp] theorem tokenArrives_granary (s : State) (src dst : Nat) : granary (tokenArrives s src dst) = granary s := by
  unfold tokenArrives
  repeat' (first
    | with_reducible rfl
    | with_reducible assumption
    | (extract_lets +lift +onlyGivenNames t; have ht : granary t = granary s := (by (first | (simp [granary_eta, t, *]; done) | (dsimp only [t]; (repeat' split) <;> (simp [granary_eta, *]; done)))); clear_value t)
    | (extract_lets +lift +onlyGivenNames t; clear_value t)
    | split
    | with_reducible refine (foldl_granary fun s x => ?_).trans ?_
    | (simp [granary_eta, *]; done)
    | (simp +zetaDelta [granary_eta, *]; done))

theorem execTokenArrival_granary (src dst : Nat) (s : State) : ∀ t, execTokenArrival src dst s = .next t → granary t =
    granary s := by
  unfold execTokenArrival; simp [granary_eta, *]

@[simp] theorem creditArrives_granary (s : State) (src dst : Nat) : granary (creditArrives s src dst) = granary s := by
  unfold creditArrives
  repeat' (first
    | with_reducible rfl
    | with_reducible assumption
    | (extract_lets +lift +onlyGivenNames t; have ht : granary t = granary s := (by (first | (simp [granary_eta, t, *]; done) | (dsimp only [t]; (repeat' split) <;> (simp [granary_eta, *]; done)))); clear_value t)
    | (extract_lets +lift +onlyGivenNames t; clear_value t)
    | split
    | with_reducible refine (foldl_granary fun s x => ?_).trans ?_
    | (simp [granary_eta, *]; done)
    | (simp +zetaDelta [granary_eta, *]; done))

theorem execCreditArrival_granary (src dst : Nat) (s : State) : ∀ t, execCreditArrival src dst s = .next t → granary t =
    granary s := by
  unfold execCreditArrival; simp [granary_eta, *]

/-! ### Machine/Wain.lean -/

@[simp] theorem setWain_granary (s : State) (c : Nat) (x : Wain) : granary (setWain s c x) = granary s := by
  unfold setWain; simp [granary_eta, *]

@[simp] theorem setWainSt_granary (s : State) (c v : Nat) : granary (setWainSt s c v) = granary s := by
  unfold setWainSt; simp [granary_eta, *]

@[simp] theorem showPosted_granary (s : State) (c : Nat) : granary (showPosted s c) = granary s := by
  unfold showPosted; simp [granary_eta, *]

@[simp] theorem pourFirmware_granary (s : State) (c : Nat) : granary (pourFirmware s c) = granary s := by
  unfold pourFirmware; simp [granary_eta, *]

@[simp] theorem startChain_granary (s : State) (c : Nat) : granary (startChain s c) = granary s := by
  unfold startChain
  repeat' (first
    | with_reducible rfl
    | with_reducible assumption
    | (extract_lets +lift +onlyGivenNames t; have ht : granary t = granary s := (by (first | (simp [granary_eta, t, *]; done) | (dsimp only [t]; (repeat' split) <;> (simp [granary_eta, *]; done)))); clear_value t)
    | (extract_lets +lift +onlyGivenNames t; clear_value t)
    | split
    | with_reducible refine (foldl_granary fun s x => ?_).trans ?_
    | (simp [granary_eta, *]; done)
    | (simp +zetaDelta [granary_eta, *]; done))

@[simp] theorem postChain_granary (s : State) (c func : Nat) (ch : Chain) (off : Nat) : granary (postChain s c func ch off) =
    granary s := by
  unfold postChain; simp [granary_eta, *]

@[simp] theorem hostAddr_granary (s : State) (c p a : Nat) : granary (hostAddr s c p a).1 = granary s := by
  unfold hostAddr
  repeat' (first
    | with_reducible rfl
    | with_reducible assumption
    | (extract_lets +lift +onlyGivenNames t; have ht : granary t = granary s := (by (first | (simp [granary_eta, t, *]; done) | (dsimp only [t]; (repeat' split) <;> (simp [granary_eta, *]; done)))); clear_value t)
    | (extract_lets +lift +onlyGivenNames t; clear_value t)
    | split
    | with_reducible refine (foldl_granary fun s x => ?_).trans ?_
    | (simp [granary_eta, *]; done)
    | (simp +zetaDelta [granary_eta, *]; done))

@[simp] theorem hostOut_granary (s : State) (c p a : Nat) (bs : Bytes) : granary (hostOut s c p a bs) = granary s := by
  unfold hostOut; simp [granary_eta, *]

@[simp] theorem hostIn_granary (s : State) (c p a n : Nat) : granary (hostIn s c p a n) = granary s := by
  unfold hostIn; simp [granary_eta, *]

@[simp] theorem wainRecord_granary (s : State) (c : Nat) (d : RunDesc) (status res detail : Nat) : granary (wainRecord s c d
    status res detail) = granary s := by
  unfold wainRecord
  repeat' (first
    | with_reducible rfl
    | with_reducible assumption
    | (extract_lets +lift +onlyGivenNames t; have ht : granary t = granary s := (by (first | (simp [granary_eta, t, *]; done) | (dsimp only [t]; (repeat' split) <;> (simp [granary_eta, *]; done)))); clear_value t)
    | (extract_lets +lift +onlyGivenNames t; clear_value t)
    | split
    | with_reducible refine (foldl_granary fun s x => ?_).trans ?_
    | (simp [granary_eta, *]; done)
    | (simp +zetaDelta [granary_eta, *]; done))

@[simp] theorem wainMsg_granary (s : State) (c : Nat) (d : RunDesc) (event status res detail : Nat) : granary (wainMsg s c d
    event status res detail) = granary s := by
  unfold wainMsg; simp [granary_eta, *]

@[simp] theorem wainNext_granary (s : State) (c : Nat) (d : RunDesc) : granary (wainNext s c d) = granary s := by
  unfold wainNext; simp [granary_eta, *]

@[simp] theorem drainFunnel_granary (s : State) (c : Nat) (d : RunDesc) : granary (drainFunnel s c d) = granary s := by
  unfold drainFunnel; split <;> exact foldl_granary fun s x => by simp

@[simp] theorem endFailed_granary (s : State) (c : Nat) (d : RunDesc) (code detail : Nat) : granary (endFailed s c d code
    detail) = granary s := by
  unfold endFailed; simp [granary_eta, *]

@[simp] theorem failDesc_granary (s : State) (c : Nat) (d : RunDesc) (code detail : Nat) : granary (failDesc s c d code
    detail) = granary s := by
  unfold failDesc; simp [granary_eta, *]

@[simp] theorem startDesc_granary (s : State) (c : Nat) (d : RunDesc) : granary (startDesc s c d) = granary s := by
  unfold startDesc
  repeat' (first
    | with_reducible rfl
    | with_reducible assumption
    | (extract_lets +lift +onlyGivenNames t; have ht : granary t = granary s := (by (first | (simp [granary_eta, t, *]; done) | (dsimp only [t]; (repeat' split) <;> (simp [granary_eta, *]; done)))); clear_value t)
    | (extract_lets +lift +onlyGivenNames t; clear_value t)
    | split
    | with_reducible refine (foldl_granary fun s x => ?_).trans ?_
    | (simp [granary_eta, *]; done)
    | (simp +zetaDelta [granary_eta, *]; done))

@[simp] theorem descFetched_granary (c : Nat) (ok : Bool) (data : Bytes) (s : State) : granary (descFetched c ok data s) =
    granary s := by
  unfold descFetched; dsimp only; (repeat' split) <;> simp [granary_eta, *]

theorem execDescriptorFetchReturn_granary (c : Nat) (ok : Bool) (data : Bytes) (s : State) : ∀ t, execDescriptorFetchReturn c
    ok data s = .next t → granary t = granary s := by
  unfold execDescriptorFetchReturn; simp [granary_eta, *]

@[simp] theorem wainBytes_granary (s : State) (c n : Nat) : granary (wainBytes s c n) = granary s := by
  unfold wainBytes; simp [granary_eta, *]

@[simp] theorem wainOut_granary (s : State) (c : Nat) (d : RunDesc) (gran : Bool) (a : Nat) (bs : Bytes) : granary (wainOut s
    c d gran a bs) = granary s := by
  unfold wainOut; simp [granary_eta, *]

@[simp] theorem unitDone_granary (s : State) (c : Nat) (d : RunDesc) (i : Nat) : granary (unitDone s c d i) = granary s := by
  unfold unitDone; simp [granary_eta, *]

@[simp] theorem unitOut_granary (s : State) (c : Nat) (d : RunDesc) (i a : Nat) (bs : Bytes) : granary (unitOut s c d i a bs) =
    granary s := by
  unfold unitOut; simp [granary_eta, *]

@[simp] theorem copyUnit_granary (s : State) (c : Nat) (d : RunDesc) (i src dst n : Nat) (data : Bytes) : granary (copyUnit s
    c d i src dst n data) = granary s := by
  unfold copyUnit; simp [granary_eta, *]

@[simp] theorem moveElement_granary (s : State) (c : Nat) (d : RunDesc) (i : Nat) (idx data : Bytes) : granary (moveElement s
    c d i idx data) = granary s := by
  unfold moveElement; simp [granary_eta, *]

@[simp] theorem moveFrame_granary (s : State) (c : Nat) (d : RunDesc) (i : Nat) (data : Bytes) : granary (moveFrame s c d i
    data) = granary s := by
  unfold moveFrame; extract_lets +lift; (repeat' split) <;> simp +zetaDelta [granary_eta, *]

@[simp] theorem burstDone_granary (c i : Nat) (idx data : Bytes) (s : State) : granary (burstDone c i idx data s) = granary s := by
  unfold burstDone
  repeat' (first
    | with_reducible rfl
    | with_reducible assumption
    | (extract_lets +lift +onlyGivenNames t; have ht : granary t = granary s := (by (first | (simp [granary_eta, t, *]; done) | (dsimp only [t]; (repeat' split) <;> (simp [granary_eta, *]; done)))); clear_value t)
    | (extract_lets +lift +onlyGivenNames t; clear_value t)
    | split
    | with_reducible refine (foldl_granary fun s x => ?_).trans ?_
    | (simp [granary_eta, *]; done)
    | (simp +zetaDelta [granary_eta, *]; done))

theorem execBurstDone_granary (c i : Nat) (idx data : Bytes) (s : State) : ∀ t, execBurstDone c i idx data s = .next t →
    granary t = granary s := by
  unfold execBurstDone; simp [granary_eta, *]

theorem execWainHostErr_granary (c i : Nat) (s : State) : ∀ t, execWainHostErr c i s = .next t → granary t = granary s := by
  unfold execWainHostErr
  repeat' (first
    | with_reducible rfl
    | with_reducible assumption
    | (extract_lets +lift +onlyGivenNames t; have ht : granary t = granary s := (by (first | (simp [granary_eta, t, *]; done) | (dsimp only [t]; (repeat' split) <;> (simp [granary_eta, *]; done)))); clear_value t)
    | (extract_lets +lift +onlyGivenNames t; clear_value t)
    | split
    | with_reducible refine (foldl_granary fun s x => ?_).trans ?_
    | (simp [granary_eta, *]; done)
    | (simp +zetaDelta [granary_eta, *]; done))

@[simp] theorem succeed_granary (s : State) (c : Nat) (d : RunDesc) : granary (succeed s c d) = granary s := by
  unfold succeed; simp [granary_eta, *]

@[simp] theorem readBack_granary (s : State) (c : Nat) (d : RunDesc) (readOk : Bool) : granary (readBack s c d readOk) =
    granary s := by
  unfold readBack; simp [granary_eta, *]

theorem execDescriptorComplete_granary (c : Nat) (readOk : Bool) (s : State) : ∀ t, execDescriptorComplete c readOk s = .next
    t → granary t = granary s := by
  unfold execDescriptorComplete
  repeat' (first
    | with_reducible rfl
    | with_reducible assumption
    | (extract_lets +lift +onlyGivenNames t; have ht : granary t = granary s := (by (first | (simp [granary_eta, t, *]; done) | (dsimp only [t]; (repeat' split) <;> (simp [granary_eta, *]; done)))); clear_value t)
    | (extract_lets +lift +onlyGivenNames t; clear_value t)
    | split
    | with_reducible refine (foldl_granary fun s x => ?_).trans ?_
    | (simp [granary_eta, *]; done)
    | (simp +zetaDelta [granary_eta, *]; done))

@[simp] theorem abortWain_granary (s : State) (c code : Nat) : granary (abortWain s c code) = granary s := by
  unfold abortWain; dsimp only; (repeat' split) <;> simp [granary_eta, *]

@[simp] theorem resetWain_granary (s : State) (c owner : Nat) : granary (resetWain s c owner) = granary s := by
  unfold resetWain; simp [granary_eta, *]

@[simp] theorem assignWain_granary (s : State) (c owner : Nat) : granary (assignWain s c owner) = granary s := by
  unfold assignWain; simp [granary_eta, *]

@[simp] theorem abortDone_granary (c : Nat) (s : State) : granary (abortDone c s) = granary s := by
  unfold abortDone; dsimp only; (repeat' split) <;> simp [granary_eta, *]

theorem execAbortDone_granary (c : Nat) (s : State) : ∀ t, execAbortDone c s = .next t → granary t = granary s := by
  unfold execAbortDone; simp [granary_eta, *]

theorem execWainPost_granary (a : Access) (wide : Bool) (v : Nat) (s : State) : ∀ t, execWainPost a wide v s = .next t →
    granary t = granary s := by
  unfold execWainPost; simp [granary_eta, *]

theorem execAbort_granary (a : Access) (v : Nat) (s : State) : ∀ t, execAbort a v s = .next t → granary t = granary s := by
  unfold execAbort; simp [granary_eta, *]

theorem execResume_granary (a : Access) (v : Nat) (s : State) : ∀ t, execResume a v s = .next t → granary t = granary s := by
  unfold execResume; simp [granary_eta, *]

theorem execWainCqHead_granary (a : Access) (v : Nat) (s : State) : ∀ t, execWainCqHead a v s = .next t → granary t = granary s := by
  intro t h
  unfold execWainCqHead at h
  injection h with h
  rw [← h]
  apply atPlace_granary
  intro s pl
  dsimp only
  split
  · split
    · split <;> simp [granary_eta]
    · simp [granary_eta]
  · rfl

@[simp] theorem wainLinkDown_granary (s : State) (p c : Nat) : granary (wainLinkDown s p c) = granary s := by
  unfold wainLinkDown
  repeat' (first
    | with_reducible rfl
    | with_reducible assumption
    | (extract_lets +lift +onlyGivenNames t; have ht : granary t = granary s := (by (first | (simp [granary_eta, t, *]; done) | (dsimp only [t]; (repeat' split) <;> (simp [granary_eta, *]; done)))); clear_value t)
    | (extract_lets +lift +onlyGivenNames t; clear_value t)
    | split
    | with_reducible refine (foldl_granary fun s x => ?_).trans ?_
    | (simp [granary_eta, *]; done)
    | (simp +zetaDelta [granary_eta, *]; done))

/-! ### Machine/Txn.lean -/

@[simp] theorem setSlot_granary (s : State) (n : Nat) (x : Slot) : granary (setSlot s n x) = granary s := by
  unfold setSlot; simp [granary_eta, *]

@[simp] theorem noteOldest_granary (s : State) : granary (noteOldest s) = granary s := by
  unfold noteOldest; simp [granary_eta, *]

@[simp] theorem txnDone_granary (s : State) (n : Nat) : granary (txnDone s n) = granary s := by
  unfold txnDone; simp [granary_eta, *]

@[simp] theorem strikeSlot_granary (s : State) (n code index : Nat) : granary (strikeSlot s n code index) = granary s := by
  unfold strikeSlot; simp [granary_eta, *]

@[simp] theorem strikeFunc_granary (s : State) (f code : Nat) : granary (strikeFunc s f code) = granary s := by
  unfold strikeFunc; simp [granary_eta, *]

@[simp] theorem freeSlots_granary (s : State) (f : Nat) : granary (freeSlots s f) = granary s := by
  unfold freeSlots; simp [granary_eta, *]

@[simp] theorem strikeClaim_granary (s : State) : granary (strikeClaim s) = granary s := by
  unfold strikeClaim; simp [granary_eta, *]

@[simp] theorem raiseSlot_granary (s : State) (n : Nat) (pend : Bool) : granary (raiseSlot s n pend) = granary s := by
  unfold raiseSlot; simp [granary_eta, *]

@[simp] theorem fetchEnds_granary (s : State) (n : Nat) : granary (fetchEnds s n) = granary s := by
  unfold fetchEnds; simp [granary_eta, *]

@[simp] theorem takeRecords_granary (k : Nat) (s : State) (n : Nat) : granary (takeRecords k s n) = granary s := by
  induction k generalizing s with
  | zero => rfl
  | succ k ih =>
    unfold takeRecords; dsimp only; repeat' split
    all_goals simp [granary_eta, *]

@[simp] theorem listReturn_granary (n : Nat) (ok : Bool) (data : Bytes) (s : State) : granary (listReturn n ok data s) =
    granary s := by
  unfold listReturn; dsimp only; (repeat' split) <;> simp [granary_eta, *]

theorem execTxnListLineReturn_granary (n : Nat) (ok : Bool) (data : Bytes) (s : State) : ∀ t, execTxnListLineReturn n ok data
    s = .next t → granary t = granary s := by
  unfold execTxnListLineReturn; simp [granary_eta, *]

theorem execTxnListReadTimeout_granary (n : Nat) (s : State) : ∀ t, execTxnListReadTimeout n s = .next t → granary t =
    granary s := by
  unfold execTxnListReadTimeout; simp [granary_eta, *]

@[simp] theorem txnOpen_granary (s : State) (a : Access) : granary (txnOpen s a).1 = granary s := by
  unfold txnOpen
  repeat' (first
    | with_reducible rfl
    | with_reducible assumption
    | (extract_lets +lift +onlyGivenNames t; have ht : granary t = granary s := (by (first | (simp [granary_eta, t, *]; done) | (dsimp only [t]; (repeat' split) <;> (simp [granary_eta, *]; done)))); clear_value t)
    | (extract_lets +lift +onlyGivenNames t; clear_value t)
    | split
    | with_reducible refine (foldl_granary fun s x => ?_).trans ?_
    | (simp [granary_eta, *]; done)
    | (simp +zetaDelta [granary_eta, *]; done))

@[simp] theorem answerWord_granary (a : Access) (r : State × Nat) : granary (answerWord a r) = granary r.1 := by
  unfold answerWord; simp [granary_eta, *]

theorem execTxnOpen_granary (a : Access) (s : State) : ∀ t, execTxnOpen a s = .next t → granary t = granary s := by
  unfold execTxnOpen
  repeat' (first
    | with_reducible rfl
    | with_reducible assumption
    | (extract_lets +lift +onlyGivenNames t; have ht : granary t = granary s := (by (first | (simp [granary_eta, t, *]; done) | (dsimp only [t]; (repeat' split) <;> (simp [granary_eta, *]; done)))); clear_value t)
    | (extract_lets +lift +onlyGivenNames t; clear_value t)
    | split
    | with_reducible refine (foldl_granary fun s x => ?_).trans ?_
    | (simp [granary_eta, *]; done)
    | (simp +zetaDelta [granary_eta, *]; done))

@[simp] theorem txnState_granary (s : State) (func off : Nat) : granary (txnState s func off) = granary s := by
  unfold txnState; simp [granary_eta, *]

@[simp] theorem onSlot_granary (s : State) (a : Access) (pl : Place) (f : State → Nat → Slot → State) (hf : ∀ (x0 : State)
    (x1 : Nat) (x2 : Slot), granary (f x0 x1 x2) = granary x0) : granary (onSlot s a pl f) = granary s := by
  unfold onSlot; simp [granary_eta, *]

theorem execTxnListCmd_granary (a : Access) (v : Nat) (s : State) : ∀ t, execTxnListCmd a v s = .next t → granary t = granary s := by
  unfold execTxnListCmd; simp [granary_eta, *]

@[simp] theorem txnAction_granary (a : Access) (v op : Nat) (s : State) (f : State → Nat → Slot → State) (hf : ∀ (x0 : State)
    (x1 : Nat) (x2 : Slot), granary (f x0 x1 x2) = granary x0) : granary (txnAction a v op s f) = granary s := by
  unfold txnAction; simp [granary_eta, *]

theorem execRaise_granary (a : Access) (v : Nat) (s : State) : ∀ t, execRaise a v s = .next t → granary t = granary s := by
  unfold execRaise; simp [granary_eta, *]

theorem execStrike_granary (a : Access) (v : Nat) (s : State) : ∀ t, execStrike a v s = .next t → granary t = granary s := by
  unfold execStrike; simp [granary_eta, *]

theorem execRelease_granary (a : Access) (v : Nat) (s : State) : ∀ t, execRelease a v s = .next t → granary t = granary s := by
  unfold execRelease; simp [granary_eta, *]

theorem execRetireStall_granary (s : State) : ∀ t, execRetireStall s = .next t → granary t = granary s := by
  unfold execRetireStall
  repeat' (first
    | with_reducible rfl
    | with_reducible assumption
    | (extract_lets +lift +onlyGivenNames t; have ht : granary t = granary s := (by (first | (simp [granary_eta, t, *]; done) | (dsimp only [t]; (repeat' split) <;> (simp [granary_eta, *]; done)))); clear_value t)
    | (extract_lets +lift +onlyGivenNames t; clear_value t)
    | split
    | with_reducible refine (foldl_granary fun s x => ?_).trans ?_
    | (simp [granary_eta, *]; done)
    | (simp +zetaDelta [granary_eta, *]; done))

/-! ### Machine/Bay.lean -/

@[simp] theorem freePerf_granary (s : State) (b j : Nat) : granary (freePerf s b j) = granary s := by
  unfold freePerf; simp [granary_eta, *]

@[simp] theorem refill_granary (s : State) (b : Nat) : granary (refill s b) = granary s := by
  unfold refill; simp [granary_eta, *]

@[simp] theorem issueHead_granary (s : State) (b : Nat) (q : QWord) : granary (issueHead s b q) = granary s := by
  unfold issueHead; simp [granary_eta, *]

@[simp] theorem dropIssued_granary (s : State) (b : Nat) : granary (dropIssued s b) = granary s := by
  unfold dropIssued; simp [granary_eta, *]

@[simp] theorem boundIssued_granary (s : State) (b : Nat) : granary (boundIssued s b) = granary s := by
  unfold boundIssued; simp [granary_eta, *]

@[simp] theorem leaveRunning_granary (s : State) (b : Nat) (st : BaySt) (hcode : Nat) : granary (leaveRunning s b st hcode) =
    granary s := by
  unfold leaveRunning; simp [granary_eta, *]

@[simp] theorem bayError_granary (s : State) (b code addr : Nat) : granary (bayError s b code addr) = granary s := by
  unfold bayError; simp [granary_eta, *]

@[simp] theorem bayHalted_granary (s : State) (b hcode : Nat) : granary (bayHalted s b hcode) = granary s := by
  unfold bayHalted; simp [granary_eta, *]

@[simp] theorem startProgram_granary (s : State) (b : Nat) : granary (startProgram s b) = granary s := by
  unfold startProgram; simp [granary_eta, *]

@[simp] theorem goBay_granary (s : State) (b func : Nat) : granary (goBay s b func) = granary s := by
  unfold goBay; simp [granary_eta, *]

@[simp] theorem atBay_granary (s : State) (a : Access) (off : Nat) (f : State → Nat → State) (hf : ∀ (x0 : State) (x1 : Nat),
    granary (f x0 x1) = granary x0) : granary (atBay s a off f) = granary s := by
  unfold atBay; simp [granary_eta, *]

theorem execBayRunGo_granary (a : Access) (v : Nat) (s : State) : ∀ t, execBayRunGo a v s = .next t → granary t = granary s := by
  unfold execBayRunGo; simp [granary_eta, *]

theorem execBayRunHalt_granary (a : Access) (v : Nat) (s : State) : ∀ t, execBayRunHalt a v s = .next t → granary t = granary s := by
  unfold execBayRunHalt; simp [granary_eta, *]

theorem execBayRunClear_granary (a : Access) (v : Nat) (s : State) : ∀ t, execBayRunClear a v s = .next t → granary t =
    granary s := by
  unfold execBayRunClear; simp [granary_eta, *]

theorem execBayTokenSet_granary (a : Access) (v : Nat) (s : State) : ∀ t, execBayTokenSet a v s = .next t → granary t =
    granary s := by
  unfold execBayTokenSet; simp [granary_eta, *]

theorem execPerfClr_granary (a : Access) (v : Nat) (s : State) : ∀ t, execPerfClr a v s = .next t → granary t = granary s := by
  unfold execPerfClr; simp [granary_eta, *]

@[simp] theorem programFetch_granary (s : State) (b : Nat) : granary (programFetch s b) = granary s := by
  unfold programFetch; simp [granary_eta, *]

theorem execProgramFetchReturn_granary (b : Nat) (s : State) : ∀ t, execProgramFetchReturn b s = .next t → granary t =
    granary s := by
  unfold execProgramFetchReturn; simp [granary_eta, *]

@[simp] theorem refusedHead_granary (s : State) (b : Nat) : granary (refusedHead s b) = granary s := by
  unfold refusedHead
  repeat' (first
    | with_reducible rfl
    | with_reducible assumption
    | (extract_lets +lift +onlyGivenNames t; have ht : granary t = granary s := (by (first | (simp [granary_eta, t, *]; done) | (dsimp only [t]; (repeat' split) <;> (simp [granary_eta, *]; done)))); clear_value t)
    | (extract_lets +lift +onlyGivenNames t; clear_value t)
    | split
    | with_reducible refine (foldl_granary fun s x => ?_).trans ?_
    | (simp [granary_eta, *]; done)
    | (simp +zetaDelta [granary_eta, *]; done))

theorem execRefusedWordAtHead_granary (b : Nat) (s : State) : ∀ t, execRefusedWordAtHead b s = .next t → granary t = granary s := by
  unfold execRefusedWordAtHead; simp [granary_eta, *]

@[simp] theorem wordComplete_granary (s : State) (b : Nat) (e : Engine) : granary (wordComplete s b e) = granary s := by
  unfold wordComplete
  repeat' (first
    | with_reducible rfl
    | with_reducible assumption
    | (extract_lets +lift +onlyGivenNames t; have ht : granary t = granary s := (by (first | (simp [granary_eta, t, *]; done) | (dsimp only [t]; (repeat' split) <;> (simp [granary_eta, *]; done)))); clear_value t)
    | (extract_lets +lift +onlyGivenNames t; clear_value t)
    | split
    | with_reducible refine (foldl_granary fun s x => ?_).trans ?_
    | (simp [granary_eta, *]; done)
    | (simp +zetaDelta [granary_eta, *]; done))

theorem execWordComplete_granary (b e : Nat) (s : State) : ∀ t, execWordComplete b e s = .next t → granary t = granary s := by
  unfold execWordComplete; simp [granary_eta, *]

@[simp] theorem runHead_granary (s : State) (b : Nat) (sel : Nat → Bool) (pre : State → Nat → Nat → Nat)
    (eff : State → Nat → QWord → Except Nat State)
    (he : ∀ s b q t, eff s b q = .ok t → granary t = granary s) : granary (runHead s b sel pre eff) = granary s := by
  unfold runHead; dsimp only; repeat' split
  · rfl
  · simp [granary_eta]
  · rfl
  · simp [granary_eta]
  · simp [granary_eta]
  · rename_i h _; rw [boundIssued_granary, he _ _ _ _ h]; simp [granary_eta]
  · rename_i h _; rw [he _ _ _ _ h]; simp [granary_eta]
  · simp [granary_eta]

@[simp] theorem storeEcc_granary (s : State) (b ecc : Nat) (rs : List Lines) : granary (storeEcc s b ecc rs) = granary s := by
  unfold storeEcc
  repeat' (first
    | with_reducible rfl
    | with_reducible assumption
    | (extract_lets +lift +onlyGivenNames t; have ht : granary t = granary s := (by (first | (simp [granary_eta, t, *]; done) | (dsimp only [t]; (repeat' split) <;> (simp [granary_eta, *]; done)))); clear_value t)
    | (extract_lets +lift +onlyGivenNames t; clear_value t)
    | split
    | with_reducible refine (foldl_granary fun s x => ?_).trans ?_
    | (simp [granary_eta, *]; done)
    | (simp +zetaDelta [granary_eta, *]; done))

theorem behindEcc_granary (rs : Nat → List Lines) {eff : State → Nat → QWord → Except Nat State}
    (he : ∀ s b q t, eff s b q = .ok t → granary t = granary s) (s : State) (b : Nat) (q : QWord) (t : State)
    (h : behindEcc rs eff s b q = .ok t) : granary t = granary s := by
  unfold behindEcc at h; split at h
  · cases h
  · exact he _ _ _ _ h

@[simp] theorem runReading_granary (s : State) (b ecc : Nat) (sel : Nat → Bool) (pre : State → Nat → Nat → Nat)
    (eff : State → Nat → QWord → Except Nat State)
    (he : ∀ s b q t, eff s b q = .ok t → granary t = granary s) : granary (runReading s b ecc sel pre eff) = granary s := by
  unfold runReading; dsimp only; split
  · rw [runHead_granary _ _ _ _ _ (behindEcc_granary _ he)]
    split <;> simp [granary_eta]
  · exact runHead_granary _ _ _ _ _ he

theorem loadEff_granary (s : State) (b : Nat) (q : QWord) : ∀ t, loadEff s b q = .ok t → granary t = granary s := by
  unfold loadEff
  repeat' (first
    | with_reducible rfl
    | with_reducible assumption
    | (extract_lets +lift +onlyGivenNames t; have ht : granary t = granary s := (by (first | (simp [granary_eta, t, *]; done) | (dsimp only [t]; (repeat' split) <;> (simp [granary_eta, *]; done)))); clear_value t)
    | (extract_lets +lift +onlyGivenNames t; clear_value t)
    | split
    | with_reducible refine (foldl_granary fun s x => ?_).trans ?_
    | (simp [granary_eta, *]; done)
    | (simp +zetaDelta [granary_eta, *]; done))

theorem execLoad_granary (b : Nat) (s : State) : ∀ t, execLoad b s = .next t → granary t = granary s := by
  intro t h
  unfold execLoad at h
  injection h with h
  rw [← h]
  exact runHead_granary _ _ _ _ _ fun s b q => loadEff_granary s b q

@[simp] theorem noteOut_granary (s : State) (b : Nat) (empty : Bool) : granary (noteOut s b empty) = granary s := by
  unfold noteOut; simp [granary_eta, *]

theorem storeEff_granary (s : State) (b : Nat) (q : QWord) : ∀ t, storeEff s b q = .ok t → granary t = granary s := by
  unfold storeEff
  repeat' (first
    | with_reducible rfl
    | with_reducible assumption
    | (extract_lets +lift +onlyGivenNames t; have ht : granary t = granary s := (by (first | (simp [granary_eta, t, *]; done) | (dsimp only [t]; (repeat' split) <;> (simp [granary_eta, *]; done)))); clear_value t)
    | (extract_lets +lift +onlyGivenNames t; clear_value t)
    | split
    | with_reducible refine (foldl_granary fun s x => ?_).trans ?_
    | (simp [granary_eta, *]; done)
    | (simp +zetaDelta [granary_eta, *]; done))

theorem execStore_granary (b ecc : Nat) (s : State) : ∀ t, execStore b ecc s = .next t → granary t = granary s := by
  intro t h
  unfold execStore at h
  injection h with h
  rw [← h]
  exact runReading_granary _ _ _ _ _ _ fun s b q => storeEff_granary s b q

theorem sendEff_granary (s : State) (b : Nat) (q : QWord) : ∀ t, sendEff s b q = .ok t → granary t = granary s := by
  unfold sendEff
  repeat' (first
    | with_reducible rfl
    | with_reducible assumption
    | (extract_lets +lift +onlyGivenNames t; have ht : granary t = granary s := (by (first | (simp [granary_eta, t, *]; done) | (dsimp only [t]; (repeat' split) <;> (simp [granary_eta, *]; done)))); clear_value t)
    | (extract_lets +lift +onlyGivenNames t; clear_value t)
    | split
    | with_reducible refine (foldl_granary fun s x => ?_).trans ?_
    | (simp [granary_eta, *]; done)
    | (simp +zetaDelta [granary_eta, *]; done))

theorem execSendToken_granary (b : Nat) (s : State) : ∀ t, execSendToken b s = .next t → granary t = granary s := by
  intro t h
  unfold execSendToken at h
  injection h with h
  rw [← h]
  exact runHead_granary _ _ _ _ _ fun s b q => sendEff_granary s b q

theorem execSendCredit_granary (b : Nat) (s : State) : ∀ t, execSendCredit b s = .next t → granary t = granary s := by
  intro t h
  unfold execSendCredit at h
  injection h with h
  rw [← h]
  exact runHead_granary _ _ _ _ _ fun s b q => sendEff_granary s b q

theorem execWait_granary (b : Nat) (s : State) : ∀ t, execWait b s = .next t → granary t = granary s := by
  unfold execWait; simp [granary_eta, *]

theorem tallyEff_granary (s : State) (b : Nat) (q : QWord) : ∀ t, tallyEff s b q = .ok t → granary t = granary s := by
  unfold tallyEff; simp [granary_eta, *]

theorem execTally_granary (b : Nat) (s : State) : ∀ t, execTally b s = .next t → granary t = granary s := by
  intro t h
  unfold execTally at h
  injection h with h
  rw [← h]
  exact runHead_granary _ _ _ _ _ fun s b q => tallyEff_granary s b q

theorem haltEff_granary (s : State) (b : Nat) (q : QWord) : ∀ t, haltEff s b q = .ok t → granary t = granary s := by
  unfold haltEff; simp [granary_eta, *]

theorem execHalt_granary (b : Nat) (s : State) : ∀ t, execHalt b s = .next t → granary t = granary s := by
  intro t h
  unfold execHalt at h
  injection h with h
  rw [← h]
  exact runHead_granary _ _ _ _ _ fun s b q => haltEff_granary s b q

/-! ### Machine/Press.lean -/

@[simp] theorem countTrunc_granary (s : State) (b : Nat) (cs : List (List (Nat × Bool))) : granary (countTrunc s b cs) =
    granary s := by
  unfold countTrunc; simp [granary_eta, *]

theorem pressEff_granary (s : State) (b : Nat) (q : QWord) : ∀ t, pressEff s b q = .ok t → granary t = granary s := by
  unfold pressEff; simp [granary_eta, *]

theorem execPress_granary (b ecc : Nat) (s : State) : ∀ t, execPress b ecc s = .next t → granary t = granary s := by
  intro t h
  unfold execPress at h
  injection h with h
  rw [← h]
  exact runReading_granary _ _ _ _ _ _ fun s b q => pressEff_granary s b q

theorem winnowEff_granary (s : State) (b : Nat) (q : QWord) : ∀ t, winnowEff s b q = .ok t → granary t = granary s := by
  unfold winnowEff
  repeat' (first
    | with_reducible rfl
    | with_reducible assumption
    | (extract_lets +lift +onlyGivenNames t; have ht : granary t = granary s := (by (first | (simp [granary_eta, t, *]; done) | (dsimp only [t]; (repeat' split) <;> (simp [granary_eta, *]; done)))); clear_value t)
    | (extract_lets +lift +onlyGivenNames t; clear_value t)
    | split
    | with_reducible refine (foldl_granary fun s x => ?_).trans ?_
    | (simp [granary_eta, *]; done)
    | (simp +zetaDelta [granary_eta, *]; done))

theorem execWinnow_granary (b ecc : Nat) (s : State) : ∀ t, execWinnow b ecc s = .next t → granary t = granary s := by
  intro t h
  unfold execWinnow at h
  injection h with h
  rw [← h]
  exact runReading_granary _ _ _ _ _ _ fun s b q => winnowEff_granary s b q

/-! ### Machine/Vec.lean -/

theorem vecEff_granary (s : State) (b : Nat) (q : QWord) : ∀ t, vecEff s b q = .ok t → granary t = granary s := by
  unfold vecEff; simp [granary_eta, *]

@[simp] theorem runVec_granary (s : State) (b vop ecc : Nat) : granary (runVec s b vop ecc) = granary s := by
  unfold runVec
  exact runReading_granary _ _ _ _ _ _ fun s b q => vecEff_granary s b q

theorem execCvt_granary (b ecc : Nat) (s : State) : ∀ t, execCvt b ecc s = .next t → granary t = granary s := by
  unfold execCvt; simp [granary_eta, *]

theorem execAdd_granary (b ecc : Nat) (s : State) : ∀ t, execAdd b ecc s = .next t → granary t = granary s := by
  unfold execAdd; simp [granary_eta, *]

theorem execSub_granary (b ecc : Nat) (s : State) : ∀ t, execSub b ecc s = .next t → granary t = granary s := by
  unfold execSub; simp [granary_eta, *]

theorem execMul_granary (b ecc : Nat) (s : State) : ∀ t, execMul b ecc s = .next t → granary t = granary s := by
  unfold execMul; simp [granary_eta, *]

theorem execFma_granary (b ecc : Nat) (s : State) : ∀ t, execFma b ecc s = .next t → granary t = granary s := by
  unfold execFma; simp [granary_eta, *]

theorem execMax_granary (b ecc : Nat) (s : State) : ∀ t, execMax b ecc s = .next t → granary t = granary s := by
  unfold execMax; simp [granary_eta, *]

theorem execMin_granary (b ecc : Nat) (s : State) : ∀ t, execMin b ecc s = .next t → granary t = granary s := by
  unfold execMin; simp [granary_eta, *]

theorem execMuls_granary (b ecc : Nat) (s : State) : ∀ t, execMuls b ecc s = .next t → granary t = granary s := by
  unfold execMuls; simp [granary_eta, *]

theorem execAdds_granary (b ecc : Nat) (s : State) : ∀ t, execAdds b ecc s = .next t → granary t = granary s := by
  unfold execAdds; simp [granary_eta, *]

theorem execExp2_granary (b ecc : Nat) (s : State) : ∀ t, execExp2 b ecc s = .next t → granary t = granary s := by
  unfold execExp2; simp [granary_eta, *]

theorem execLog2_granary (b ecc : Nat) (s : State) : ∀ t, execLog2 b ecc s = .next t → granary t = granary s := by
  unfold execLog2; simp [granary_eta, *]

theorem execRecip_granary (b ecc : Nat) (s : State) : ∀ t, execRecip b ecc s = .next t → granary t = granary s := by
  unfold execRecip; simp [granary_eta, *]

theorem execRsqrt_granary (b ecc : Nat) (s : State) : ∀ t, execRsqrt b ecc s = .next t → granary t = granary s := by
  unfold execRsqrt; simp [granary_eta, *]

theorem execTanh_granary (b ecc : Nat) (s : State) : ∀ t, execTanh b ecc s = .next t → granary t = granary s := by
  unfold execTanh; simp [granary_eta, *]

theorem execGelu_granary (b ecc : Nat) (s : State) : ∀ t, execGelu b ecc s = .next t → granary t = granary s := by
  unfold execGelu; simp [granary_eta, *]

theorem execSilu_granary (b ecc : Nat) (s : State) : ∀ t, execSilu b ecc s = .next t → granary t = granary s := by
  unfold execSilu; simp [granary_eta, *]

theorem execRelu_granary (b ecc : Nat) (s : State) : ∀ t, execRelu b ecc s = .next t → granary t = granary s := by
  unfold execRelu; simp [granary_eta, *]

theorem execRsum_granary (b ecc : Nat) (s : State) : ∀ t, execRsum b ecc s = .next t → granary t = granary s := by
  unfold execRsum; simp [granary_eta, *]

theorem execRmax_granary (b ecc : Nat) (s : State) : ∀ t, execRmax b ecc s = .next t → granary t = granary s := by
  unfold execRmax; simp [granary_eta, *]

theorem execArgmax_granary (b ecc : Nat) (s : State) : ∀ t, execArgmax b ecc s = .next t → granary t = granary s := by
  unfold execArgmax; simp [granary_eta, *]

theorem execTree_granary (b ecc : Nat) (s : State) : ∀ t, execTree b ecc s = .next t → granary t = granary s := by
  unfold execTree; simp [granary_eta, *]

/-! ### Machine/Composite.lean -/

@[simp] theorem endComposite_granary (s : State) (b : Nat) (c : Composite) (status : Bytes) : granary (endComposite s b c
    status) = granary s := by
  unfold endComposite; simp [granary_eta, *]

@[simp] theorem finishComposite_granary (s : State) (b : Nat) (c : Composite) (empty : Bool) : granary (finishComposite s b c
    empty) = granary s := by
  unfold finishComposite; simp [granary_eta, *]

@[simp] theorem failComposite_granary (s : State) (b : Nat) (c : Composite) (code : Nat) : granary (failComposite s b c code)
    = granary s := by
  unfold failComposite; simp [granary_eta, *]

@[simp] theorem haltComposite_granary (s : State) (b : Nat) (c : Composite) : granary (haltComposite s b c) = granary s := by
  unfold haltComposite; simp [granary_eta, *]

@[simp] theorem countRow_granary (s : State) (b : Nat) : granary (countRow s b) = granary s := by
  unfold countRow; simp [granary_eta, *]

theorem runRows_granary (k : Works) (hw : ∀ s b c, granary (k.wait s b c).1 = granary s) (hr : ∀ s b c t, k.row s b c = .ok t
    → granary t.1 = granary s)
    (hf : ∀ s b c, granary (k.finish s b c) = granary s) (b n : Nat) (s : State) : granary (runRows k b n s) = granary s := by
  induction n generalizing s with
  | zero => unfold runRows; repeat' split
            all_goals first | rfl | exact hf _ _ _
  | succ n ih =>
    unfold runRows
    split
    · rfl
    · rename_i c _
      split
      · rfl
      · split
        · exact hf _ _ _
        · dsimp only
          generalize hq : setBay (k.wait s b c).1 b _ = t
          have ht : granary t = granary s := hq ▸ (setBay_granary _ _ _).trans (hw _ _ _)
          split
          · exact ht
          · split
            · rename_i h; rw [ih, countRow_granary, setBay_granary, hr _ _ _ _ h]; exact ht
            · rw [failComposite_granary]; exact ht

theorem compositeRow_granary (s : State) (b n cls op : Nat) (pre : State → Nat → Nat → Nat)
    (start : State → Nat → QWord → Except Nat State) (k : Works)
    (he : ∀ s b q t, start s b q = .ok t → granary t = granary s) (hw : ∀ s b c, granary (k.wait s b c).1 = granary s)
    (hr : ∀ s b c t, k.row s b c = .ok t → granary t.1 = granary s)
    (hf : ∀ s b c, granary (k.finish s b c) = granary s) : granary (compositeRow s b n cls op pre start k) = granary s := by
  unfold compositeRow; split
  · split
    · exact runHead_granary _ _ _ _ _ he
    · split
      · rfl
      · exact runRows_granary k hw hr hf _ _ _
  · rw [runRows_granary k hw hr hf]; exact runHead_granary _ _ _ _ _ he

@[simp] theorem haltComplete_granary (s : State) (b : Nat) : granary (haltComplete s b) = granary s := by
  unfold haltComplete
  repeat' (first
    | with_reducible rfl
    | with_reducible assumption
    | (extract_lets +lift +onlyGivenNames t; have ht : granary t = granary s := (by (first | (simp [granary_eta, t, *]; done) | (dsimp only [t]; (repeat' split) <;> (simp [granary_eta, *]; done)))); clear_value t)
    | (extract_lets +lift +onlyGivenNames t; clear_value t)
    | split
    | with_reducible refine (foldl_granary fun s x => ?_).trans ?_
    | (simp [granary_eta, *]; done)
    | (simp +zetaDelta [granary_eta, *]; done))

theorem execHaltComplete_granary (b : Nat) (s : State) : ∀ t, execHaltComplete b s = .next t → granary t = granary s := by
  unfold execHaltComplete; simp [granary_eta, *]

/-! ### Machine/Attn.lean -/

theorem attStart_granary (op : Nat) (s : State) (b : Nat) (q : QWord) : ∀ t, attStart op s b q = .ok t → granary t = granary s := by
  unfold attStart
  repeat' (first
    | with_reducible rfl
    | with_reducible assumption
    | (extract_lets +lift +onlyGivenNames t; have ht : granary t = granary s := (by (first | (simp [granary_eta, t, *]; done) | (dsimp only [t]; (repeat' split) <;> (simp [granary_eta, *]; done)))); clear_value t)
    | (extract_lets +lift +onlyGivenNames t; clear_value t)
    | split
    | with_reducible refine (foldl_granary fun s x => ?_).trans ?_
    | (simp [granary_eta, *]; done)
    | (simp +zetaDelta [granary_eta, *]; done))

@[simp] theorem writeOut_granary (s : State) (c : AttCtx) (i j : Nat) (t : Option Soft) : granary (writeOut s c i j t) =
    granary s := by
  unfold writeOut; simp [granary_eta, *]

@[simp] theorem writeHead_granary (s : State) (c : AttCtx) (i j : Nat) (r : HeadRes) : granary (writeHead s c i j r) =
    granary s := by
  unfold writeHead; simp [granary_eta, *]

@[simp] theorem markPages_granary (s : State) (c : AttCtx) (hit : List Nat) : granary (markPages s c hit) = granary s := by
  unfold markPages; simp [granary_eta, *]

@[simp] theorem rowDone_granary (s : State) (c : Composite) (seen bad range : Bool) : granary (rowDone s c seen bad range).1
    = granary s := by
  unfold rowDone; simp [granary_eta, *]

@[simp] theorem noteRange_granary (s : State) (b n : Nat) : granary (noteRange s b n) = granary s := by
  unfold noteRange; simp [granary_eta, *]

theorem attendRow_granary (s : State) (b : Nat) (c : Composite) : ∀ t, attendRow s b c = .ok t → granary t.1 = granary s := by
  unfold attendRow
  repeat' (first
    | with_reducible rfl
    | with_reducible assumption
    | (extract_lets +lift +onlyGivenNames t; have ht : granary t = granary s := (by (first | (simp [granary_eta, t, *]; done) | (dsimp only [t]; (repeat' split) <;> (simp [granary_eta, *]; done)))); clear_value t)
    | (extract_lets +lift +onlyGivenNames t; clear_value t)
    | split
    | with_reducible refine (foldl_granary fun s x => ?_).trans ?_
    | (simp [granary_eta, *]; done)
    | (simp +zetaDelta [granary_eta, *]; done))

theorem combineRow_granary (s : State) (b : Nat) (c : Composite) : ∀ t, combineRow s b c = .ok t → granary t.1 = granary s := by
  unfold combineRow
  repeat' (first
    | with_reducible rfl
    | with_reducible assumption
    | (extract_lets +lift +onlyGivenNames t; have ht : granary t = granary s := (by (first | (simp [granary_eta, t, *]; done) | (dsimp only [t]; (repeat' split) <;> (simp [granary_eta, *]; done)))); clear_value t)
    | (extract_lets +lift +onlyGivenNames t; clear_value t)
    | split
    | with_reducible refine (foldl_granary fun s x => ?_).trans ?_
    | (simp [granary_eta, *]; done)
    | (simp +zetaDelta [granary_eta, *]; done))

@[simp] theorem appendOne_granary (s0 s : State) (c : AttCtx) (i k h : Nat) : granary (appendOne s0 s c i k h).1 = granary s := by
  unfold appendOne
  repeat' (first
    | with_reducible rfl
    | with_reducible assumption
    | (extract_lets +lift +onlyGivenNames t; have ht : granary t = granary s := (by (first | (simp [granary_eta, t, *]; done) | (dsimp only [t]; (repeat' split) <;> (simp [granary_eta, *]; done)))); clear_value t)
    | (extract_lets +lift +onlyGivenNames t; clear_value t)
    | split
    | with_reducible refine (foldl_granary fun s x => ?_).trans ?_
    | (simp [granary_eta, *]; done)
    | (simp +zetaDelta [granary_eta, *]; done))

@[simp] theorem appendNode_granary (s0 s : State) (c : AttCtx) (n k h : Nat) : granary (appendNode s0 s c n k h).1 = granary s := by
  unfold appendNode
  repeat' (first
    | with_reducible rfl
    | with_reducible assumption
    | (extract_lets +lift +onlyGivenNames t; have ht : granary t = granary s := (by (first | (simp [granary_eta, t, *]; done) | (dsimp only [t]; (repeat' split) <;> (simp [granary_eta, *]; done)))); clear_value t)
    | (extract_lets +lift +onlyGivenNames t; clear_value t)
    | split
    | with_reducible refine (foldl_granary fun s x => ?_).trans ?_
    | (simp [granary_eta, *]; done)
    | (simp +zetaDelta [granary_eta, *]; done))

theorem appendRow_granary (s : State) (b : Nat) (c : Composite) : ∀ t, appendRow s b c = .ok t → granary t.1 = granary s := by
  unfold appendRow; dsimp only; (repeat' split) <;> simp [granary_eta, *]

theorem backwardRow_granary (s : State) (b : Nat) (c : Composite) : ∀ t, backwardRow s b c = .ok t → granary t.1 = granary s := by
  unfold backwardRow
  repeat' (first
    | with_reducible rfl
    | with_reducible assumption
    | (extract_lets +lift +onlyGivenNames t; have ht : granary t = granary s := (by (first | (simp [granary_eta, t, *]; done) | (dsimp only [t]; (repeat' split) <;> (simp [granary_eta, *]; done)))); clear_value t)
    | (extract_lets +lift +onlyGivenNames t; clear_value t)
    | split
    | with_reducible refine (foldl_granary fun s x => ?_).trans ?_
    | (simp [granary_eta, *]; done)
    | (simp +zetaDelta [granary_eta, *]; done))

theorem attWorks_row_granary (row : State → Nat → Composite → Except Nat (State × Composite))
    (h : ∀ s b c t, row s b c = .ok t → granary t.1 = granary s) (s : State) (b : Nat) (c : Composite) (t : State × Composite)
    (ht : (attWorks row).row s b c = .ok t) : granary t.1 = granary s := h s b c t ht
theorem attWorks_finish_granary (row : State → Nat → Composite → Except Nat (State × Composite)) (s : State) (b : Nat)
    (c : Composite) : granary ((attWorks row).finish s b c) = granary s :=
  (finishComposite_granary _ b c _).trans (noteOut_granary _ _ _)
theorem execPrefill_granary (b n : Nat) (s : State) : ∀ t, execPrefill b n s = .next t → granary t = granary s := by
  intro t h
  unfold execPrefill at h
  injection h with h
  rw [← h]
  exact compositeRow_granary _ _ _ _ _ _ _ _ (fun s b q => attStart_granary _ s b q) (fun _ _ _ => rfl)
    (attWorks_row_granary _ fun s b c => attendRow_granary s b c) (attWorks_finish_granary _)

theorem execDecode_granary (b n : Nat) (s : State) : ∀ t, execDecode b n s = .next t → granary t = granary s := by
  intro t h
  unfold execDecode at h
  injection h with h
  rw [← h]
  exact compositeRow_granary _ _ _ _ _ _ _ _ (fun s b q => attStart_granary _ s b q) (fun _ _ _ => rfl)
    (attWorks_row_granary _ fun s b c => attendRow_granary s b c) (attWorks_finish_granary _)

theorem execAppend_granary (b n : Nat) (s : State) : ∀ t, execAppend b n s = .next t → granary t = granary s := by
  intro t h
  unfold execAppend at h
  injection h with h
  rw [← h]
  exact compositeRow_granary _ _ _ _ _ _ _ _ (fun s b q => attStart_granary _ s b q) (fun _ _ _ => rfl)
    (attWorks_row_granary _ fun s b c => appendRow_granary s b c) (attWorks_finish_granary _)

theorem execBackward_granary (b n : Nat) (s : State) : ∀ t, execBackward b n s = .next t → granary t = granary s := by
  intro t h
  unfold execBackward at h
  injection h with h
  rw [← h]
  exact compositeRow_granary _ _ _ _ _ _ _ _ (fun s b q => attStart_granary _ s b q) (fun _ _ _ => rfl)
    (attWorks_row_granary _ fun s b c => backwardRow_granary s b c) (attWorks_finish_granary _)

theorem execCombine_granary (b n : Nat) (s : State) : ∀ t, execCombine b n s = .next t → granary t = granary s := by
  intro t h
  unfold execCombine at h
  injection h with h
  rw [← h]
  exact compositeRow_granary _ _ _ _ _ _ _ _ (fun s b q => attStart_granary _ s b q) (fun _ _ _ => rfl)
    (attWorks_row_granary _ fun s b c => combineRow_granary s b c) (attWorks_finish_granary _)

/-! ### Machine/Conv.lean -/

theorem loadZrcEff_granary (s : State) (b : Nat) (q : QWord) : ∀ t, loadZrcEff s b q = .ok t → granary t = granary s := by
  unfold loadZrcEff
  repeat' (first
    | with_reducible rfl
    | with_reducible assumption
    | (extract_lets +lift +onlyGivenNames t; have ht : granary t = granary s := (by (first | (simp [granary_eta, t, *]; done) | (dsimp only [t]; (repeat' split) <;> (simp [granary_eta, *]; done)))); clear_value t)
    | (extract_lets +lift +onlyGivenNames t; clear_value t)
    | split
    | with_reducible refine (foldl_granary fun s x => ?_).trans ?_
    | (simp [granary_eta, *]; done)
    | (simp +zetaDelta [granary_eta, *]; done))

theorem execLoadZrc_granary (b : Nat) (s : State) : ∀ t, execLoadZrc b s = .next t → granary t = granary s := by
  intro t h
  unfold execLoadZrc at h
  injection h with h
  rw [← h]
  exact runHead_granary _ _ _ _ _ fun s b q => loadZrcEff_granary s b q

theorem storeZrcEff_granary (s : State) (b : Nat) (q : QWord) : ∀ t, storeZrcEff s b q = .ok t → granary t = granary s := by
  unfold storeZrcEff
  repeat' (first
    | with_reducible rfl
    | with_reducible assumption
    | (extract_lets +lift +onlyGivenNames t; have ht : granary t = granary s := (by (first | (simp [granary_eta, t, *]; done) | (dsimp only [t]; (repeat' split) <;> (simp [granary_eta, *]; done)))); clear_value t)
    | (extract_lets +lift +onlyGivenNames t; clear_value t)
    | split
    | with_reducible refine (foldl_granary fun s x => ?_).trans ?_
    | (simp [granary_eta, *]; done)
    | (simp +zetaDelta [granary_eta, *]; done))

theorem execStoreZrc_granary (b ecc : Nat) (s : State) : ∀ t, execStoreZrc b ecc s = .next t → granary t = granary s := by
  intro t h
  unfold execStoreZrc at h
  injection h with h
  rw [← h]
  exact runReading_granary _ _ _ _ _ _ fun s b q => storeZrcEff_granary s b q

@[simp] theorem scarfSend_granary (s : State) (b : Nat) (c : Conv) (k : Nat) : granary (scarfSend s b c k) = granary s := by
  unfold scarfSend; simp [granary_eta, *]

@[simp] theorem rowValues_granary (s : State) (b : Nat) (c : Conv) (rows : List InRow) (oy : Nat) (ns : List Nat) : granary
    (rowValues s b c rows oy ns).2 = granary s := by
  unfold rowValues
  repeat' (first
    | with_reducible rfl
    | with_reducible assumption
    | (extract_lets +lift +onlyGivenNames t; have ht : granary t = granary s := (by (first | (simp [granary_eta, t, *]; done) | (dsimp only [t]; (repeat' split) <;> (simp [granary_eta, *]; done)))); clear_value t)
    | (extract_lets +lift +onlyGivenNames t; clear_value t)
    | split
    | with_reducible refine (foldl_granary fun s x => ?_).trans ?_
    | (simp [granary_eta, *]; done)
    | (simp +zetaDelta [granary_eta, *]; done))

@[simp] theorem convWait_granary (s : State) (b : Nat) (k : Composite) : granary (convWait s b k).1 = granary s := by
  unfold convWait; simp [granary_eta, *]

@[simp] theorem writeSpans_granary (s : State) (b a : Nat) (torn : Bool) (bs : Bytes) (spans : List (Nat × Nat)) : granary
    (writeSpans s b a torn bs spans) = granary s := by
  unfold writeSpans; simp [granary_eta, *]

theorem convRow_granary (s : State) (b : Nat) (k : Composite) : ∀ t, convRow s b k = .ok t → granary t.1 = granary s := by
  unfold convRow; dsimp only; (repeat' split) <;> simp [granary_eta, *]

theorem convStart_granary (op : Nat) (s : State) (b : Nat) (q : QWord) : ∀ t, convStart op s b q = .ok t → granary t =
    granary s := by
  unfold convStart
  repeat' (first
    | with_reducible rfl
    | with_reducible assumption
    | (extract_lets +lift +onlyGivenNames t; have ht : granary t = granary s := (by (first | (simp [granary_eta, t, *]; done) | (dsimp only [t]; (repeat' split) <;> (simp [granary_eta, *]; done)))); clear_value t)
    | (extract_lets +lift +onlyGivenNames t; clear_value t)
    | split
    | with_reducible refine (foldl_granary fun s x => ?_).trans ?_
    | (simp [granary_eta, *]; done)
    | (simp +zetaDelta [granary_eta, *]; done))

@[simp] theorem convFinish_granary (s : State) (b : Nat) (k : Composite) : granary (convFinish s b k) = granary s := by
  unfold convFinish; simp [granary_eta, *]

theorem convWorks_row_granary (s : State) (b : Nat) (c : Composite) (t : State × Composite)
    (ht : convWorks.row s b c = .ok t) : granary t.1 = granary s := convRow_granary s b c t ht
theorem convWorks_finish_granary (s : State) (b : Nat) (c : Composite) : granary (convWorks.finish s b c) = granary s := by
  exact convFinish_granary s b c
theorem execConvolution_granary (b n : Nat) (s : State) : ∀ t, execConvolution b n s = .next t → granary t = granary s := by
  intro t h
  unfold execConvolution at h
  injection h with h
  rw [← h]
  exact compositeRow_granary _ _ _ _ _ _ _ _ (fun s b q => convStart_granary _ s b q) convWait_granary convWorks_row_granary convWorks_finish_granary

theorem execDepthwiseConvolution_granary (b n : Nat) (s : State) : ∀ t, execDepthwiseConvolution b n s = .next t → granary t
    = granary s := by
  intro t h
  unfold execDepthwiseConvolution at h
  injection h with h
  rw [← h]
  exact compositeRow_granary _ _ _ _ _ _ _ _ (fun s b q => convStart_granary _ s b q) convWait_granary convWorks_row_granary convWorks_finish_granary

theorem execMaxPooling_granary (b n : Nat) (s : State) : ∀ t, execMaxPooling b n s = .next t → granary t = granary s := by
  intro t h
  unfold execMaxPooling at h
  injection h with h
  rw [← h]
  exact compositeRow_granary _ _ _ _ _ _ _ _ (fun s b q => convStart_granary _ s b q) convWait_granary convWorks_row_granary convWorks_finish_granary

theorem execAveragePooling_granary (b n : Nat) (s : State) : ∀ t, execAveragePooling b n s = .next t → granary t = granary s := by
  intro t h
  unfold execAveragePooling at h
  injection h with h
  rw [← h]
  exact compositeRow_granary _ _ _ _ _ _ _ _ (fun s b q => convStart_granary _ s b q) convWait_granary convWorks_row_granary convWorks_finish_granary

@[simp] theorem scarfResume_granary (s : State) (b n : Nat) : granary (scarfResume s b n) = granary s := by
  unfold scarfResume; split
  · split
    · rfl
    · dsimp only; split
      · rw [runRows_granary _ convWait_granary convWorks_row_granary convWorks_finish_granary]; simp [granary_eta]
      · rfl
  · rfl

theorem execScarfResume_granary (b n : Nat) (s : State) : ∀ t, execScarfResume b n s = .next t → granary t = granary s := by
  unfold execScarfResume; simp [granary_eta, *]

/-! ### Machine/Ramp.lean -/

@[simp] theorem setPresses_granary (s : State) (l : List (Nat × Nat)) (v : Nat) : granary (setPresses s l v) = granary s := by
  unfold setPresses; simp [granary_eta, *]

@[simp] theorem tick0_granary (s : State) : granary (tick0 s) = granary s := by
  unfold tick0; simp [granary_eta, *]

@[simp] theorem countPressCycles_granary (s : State) : granary (countPressCycles s) = granary s := by
  unfold countPressCycles; simp [granary_eta, *]

@[simp] theorem tickK_granary (s : State) : granary (tickK s) = granary s := by
  unfold tickK; simp [granary_eta, *]

@[simp] theorem rampTick_granary (s : State) : granary (rampTick s) = granary s := by
  unfold rampTick; simp [granary_eta, *]

theorem execRampTick_granary (s : State) : ∀ t, execRampTick s = .next t → granary t = granary s := by
  unfold execRampTick; simp [granary_eta, *]

/-! ### Machine/Host.lean -/

@[simp] theorem setSqr_granary (s : State) (f n : Nat) (x : SqRing) : granary (setSqr s f n x) = granary s := by
  unfold setSqr; simp [granary_eta, *]

@[simp] theorem disableEq_granary (s : State) (f n : Nat) : granary (disableEq s f n) = granary s := by
  unfold disableEq; simp [granary_eta, *]

@[simp] theorem enableEq_granary (s : State) (f n : Nat) : granary (enableEq s f n) = granary s := by
  unfold enableEq; simp [granary_eta, *]

@[simp] theorem ringCfg_granary (s : State) (f k off v : Nat) (ok : Bool) (enBit mask : Nat) (off? on? : State → State) (hoff
    : ∀ (x0 : State), granary (off? x0) = granary x0) (hon : ∀ (x0 : State), granary (on? x0) = granary x0) : granary
    (ringCfg s f k off v ok enBit mask off? on?) = granary s := by
  unfold ringCfg; simp [granary_eta, *]

@[simp] theorem sqCfgWrite_granary (a : Access) (v : Nat) (s : State) : granary (sqCfgWrite a v s) = granary s := by
  unfold sqCfgWrite
  repeat' (first
    | with_reducible rfl
    | with_reducible assumption
    | (extract_lets +lift +onlyGivenNames t; have ht : granary t = granary s := (by (first | (simp [granary_eta, t, *]; done) | (dsimp only [t]; (repeat' split) <;> (simp [granary_eta, *]; done)))); clear_value t)
    | (extract_lets +lift +onlyGivenNames t; clear_value t)
    | split
    | with_reducible refine (foldl_granary fun s x => ?_).trans ?_
    | (simp [granary_eta, *]; done)
    | (simp +zetaDelta [granary_eta, *]; done))

theorem execSqCfgWrite_granary (a : Access) (v : Nat) (s : State) : ∀ t, execSqCfgWrite a v s = .next t → granary t = granary s := by
  unfold execSqCfgWrite; simp [granary_eta, *]

@[simp] theorem eqCfgWrite_granary (a : Access) (v : Nat) (s : State) : granary (eqCfgWrite a v s) = granary s := by
  unfold eqCfgWrite
  repeat' (first
    | with_reducible rfl
    | with_reducible assumption
    | (extract_lets +lift +onlyGivenNames t; have ht : granary t = granary s := (by (first | (simp [granary_eta, t, *]; done) | (dsimp only [t]; (repeat' split) <;> (simp [granary_eta, *]; done)))); clear_value t)
    | (extract_lets +lift +onlyGivenNames t; clear_value t)
    | split
    | with_reducible refine (foldl_granary fun s x => ?_).trans ?_
    | (simp [granary_eta, *]; done)
    | (simp +zetaDelta [granary_eta, *]; done))

theorem execEqCfgWrite_granary (a : Access) (v : Nat) (s : State) : ∀ t, execEqCfgWrite a v s = .next t → granary t = granary s := by
  unfold execEqCfgWrite; simp [granary_eta, *]

@[simp] theorem ring_granary (s : State) (a : Access) (off size v : Nat) (on : Bool) (f : State → State) (hf : ∀ (x0 :
    State), granary (f x0) = granary x0) : granary (ring s a off size v on f) = granary s := by
  unfold ring; simp [granary_eta, *]

@[simp] theorem sqDoorbell_granary (a : Access) (v : Nat) (s : State) : granary (sqDoorbell a v s) = granary s := by
  unfold sqDoorbell
  repeat' (first
    | with_reducible rfl
    | with_reducible assumption
    | (extract_lets +lift +onlyGivenNames t; have ht : granary t = granary s := (by (first | (simp [granary_eta, t, *]; done) | (dsimp only [t]; (repeat' split) <;> (simp [granary_eta, *]; done)))); clear_value t)
    | (extract_lets +lift +onlyGivenNames t; clear_value t)
    | split
    | with_reducible refine (foldl_granary fun s x => ?_).trans ?_
    | (simp [granary_eta, *]; done)
    | (simp +zetaDelta [granary_eta, *]; done))

theorem execSqDoorbell_granary (a : Access) (v : Nat) (s : State) : ∀ t, execSqDoorbell a v s = .next t → granary t = granary s := by
  unfold execSqDoorbell; simp [granary_eta, *]

@[simp] theorem ringIrq_granary (s : State) (f n : Nat) : granary (ringIrq s f n) = granary s := by
  unfold ringIrq
  repeat' (first
    | with_reducible rfl
    | with_reducible assumption
    | (extract_lets +lift +onlyGivenNames t; have ht : granary t = granary s := (by (first | (simp [granary_eta, t, *]; done) | (dsimp only [t]; (repeat' split) <;> (simp [granary_eta, *]; done)))); clear_value t)
    | (extract_lets +lift +onlyGivenNames t; clear_value t)
    | split
    | with_reducible refine (foldl_granary fun s x => ?_).trans ?_
    | (simp [granary_eta, *]; done)
    | (simp +zetaDelta [granary_eta, *]; done))

@[simp] theorem passBatches_granary (s : State) (f n : Nat) : granary (passBatches s f n) = granary s := by
  unfold passBatches; simp [granary_eta, *]

@[simp] theorem eqDoorbell_granary (a : Access) (v : Nat) (s : State) : granary (eqDoorbell a v s) = granary s := by
  unfold eqDoorbell
  repeat' (first
    | with_reducible rfl
    | with_reducible assumption
    | (extract_lets +lift +onlyGivenNames t; have ht : granary t = granary s := (by (first | (simp [granary_eta, t, *]; done) | (dsimp only [t]; (repeat' split) <;> (simp [granary_eta, *]; done)))); clear_value t)
    | (extract_lets +lift +onlyGivenNames t; clear_value t)
    | split
    | with_reducible refine (foldl_granary fun s x => ?_).trans ?_
    | (simp [granary_eta, *]; done)
    | (simp +zetaDelta [granary_eta, *]; done))

theorem execEqHeadDoorbell_granary (a : Access) (v : Nat) (s : State) : ∀ t, execEqHeadDoorbell a v s = .next t → granary t =
    granary s := by
  unfold execEqHeadDoorbell; simp [granary_eta, *]

@[simp] theorem settleFetch_granary (k : Nat) (s : State) (src : Nat) : granary (settleFetch k s src) = granary s := by
  induction k generalizing s with
  | zero => rfl
  | succ k ih =>
    unfold settleFetch
    repeat' split
    all_goals first | rfl | (rw [ih]; simp [granary_eta])

@[simp] theorem takeCommand_granary (s : State) (f n : Nat) (body : Bytes) : granary (takeCommand s f n body) = granary s := by
  unfold takeCommand; simp [granary_eta, *]

@[simp] theorem fetchReturn_granary (f n : Nat) (body : Bytes) (s : State) : granary (fetchReturn f n body s) = granary s := by
  unfold fetchReturn
  repeat' (first
    | with_reducible rfl
    | with_reducible assumption
    | (extract_lets +lift +onlyGivenNames t; have ht : granary t = granary s := (by (first | (simp [granary_eta, t, *]; done) | (dsimp only [t]; (repeat' split) <;> (simp [granary_eta, *]; done)))); clear_value t)
    | (extract_lets +lift +onlyGivenNames t; clear_value t)
    | split
    | with_reducible refine (foldl_granary fun s x => ?_).trans ?_
    | (simp [granary_eta, *]; done)
    | (simp +zetaDelta [granary_eta, *]; done))

theorem execCommandFetchReturn_granary (func r : Nat) (body : Bytes) (s : State) : ∀ t, execCommandFetchReturn func r body s
    = .next t → granary t = granary s := by
  unfold execCommandFetchReturn; simp [granary_eta, *]

@[simp] theorem fetchFails_granary (f n : Nat) (s : State) : granary (fetchFails f n s) = granary s := by
  unfold fetchFails; simp [granary_eta, *]

theorem execCmdFetch_granary (func r : Nat) (s : State) : ∀ t, execCmdFetch func r s = .next t → granary t = granary s := by
  unfold execCmdFetch; simp [granary_eta, *]

theorem execNop_granary (src : Nat) (s : State) : ∀ t, execNop src s = .next t → granary t = granary s := by
  unfold execNop; simp [granary_eta, *]

@[simp] theorem msixWrite_granary (p f off v : Nat) (s : State) : granary (msixWrite p f off v s) = granary s := by
  unfold msixWrite; simp [granary_eta, *]

@[simp] theorem unmaskPending_granary (s : State) (p f : Nat) : granary (unmaskPending s p f) = granary s := by
  unfold unmaskPending; simp [granary_eta, *]

@[simp] theorem cfgWrite_granary (s : State) (p : Nat) (c : CfgField) (v : Nat) : granary (cfgWrite s p c v) = granary s := by
  unfold cfgWrite
  repeat' (first
    | with_reducible rfl
    | with_reducible assumption
    | (extract_lets +lift +onlyGivenNames t; have ht : granary t = granary s := (by (first | (simp [granary_eta, t, *]; done) | (dsimp only [t]; (repeat' split) <;> (simp [granary_eta, *]; done)))); clear_value t)
    | (extract_lets +lift +onlyGivenNames t; clear_value t)
    | split
    | with_reducible refine (foldl_granary fun s x => ?_).trans ?_
    | (simp [granary_eta, *]; done)
    | (simp +zetaDelta [granary_eta, *]; done))

theorem execMsixTableWrite_granary (p f off v : Nat) (s : State) : ∀ t, execMsixTableWrite p f off v s = .next t → granary t
    = granary s := by
  unfold execMsixTableWrite; simp [granary_eta, *]

@[simp] theorem sendIdentity_granary (s : State) (p : Nat) : granary (sendIdentity s p) = granary s := by
  unfold sendIdentity; simp [granary_eta, *]

theorem execIdentSend_granary (a : Access) (v : Nat) (s : State) : ∀ t, execIdentSend a v s = .next t → granary t = granary s := by
  unfold execIdentSend; simp [granary_eta, *]

@[simp] theorem ringLinkDown_granary (s : State) (f n p : Nat) : granary (ringLinkDown s f n p) = granary s := by
  unfold ringLinkDown; simp [granary_eta, *]

@[simp] theorem linkDown_granary (p : Nat) (s : State) : granary (linkDown p s) = granary s := by
  unfold linkDown; simp [granary_eta, *]

theorem execLinkDown_granary (p : Nat) (s : State) : ∀ t, execLinkDown p s = .next t → granary t = granary s := by
  unfold execLinkDown; simp [granary_eta, *]

@[simp] theorem perst_granary (p : Nat) (s : State) : granary (perst p s) = granary s := by
  unfold perst; simp [granary_eta, *]

theorem execPerst_granary (p : Nat) (s : State) : ∀ t, execPerst p s = .next t → granary t = granary s := by
  unfold execPerst; simp [granary_eta, *]

theorem execPerstRelease_granary (p : Nat) (s : State) : ∀ t, execPerstRelease p s = .next t → granary t = granary s := by
  unfold execPerstRelease; simp [granary_eta, *]

@[simp] theorem cfgAnswer_granary (s : State) (p : Nat) (c : Option CfgField) (v : Option Nat) : granary (cfgAnswer s p c v)
    = granary s := by
  unfold cfgAnswer
  repeat' (first
    | with_reducible rfl
    | with_reducible assumption
    | (extract_lets +lift +onlyGivenNames t; have ht : granary t = granary s := (by (first | (simp [granary_eta, t, *]; done) | (dsimp only [t]; (repeat' split) <;> (simp [granary_eta, *]; done)))); clear_value t)
    | (extract_lets +lift +onlyGivenNames t; clear_value t)
    | split
    | with_reducible refine (foldl_granary fun s x => ?_).trans ?_
    | (simp [granary_eta, *]; done)
    | (simp +zetaDelta [granary_eta, *]; done))

@[simp] theorem configRequest_granary (p : Nat) (c : Option CfgField) (v : Option Nat) (s : State) : granary (configRequest p
    c v s) = granary s := by
  unfold configRequest; simp [granary_eta, *]

theorem execConfigRequest_granary (p : Nat) (c : Option CfgField) (v : Option Nat) (s : State) : ∀ t, execConfigRequest p c v
    s = .next t → granary t = granary s := by
  unfold execConfigRequest; simp [granary_eta, *]

/-! ### Machine/Register.lean -/

@[simp] theorem readAt_granary (s : State) (a : Access) (pl : Place) : granary (readAt s a pl).1 = granary s := by
  unfold readAt
  repeat' (first
    | with_reducible rfl
    | with_reducible assumption
    | (extract_lets +lift +onlyGivenNames t; have ht : granary t = granary s := (by (first | (simp [granary_eta, t, *]; done) | (dsimp only [t]; (repeat' split) <;> (simp [granary_eta, *]; done)))); clear_value t)
    | (extract_lets +lift +onlyGivenNames t; clear_value t)
    | split
    | with_reducible refine (foldl_granary fun s x => ?_).trans ?_
    | (simp [granary_eta, *]; done)
    | (simp +zetaDelta [granary_eta, *]; done))

@[simp] theorem writeTxn_granary (s : State) (a : Access) (pl : Place) (v : Nat) : granary (writeTxn s a pl v) = granary s := by
  unfold writeTxn; simp [granary_eta, *]

@[simp] theorem writeWain_granary (s : State) (a : Access) (pl : Place) (v : Nat) : granary (writeWain s a pl v) = granary s := by
  unfold writeWain; simp [granary_eta, *]

@[simp] theorem writeRingBase_granary (s : State) (a : Access) (pl : Place) (v : Nat) : granary (writeRingBase s a pl v) =
    granary s := by
  unfold writeRingBase; simp [granary_eta, *]

@[simp] theorem writeReg_granary (s : State) (a : Access) (pl : Place) (v : Nat) : granary (writeReg s a pl v) = granary s := by
  unfold writeReg; simp [granary_eta, *]

theorem execBlkExpert_granary (a : Access) (v : Nat) (s : State) : ∀ t, execBlkExpert a v s = .next t → granary t = granary s := by
  unfold execBlkExpert; simp [granary_eta, *]

theorem execBlkErrClear_granary (a : Access) (v : Nat) (s : State) : ∀ t, execBlkErrClear a v s = .next t → granary t =
    granary s := by
  unfold execBlkErrClear; simp [granary_eta, *]

@[simp] theorem bayReset_granary (s : State) (b : Nat) : granary (bayReset s b) = granary s := by
  unfold bayReset; simp [granary_eta, *]

@[simp] theorem softReset_granary (s : State) (page : Nat) : granary (softReset s page) = granary s := by
  unfold softReset; simp [granary_eta, *]

theorem execSreset_granary (a : Access) (v : Nat) (s : State) : ∀ t, execSreset a v s = .next t → granary t = granary s := by
  unfold execSreset; simp [granary_eta, *]

/-! ### Machine/Functions.lean -/

@[simp] theorem setTenant_granary (s : State) (f : Nat) (x : Tenant) : granary (setTenant s f x) = granary s := by
  unfold setTenant; simp [granary_eta, *]

@[simp] theorem applyResources_granary (s : State) (f : Nat) : granary (applyResources s f) = granary s := by
  unfold applyResources; simp [granary_eta, *]

@[simp] theorem postFuncState_granary (s : State) (f st cause code bytes : Nat) : granary (postFuncState s f st cause code
    bytes) = granary s := by
  unfold postFuncState; simp [granary_eta, *]

@[simp] theorem enabled_granary (s : State) (f : Nat) : granary (enabled s f) = granary s := by
  unfold enabled
  repeat' (first
    | with_reducible rfl
    | with_reducible assumption
    | (extract_lets +lift +onlyGivenNames t; have ht : granary t = granary s := (by (first | (simp [granary_eta, t, *]; done) | (dsimp only [t]; (repeat' split) <;> (simp [granary_eta, *]; done)))); clear_value t)
    | (extract_lets +lift +onlyGivenNames t; clear_value t)
    | split
    | with_reducible refine (foldl_granary fun s x => ?_).trans ?_
    | (simp [granary_eta, *]; done)
    | (simp +zetaDelta [granary_eta, *]; done))

@[simp] theorem beginEnable_granary (s : State) (f : Nat) (cmd : Option Nat) : granary (beginEnable s f cmd) = granary s := by
  unfold beginEnable; simp [granary_eta, *]

@[simp] theorem funcEnable_granary (s : State) (c : Cmd) : granary (funcEnable s c) = granary s := by
  unfold funcEnable
  repeat' (first
    | with_reducible rfl
    | with_reducible assumption
    | (extract_lets +lift +onlyGivenNames t; have ht : granary t = granary s := (by (first | (simp [granary_eta, t, *]; done) | (dsimp only [t]; (repeat' split) <;> (simp [granary_eta, *]; done)))); clear_value t)
    | (extract_lets +lift +onlyGivenNames t; clear_value t)
    | split
    | with_reducible refine (foldl_granary fun s x => ?_).trans ?_
    | (simp [granary_eta, *]; done)
    | (simp +zetaDelta [granary_eta, *]; done))

theorem execFuncEnable_granary (src : Nat) (s : State) : ∀ t, execFuncEnable src s = .next t → granary t = granary s := by
  unfold execFuncEnable; simp [granary_eta, *]

@[simp] theorem dropCommands_granary (s : State) (f : Nat) (silent : Bool) : granary (dropCommands s f silent) = granary s := by
  unfold dropCommands; simp [granary_eta, *]

@[simp] theorem disableStep1_granary (s : State) (f : Nat) (silent : Bool) : granary (disableStep1 s f silent) = granary s := by
  unfold disableStep1; simp [granary_eta, *]

@[simp] theorem startKill_granary (s : State) (f cause : Nat) (flr : Bool) : granary (startKill s f cause flr) = granary s := by
  unfold startKill; simp [granary_eta, *]

@[simp] theorem startDrain_granary (s : State) (f : Nat) : granary (startDrain s f) = granary s := by
  unfold startDrain; simp [granary_eta, *]

@[simp] theorem funcDisable_granary (mode : Nat) (s : State) (c : Cmd) : granary (funcDisable mode s c) = granary s := by
  unfold funcDisable; dsimp only; (repeat' split) <;> simp [granary_eta, *]

@[simp] theorem disableCmd_granary (s : State) (src mode : Nat) : granary (disableCmd s src mode) = granary s := by
  unfold disableCmd
  repeat' (first
    | with_reducible rfl
    | with_reducible assumption
    | (extract_lets +lift +onlyGivenNames t; have ht : granary t = granary s := (by (first | (simp [granary_eta, t, *]; done) | (dsimp only [t]; (repeat' split) <;> (simp [granary_eta, *]; done)))); clear_value t)
    | (extract_lets +lift +onlyGivenNames t; clear_value t)
    | split
    | with_reducible refine (foldl_granary fun s x => ?_).trans ?_
    | (simp [granary_eta, *]; done)
    | (simp +zetaDelta [granary_eta, *]; done))

theorem execFuncDisableDrain_granary (src : Nat) (s : State) : ∀ t, execFuncDisableDrain src s = .next t → granary t =
    granary s := by
  unfold execFuncDisableDrain; simp [granary_eta, *]

theorem execFuncDisableKill_granary (src : Nat) (s : State) : ∀ t, execFuncDisableKill src s = .next t → granary t = granary s := by
  unfold execFuncDisableKill; simp [granary_eta, *]

@[simp] theorem drainComplete_granary (f : Nat) (s : State) : granary (drainComplete f s) = granary s := by
  unfold drainComplete; simp [granary_eta, *]

theorem execFuncDrainComplete_granary (f : Nat) (s : State) : ∀ t, execFuncDrainComplete f s = .next t → granary t = granary s := by
  unfold execFuncDrainComplete; simp [granary_eta, *]

@[simp] theorem drainTimeout_granary (f : Nat) (s : State) : granary (drainTimeout f s) = granary s := by
  unfold drainTimeout; simp [granary_eta, *]

theorem execFuncDrainTimeout_granary (f : Nat) (s : State) : ∀ t, execFuncDrainTimeout f s = .next t → granary t = granary s := by
  unfold execFuncDrainTimeout; simp [granary_eta, *]

@[simp] theorem disabled_granary (s : State) (f : Nat) : granary (disabled s f) = granary s := by
  unfold disabled; simp [granary_eta, *]

@[simp] theorem killDone_granary (f : Nat) (s : State) : granary (killDone f s) = granary s := by
  unfold killDone; simp [granary_eta, *]

theorem execFuncKillDone_granary (f : Nat) (s : State) : ∀ t, execFuncKillDone f s = .next t → granary t = granary s := by
  unfold execFuncKillDone; simp [granary_eta, *]

@[simp] theorem disableRings_granary (s : State) (f : Nat) : granary (disableRings s f) = granary s := by
  unfold disableRings; simp [granary_eta, *]

@[simp] theorem flr_granary (p f : Nat) (s : State) : granary (flr p f s) = granary s := by
  unfold flr; simp [granary_eta, *]

theorem execFlr_granary (p f : Nat) (s : State) : ∀ t, execFlr p f s = .next t → granary t = granary s := by
  unfold execFlr; simp [granary_eta, *]

/-! ### Machine/Wiring.lean -/

@[simp] theorem postEject_granary (s : State) (event source code : Nat) (deadline : Nat) (step : Nat) (moment : Nat) :
    granary (postEject s event source code deadline step moment) = granary s := by
  unfold postEject; simp [granary_eta, *]

@[simp] theorem showSlot_granary (s : State) : granary (showSlot s) = granary s := by
  unfold showSlot; simp [granary_eta, *]

@[simp] theorem postWiring_granary (s : State) (event : Nat) : granary (postWiring s event) = granary s := by
  unfold postWiring; simp [granary_eta, *]

@[simp] theorem reportWiring_granary (s : State) (bad cross : Bool) : granary (reportWiring s bad cross) = granary s := by
  unfold reportWiring; simp [granary_eta, *]

@[simp] theorem wiringCheck_granary (s : State) : granary (wiringCheck s) = granary s := by
  unfold wiringCheck; simp [granary_eta, *]

@[simp] theorem wiringPlan_granary (s : State) (c : Cmd) : granary (wiringPlan s c) = granary s := by
  unfold wiringPlan; simp [granary_eta, *]

theorem execWiringPlan_granary (src : Nat) (s : State) : ∀ t, execWiringPlan src s = .next t → granary t = granary s := by
  unfold execWiringPlan; simp [granary_eta, *]

@[simp] theorem wiringSeen_granary (s : State) (k p : Nat) : granary (wiringSeen s k p) = granary s := by
  unfold wiringSeen; simp [granary_eta, *]

/-! ### Machine/Claim.lean -/

@[simp] theorem setPathLive_granary (s : State) (k path : Nat) (b : Bool) : granary (setPathLive s k path b) = granary s := by
  unfold setPathLive; simp [granary_eta, *]

@[simp] theorem showSplit_granary (s : State) : granary (showSplit s) = granary s := by
  unfold showSplit; simp [granary_eta, *]

@[simp] theorem arrives_granary (s : State) (k path : Nat) (claim : Option Nat) : granary (arrives s k path claim) = granary s := by
  unfold arrives; (repeat' split) <;> simp [granary_eta, *]

@[simp] theorem silentRecord_granary (s : State) (k : Nat) : granary (silentRecord s k) = granary s := by
  unfold silentRecord; simp [granary_eta, *]

theorem execLivenessTick_granary (s : State) : ∀ t, execLivenessTick s = .next t → granary t = granary s := by
  unfold execLivenessTick; simp [granary_eta, *]

theorem execHeartbeatTimer_granary (s : State) : ∀ t, execHeartbeatTimer s = .next t → granary t = granary s := by
  unfold execHeartbeatTimer; simp [granary_eta, *]

@[simp] theorem postUnclean_granary (s : State) : granary (postUnclean s) = granary s := by
  unfold postUnclean
  repeat' (first
    | with_reducible rfl
    | with_reducible assumption
    | (extract_lets +lift +onlyGivenNames t; have ht : granary t = granary s := (by (first | (simp [granary_eta, t, *]; done) | (dsimp only [t]; (repeat' split) <;> (simp [granary_eta, *]; done)))); clear_value t)
    | (extract_lets +lift +onlyGivenNames t; clear_value t)
    | split
    | with_reducible refine (foldl_granary fun s x => ?_).trans ?_
    | (simp [granary_eta, *]; done)
    | (simp +zetaDelta [granary_eta, *]; done))

@[simp] theorem acceptClaim_granary (s : State) (k claim : Nat) : granary (acceptClaim s k claim) = granary s := by
  unfold acceptClaim; simp [granary_eta, *]

@[simp] theorem requestClaim_granary (s : State) (k claim : Nat) : granary (requestClaim s k claim) = granary s := by
  unfold requestClaim; simp [granary_eta, *]

@[simp] theorem heartbeat_granary (s : State) (k path claim : Nat) : granary (heartbeat s k path claim) = granary s := by
  unfold heartbeat; simp [granary_eta, *]

@[simp] theorem pcieHeartbeat_granary (s : State) (k p claim : Nat) : granary (pcieHeartbeat s k p claim) = granary s := by
  unfold pcieHeartbeat; simp [granary_eta, *]

@[simp] theorem hbHi_granary (a : Access) (wide : Bool) (v : Nat) (s : State) : granary (hbHi a wide v s) = granary s := by
  unfold hbHi; simp [granary_eta, *]

theorem execHbHi_granary (a : Access) (wide : Bool) (v : Nat) (s : State) : ∀ t, execHbHi a wide v s = .next t → granary t =
    granary s := by
  unfold execHbHi; simp [granary_eta, *]

@[simp] theorem dropFrame_granary (s : State) (k : Nat) : granary (dropFrame s k) = granary s := by
  unfold dropFrame; simp [granary_eta, *]

@[simp] theorem takeFrame_granary (s : State) (k mac : Nat) (f : Bytes) : granary (takeFrame s k mac f) = granary s := by
  unfold takeFrame; simp [granary_eta, *]

@[simp] theorem mgmtHeartbeat_granary (k mac : Nat) (f : Bytes) (s : State) : granary (mgmtHeartbeat k mac f s) = granary s := by
  unfold mgmtHeartbeat; simp [granary_eta, *]

theorem execHeartbeat_granary (k mac : Nat) (f : Bytes) (s : State) : ∀ t, execHeartbeat k mac f s = .next t → granary t =
    granary s := by
  unfold execHeartbeat; simp [granary_eta, *]

@[simp] theorem mgmtRequest_granary (k mac : Nat) (f : Bytes) (s : State) : granary (mgmtRequest k mac f s) = granary s := by
  unfold mgmtRequest; simp [granary_eta, *]

theorem execRequest_granary (k mac : Nat) (f : Bytes) (s : State) : ∀ t, execRequest k mac f s = .next t → granary t =
    granary s := by
  unfold execRequest; simp [granary_eta, *]

@[simp] theorem relearn_granary (a : Access) (v : Nat) (s : State) : granary (relearn a v s) = granary s := by
  unfold relearn; simp [granary_eta, *]

theorem execRelearn_granary (a : Access) (v : Nat) (s : State) : ∀ t, execRelearn a v s = .next t → granary t = granary s := by
  unfold execRelearn; simp [granary_eta, *]

@[simp] theorem mgmtLinkChange_granary (k : Nat) (up pol : Bool) (s : State) : granary (mgmtLinkChange k up pol s) = granary s := by
  unfold mgmtLinkChange; simp [granary_eta, *]

theorem execMgmtLinkChange_granary (k : Nat) (up pol : Bool) (s : State) : ∀ t, execMgmtLinkChange k up pol s = .next t →
    granary t = granary s := by
  unfold execMgmtLinkChange; simp [granary_eta, *]

@[simp] theorem choosePtp_granary (s : State) : granary (choosePtp s) = granary s := by
  unfold choosePtp; simp [granary_eta, *]

@[simp] theorem servo_granary (s : State) : granary (servo s) = granary s := by
  unfold servo; simp [granary_eta, *]

@[simp] theorem ptpMessage_granary (k : Nat) (m : PtpMsg) (s : State) : granary (ptpMessage k m s) = granary s := by
  unfold ptpMessage
  repeat' (first
    | with_reducible rfl
    | with_reducible assumption
    | (extract_lets +lift +onlyGivenNames t; have ht : granary t = granary s := (by (first | (simp [granary_eta, t, *]; done) | (dsimp only [t]; (repeat' split) <;> (simp [granary_eta, *]; done)))); clear_value t)
    | (extract_lets +lift +onlyGivenNames t; clear_value t)
    | split
    | with_reducible refine (foldl_granary fun s x => ?_).trans ?_
    | (simp [granary_eta, *]; done)
    | (simp +zetaDelta [granary_eta, *]; done))

theorem execPtpMessage_granary (k : Nat) (m : PtpMsg) (s : State) : ∀ t, execPtpMessage k m s = .next t → granary t = granary s := by
  unfold execPtpMessage; simp [granary_eta, *]

@[simp] theorem ptpTimeout_granary (k : Nat) (s : State) : granary (ptpTimeout k s) = granary s := by
  unfold ptpTimeout; simp [granary_eta, *]

theorem execPtpAnnounceTimeout_granary (k : Nat) (s : State) : ∀ t, execPtpAnnounceTimeout k s = .next t → granary t =
    granary s := by
  unfold execPtpAnnounceTimeout; simp [granary_eta, *]

/-! ### Machine/Tally.lean -/

@[simp] theorem setShare_granary (s : State) (w : Nat) : granary (setShare s w) = granary s := by
  unfold setShare; simp [granary_eta, *]

@[simp] theorem pwrPool_granary (s : State) (c : Cmd) : granary (pwrPool s c) = granary s := by
  unfold pwrPool; simp [granary_eta, *]

theorem execPwrPool_granary (src : Nat) (s : State) : ∀ t, execPwrPool src s = .next t → granary t = granary s := by
  unfold execPwrPool; simp [granary_eta, *]

@[simp] theorem takeRecord_granary (s : State) (c : Nat) (payload : Bytes) : granary (takeRecord s c payload) = granary s := by
  unfold takeRecord; simp [granary_eta, *]

@[simp] theorem broadcast_granary (s : State) (c : Nat) (payload : Bytes) : granary (broadcast s c payload) = granary s := by
  unfold broadcast; simp [granary_eta, *]

@[simp] theorem poolRound_granary (s : State) : granary (poolRound s) = granary s := by
  unfold poolRound; simp [granary_eta, *]

theorem execPoolRound_granary (s : State) : ∀ t, execPoolRound s = .next t → granary t = granary s := by
  unfold execPoolRound; simp [granary_eta, *]

theorem execPoolRecordTimeout_granary (s : State) : ∀ t, execPoolRecordTimeout s = .next t → granary t = granary s := by
  unfold execPoolRecordTimeout
  repeat' (first
    | with_reducible rfl
    | with_reducible assumption
    | (extract_lets +lift +onlyGivenNames t; have ht : granary t = granary s := (by (first | (simp [granary_eta, t, *]; done) | (dsimp only [t]; (repeat' split) <;> (simp [granary_eta, *]; done)))); clear_value t)
    | (extract_lets +lift +onlyGivenNames t; clear_value t)
    | split
    | with_reducible refine (foldl_granary fun s x => ?_).trans ?_
    | (simp [granary_eta, *]; done)
    | (simp +zetaDelta [granary_eta, *]; done))

theorem execPoolStale_granary (s : State) : ∀ t, execPoolStale s = .next t → granary t = granary s := by
  unfold execPoolStale
  repeat' (first
    | with_reducible rfl
    | with_reducible assumption
    | (extract_lets +lift +onlyGivenNames t; have ht : granary t = granary s := (by (first | (simp [granary_eta, t, *]; done) | (dsimp only [t]; (repeat' split) <;> (simp [granary_eta, *]; done)))); clear_value t)
    | (extract_lets +lift +onlyGivenNames t; clear_value t)
    | split
    | with_reducible refine (foldl_granary fun s x => ?_).trans ?_
    | (simp [granary_eta, *]; done)
    | (simp +zetaDelta [granary_eta, *]; done))

theorem execPoolShareRise_granary (s : State) : ∀ t, execPoolShareRise s = .next t → granary t = granary s := by
  unfold execPoolShareRise
  repeat' (first
    | with_reducible rfl
    | with_reducible assumption
    | (extract_lets +lift +onlyGivenNames t; have ht : granary t = granary s := (by (first | (simp [granary_eta, t, *]; done) | (dsimp only [t]; (repeat' split) <;> (simp [granary_eta, *]; done)))); clear_value t)
    | (extract_lets +lift +onlyGivenNames t; clear_value t)
    | split
    | with_reducible refine (foldl_granary fun s x => ?_).trans ?_
    | (simp [granary_eta, *]; done)
    | (simp +zetaDelta [granary_eta, *]; done))

theorem execTallyAdd_granary (a : Access) (v : Nat) (s : State) : ∀ t, execTallyAdd a v s = .next t → granary t = granary s := by
  unfold execTallyAdd; simp [granary_eta, *]

@[simp] theorem tallyAddArrives_granary (src : Nat) (s : State) : granary (tallyAddArrives src s) = granary s := by
  unfold tallyAddArrives
  repeat' (first
    | with_reducible rfl
    | with_reducible assumption
    | (extract_lets +lift +onlyGivenNames t; have ht : granary t = granary s := (by (first | (simp [granary_eta, t, *]; done) | (dsimp only [t]; (repeat' split) <;> (simp [granary_eta, *]; done)))); clear_value t)
    | (extract_lets +lift +onlyGivenNames t; clear_value t)
    | split
    | with_reducible refine (foldl_granary fun s x => ?_).trans ?_
    | (simp [granary_eta, *]; done)
    | (simp +zetaDelta [granary_eta, *]; done))

theorem execTallyAddArrival_granary (src : Nat) (s : State) : ∀ t, execTallyAddArrival src s = .next t → granary t = granary s := by
  unfold execTallyAddArrival; simp [granary_eta, *]

@[simp] theorem fenceDrop_granary (s : State) (p rid : Nat) : granary (fenceDrop s p rid) = granary s := by
  unfold fenceDrop; simp [granary_eta, *]

@[simp] theorem tallyIn_granary (s : State) (p rid off : Nat) (b : Bytes) (kind : Nat) (f : State → Nat → State) (hf : ∀ (x0
    : State) (x1 : Nat), granary (f x0 x1) = granary x0) : granary (tallyIn s p rid off b kind f) = granary s := by
  unfold tallyIn; simp [granary_eta, *]

theorem execUp_granary (p rid off : Nat) (b : Bytes) (s : State) : ∀ t, execUp p rid off b s = .next t → granary t = granary s := by
  unfold execUp; simp [granary_eta, *]

theorem execDown_granary (p rid off : Nat) (b : Bytes) (s : State) : ∀ t, execDown p rid off b s = .next t → granary t =
    granary s := by
  unfold execDown; simp [granary_eta, *]

theorem execData_granary (p rid off : Nat) (b : Bytes) (s : State) : ∀ t, execData p rid off b s = .next t → granary t =
    granary s := by
  unfold execData; simp [granary_eta, *]

theorem execMirrorAck_granary (p rid off : Nat) (b : Bytes) (s : State) :
    ∀ t, execMirrorAck p rid off b s = .next t → granary t = granary s := by
  intro t h
  unfold execMirrorAck at h
  injection h with h
  rw [← h]
  apply tallyIn_granary
  intro s c
  rw [granary_mk, granary_eta]

@[simp] theorem tallyStall_granary (c : Nat) (s : State) : granary (tallyStall c s) = granary s := by
  unfold tallyStall; simp [granary_eta, *]

theorem execTallyStall_granary (c : Nat) (s : State) : ∀ t, execTallyStall c s = .next t → granary t = granary s := by
  unfold execTallyStall; simp [granary_eta, *]

@[simp] theorem snapshot_granary (s : State) (c : Cmd) : granary (snapshot s c) = granary s := by
  unfold snapshot; simp [granary_eta, *]

theorem execSnapshot_granary (src : Nat) (s : State) : ∀ t, execSnapshot src s = .next t → granary t = granary s := by
  unfold execSnapshot; simp [granary_eta, *]

@[simp] theorem globalReset_granary (s : State) (c : Cmd) : granary (globalReset s c) = granary s := by
  unfold globalReset; simp [granary_eta, *]

theorem execGlobalReset_granary (src : Nat) (s : State) : ∀ t, execGlobalReset src s = .next t → granary t = granary s := by
  unfold execGlobalReset; simp [granary_eta, *]

/-! ### Machine/Fence.lean -/

@[simp] theorem bar2_granary (p f rid off : Nat) (w : Bool) (data : Bytes) (s : State) : granary (bar2 p f rid off w data s)
    = granary s := by
  unfold bar2; (repeat' split) <;> simp [granary_eta, *]

theorem execBar2Access_granary (p f rid off : Nat) (w : Bool) (data : Bytes) (s : State) : ∀ t, execBar2Access p f rid off w
    data s = .next t → granary t = granary s := by
  unfold execBar2Access; simp [granary_eta, *]

@[simp] theorem setFence_granary (s : State) (st q n part seq : Nat) (keys : List Bytes) : granary (setFence s st q n part
    seq keys) = granary s := by
  unfold setFence; simp [granary_eta, *]

@[simp] theorem clearFenceTable_granary (s : State) : granary (clearFenceTable s) = granary s := by
  unfold clearFenceTable; simp [granary_eta, *]

@[simp] theorem setSys_granary (s : State) (v : Nat) : granary (setSys s v) = granary s := by
  unfold setSys; simp [granary_eta, *]

@[simp] theorem unfence_granary (s : State) : granary (unfence s) = granary s := by
  unfold unfence; simp [granary_eta, *]

@[simp] theorem partSetup_granary (s : State) (c : Cmd) : granary (partSetup s c) = granary s := by
  unfold partSetup; simp [granary_eta, *]

theorem execPartSetup_granary (src : Nat) (s : State) : ∀ t, execPartSetup src s = .next t → granary t = granary s := by
  unfold execPartSetup; simp [granary_eta, *]

@[simp] theorem resetTallies_granary (s : State) : granary (resetTallies s) = granary s := by
  unfold resetTallies; simp [granary_eta, *]

@[simp] theorem partLeave_granary (s : State) (c : Cmd) : granary (partLeave s c) = granary s := by
  unfold partLeave; simp [granary_eta, *]

theorem execPartLeave_granary (src : Nat) (s : State) : ∀ t, execPartLeave src s = .next t → granary t = granary s := by
  unfold execPartLeave; simp [granary_eta, *]

@[simp] theorem fenceCert_granary (s : State) (c : Cmd) : granary (fenceCert s c) = granary s := by
  unfold fenceCert; simp [granary_eta, *]

theorem execFenceCert_granary (src : Nat) (s : State) : ∀ t, execFenceCert src s = .next t → granary t = granary s := by
  unfold execFenceCert; simp [granary_eta, *]

@[simp] theorem startFencing_granary (s : State) (cmd : Nat) : granary (startFencing s cmd) = granary s := by
  unfold startFencing; simp [granary_eta, *]

@[simp] theorem doUnfence_granary (s : State) (cmd : Nat) : granary (doUnfence s cmd) = granary s := by
  unfold doUnfence; simp [granary_eta, *]

@[simp] theorem certChecked_granary (s : State) : granary (certChecked s) = granary s := by
  unfold certChecked
  repeat' (first
    | with_reducible rfl
    | with_reducible assumption
    | (extract_lets +lift +onlyGivenNames t; have ht : granary t = granary s := (by (first | (simp [granary_eta, t, *]; done) | (dsimp only [t]; (repeat' split) <;> (simp [granary_eta, *]; done)))); clear_value t)
    | (extract_lets +lift +onlyGivenNames t; clear_value t)
    | split
    | with_reducible refine (foldl_granary fun s x => ?_).trans ?_
    | (simp [granary_eta, *]; done)
    | (simp +zetaDelta [granary_eta, *]; done))

theorem execFenceCertChecked_granary (s : State) : ∀ t, execFenceCertChecked s = .next t → granary t = granary s := by
  unfold execFenceCertChecked; simp [granary_eta, *]

@[simp] theorem fencedNow_granary (s : State) : granary (fencedNow s) = granary s := by
  unfold fencedNow; (repeat' split) <;> simp [granary_eta, *]

theorem execFenced_granary (s : State) : ∀ t, execFenced s = .next t → granary t = granary s := by
  unfold execFenced; simp [granary_eta, *]

@[simp] theorem beginShadow_granary (s : State) (st : Nat) (x : Shadow) : granary (beginShadow s st x) = granary s := by
  unfold beginShadow; simp [granary_eta, *]

theorem execShadowElder_granary (src : Nat) (peer : Option Nat) (s : State) : ∀ t, execShadowElder src peer s = .next t →
    granary t = granary s := by
  unfold execShadowElder; simp [granary_eta, *]

theorem execShadowJoin_granary (src : Nat) (peerOk : Bool) (s : State) : ∀ t, execShadowJoin src peerOk s = .next t → granary
    t = granary s := by
  unfold execShadowJoin; simp [granary_eta, *]

theorem execShadowEnd_granary (src : Nat) (s : State) : ∀ t, execShadowEnd src s = .next t → granary t = granary s := by
  unfold execShadowEnd; simp [granary_eta, *]

@[simp] theorem tellElder_granary (s : State) (event code step tensor d1 d2 : Nat) : granary (tellElder s event code step
    tensor d1 d2) = granary s := by
  unfold tellElder; simp [granary_eta, *]

theorem execMirrorAckTimer_granary (s : State) : ∀ t, execMirrorAckTimer s = .next t → granary t = granary s := by
  unfold execMirrorAckTimer; simp [granary_eta, *]

theorem execShadowLost_granary (s : State) : ∀ t, execShadowLost s = .next t → granary t = granary s := by
  unfold execShadowLost; simp [granary_eta, *]

/-! ### Machine/FaultLog.lean -/

@[simp] theorem showUnclean_granary (s : State) : granary (showUnclean s) = granary s := by
  unfold showUnclean; simp [granary_eta, *]

@[simp] theorem commitRecord_granary (s : State) (r : FaultRec) : granary (commitRecord s r) = granary s := by
  unfold commitRecord; simp [granary_eta, *]

@[simp] theorem writeRecord_granary (s : State) (kind code detail : Nat) : granary (writeRecord s kind code detail) = granary s := by
  unfold writeRecord; simp [granary_eta, *]

@[simp] theorem faultRead_granary (s : State) (c : Cmd) : granary (faultRead s c) = granary s := by
  unfold faultRead
  repeat' (first
    | with_reducible rfl
    | with_reducible assumption
    | (extract_lets +lift +onlyGivenNames t; have ht : granary t = granary s := (by (first | (simp [granary_eta, t, *]; done) | (dsimp only [t]; (repeat' split) <;> (simp [granary_eta, *]; done)))); clear_value t)
    | (extract_lets +lift +onlyGivenNames t; clear_value t)
    | split
    | with_reducible refine (foldl_granary fun s x => ?_).trans ?_
    | (simp [granary_eta, *]; done)
    | (simp +zetaDelta [granary_eta, *]; done))

theorem execFaultRead_granary (src : Nat) (s : State) : ∀ t, execFaultRead src s = .next t → granary t = granary s := by
  unfold execFaultRead; simp [granary_eta, *]

@[simp] theorem flagSeq_granary (s : State) (q flag : Nat) (ack : Bool) : granary (flagSeq s q flag ack) = granary s := by
  unfold flagSeq; simp [granary_eta, *]

@[simp] theorem faultAck_granary (s : State) (c : Cmd) : granary (faultAck s c) = granary s := by
  unfold faultAck
  repeat' (first
    | with_reducible rfl
    | with_reducible assumption
    | (extract_lets +lift +onlyGivenNames t; have ht : granary t = granary s := (by (first | (simp [granary_eta, t, *]; done) | (dsimp only [t]; (repeat' split) <;> (simp [granary_eta, *]; done)))); clear_value t)
    | (extract_lets +lift +onlyGivenNames t; clear_value t)
    | split
    | with_reducible refine (foldl_granary fun s x => ?_).trans ?_
    | (simp [granary_eta, *]; done)
    | (simp +zetaDelta [granary_eta, *]; done))

theorem execFaultAck_granary (src : Nat) (s : State) : ∀ t, execFaultAck src s = .next t → granary t = granary s := by
  unfold execFaultAck; simp [granary_eta, *]

/-! ### Machine/Startup.lean -/

@[simp] theorem setHs_granary (s : State) (h : HsState) : granary (setHs s h) = granary s := by
  unfold setHs; simp [granary_eta, *]

@[simp] theorem setCause_granary (s : State) (c : Nat) : granary (setCause s c) = granary s := by
  unfold setCause; simp [granary_eta, *]

@[simp] theorem saveOp_granary (s : State) : granary (saveOp s) = granary s := by
  unfold saveOp; simp [granary_eta, *]

@[simp] theorem coldKeys_granary (s : State) : granary (coldKeys s) = granary s := by
  unfold coldKeys; simp [granary_eta, *]

@[simp] theorem beginStage_granary (s : State) (n : Nat) : granary (beginStage s n) = granary s := by
  unfold beginStage; simp [granary_eta, *]

@[simp] theorem beginRails_granary (s : State) : granary (beginRails s) = granary s := by
  unfold beginRails; simp [granary_eta, *]

@[simp] theorem beginStart_granary (s : State) (cold : Bool) : granary (beginStart s cold) = granary s := by
  unfold beginStart; simp [granary_eta, *]

theorem execPreheatDone_granary (s : State) : ∀ t, execPreheatDone s = .next t → granary t = granary s := by
  unfold execPreheatDone; simp [granary_eta, *]

@[simp] theorem moduleReset_granary (s : State) (src level : Nat) : granary (moduleReset s src level) = granary s := by
  unfold moduleReset
  repeat' (first
    | with_reducible rfl
    | with_reducible assumption
    | (extract_lets +lift +onlyGivenNames t; have ht : granary t = granary s := (by (first | (simp [granary_eta, t, *]; done) | (dsimp only [t]; (repeat' split) <;> (simp [granary_eta, *]; done)))); clear_value t)
    | (extract_lets +lift +onlyGivenNames t; clear_value t)
    | split
    | with_reducible refine (foldl_granary fun s x => ?_).trans ?_
    | (simp [granary_eta, *]; done)
    | (simp +zetaDelta [granary_eta, *]; done))

theorem execModuleResetWarm_granary (src : Nat) (s : State) : ∀ t, execModuleResetWarm src s = .next t → granary t = granary s := by
  unfold execModuleResetWarm; simp [granary_eta, *]

theorem execModuleResetCold_granary (src : Nat) (s : State) : ∀ t, execModuleResetCold src s = .next t → granary t = granary s := by
  unfold execModuleResetCold; simp [granary_eta, *]

@[simp] theorem memoryFault_granary (s : State) (code addr : Nat) : granary (memoryFault s code addr) = granary s := by
  unfold memoryFault; simp [granary_eta, *]

@[simp] theorem readReturned_granary (s : State) (unit addr ecc lat : Nat) (weights : Bool) : granary (readReturned s unit
    addr ecc lat weights) = granary s := by
  unfold readReturned; simp [granary_eta, *]

theorem execGranaryReadReturn_granary (unit addr ecc lat : Nat) (weights : Bool) (s : State) : ∀ t, execGranaryReadReturn
    unit addr ecc lat weights s = .next t → granary t = granary s := by
  unfold execGranaryReadReturn; simp [granary_eta, *]

@[simp] theorem calSaveDone_granary (s : State) : granary (calSaveDone s) = granary s := by
  unfold calSaveDone; simp [granary_eta, *]

theorem execCalSaveDone_granary (s : State) : ∀ t, execCalSaveDone s = .next t → granary t = granary s := by
  unfold execCalSaveDone; simp [granary_eta, *]

theorem execOperatingTimeSave_granary (s : State) : ∀ t, execOperatingTimeSave s = .next t → granary t = granary s := by
  unfold execOperatingTimeSave; simp [granary_eta, *]

/-! ### Machine/Tray.lean -/

theorem execStandbyPower_granary (s : State) : ∀ t, execStandbyPower s = .next t → granary t = granary s := by
  unfold execStandbyPower; simp [granary_eta, *]

@[simp] theorem inputHigh_granary (mv : Nat) (s : State) : granary (inputHigh mv s) = granary s := by
  unfold inputHigh; simp [granary_eta, *]

theorem execInputHigh_granary (mv : Nat) (s : State) : ∀ t, execInputHigh mv s = .next t → granary t = granary s := by
  unfold execInputHigh; simp [granary_eta, *]

@[simp] theorem prsntMade_granary (cold : Bool) (s : State) : granary (prsntMade cold s) = granary s := by
  unfold prsntMade; dsimp only; (repeat' split) <;> simp [granary_eta, *]

theorem execPrsntEarlyMade_granary (cold : Bool) (s : State) : ∀ t, execPrsntEarlyMade cold s = .next t → granary t = granary s := by
  unfold execPrsntEarlyMade; simp [granary_eta, *]

@[simp] theorem startTrayDrain_granary (s : State) (source : Nat) : granary (startTrayDrain s source) = granary s := by
  unfold startTrayDrain; simp [granary_eta, *]

@[simp] theorem leverOpen_granary (cold : Bool) (s : State) : granary (leverOpen cold s) = granary s := by
  unfold leverOpen; simp [granary_eta, *]

theorem execLeverOpen_granary (cold : Bool) (s : State) : ∀ t, execLeverOpen cold s = .next t → granary t = granary s := by
  unfold execLeverOpen; simp [granary_eta, *]

@[simp] theorem trayCfg_granary (s : State) (c : Cmd) : granary (trayCfg s c) = granary s := by
  unfold trayCfg; simp [granary_eta, *]

theorem execTrayCfg_granary (src : Nat) (s : State) : ∀ t, execTrayCfg src s = .next t → granary t = granary s := by
  unfold execTrayCfg; simp [granary_eta, *]

theorem execTrayRemove_granary (src : Nat) (s : State) : ∀ t, execTrayRemove src s = .next t → granary t = granary s := by
  unfold execTrayRemove; simp [granary_eta, *]

@[simp] theorem trayResume_granary (s : State) (c : Cmd) : granary (trayResume s c) = granary s := by
  unfold trayResume; simp [granary_eta, *]

theorem execTrayResume_granary (src : Nat) (s : State) : ∀ t, execTrayResume src s = .next t → granary t = granary s := by
  unfold execTrayResume; simp [granary_eta, *]

@[simp] theorem ledLine_granary (line : Nat) (s : State) : granary (ledLine line s) = granary s := by
  unfold ledLine; simp [granary_eta, *]

theorem execLedLine_granary (line : Nat) (s : State) : ∀ t, execLedLine line s = .next t → granary t = granary s := by
  unfold execLedLine; simp [granary_eta, *]

@[simp] theorem ledRetry_granary (line : Nat) (s : State) : granary (ledRetry line s) = granary s := by
  unfold ledRetry
  repeat' (first
    | with_reducible rfl
    | with_reducible assumption
    | (extract_lets +lift +onlyGivenNames t; have ht : granary t = granary s := (by (first | (simp [granary_eta, t, *]; done) | (dsimp only [t]; (repeat' split) <;> (simp [granary_eta, *]; done)))); clear_value t)
    | (extract_lets +lift +onlyGivenNames t; clear_value t)
    | split
    | with_reducible refine (foldl_granary fun s x => ?_).trans ?_
    | (simp [granary_eta, *]; done)
    | (simp +zetaDelta [granary_eta, *]; done))

theorem execLedRetry_granary (line : Nat) (s : State) : ∀ t, execLedRetry line s = .next t → granary t = granary s := by
  unfold execLedRetry; simp [granary_eta, *]

/-! ### Machine/Security.lean -/

@[simp] theorem setSvn_granary (s : State) (img v : Nat) : granary (setSvn s img v) = granary s := by
  unfold setSvn; simp [granary_eta, *]

@[simp] theorem setImageOk_granary (s : State) (img : Nat) (ok : Bool) : granary (setImageOk s img ok) = granary s := by
  unfold setImageOk; simp [granary_eta, *]

@[simp] theorem setImageVer_granary (s : State) (img v : Nat) : granary (setImageVer s img v) = granary s := by
  unfold setImageVer; simp [granary_eta, *]

@[simp] theorem updating_granary (s : State) (c : Cmd) (f : State → State) (hf : ∀ (x0 : State), granary (f x0) = granary x0)
    : granary (updating s c f) = granary s := by
  unfold updating; simp [granary_eta, *]

theorem execFwWrite_granary (src : Nat) (s : State) : ∀ t, execFwWrite src s = .next t → granary t = granary s := by
  unfold execFwWrite; simp [granary_eta, *]

@[simp] theorem fwWriteDone_granary (s : State) : granary (fwWriteDone s) = granary s := by
  unfold fwWriteDone
  repeat' (first
    | with_reducible rfl
    | with_reducible assumption
    | (extract_lets +lift +onlyGivenNames t; have ht : granary t = granary s := (by (first | (simp [granary_eta, t, *]; done) | (dsimp only [t]; (repeat' split) <;> (simp [granary_eta, *]; done)))); clear_value t)
    | (extract_lets +lift +onlyGivenNames t; clear_value t)
    | split
    | with_reducible refine (foldl_granary fun s x => ?_).trans ?_
    | (simp [granary_eta, *]; done)
    | (simp +zetaDelta [granary_eta, *]; done))

theorem execFwWriteDone_granary (s : State) : ∀ t, execFwWriteDone s = .next t → granary t = granary s := by
  unfold execFwWriteDone; simp [granary_eta, *]

theorem execFwActivate_granary (src : Nat) (s : State) : ∀ t, execFwActivate src s = .next t → granary t = granary s := by
  unfold execFwActivate; simp [granary_eta, *]

@[simp] theorem svnCommit_granary (s : State) (c : Cmd) : granary (svnCommit s c) = granary s := by
  unfold svnCommit; simp [granary_eta, *]

theorem execFwSvnCommit_granary (src : Nat) (s : State) : ∀ t, execFwSvnCommit src s = .next t → granary t = granary s := by
  unfold execFwSvnCommit; simp [granary_eta, *]

@[simp] theorem putSet_granary (s : State) (n : Nat) (v : Option (Nat × Bytes)) : granary (putSet s n v) = granary s := by
  unfold putSet; simp [granary_eta, *]

@[simp] theorem install_granary (s : State) (c : Cmd) (mgmt : Bool) (f : State → Nat → Bytes → State) (hf : ∀ (x0 : State)
    (x1 : Nat) (x2 : Bytes), granary (f x0 x1 x2) = granary x0) : granary (install s c mgmt f) = granary s := by
  unfold install
  repeat' (first
    | with_reducible rfl
    | with_reducible assumption
    | (extract_lets +lift +onlyGivenNames t; have ht : granary t = granary s := (by (first | (simp [granary_eta, t, *]; done) | (dsimp only [t]; (repeat' split) <;> (simp [granary_eta, *]; done)))); clear_value t)
    | (extract_lets +lift +onlyGivenNames t; clear_value t)
    | split
    | with_reducible refine (foldl_granary fun s x => ?_).trans ?_
    | (simp [granary_eta, *]; done)
    | (simp +zetaDelta [granary_eta, *]; done))

theorem execSetInstall_granary (src : Nat) (s : State) : ∀ t, execSetInstall src s = .next t → granary t = granary s := by
  intro t h
  unfold execSetInstall at h
  injection h with h
  rw [← h]
  apply withCmd_granary
  intro s c
  apply install_granary
  intro s id k
  split <;> simp [granary_eta]

theorem execSetRemove_granary (src : Nat) (s : State) : ∀ t, execSetRemove src s = .next t → granary t = granary s := by
  intro t h
  unfold execSetRemove at h
  injection h with h
  rw [← h]
  apply withCmd_granary
  intro s c
  dsimp only
  split <;> simp [granary_eta]

theorem execMgmtKeyInstall_granary (src : Nat) (s : State) : ∀ t, execMgmtKeyInstall src s = .next t → granary t = granary s := by
  unfold execMgmtKeyInstall; simp [granary_eta, *]

@[simp] theorem freshNonce_granary (s : State) : granary (freshNonce s) = granary s := by
  unfold freshNonce; simp [granary_eta, *]

@[simp] theorem killNow_granary (s : State) (f : Nat) : granary (killNow s f) = granary s := by
  unfold killNow; (repeat' split) <;> simp [granary_eta, *]

@[simp] theorem debugUnlock_granary (s : State) (c : Cmd) : granary (debugUnlock s c) = granary s := by
  unfold debugUnlock; simp [granary_eta, *]

theorem execDebugUnlock_granary (src : Nat) (s : State) : ∀ t, execDebugUnlock src s = .next t → granary t = granary s := by
  unfold execDebugUnlock; simp [granary_eta, *]

@[simp] theorem refuseLoad_granary (s : State) (f id dest len code : Nat) : granary (refuseLoad s f id dest len code) =
    granary s := by
  unfold refuseLoad; simp [granary_eta, *]

@[simp] theorem bundleLoad_granary (s : State) (c : Cmd) : granary (bundleLoad s c) = granary s := by
  unfold bundleLoad
  repeat' (first
    | with_reducible rfl
    | with_reducible assumption
    | (extract_lets +lift +onlyGivenNames t; have ht : granary t = granary s := (by (first | (simp [granary_eta, t, *]; done) | (dsimp only [t]; (repeat' split) <;> (simp [granary_eta, *]; done)))); clear_value t)
    | (extract_lets +lift +onlyGivenNames t; clear_value t)
    | split
    | with_reducible refine (foldl_granary fun s x => ?_).trans ?_
    | (simp [granary_eta, *]; done)
    | (simp +zetaDelta [granary_eta, *]; done))

theorem execBundleLoad_granary (src : Nat) (s : State) : ∀ t, execBundleLoad src s = .next t → granary t = granary s := by
  unfold execBundleLoad; simp [granary_eta, *]

@[simp] theorem bundleUnload_granary (s : State) (c : Cmd) : granary (bundleUnload s c) = granary s := by
  unfold bundleUnload
  repeat' (first
    | with_reducible rfl
    | with_reducible assumption
    | (extract_lets +lift +onlyGivenNames t; have ht : granary t = granary s := (by (first | (simp [granary_eta, t, *]; done) | (dsimp only [t]; (repeat' split) <;> (simp [granary_eta, *]; done)))); clear_value t)
    | (extract_lets +lift +onlyGivenNames t; clear_value t)
    | split
    | with_reducible refine (foldl_granary fun s x => ?_).trans ?_
    | (simp [granary_eta, *]; done)
    | (simp +zetaDelta [granary_eta, *]; done))

theorem execBundleUnload_granary (src : Nat) (s : State) : ∀ t, execBundleUnload src s = .next t → granary t = granary s := by
  unfold execBundleUnload; simp [granary_eta, *]

/-! ### Machine/Session.lean -/

@[simp] theorem spdmPlain_granary (s : State) (p sess code : Nat) (body : Bytes) : granary (spdmPlain s p sess code body) =
    granary s := by
  unfold spdmPlain; simp [granary_eta, *]

@[simp] theorem setSession_granary (s : State) (x : Session) : granary (setSession s x) = granary s := by
  unfold setSession; simp [granary_eta, *]

@[simp] theorem spdm_granary (s : State) (p sess code : Nat) (body : Bytes) : granary (spdm s p sess code body) = granary s := by
  unfold spdm
  repeat' (first
    | with_reducible rfl
    | with_reducible assumption
    | (extract_lets +lift +onlyGivenNames t; have ht : granary t = granary s := (by (first | (simp [granary_eta, t, *]; done) | (dsimp only [t]; (repeat' split) <;> (simp [granary_eta, *]; done)))); clear_value t)
    | (extract_lets +lift +onlyGivenNames t; clear_value t)
    | split
    | with_reducible refine (foldl_granary fun s x => ?_).trans ?_
    | (simp [granary_eta, *]; done)
    | (simp +zetaDelta [granary_eta, *]; done))

@[simp] theorem spdmError_granary (s : State) (p sess code : Nat) : granary (spdmError s p sess code) = granary s := by
  unfold spdmError; simp [granary_eta, *]

@[simp] theorem setStage_granary (s : State) (p v : Nat) : granary (setStage s p v) = granary s := by
  unfold setStage; simp [granary_eta, *]

@[simp] theorem negotiated_granary (s : State) (p sess : Nat) (f : State → State) (hf : ∀ (x0 : State), granary (f x0) =
    granary x0) : granary (negotiated s p sess f) = granary s := by
  unfold negotiated; simp [granary_eta, *]

@[simp] theorem inSession_granary (s : State) (p sess : Nat) (outside : Bool) (f : State → State)
    (hf : ∀ s, granary (f s) = granary s) : granary (inSession s p sess outside f) = granary s := by
  apply negotiated_granary
  intro s
  repeat' split
  all_goals first | exact hf _ | exact spdmError_granary _ _ _ _

@[simp] theorem nonce32_granary (s : State) : granary (nonce32 s).2 = granary s := by
  unfold nonce32; simp [granary_eta, *]

theorem execGetVersion_granary (p : Nat) (s : State) : ∀ t, execGetVersion p s = .next t → granary t = granary s := by
  unfold execGetVersion; simp [granary_eta, *]

theorem execGetCapabilities_granary (p : Nat) (s : State) : ∀ t, execGetCapabilities p s = .next t → granary t = granary s := by
  unfold execGetCapabilities; simp [granary_eta, *]

theorem execNegotiateAlgorithms_granary (p : Nat) (offered : Bool) (s : State) : ∀ t, execNegotiateAlgorithms p offered s =
    .next t → granary t = granary s := by
  unfold execNegotiateAlgorithms; simp [granary_eta, *]

theorem execGetDigests_granary (p sess : Nat) (s : State) : ∀ t, execGetDigests p sess s = .next t → granary t = granary s := by
  unfold execGetDigests; simp [granary_eta, *]

theorem execGetCertificate_granary (p sess slot off len : Nat) (s : State) : ∀ t, execGetCertificate p sess slot off len s =
    .next t → granary t = granary s := by
  unfold execGetCertificate; simp [granary_eta, *]

theorem execChallenge_granary (p slot : Nat) (nonce : Bytes) (s : State) : ∀ t, execChallenge p slot nonce s = .next t →
    granary t = granary s := by
  unfold execChallenge; simp [granary_eta, *]

theorem execGetMeasurements_granary (p sess index : Nat) (isSigned : Bool) (nonce : Bytes) (s : State) : ∀ t,
    execGetMeasurements p sess index isSigned nonce s = .next t → granary t = granary s := by
  unfold execGetMeasurements; simp [granary_eta, *]

theorem execKeyExchange_granary (p slot : Nat) (wantsMutual : Bool) (share : Bytes) (s : State) : ∀ t, execKeyExchange p slot
    wantsMutual share s = .next t → granary t = granary s := by
  unfold execKeyExchange; simp [granary_eta, *]

theorem execFinish_granary (p sess : Nat) (leaf sig mac : Bytes) (s : State) :
    ∀ t, execFinish p sess leaf sig mac s = .next t → granary t = granary s := by
  intro t h
  unfold execFinish at h
  injection h with h
  rw [← h]
  apply negotiated_granary
  intro s
  repeat' split
  all_goals simp [granary_eta]

theorem execKeyUpdate_granary (p sess op : Nat) (s : State) :
    ∀ t, execKeyUpdate p sess op s = .next t → granary t = granary s := by
  intro t h
  unfold execKeyUpdate at h
  injection h with h
  rw [← h]
  apply inSession_granary
  intro s
  repeat' split
  all_goals simp [granary_eta]

theorem execSpdmHeartbeat_granary (p sess : Nat) (s : State) : ∀ t, execSpdmHeartbeat p sess s = .next t → granary t =
    granary s := by
  unfold execSpdmHeartbeat; simp [granary_eta, *]

theorem execEndSession_granary (p sess : Nat) (s : State) : ∀ t, execEndSession p sess s = .next t → granary t = granary s := by
  unfold execEndSession; simp [granary_eta, *]

@[simp] theorem keyRequest_granary (s : State) (p sess : Nat) (f : State → Nat → State)
    (hf : ∀ s g, granary (f s g) = granary s) : granary (keyRequest s p sess f) = granary s := by
  apply inSession_granary
  intro s
  repeat' split
  all_goals first | exact hf _ _ | exact spdm_granary _ _ _ _ _

theorem execKeyPut_granary (p sess slot usage : Nat) (key : Bytes) (s : State) : ∀ t, execKeyPut p sess slot usage key s =
    .next t → granary t = granary s := by
  unfold execKeyPut; simp [granary_eta, *]

theorem execKeyClear_granary (p sess slot : Nat) (s : State) : ∀ t, execKeyClear p sess slot s = .next t → granary t =
    granary s := by
  unfold execKeyClear; simp [granary_eta, *]

theorem execKeyList_granary (p sess : Nat) (s : State) : ∀ t, execKeyList p sess s = .next t → granary t = granary s := by
  unfold execKeyList; simp [granary_eta, *]

/-! ### Machine/Serving.lean -/

@[simp] theorem newSeq_granary (s : State) (c : Cmd) (bundle a : Nat) (fork : Option (Nat × Nat)) : granary (newSeq s c
    bundle a fork) = granary s := by
  unfold newSeq
  repeat' (first
    | with_reducible rfl
    | with_reducible assumption
    | (extract_lets +lift +onlyGivenNames t; have ht : granary t = granary s := (by (first | (simp [granary_eta, t, *]; done) | (dsimp only [t]; (repeat' split) <;> (simp [granary_eta, *]; done)))); clear_value t)
    | (extract_lets +lift +onlyGivenNames t; clear_value t)
    | split
    | with_reducible refine (foldl_granary fun s x => ?_).trans ?_
    | (simp [granary_eta, *]; done)
    | (simp +zetaDelta [granary_eta, *]; done))

@[simp] theorem admitReq_granary (s : State) (c : Cmd) : granary (admitReq s c) = granary s := by
  unfold admitReq
  repeat' (first
    | with_reducible rfl
    | with_reducible assumption
    | (extract_lets +lift +onlyGivenNames t; have ht : granary t = granary s := (by (first | (simp [granary_eta, t, *]; done) | (dsimp only [t]; (repeat' split) <;> (simp [granary_eta, *]; done)))); clear_value t)
    | (extract_lets +lift +onlyGivenNames t; clear_value t)
    | split
    | with_reducible refine (foldl_granary fun s x => ?_).trans ?_
    | (simp [granary_eta, *]; done)
    | (simp +zetaDelta [granary_eta, *]; done))

theorem execAdmitSeq_granary (src : Nat) (s : State) : ∀ t, execAdmitSeq src s = .next t → granary t = granary s := by
  unfold execAdmitSeq; simp [granary_eta, *]

@[simp] theorem fork_granary (s : State) (c : Cmd) : granary (fork s c) = granary s := by
  unfold fork
  repeat' (first
    | with_reducible rfl
    | with_reducible assumption
    | (extract_lets +lift +onlyGivenNames t; have ht : granary t = granary s := (by (first | (simp [granary_eta, t, *]; done) | (dsimp only [t]; (repeat' split) <;> (simp [granary_eta, *]; done)))); clear_value t)
    | (extract_lets +lift +onlyGivenNames t; clear_value t)
    | split
    | with_reducible refine (foldl_granary fun s x => ?_).trans ?_
    | (simp [granary_eta, *]; done)
    | (simp +zetaDelta [granary_eta, *]; done))

theorem execFork_granary (src : Nat) (s : State) : ∀ t, execFork src s = .next t → granary t = granary s := by
  unfold execFork; simp [granary_eta, *]

@[simp] theorem onSeq_granary (s : State) (c : Cmd) (g : State → Nat → Seq → State) (hg : ∀ (x0 : State) (x1 : Nat) (x2 :
    Seq), granary (g x0 x1 x2) = granary x0) : granary (onSeq s c g) = granary s := by
  unfold onSeq
  repeat' (first
    | with_reducible rfl
    | with_reducible assumption
    | (extract_lets +lift +onlyGivenNames t; have ht : granary t = granary s := (by (first | (simp [granary_eta, t, *]; done) | (dsimp only [t]; (repeat' split) <;> (simp [granary_eta, *]; done)))); clear_value t)
    | (extract_lets +lift +onlyGivenNames t; clear_value t)
    | split
    | with_reducible refine (foldl_granary fun s x => ?_).trans ?_
    | (simp [granary_eta, *]; done)
    | (simp +zetaDelta [granary_eta, *]; done))

@[simp] theorem cancelCmd_granary (s : State) (c : Cmd) : granary (cancelCmd s c) = granary s := by
  unfold cancelCmd; simp [granary_eta, *]

theorem execCancel_granary (src : Nat) (s : State) : ∀ t, execCancel src s = .next t → granary t = granary s := by
  unfold execCancel; simp [granary_eta, *]

@[simp] theorem setMask_granary (s : State) (c : Cmd) (i : Nat) (q : Seq) : granary (setMask s c i q) = granary s := by
  unfold setMask; simp [granary_eta, *]

theorem execSetMask_granary (src : Nat) (s : State) : ∀ t, execSetMask src s = .next t → granary t = granary s := by
  unfold execSetMask; simp [granary_eta, *]

@[simp] theorem tokenArea_granary (s : State) (c : Cmd) : granary (tokenArea s c) = granary s := by
  unfold tokenArea; simp [granary_eta, *]

theorem execTokenArea_granary (src : Nat) (s : State) : ∀ t, execTokenArea src s = .next t → granary t = granary s := by
  unfold execTokenArea; simp [granary_eta, *]

@[simp] theorem pauseWrite_granary (a : Access) (v : Nat) (on : Bool) (s : State) : granary (pauseWrite a v on s) = granary s := by
  unfold pauseWrite; simp [granary_eta, *]

theorem execPause_granary (a : Access) (v : Nat) (s : State) : ∀ t, execPause a v s = .next t → granary t = granary s := by
  unfold execPause; simp [granary_eta, *]

theorem execPauseClear_granary (a : Access) (v : Nat) (s : State) : ∀ t, execPauseClear a v s = .next t → granary t = granary s := by
  unfold execPauseClear; simp [granary_eta, *]

@[simp] theorem swapEnded_granary (kind : Nat) (i : Nat) (s : State) : granary (swapEnded kind i s) = granary s := by
  unfold swapEnded; simp [granary_eta, *]

theorem execSwapOutDone_granary (i : Nat) (s : State) : ∀ t, execSwapOutDone i s = .next t → granary t = granary s := by
  unfold execSwapOutDone; simp [granary_eta, *]

theorem execSwapInDone_granary (i : Nat) (s : State) : ∀ t, execSwapInDone i s = .next t → granary t = granary s := by
  unfold execSwapInDone; simp [granary_eta, *]

theorem execRebuild_granary (a : Access) (v : Nat) (s : State) : ∀ t, execRebuild a v s = .next t → granary t = granary s := by
  unfold execRebuild; simp [granary_eta, *]

/-! ### Machine/Gleaner.lean -/

@[simp] theorem glnSeq_granary (s : State) (r : GlnRow) : granary (glnSeq s r) = granary s := by
  unfold glnSeq; simp [granary_eta, *]

@[simp] theorem glnGroup_granary (ctr target : Nat) (rows : List GlnRow) (s : State) : granary (glnGroup ctr target rows s) =
    granary s := by
  unfold glnGroup; simp [granary_eta, *]

theorem execGleanerGroup_granary (ctr target : Nat) (rows : List GlnRow) (s : State) : ∀ t, execGleanerGroup ctr target rows
    s = .next t → granary t = granary s := by
  unfold execGleanerGroup; simp [granary_eta, *]

/-! ### Machine/Boundary.lean -/

@[simp] theorem writeBatch_granary (s : State) (p f : Nat) (x : Area) (bs : Bytes) : granary (writeBatch s p f x bs) =
    granary s := by
  unfold writeBatch; simp [granary_eta, *]

@[simp] theorem postBatch_granary (s : State) (f : Nat) (bt : Batch) : granary (postBatch s f bt) = granary s := by
  unfold postBatch; dsimp only; (repeat' split) <;> simp [granary_eta, *]

@[simp] theorem heldBatchPost_granary (f : Nat) (s : State) : granary (heldBatchPost f s) = granary s := by
  unfold heldBatchPost
  repeat' (first
    | with_reducible rfl
    | with_reducible assumption
    | (extract_lets +lift +onlyGivenNames t; have ht : granary t = granary s := (by (first | (simp [granary_eta, t, *]; done) | (dsimp only [t]; (repeat' split) <;> (simp [granary_eta, *]; done)))); clear_value t)
    | (extract_lets +lift +onlyGivenNames t; clear_value t)
    | split
    | with_reducible refine (foldl_granary fun s x => ?_).trans ?_
    | (simp [granary_eta, *]; done)
    | (simp +zetaDelta [granary_eta, *]; done))

theorem execHeldBatchPost_granary (f : Nat) (s : State) : ∀ t, execHeldBatchPost f s = .next t → granary t = granary s := by
  unfold execHeldBatchPost; simp [granary_eta, *]

/-! ### Machine/Video.lean -/

@[simp] theorem vpost_granary (s : State) (x : VidCtx) (type : Nat) (payload : Bytes) : granary (vpost s x type payload) =
    granary s := by
  unfold vpost; simp [granary_eta, *]

@[simp] theorem streamEvent_granary (s : State) (i : Nat) (x : VidCtx) (ev code : Nat) : granary (streamEvent s i x ev code)
    = granary s := by
  unfold streamEvent; simp [granary_eta, *]

@[simp] theorem streamOpen_granary (s : State) (c : Cmd) : granary (streamOpen s c) = granary s := by
  unfold streamOpen
  repeat' (first
    | with_reducible rfl
    | with_reducible assumption
    | (extract_lets +lift +onlyGivenNames t; have ht : granary t = granary s := (by (first | (simp [granary_eta, t, *]; done) | (dsimp only [t]; (repeat' split) <;> (simp [granary_eta, *]; done)))); clear_value t)
    | (extract_lets +lift +onlyGivenNames t; clear_value t)
    | split
    | with_reducible refine (foldl_granary fun s x => ?_).trans ?_
    | (simp [granary_eta, *]; done)
    | (simp +zetaDelta [granary_eta, *]; done))

theorem execStreamOpen_granary (src : Nat) (s : State) : ∀ t, execStreamOpen src s = .next t → granary t = granary s := by
  unfold execStreamOpen; simp [granary_eta, *]

@[simp] theorem onStream_granary (s : State) (c : Cmd) (sts : List Nat) (enc : Option Bool) (g : State → Nat → VidCtx →
    State) (hg : ∀ (x0 : State) (x1 : Nat) (x2 : VidCtx), granary (g x0 x1 x2) = granary x0) : granary (onStream s c sts enc
    g) = granary s := by
  unfold onStream; simp [granary_eta, *]

@[simp] theorem tapSet_granary (s : State) (c : Cmd) (i : Nat) (x : VidCtx) : granary (tapSet s c i x) = granary s := by
  unfold tapSet; simp [granary_eta, *]

theorem execTapSet_granary (src : Nat) (s : State) : ∀ t, execTapSet src s = .next t → granary t = granary s := by
  unfold execTapSet; simp [granary_eta, *]

theorem execStreamClose_granary (src : Nat) (s : State) : ∀ t, execStreamClose src s = .next t → granary t = granary s := by
  unfold execStreamClose; simp [granary_eta, *]

@[simp] theorem closed_granary (i : Nat) (s : State) : granary (closed i s) = granary s := by
  unfold closed; simp [granary_eta, *]

theorem execClosed_granary (ctx : Nat) (s : State) : ∀ t, execClosed ctx s = .next t → granary t = granary s := by
  unfold execClosed; simp [granary_eta, *]

/-! ### Machine/Access.lean -/

@[simp] theorem readWord_granary (s : State) (a : Access) : granary (readWord s a).1 = granary s := by
  unfold readWord
  repeat' (first
    | with_reducible rfl
    | with_reducible assumption
    | (extract_lets +lift +onlyGivenNames t; have ht : granary t = granary s := (by (first | (simp [granary_eta, t, *]; done) | (dsimp only [t]; (repeat' split) <;> (simp [granary_eta, *]; done)))); clear_value t)
    | (extract_lets +lift +onlyGivenNames t; clear_value t)
    | split
    | with_reducible refine (foldl_granary fun s x => ?_).trans ?_
    | (simp [granary_eta, *]; done)
    | (simp +zetaDelta [granary_eta, *]; done))

@[simp] theorem answer_granary (s : State) (a : Access) (wide : Bool) (v : Nat) : granary (answer s a wide v) = granary s := by
  unfold answer; simp [granary_eta, *]

@[simp] theorem answerRead_granary (a : Access) (wide : Bool) (word : State → Access → State × Nat) (s : State) (hword : ∀
    (x0 : State) (x1 : Access), granary (word x0 x1).1 = granary x0) : granary (answerRead a wide word s) = granary s := by
  unfold answerRead; (repeat' split) <;> simp [granary_eta, *]

theorem execLatchedRead_granary (a : Access) (wide bar4 : Bool) (s : State) : ∀ t, execLatchedRead a wide bar4 s = .next t →
    granary t = granary s := by
  unfold execLatchedRead; simp [granary_eta, *]

theorem execUnalignedAccess_granary (a : Access) (s : State) : ∀ t, execUnalignedAccess a s = .next t → granary t = granary s := by
  unfold execUnalignedAccess; simp [granary_eta, *]

theorem execUnmappedAccess_granary (a : Access) (read wide : Bool) (s : State) : ∀ t, execUnmappedAccess a read wide s =
    .next t → granary t = granary s := by
  unfold execUnmappedAccess; simp [granary_eta, *]

theorem effect_granary {o : Host.Outcome State Fault Refusal} {s : State}
    (ho : ∀ t, o = .next t → granary t = granary s) : granary (effect o s) = granary s := by
  unfold effect; split
  · exact ho _ rfl
  · rfl

theorem rowEffects_granary : ∀ f ∈ rowEffects, ∀ (a : Access) (v : Nat) (s t : State), f a v s = .next t →
    granary t = granary s := by
  unfold rowEffects
  simp only [List.forall_mem_cons, List.not_mem_nil, false_implies, implies_true, and_true]
  refine ⟨fun a v s => execBlkExpert_granary a v s, fun a v s => execSreset_granary a v s, fun a v s => execPerfClr_granary a v s, fun a v s => execPause_granary a v s, fun a v s => execPauseClear_granary a v s, fun a v s => execBlkErrClear_granary a v s, fun a v s => execPageCommit_granary a v s, fun a v s => execPageDiscard_granary a v s, fun a v s => execTxnListCmd_granary a v s, fun a v s => execRaise_granary a v s, fun a v s => execStrike_granary a v s, fun a v s => execRelease_granary a v s, fun a v s => execBayRunClear_granary a v s, fun a v s => execBayRunGo_granary a v s, fun a v s => execBayRunHalt_granary a v s, fun a v s => execBayTokenSet_granary a v s, fun a v s => execSqCfgWrite_granary a v s, fun a v s => execEqCfgWrite_granary a v s, fun a v s => execHbHi_granary a false v s, fun a v s => execIdentSend_granary a v s, fun a v s => execRelearn_granary a v s, fun a v s => execWainPost_granary a false v s, fun a v s => execAbort_granary a v s, fun a v s => execResume_granary a v s, fun a v s => execWainCqHead_granary a v s, fun a v s => execTallyAdd_granary a v s, fun a v s => execThmLeakClr_granary a v s, fun a v s => execLearnReset_granary a v s, fun a v s => execRebuild_granary a v s⟩
theorem effects_granary (a : Access) (v : Nat) (l : List (Access → Nat → State → Host.Outcome State Fault Refusal))
    (hl : ∀ f ∈ l, ∀ (a : Access) (v : Nat) (s t : State), f a v s = .next t → granary t = granary s) (s : State) :
    granary (l.foldl (fun s f => effect (f a v s) s) s) = granary s := by
  induction l generalizing s with
  | nil => rfl
  | cons f l ih =>
    exact (ih (fun g hg => hl g (List.mem_cons_of_mem _ hg)) _).trans
      (effect_granary fun t h => hl f (List.mem_cons_self ..) a v s t h)
@[simp] theorem writeOwn_granary (s : State) (a : Access) (v : Nat) : granary (writeOwn s a v) = granary s := by
  unfold writeOwn
  refine (effects_granary a v rowEffects rowEffects_granary _).trans (atPlace_granary _ _ _ fun s pl => ?_)
  split <;> simp [granary_eta]

@[simp] theorem writeWord_granary (s : State) (a : Access) (v : Nat) : granary (writeWord s a v) = granary s := by
  unfold writeWord
  split_ifs
  · exact effect_granary (execSqDoorbell_granary a v s)
  · exact effect_granary (execEqHeadDoorbell_granary a v s)
  · repeat' split
    all_goals simp [granary_eta]

@[simp] theorem registerWrite_granary (a : Access) (wide : Bool) (v : Nat) (s : State) : granary (registerWrite a wide v s) =
    granary s := by
  unfold registerWrite; simp [granary_eta, *]

theorem execRegisterWrite_granary (a : Access) (wide : Bool) (v : Nat) (s : State) : ∀ t, execRegisterWrite a wide v s =
    .next t → granary t = granary s := by
  unfold execRegisterWrite; simp [granary_eta, *]

end Sys2Proof.Machine
end

