-- ==== Sys2Proof/Laws/FrameWorking.lean ====
section
/-! SUPPORT. Every operation and command of the module's services leaves the working units as they were. -/

set_option linter.unusedTactic false
set_option linter.unreachableTactic false
set_option linter.unusedSimpArgs false
set_option linter.unusedVariables false

namespace Sys2Proof.Machine

@[simp] theorem working_mk (pending : List Instr) (clock : Nat) (mtime : BitVec 96) (lastSample : Nat) (free : Nat) (nextId :
    Nat) (out : List Output) (regs : Map Word) (staged : Map Word) (latched : Map Word) (unlocked : List (Nat × Nat))
    (lockSeen : List Nat) (irqHigh : List Nat) (mem : List Host.Cell) (gwq : List GWrite) (readGrants : Map Nat) (held : List
    Held) (poison : List Nat) (lineVer : Map Nat) (retained : List Retained) (deferred : List Deferred) (lentLast : Map Nat)
    (bays : Map Bay) (mesh : List MeshMsg) (unitTokens : Map Nat) (ramp : Ramp) (slots : Map Slot) (raises : Nat) (stepEpoch
    : Option Nat) (stallFrom : Option Nat) (cmds : List Cmd) (sqs : Map SqRing) (eqs : Map EvRing) (ports : List Port)
    (msixTab : Map Word) (pba : List (Nat × Nat × Nat)) (tenants : Map Tenant) (hosts : List HostRec) (ptp : List (Option
    PtpMaster)) (everClaimed : Bool) (mgmtKey : Bytes) (claimKeys : List Nat) (wains : Map Wain) (wiring : Wiring) (shadow :
    Shadow) (tallyWaits : List TallyWait) (certs : List CertJob) (fencing : Option Nat) (tallySince : Map (Nat × Bool))
    (tallyDown : List Nat) (tallyOut : List (Nat × Nat × Bytes)) (joinWait : Bool) (tray : Tray) (faultLog : List FaultRec)
    (faultSeq : Nat) (flash : Flash) (power : Power) (kvBlocks : Map (List (Nat × Nat))) (kvPoison : List (Nat × Nat × Nat))
    (keySlots : Map (Nat × Bytes)) (nonces : Map Nat) (fwDone : List (Nat × Nat)) (fwWait : List (Nat × Chain)) (fwAgain :
    List (List Action)) (lastTb : Nat) (orphans : List (Nat × Nat)) (kvMarks : List (Nat × Nat)) (sec : Security) (keysLocked
    : Bool) (seqs : Map Seq) (seqPub : Map Seq) (srv : Serve) (video : Map VidCtx) (cores : Map VidCore) :
    working ⟨pending, clock, mtime, lastSample, free, nextId, out, regs, staged, latched, unlocked, lockSeen, irqHigh, mem,
    gwq, readGrants, held, poison, lineVer, retained, deferred, lentLast, bays, mesh, unitTokens, ramp, slots, raises,
    stepEpoch, stallFrom, cmds, sqs, eqs, ports, msixTab, pba, tenants, hosts, ptp, everClaimed, mgmtKey, claimKeys, wains,
    wiring, shadow, tallyWaits, certs, fencing, tallySince, tallyDown, tallyOut, joinWait, tray, faultLog, faultSeq, flash,
    power, kvBlocks, kvPoison, keySlots, nonces, fwDone, fwWait, fwAgain, lastTb, orphans, kvMarks, sec, keysLocked, seqs,
    seqPub, srv, video, cores⟩ = ⟨mem, poison, lineVer, retained, deferred, kvBlocks, kvPoison, bays, slots, wains, seqs,
    video, cores, tenants, keySlots, ramp, mesh, unitTokens⟩ := (rfl)
@[simp] theorem working_eta (s : State) : Working.mk s.mem s.poison s.lineVer s.retained s.deferred s.kvBlocks s.kvPoison
    s.bays s.slots s.wains s.seqs s.video s.cores s.tenants s.keySlots s.ramp s.mesh s.unitTokens = working s := (rfl)

@[simp] theorem working_ite {c : Prop} [Decidable c] {a b : State} : working (if c then a else b) = if c then working a else
    working b := by split <;> rfl
theorem foldl_same_working {α β : Type} {f : β → State} {g : β → α → β} (hg : ∀ s x, working (f (g s x)) = working (f s)) (l
    : List α) (s : β) :
    working (f (l.foldl g s)) = working (f s) := by
  induction l generalizing s with
  | nil => rfl
  | cons x l ih => exact (ih _).trans (hg s x)
@[simp] theorem foldl_working {α : Type} {g : State → α → State} {l : List α} {s : State} (hg : ∀ s x, working (g s x) =
    working s) :
    working (l.foldl g s) = working s := foldl_same_working (f := id) hg l s
@[simp] theorem foldl_fst_working {α β : Type} {g : State × β → α → State × β} {l : List α} {s : State × β}
    (hg : ∀ s x, working (g s x).1 = working s.1) : working (l.foldl g s).1 = working s.1 := foldl_same_working (f :=
    Prod.fst) hg l s
@[simp] theorem foldl_snd_working {α β : Type} {g : β × State → α → β × State} {l : List α} {s : β × State}
    (hg : ∀ s x, working (g s x).2 = working s.2) : working (l.foldl g s).2 = working s.2 := foldl_same_working (f :=
    Prod.snd) hg l s

/-! ### Machine/Ops.lean -/

@[simp] theorem wr_working (s : State) (k v : Nat) : working (wr s k v) = working s := by
  unfold wr; simp [*]

@[simp] theorem wrStaged_working (s : State) (k v : Nat) : working (wrStaged s k v) = working s := by
  unfold wrStaged; simp [*]

@[simp] theorem wf_working (s : State) (k hi lo v : Nat) : working (wf s k hi lo v) = working s := by
  unfold wf; simp [*]

@[simp] theorem setBit_working (s : State) (k i : Nat) (b : Bool) : working (setBit s k i b) = working s := by
  unfold setBit; simp [*]

@[simp] theorem satIncr_working (s : State) (k n : Nat) : working (satIncr s k n) = working s := by
  unfold satIncr; simp [*]

@[simp] theorem wr64_working (s : State) (k v : Nat) : working (wr64 s k v) = working s := by
  unfold wr64; simp [*]

@[simp] theorem emit_working (s : State) (o : Output) : working (emit s o) = working s := by
  unfold emit; simp [*]

@[simp] theorem countTx_working (s : State) (p n : Nat) : working (countTx s p n) = working s := by
  unfold countTx; simp [*]

@[simp] theorem countRx_working (s : State) (p n : Nat) : working (countRx s p n) = working s := by
  unfold countRx; simp [*]

@[simp] theorem hostWrite_working (s : State) (p f addr : Nat) (bs : Bytes) : working (hostWrite s p f addr bs) = working s := by
  unfold hostWrite; simp [*]

@[simp] theorem sendMsix_working (s : State) (p f vec : Nat) : working (sendMsix s p f vec) = working s := by
  unfold sendMsix; simp [*]

@[simp] theorem setEqr_working (s : State) (f n : Nat) (x : EvRing) : working (setEqr s f n x) = working s := by
  unfold setEqr; simp [*]

@[simp] theorem writeMsg_working (s : State) (f n p : Nat) (m : Msg) : working (writeMsg s f n p m) = working s := by
  unfold writeMsg; simp [*]

@[simp] theorem loseMsg_working (s : State) (f n : Nat) : working (loseMsg s f n) = working s := by
  unfold loseMsg; simp [*]

@[simp] theorem flushOverflow_working (s : State) (f n : Nat) : working (flushOverflow s f n) = working s := by
  unfold flushOverflow
  repeat' (first
    | with_reducible rfl
    | with_reducible assumption
    | (extract_lets +lift +onlyGivenNames t; have ht : working t = working s := (by (first | (simp [t, *]; done) | (dsimp only [t]; (repeat' split) <;> (simp [*]; done)))); clear_value t)
    | (extract_lets +lift +onlyGivenNames t; clear_value t)
    | split
    | with_reducible refine (foldl_working fun s x => ?_).trans ?_
    | (simp [*]; done)
    | (simp +zetaDelta [*]; done))

@[simp] theorem flushWaiting_working (k : Nat) (s : State) (f n : Nat) : working (flushWaiting k s f n) = working s := by
  induction k generalizing s with
  | zero => rfl
  | succ k ih =>
    unfold flushWaiting
    repeat' split
    all_goals simp [*]

@[simp] theorem flushResend_working (s : State) (f n : Nat) : working (flushResend s f n) = working s := by
  unfold flushResend; (repeat' split) <;> simp [*]

@[simp] theorem flushRing_working (s : State) (f n : Nat) : working (flushRing s f n) = working s := by
  unfold flushRing; simp [*]

@[simp] theorem post_working (s : State) (f n : Nat) (held : Bool) (m : Msg) : working (post s f n held m) = working s := by
  unfold post
  repeat' (first
    | with_reducible rfl
    | with_reducible assumption
    | (extract_lets +lift +onlyGivenNames t; have ht : working t = working s := (by (first | (simp [t, *]; done) | (dsimp only [t]; (repeat' split) <;> (simp [*]; done)))); clear_value t)
    | (extract_lets +lift +onlyGivenNames t; clear_value t)
    | split
    | with_reducible refine (foldl_working fun s x => ?_).trans ?_
    | (simp [*]; done)
    | (simp +zetaDelta [*]; done))

@[simp] theorem setSticky_working (s : State) (f i : Nat) : working (setSticky s f i) = working s := by
  unfold setSticky; simp [*]

@[simp] theorem postAsync_working (s : State) (ring type func flags : Nat) (payload : Bytes) : working (postAsync s ring type
    func flags payload) = working s := by
  unfold postAsync; simp [*]

@[simp] theorem postCrit_working (s : State) (ring type sticky : Nat) (payload : Bytes) : working (postCrit s ring type
    sticky payload) = working s := by
  unfold postCrit; simp [*]

@[simp] theorem postBlockIrq_working (s : State) (page : Nat) : working (postBlockIrq s page) = working s := by
  unfold postBlockIrq; dsimp only; split
  · simp
  · refine (foldl_working fun s t => ?_).trans (by simp)
    split <;> simp

@[simp] theorem irqUpdate_working (s : State) (page : Nat) : working (irqUpdate s page) = working s := by
  unfold irqUpdate; simp [*]

@[simp] theorem raiseIrq_working (s : State) (page i : Nat) : working (raiseIrq s page i) = working s := by
  unfold raiseIrq; simp [*]

@[simp] theorem recordErr_working (s : State) (page code func off : Nat) (detail : Nat) : working (recordErr s page code func
    off detail) = working s := by
  unfold recordErr; simp [*]

@[simp] theorem bumpVer_working (s : State) (page : Nat) : working (bumpVer s page) = working s := by
  unfold bumpVer; simp [*]

@[simp] theorem queueWrite_working (s : State) (unit : Nat) (cells : List Host.Cell) : working (queueWrite s unit cells) =
    working s := by
  unfold queueWrite
  repeat' (first
    | with_reducible rfl
    | with_reducible assumption
    | (extract_lets +lift +onlyGivenNames t; have ht : working t = working s := (by (first | (simp [t, *]; done) | (dsimp only [t]; (repeat' split) <;> (simp [*]; done)))); clear_value t)
    | (extract_lets +lift +onlyGivenNames t; clear_value t)
    | split
    | with_reducible refine (foldl_working fun s x => ?_).trans ?_
    | (simp [*]; done)
    | (simp +zetaDelta [*]; done))

@[simp] theorem gwrite_working (s : State) (unit a : Nat) (bs : Bytes) : working (gwrite s unit a bs) = working s := by
  unfold gwrite; simp [*]

@[simp] theorem setHost_working (s : State) (k : Nat) (h : HostRec) : working (setHost s k h) = working s := by
  unfold setHost; simp [*]

@[simp] theorem sendFrame_working (s : State) (k kind : Nat) (body : Bytes) : working (sendFrame s k kind body) = working s := by
  unfold sendFrame; simp [*]

/-! ### Machine/Control.lean -/

@[simp] theorem sendHeartbeat_working (s : State) (k : Nat) : working (sendHeartbeat s k) = working s := by
  unfold sendHeartbeat
  repeat' (first
    | with_reducible rfl
    | with_reducible assumption
    | (extract_lets +lift +onlyGivenNames t; have ht : working t = working s := (by (first | (simp [t, *]; done) | (dsimp only [t]; (repeat' split) <;> (simp [*]; done)))); clear_value t)
    | (extract_lets +lift +onlyGivenNames t; clear_value t)
    | split
    | with_reducible refine (foldl_working fun s x => ?_).trans ?_
    | (simp [*]; done)
    | (simp +zetaDelta [*]; done))

@[simp] theorem sendHeartbeats_working (s : State) : working (sendHeartbeats s) = working s := by
  unfold sendHeartbeats; simp [*]

@[simp] theorem claimEvent_working (s : State) (ev rec code other cid : Nat) : working (claimEvent s ev rec code other cid) =
    working s := by
  unfold claimEvent; simp [*]

@[simp] theorem refuseAct_working (s : State) (claim code cid : Nat) : working (refuseAct s claim code cid) = working s := by
  unfold refuseAct; simp [*]

@[simp] theorem finishC_working (s : State) (c : Cmd) (status result detail cflags : Nat) : working (finishC s c status
    result detail cflags) = working s := by
  unfold finishC; simp [*]

@[simp] theorem finish_working (s : State) (c : Cmd) (status : Nat) (result : Nat) (detail : Nat) : working (finish s c
    status result detail) = working s := by
  unfold finish; simp [*]

@[simp] theorem finishId_working (s : State) (id status : Nat) (result : Nat) (detail : Nat) : working (finishId s id status
    result detail) = working s := by
  unfold finishId
  repeat' (first
    | with_reducible rfl
    | with_reducible assumption
    | (extract_lets +lift +onlyGivenNames t; have ht : working t = working s := (by (first | (simp [t, *]; done) | (dsimp only [t]; (repeat' split) <;> (simp [*]; done)))); clear_value t)
    | (extract_lets +lift +onlyGivenNames t; clear_value t)
    | split
    | with_reducible refine (foldl_working fun s x => ?_).trans ?_
    | (simp [*]; done)
    | (simp +zetaDelta [*]; done))

@[simp] theorem markStarted_working (s : State) (c : Cmd) : working (markStarted s c) = working s := by
  unfold markStarted; simp [*]

@[simp] theorem withCmd_working (s : State) (src op : Nat) (f : State → Cmd → State) (hf : ∀ (x0 : State) (x1 : Cmd), working
    (f x0 x1) = working x0) : working (withCmd s src op f) = working s := by
  unfold withCmd
  repeat' (first
    | with_reducible rfl
    | with_reducible assumption
    | (extract_lets +lift +onlyGivenNames t; have ht : working t = working s := (by (first | (simp [t, *]; done) | (dsimp only [t]; (repeat' split) <;> (simp [*]; done)))); clear_value t)
    | (extract_lets +lift +onlyGivenNames t; clear_value t)
    | split
    | with_reducible refine (foldl_working fun s x => ?_).trans ?_
    | (simp [*]; done)
    | (simp +zetaDelta [*]; done))

@[simp] theorem noteLocked_working (s : State) (pl : Place) (func : Nat) : working (noteLocked s pl func) = working s := by
  unfold noteLocked; simp [*]

@[simp] theorem atPlace_working (s : State) (a : Access) (f : State → Place → State) (hf : ∀ (x0 : State) (x1 : Place),
    working (f x0 x1) = working x0) : working (atPlace s a f) = working s := by
  unfold atPlace
  repeat' (first
    | with_reducible rfl
    | with_reducible assumption
    | (extract_lets +lift +onlyGivenNames t; have ht : working t = working s := (by (first | (simp [t, *]; done) | (dsimp only [t]; (repeat' split) <;> (simp [*]; done)))); clear_value t)
    | (extract_lets +lift +onlyGivenNames t; clear_value t)
    | split
    | with_reducible refine (foldl_working fun s x => ?_).trans ?_
    | (simp [*]; done)
    | (simp +zetaDelta [*]; done))

@[simp] theorem storeReg_working (s : State) (k v : Nat) : working (storeReg s k v) = working s := by
  unfold storeReg; (repeat' split) <;> simp [*]

@[simp] theorem discardStaged_working (s : State) (page : Nat) : working (discardStaged s page) = working s := by
  unfold discardStaged; simp [*]

/-! ### Machine/Power.lean -/

@[simp] theorem setInner_working (s : State) (x : Rat) : working (setInner s x) = working s := by
  unfold setInner; simp [*]

@[simp] theorem retarget_working (s : State) : working (retarget s) = working s := by
  unfold retarget; simp [*]

@[simp] theorem postThermal_working (s : State) (event source code value : Nat) : working (postThermal s event source code
    value) = working s := by
  unfold postThermal; simp [*]

@[simp] theorem countLag_working (s : State) : working (countLag s) = working s := by
  unfold countLag; simp [*]

@[simp] theorem judgeLag_working (s : State) : working (judgeLag s) = working s := by
  unfold judgeLag; extract_lets +lift; (repeat' split) <;> simp +zetaDelta [*]

@[simp] theorem setGate_working (s : State) (f g : Nat) : working (setGate s f g) = working s := by
  unfold setGate; simp [*]

@[simp] theorem raiseGates_working (s : State) : working (raiseGates s) = working s := by
  unfold raiseGates; simp [*]

@[simp] theorem lowerGates_working (s : State) : working (lowerGates s) = working s := by
  unfold lowerGates; simp [*]

@[simp] theorem brakeTick_working (s : State) : working (brakeTick s) = working s := by
  unfold brakeTick
  extract_lets +lift t
  have ht : working t = working s := by simp [t]
  clear_value t
  rw [working_ite, working_mk, working_eta, ht, ite_self]

@[simp] theorem noteEst_working (s : State) (e : Rat) : working (noteEst s e) = working s := by
  unfold noteEst; simp [*]

@[simp] theorem fastLoop_working (raw add : Nat) (s : State) : working (fastLoop raw add s) = working s := by
  unfold fastLoop
  extract_lets +lift t
  have ht : working t = working s := by simp [t]
  clear_value t
  rw [working_ite, working_ite, working_ite, brakeTick_working, raiseGates_working, lowerGates_working, ite_self, ite_self, ite_self, ht]

theorem execFastLoop_working (raw add : Nat) (s : State) : ∀ t, execFastLoop raw add s = .next t → working t = working s := by
  unfold execFastLoop; simp [*]

theorem execCapMet_working (s : State) : ∀ t, execCapMet s = .next t → working t = working s := by
  unfold execCapMet
  repeat' (first
    | with_reducible rfl
    | with_reducible assumption
    | (extract_lets +lift +onlyGivenNames t; have ht : working t = working s := (by (first | (simp [t, *]; done) | (dsimp only [t]; (repeat' split) <;> (simp [*]; done)))); clear_value t)
    | (extract_lets +lift +onlyGivenNames t; clear_value t)
    | split
    | with_reducible refine (foldl_working fun s x => ?_).trans ?_
    | (simp [*]; done)
    | (simp +zetaDelta [*]; done))

@[simp] theorem noteCode_working (s : State) (code : Nat) : working (noteCode s code) = working s := by
  unfold noteCode; simp [*]

@[simp] theorem takeSample_working (s : State) (m : Rat) : working (takeSample s m) = working s := by
  unfold takeSample; simp [*]

@[simp] theorem outerLoop_working (s : State) (m : Rat) : working (outerLoop s m) = working s := by
  unfold outerLoop; simp [*]

@[simp] theorem powerSample_working (vin : Nat) (ma : Int) (code : Nat) (atEnd : Bool) (s : State) : working (powerSample vin
    ma code atEnd s) = working s := by
  unfold powerSample; simp [*]

theorem execPowerSample_working (vin : Nat) (ma : Int) (code : Nat) (atEnd : Bool) (s : State) : ∀ t, execPowerSample vin ma
    code atEnd s = .next t → working t = working s := by
  unfold execPowerSample; simp [*]

theorem execSensorOk_working (s : State) : ∀ t, execSensorOk s = .next t → working t = working s := by
  unfold execSensorOk
  repeat' (first
    | with_reducible rfl
    | with_reducible assumption
    | (extract_lets +lift +onlyGivenNames t; have ht : working t = working s := (by (first | (simp [t, *]; done) | (dsimp only [t]; (repeat' split) <;> (simp [*]; done)))); clear_value t)
    | (extract_lets +lift +onlyGivenNames t; clear_value t)
    | split
    | with_reducible refine (foldl_working fun s x => ?_).trans ?_
    | (simp [*]; done)
    | (simp +zetaDelta [*]; done))

@[simp] theorem estimateWindow_working (s : State) : working (estimateWindow s) = working s := by
  unfold estimateWindow; simp [*]

theorem execEstimateWindow_working (s : State) : ∀ t, execEstimateWindow s = .next t → working t = working s := by
  unfold execEstimateWindow
  repeat' (first
    | with_reducible rfl
    | with_reducible assumption
    | (extract_lets +lift +onlyGivenNames t; have ht : working t = working s := (by (first | (simp [t, *]; done) | (dsimp only [t]; (repeat' split) <;> (simp [*]; done)))); clear_value t)
    | (extract_lets +lift +onlyGivenNames t; clear_value t)
    | split
    | with_reducible refine (foldl_working fun s x => ?_).trans ?_
    | (simp [*]; done)
    | (simp +zetaDelta [*]; done))

theorem execMismatchOn_working (s : State) : ∀ t, execMismatchOn s = .next t → working t = working s := by
  unfold execMismatchOn
  repeat' (first
    | with_reducible rfl
    | with_reducible assumption
    | (extract_lets +lift +onlyGivenNames t; have ht : working t = working s := (by (first | (simp [t, *]; done) | (dsimp only [t]; (repeat' split) <;> (simp [*]; done)))); clear_value t)
    | (extract_lets +lift +onlyGivenNames t; clear_value t)
    | split
    | with_reducible refine (foldl_working fun s x => ?_).trans ?_
    | (simp [*]; done)
    | (simp +zetaDelta [*]; done))

theorem execMismatchOff_working (s : State) : ∀ t, execMismatchOff s = .next t → working t = working s := by
  unfold execMismatchOff
  repeat' (first
    | with_reducible rfl
    | with_reducible assumption
    | (extract_lets +lift +onlyGivenNames t; have ht : working t = working s := (by (first | (simp [t, *]; done) | (dsimp only [t]; (repeat' split) <;> (simp [*]; done)))); clear_value t)
    | (extract_lets +lift +onlyGivenNames t; clear_value t)
    | split
    | with_reducible refine (foldl_working fun s x => ?_).trans ?_
    | (simp [*]; done)
    | (simp +zetaDelta [*]; done))

theorem execPwrSetCap_working (src : Nat) (s : State) : ∀ t, execPwrSetCap src s = .next t → working t = working s := by
  unfold execPwrSetCap; simp [*]

@[simp] theorem setFctl_working (s : State) (f : Nat) (x : FieldCtl) : working (setFctl s f x) = working s := by
  unfold setFctl; simp [*]

@[simp] theorem showClock_working (s : State) (f step mv : Nat) (rel : Bool) : working (showClock s f step mv rel) = working s := by
  unfold showClock; simp [*]

@[simp] theorem startRelock_working (s : State) (f : Nat) : working (startRelock s f) = working s := by
  unfold startRelock; simp [*]

@[simp] theorem startChange_working (s : State) (f : Nat) : working (startChange s f) = working s := by
  unfold startChange; simp [*]

@[simp] theorem setClock_working (s : State) (f step : Nat) : working (setClock s f step) = working s := by
  unfold setClock; simp [*]

theorem execPllRelockDone_working (f : Nat) (s : State) : ∀ t, execPllRelockDone f s = .next t → working t = working s := by
  unfold execPllRelockDone
  repeat' (first
    | with_reducible rfl
    | with_reducible assumption
    | (extract_lets +lift +onlyGivenNames t; have ht : working t = working s := (by (first | (simp [t, *]; done) | (dsimp only [t]; (repeat' split) <;> (simp [*]; done)))); clear_value t)
    | (extract_lets +lift +onlyGivenNames t; clear_value t)
    | split
    | with_reducible refine (foldl_working fun s x => ?_).trans ?_
    | (simp [*]; done)
    | (simp +zetaDelta [*]; done))

theorem execRailRampDone_working (f : Nat) (s : State) : ∀ t, execRailRampDone f s = .next t → working t = working s := by
  unfold execRailRampDone
  repeat' (first
    | with_reducible rfl
    | with_reducible assumption
    | (extract_lets +lift +onlyGivenNames t; have ht : working t = working s := (by (first | (simp [t, *]; done) | (dsimp only [t]; (repeat' split) <;> (simp [*]; done)))); clear_value t)
    | (extract_lets +lift +onlyGivenNames t; clear_value t)
    | split
    | with_reducible refine (foldl_working fun s x => ?_).trans ?_
    | (simp [*]; done)
    | (simp +zetaDelta [*]; done))

@[simp] theorem enforceCeil_working (s : State) (f : Nat) : working (enforceCeil s f) = working s := by
  unfold enforceCeil; simp [*]

@[simp] theorem newPeriod_working (s : State) (f : Nat) : working (newPeriod s f) = working s := by
  unfold newPeriod; simp [*]

@[simp] theorem learn_working (s : State) (f : Nat) (o : FieldObs) : working (learn s f o) = working s := by
  unfold learn; simp [*]

@[simp] theorem allocate_working (s : State) (pfix dg dv : Nat) (obs : List FieldObs) : working (allocate s pfix dg dv obs) =
    working s := by
  unfold allocate; simp [*]

@[simp] theorem noteObs_working (s : State) (f : Nat) (o : FieldObs) : working (noteObs s f o) = working s := by
  unfold noteObs; simp [*]

@[simp] theorem learnerPeriod_working (pfix dg dv : Nat) (fields : List Nat) (s : State) : working (learnerPeriod pfix dg dv
    fields s) = working s := by
  unfold learnerPeriod; simp [*]

theorem execLearnerPeriod_working (pfix dg dv : Nat) (fields : List Nat) (s : State) : ∀ t, execLearnerPeriod pfix dg dv
    fields s = .next t → working t = working s := by
  unfold execLearnerPeriod; simp [*]

theorem execLearnReset_working (a : Access) (v : Nat) (s : State) : ∀ t, execLearnReset a v s = .next t → working t = working s := by
  unfold execLearnReset; simp [*]

theorem execDroop_working (f : Nat) (s : State) : ∀ t, execDroop f s = .next t → working t = working s := by
  unfold execDroop
  repeat' (first
    | with_reducible rfl
    | with_reducible assumption
    | (extract_lets +lift +onlyGivenNames t; have ht : working t = working s := (by (first | (simp [t, *]; done) | (dsimp only [t]; (repeat' split) <;> (simp [*]; done)))); clear_value t)
    | (extract_lets +lift +onlyGivenNames t; clear_value t)
    | split
    | with_reducible refine (foldl_working fun s x => ?_).trans ?_
    | (simp [*]; done)
    | (simp +zetaDelta [*]; done))

theorem execDroopRecovered_working (f cycles : Nat) (s : State) : ∀ t, execDroopRecovered f cycles s = .next t → working t =
    working s := by
  unfold execDroopRecovered
  repeat' (first
    | with_reducible rfl
    | with_reducible assumption
    | (extract_lets +lift +onlyGivenNames t; have ht : working t = working s := (by (first | (simp [t, *]; done) | (dsimp only [t]; (repeat' split) <;> (simp [*]; done)))); clear_value t)
    | (extract_lets +lift +onlyGivenNames t; clear_value t)
    | split
    | with_reducible refine (foldl_working fun s x => ?_).trans ?_
    | (simp [*]; done)
    | (simp +zetaDelta [*]; done))

theorem execBrakeOn_working (s : State) : ∀ t, execBrakeOn s = .next t → working t = working s := by
  unfold execBrakeOn; (repeat' split) <;> simp [*]

theorem execBrakeClockDrop_working (s : State) : ∀ t, execBrakeClockDrop s = .next t → working t = working s := by
  unfold execBrakeClockDrop
  repeat' (first
    | with_reducible rfl
    | with_reducible assumption
    | (extract_lets +lift +onlyGivenNames t; have ht : working t = working s := (by (first | (simp [t, *]; done) | (dsimp only [t]; (repeat' split) <;> (simp [*]; done)))); clear_value t)
    | (extract_lets +lift +onlyGivenNames t; clear_value t)
    | split
    | with_reducible refine (foldl_working fun s x => ?_).trans ?_
    | (simp [*]; done)
    | (simp +zetaDelta [*]; done))

theorem execBrakeOff_working (s : State) : ∀ t, execBrakeOff s = .next t → working t = working s := by
  unfold execBrakeOff; (repeat' split) <;> simp [*]

@[simp] theorem endThrottle_working (s : State) (f : Nat) (temp : Int) : working (endThrottle s f temp) = working s := by
  unfold endThrottle
  repeat' (first
    | with_reducible rfl
    | with_reducible assumption
    | (extract_lets +lift +onlyGivenNames t; have ht : working t = working s := (by (first | (simp [t, *]; done) | (dsimp only [t]; (repeat' split) <;> (simp [*]; done)))); clear_value t)
    | (extract_lets +lift +onlyGivenNames t; clear_value t)
    | split
    | with_reducible refine (foldl_working fun s x => ?_).trans ?_
    | (simp [*]; done)
    | (simp +zetaDelta [*]; done))

@[simp] theorem junctionField_working (s : State) (f : Nat) (l : List Int) : working (junctionField s f l) = working s := by
  unfold junctionField; dsimp only; (repeat' split) <;> simp [*]

theorem execJunctionSample_working (raw : List Int) (s : State) : ∀ t, execJunctionSample raw s = .next t → working t =
    working s := by
  unfold execJunctionSample; simp [*]

@[simp] theorem throttleField_working (s : State) (f : Nat) : working (throttleField s f) = working s := by
  unfold throttleField
  repeat' (first
    | with_reducible rfl
    | with_reducible assumption
    | (extract_lets +lift +onlyGivenNames t; have ht : working t = working s := (by (first | (simp [t, *]; done) | (dsimp only [t]; (repeat' split) <;> (simp [*]; done)))); clear_value t)
    | (extract_lets +lift +onlyGivenNames t; clear_value t)
    | split
    | with_reducible refine (foldl_working fun s x => ?_).trans ?_
    | (simp [*]; done)
    | (simp +zetaDelta [*]; done))

theorem execThermalThrottleStep_working (s : State) : ∀ t, execThermalThrottleStep s = .next t → working t = working s := by
  unfold execThermalThrottleStep; simp [*]

@[simp] theorem hbmStack_working (s : State) (k : Nat) (temp : Int) : working (hbmStack s k temp) = working s := by
  unfold hbmStack; simp [*]

theorem execHbmTempSample_working (raw : List Int) (s : State) : ∀ t, execHbmTempSample raw s = .next t → working t = working s := by
  unfold execHbmTempSample; simp [*]

@[simp] theorem coolSensor_working (s : State) (key source : Nat) (t : Int) (fault : Bool) : working (coolSensor s key source
    t fault) = working s := by
  unfold coolSensor; simp [*]

@[simp] theorem inletRules_working (s : State) (t : Int) : working (inletRules s t) = working s := by
  unfold inletRules; simp [*]

@[simp] theorem flowRules_working (s : State) (tin tout : Int) (ok : Bool) : working (flowRules s tin tout ok) = working s := by
  unfold flowRules; simp [*]

@[simp] theorem coolantSample_working (tin tout : Int) (fin fout : Bool) (s : State) : working (coolantSample tin tout fin
    fout s) = working s := by
  unfold coolantSample; simp [*]

theorem execCoolantSample_working (tin tout : Int) (fin fout : Bool) (s : State) : ∀ t, execCoolantSample tin tout fin fout s
    = .next t → working t = working s := by
  unfold execCoolantSample; simp [*]

theorem execFlowLow_working (s : State) : ∀ t, execFlowLow s = .next t → working t = working s := by
  unfold execFlowLow
  repeat' (first
    | with_reducible rfl
    | with_reducible assumption
    | (extract_lets +lift +onlyGivenNames t; have ht : working t = working s := (by (first | (simp [t, *]; done) | (dsimp only [t]; (repeat' split) <;> (simp [*]; done)))); clear_value t)
    | (extract_lets +lift +onlyGivenNames t; clear_value t)
    | split
    | with_reducible refine (foldl_working fun s x => ?_).trans ?_
    | (simp [*]; done)
    | (simp +zetaDelta [*]; done))

theorem execLeakSample_working (wet lead : Bool) (s : State) : ∀ t, execLeakSample wet lead s = .next t → working t = working s := by
  unfold execLeakSample
  repeat' (first
    | with_reducible rfl
    | with_reducible assumption
    | (extract_lets +lift +onlyGivenNames t; have ht : working t = working s := (by (first | (simp [t, *]; done) | (dsimp only [t]; (repeat' split) <;> (simp [*]; done)))); clear_value t)
    | (extract_lets +lift +onlyGivenNames t; clear_value t)
    | split
    | with_reducible refine (foldl_working fun s x => ?_).trans ?_
    | (simp [*]; done)
    | (simp +zetaDelta [*]; done))

theorem execLeak_working (s : State) : ∀ t, execLeak s = .next t → working t = working s := by
  unfold execLeak
  repeat' (first
    | with_reducible rfl
    | with_reducible assumption
    | (extract_lets +lift +onlyGivenNames t; have ht : working t = working s := (by (first | (simp [t, *]; done) | (dsimp only [t]; (repeat' split) <;> (simp [*]; done)))); clear_value t)
    | (extract_lets +lift +onlyGivenNames t; clear_value t)
    | split
    | with_reducible refine (foldl_working fun s x => ?_).trans ?_
    | (simp [*]; done)
    | (simp +zetaDelta [*]; done))

theorem execThmLeakClr_working (a : Access) (v : Nat) (s : State) : ∀ t, execThmLeakClr a v s = .next t → working t = working s := by
  unfold execThmLeakClr; simp [*]

/-! ### Machine/Tree.lean -/

@[simp] theorem tallyBad_working (s : State) (func off : Nat) : working (tallyBad s func off) = working s := by
  unfold tallyBad; simp [*]

@[simp] theorem flushTally_working (s : State) : working (flushTally s) = working s := by
  unfold flushTally
  repeat' (first
    | with_reducible rfl
    | with_reducible assumption
    | (extract_lets +lift +onlyGivenNames t; have ht : working t = working s := (by (first | (simp [t, *]; done) | (dsimp only [t]; (repeat' split) <;> (simp [*]; done)))); clear_value t)
    | (extract_lets +lift +onlyGivenNames t; clear_value t)
    | split
    | with_reducible refine (foldl_working fun s x => ?_).trans ?_
    | (simp [*]; done)
    | (simp +zetaDelta [*]; done))

@[simp] theorem tallySend_working (s : State) (sel addr : Nat) (bs : Bytes) : working (tallySend s sel addr bs) = working s := by
  unfold tallySend; simp [*]

@[simp] theorem sendParent_working (s : State) (c kind flags : Nat) (payload : Bytes) : working (sendParent s c kind flags
    payload) = working s := by
  unfold sendParent; simp [*]

@[simp] theorem sendChild_working (s : State) (c kind flags : Nat) (payload : Bytes) (k : Nat) : working (sendChild s c kind
    flags payload k) = working s := by
  unfold sendChild; simp [*]

@[simp] theorem sendDown_working (s : State) (c kind flags : Nat) (payload : Bytes) : working (sendDown s c kind flags
    payload) = working s := by
  unfold sendDown; simp [*]

@[simp] theorem setSince_working (s : State) (c : Nat) (v : Nat × Bool) : working (setSince s c v) = working s := by
  unfold setSince; simp [*]

@[simp] theorem noteWait_working (s : State) : working (noteWait s) = working s := by
  unfold noteWait
  repeat' (first
    | with_reducible rfl
    | with_reducible assumption
    | (extract_lets +lift +onlyGivenNames t; have ht : working t = working s := (by (first | (simp [t, *]; done) | (dsimp only [t]; (repeat' split) <;> (simp [*]; done)))); clear_value t)
    | (extract_lets +lift +onlyGivenNames t; clear_value t)
    | split
    | with_reducible refine (foldl_working fun s x => ?_).trans ?_
    | (simp [*]; done)
    | (simp +zetaDelta [*]; done))

@[simp] theorem treeUpdate_working (s : State) (c : Nat) : working (treeUpdate s c) = working s := by
  unfold treeUpdate; simp [*]

@[simp] theorem addCount_working (s : State) (c n : Nat) : working (addCount s c n) = working s := by
  unfold addCount; simp [*]

@[simp] theorem addTally_working (s : State) (c func n off : Nat) : working (addTally s c func n off) = working s := by
  unfold addTally; simp [*]

@[simp] theorem addFirmware_working (s : State) (c n : Nat) : working (addFirmware s c n) = working s := by
  unfold addFirmware; simp [*]

/-! ### Machine/Mirror.lean -/

@[simp] theorem postFence_working (s : State) (event ctr code : Nat) (step tensor d1 d2 : Nat) : working (postFence s event
    ctr code step tensor d1 d2) = working s := by
  unfold postFence; simp [*]

@[simp] theorem setShadowSt_working (s : State) (v : Nat) : working (setShadowSt s v) = working s := by
  unfold setShadowSt; simp [*]

@[simp] theorem shadowLost_working (s : State) : working (shadowLost s) = working s := by
  unfold shadowLost; simp [*]

@[simp] theorem ringWrite_working (s : State) (bs : Bytes) : working (ringWrite s bs) = working s := by
  unfold ringWrite
  repeat' (first
    | with_reducible rfl
    | with_reducible assumption
    | (extract_lets +lift +onlyGivenNames t; have ht : working t = working s := (by (first | (simp [t, *]; done) | (dsimp only [t]; (repeat' split) <;> (simp [*]; done)))); clear_value t)
    | (extract_lets +lift +onlyGivenNames t; clear_value t)
    | split
    | with_reducible refine (foldl_working fun s x => ?_).trans ?_
    | (simp [*]; done)
    | (simp +zetaDelta [*]; done))

@[simp] theorem mirror_working (s : State) (f kind addr : Nat) (body : Bytes) : working (mirror s f kind addr body) = working s := by
  unfold mirror; simp [*]

/-! ### Machine/Residents.lean -/

@[simp] theorem setArea_working (s : State) (f : Nat) (x : Area) : working (setArea s f x) = working s := by
  unfold setArea; simp [*]

@[simp] theorem batchGone_working (s : State) (f n : Nat) : working (batchGone s f n) = working s := by
  unfold batchGone; simp [*]

@[simp] theorem endSessions_working (s : State) (p : Session → Bool) : working (endSessions s p) = working s := by
  unfold endSessions; simp [*]

/-! ### Machine/Rules.lean -/

theorem execPageDiscard_working (a : Access) (v : Nat) (s : State) : ∀ t, execPageDiscard a v s = .next t → working t =
    working s := by
  unfold execPageDiscard; simp [*]

/-! ### Machine/Granary.lean -/

@[simp] theorem grantFirst_working (s : State) (chan c : Nat) (l : List (Option Nat)) : working (grantFirst s chan c l) =
    working s := by
  unfold grantFirst; simp [*]

@[simp] theorem granaryRound_working (s : State) (chan : Nat) (q : List (List Bool)) : working (granaryRound s chan q) =
    working s := by
  unfold granaryRound; simp [*]

theorem execGranaryRound_working (chan : Nat) (q0 q1 q2 q3 : List Bool) (s : State) : ∀ t, execGranaryRound chan q0 q1 q2 q3
    s = .next t → working t = working s := by
  unfold execGranaryRound; simp [*]

/-! ### Machine/Txn.lean -/

theorem execRetireStall_working (s : State) : ∀ t, execRetireStall s = .next t → working t = working s := by
  unfold execRetireStall
  repeat' (first
    | with_reducible rfl
    | with_reducible assumption
    | (extract_lets +lift +onlyGivenNames t; have ht : working t = working s := (by (first | (simp [t, *]; done) | (dsimp only [t]; (repeat' split) <;> (simp [*]; done)))); clear_value t)
    | (extract_lets +lift +onlyGivenNames t; clear_value t)
    | split
    | with_reducible refine (foldl_working fun s x => ?_).trans ?_
    | (simp [*]; done)
    | (simp +zetaDelta [*]; done))

/-! ### Machine/Host.lean -/

@[simp] theorem setSqr_working (s : State) (f n : Nat) (x : SqRing) : working (setSqr s f n x) = working s := by
  unfold setSqr; simp [*]

@[simp] theorem disableEq_working (s : State) (f n : Nat) : working (disableEq s f n) = working s := by
  unfold disableEq; simp [*]

@[simp] theorem enableEq_working (s : State) (f n : Nat) : working (enableEq s f n) = working s := by
  unfold enableEq; simp [*]

@[simp] theorem ringCfg_working (s : State) (f k off v : Nat) (ok : Bool) (enBit mask : Nat) (off? on? : State → State) (hoff
    : ∀ (x0 : State), working (off? x0) = working x0) (hon : ∀ (x0 : State), working (on? x0) = working x0) : working
    (ringCfg s f k off v ok enBit mask off? on?) = working s := by
  unfold ringCfg; simp [*]

@[simp] theorem sqCfgWrite_working (a : Access) (v : Nat) (s : State) : working (sqCfgWrite a v s) = working s := by
  unfold sqCfgWrite
  repeat' (first
    | with_reducible rfl
    | with_reducible assumption
    | (extract_lets +lift +onlyGivenNames t; have ht : working t = working s := (by (first | (simp [t, *]; done) | (dsimp only [t]; (repeat' split) <;> (simp [*]; done)))); clear_value t)
    | (extract_lets +lift +onlyGivenNames t; clear_value t)
    | split
    | with_reducible refine (foldl_working fun s x => ?_).trans ?_
    | (simp [*]; done)
    | (simp +zetaDelta [*]; done))

theorem execSqCfgWrite_working (a : Access) (v : Nat) (s : State) : ∀ t, execSqCfgWrite a v s = .next t → working t = working s := by
  unfold execSqCfgWrite; simp [*]

@[simp] theorem eqCfgWrite_working (a : Access) (v : Nat) (s : State) : working (eqCfgWrite a v s) = working s := by
  unfold eqCfgWrite
  repeat' (first
    | with_reducible rfl
    | with_reducible assumption
    | (extract_lets +lift +onlyGivenNames t; have ht : working t = working s := (by (first | (simp [t, *]; done) | (dsimp only [t]; (repeat' split) <;> (simp [*]; done)))); clear_value t)
    | (extract_lets +lift +onlyGivenNames t; clear_value t)
    | split
    | with_reducible refine (foldl_working fun s x => ?_).trans ?_
    | (simp [*]; done)
    | (simp +zetaDelta [*]; done))

theorem execEqCfgWrite_working (a : Access) (v : Nat) (s : State) : ∀ t, execEqCfgWrite a v s = .next t → working t = working s := by
  unfold execEqCfgWrite; simp [*]

@[simp] theorem ring_working (s : State) (a : Access) (off size v : Nat) (on : Bool) (f : State → State) (hf : ∀ (x0 :
    State), working (f x0) = working x0) : working (ring s a off size v on f) = working s := by
  unfold ring; simp [*]

@[simp] theorem sqDoorbell_working (a : Access) (v : Nat) (s : State) : working (sqDoorbell a v s) = working s := by
  unfold sqDoorbell
  repeat' (first
    | with_reducible rfl
    | with_reducible assumption
    | (extract_lets +lift +onlyGivenNames t; have ht : working t = working s := (by (first | (simp [t, *]; done) | (dsimp only [t]; (repeat' split) <;> (simp [*]; done)))); clear_value t)
    | (extract_lets +lift +onlyGivenNames t; clear_value t)
    | split
    | with_reducible refine (foldl_working fun s x => ?_).trans ?_
    | (simp [*]; done)
    | (simp +zetaDelta [*]; done))

theorem execSqDoorbell_working (a : Access) (v : Nat) (s : State) : ∀ t, execSqDoorbell a v s = .next t → working t = working s := by
  unfold execSqDoorbell; simp [*]

@[simp] theorem ringIrq_working (s : State) (f n : Nat) : working (ringIrq s f n) = working s := by
  unfold ringIrq
  repeat' (first
    | with_reducible rfl
    | with_reducible assumption
    | (extract_lets +lift +onlyGivenNames t; have ht : working t = working s := (by (first | (simp [t, *]; done) | (dsimp only [t]; (repeat' split) <;> (simp [*]; done)))); clear_value t)
    | (extract_lets +lift +onlyGivenNames t; clear_value t)
    | split
    | with_reducible refine (foldl_working fun s x => ?_).trans ?_
    | (simp [*]; done)
    | (simp +zetaDelta [*]; done))

@[simp] theorem passBatches_working (s : State) (f n : Nat) : working (passBatches s f n) = working s := by
  unfold passBatches; simp [*]

@[simp] theorem eqDoorbell_working (a : Access) (v : Nat) (s : State) : working (eqDoorbell a v s) = working s := by
  unfold eqDoorbell
  repeat' (first
    | with_reducible rfl
    | with_reducible assumption
    | (extract_lets +lift +onlyGivenNames t; have ht : working t = working s := (by (first | (simp [t, *]; done) | (dsimp only [t]; (repeat' split) <;> (simp [*]; done)))); clear_value t)
    | (extract_lets +lift +onlyGivenNames t; clear_value t)
    | split
    | with_reducible refine (foldl_working fun s x => ?_).trans ?_
    | (simp [*]; done)
    | (simp +zetaDelta [*]; done))

theorem execEqHeadDoorbell_working (a : Access) (v : Nat) (s : State) : ∀ t, execEqHeadDoorbell a v s = .next t → working t =
    working s := by
  unfold execEqHeadDoorbell; simp [*]

@[simp] theorem settleFetch_working (k : Nat) (s : State) (src : Nat) : working (settleFetch k s src) = working s := by
  induction k generalizing s with
  | zero => rfl
  | succ k ih =>
    unfold settleFetch
    repeat' split
    all_goals first | rfl | (rw [ih]; simp)

@[simp] theorem takeCommand_working (s : State) (f n : Nat) (body : Bytes) : working (takeCommand s f n body) = working s := by
  unfold takeCommand; simp [*]

@[simp] theorem fetchReturn_working (f n : Nat) (body : Bytes) (s : State) : working (fetchReturn f n body s) = working s := by
  unfold fetchReturn
  repeat' (first
    | with_reducible rfl
    | with_reducible assumption
    | (extract_lets +lift +onlyGivenNames t; have ht : working t = working s := (by (first | (simp [t, *]; done) | (dsimp only [t]; (repeat' split) <;> (simp [*]; done)))); clear_value t)
    | (extract_lets +lift +onlyGivenNames t; clear_value t)
    | split
    | with_reducible refine (foldl_working fun s x => ?_).trans ?_
    | (simp [*]; done)
    | (simp +zetaDelta [*]; done))

theorem execCommandFetchReturn_working (func r : Nat) (body : Bytes) (s : State) : ∀ t, execCommandFetchReturn func r body s
    = .next t → working t = working s := by
  unfold execCommandFetchReturn; simp [*]

@[simp] theorem fetchFails_working (f n : Nat) (s : State) : working (fetchFails f n s) = working s := by
  unfold fetchFails; simp [*]

theorem execCmdFetch_working (func r : Nat) (s : State) : ∀ t, execCmdFetch func r s = .next t → working t = working s := by
  unfold execCmdFetch; simp [*]

theorem execNop_working (src : Nat) (s : State) : ∀ t, execNop src s = .next t → working t = working s := by
  unfold execNop; simp [*]

@[simp] theorem msixWrite_working (p f off v : Nat) (s : State) : working (msixWrite p f off v s) = working s := by
  unfold msixWrite; simp [*]

theorem execMsixTableWrite_working (p f off v : Nat) (s : State) : ∀ t, execMsixTableWrite p f off v s = .next t → working t
    = working s := by
  unfold execMsixTableWrite; simp [*]

@[simp] theorem sendIdentity_working (s : State) (p : Nat) : working (sendIdentity s p) = working s := by
  unfold sendIdentity; simp [*]

theorem execIdentSend_working (a : Access) (v : Nat) (s : State) : ∀ t, execIdentSend a v s = .next t → working t = working s := by
  unfold execIdentSend; simp [*]

/-! ### Machine/Register.lean -/

theorem execBlkExpert_working (a : Access) (v : Nat) (s : State) : ∀ t, execBlkExpert a v s = .next t → working t = working s := by
  unfold execBlkExpert; simp [*]

/-! ### Machine/Wiring.lean -/

@[simp] theorem postEject_working (s : State) (event source code : Nat) (deadline : Nat) (step : Nat) (moment : Nat) :
    working (postEject s event source code deadline step moment) = working s := by
  unfold postEject; simp [*]

@[simp] theorem showSlot_working (s : State) : working (showSlot s) = working s := by
  unfold showSlot; simp [*]

@[simp] theorem postWiring_working (s : State) (event : Nat) : working (postWiring s event) = working s := by
  unfold postWiring; simp [*]

@[simp] theorem reportWiring_working (s : State) (bad cross : Bool) : working (reportWiring s bad cross) = working s := by
  unfold reportWiring; simp [*]

@[simp] theorem wiringCheck_working (s : State) : working (wiringCheck s) = working s := by
  unfold wiringCheck; simp [*]

@[simp] theorem wiringPlan_working (s : State) (c : Cmd) : working (wiringPlan s c) = working s := by
  unfold wiringPlan; simp [*]

theorem execWiringPlan_working (src : Nat) (s : State) : ∀ t, execWiringPlan src s = .next t → working t = working s := by
  unfold execWiringPlan; simp [*]

/-! ### Machine/Claim.lean -/

@[simp] theorem setPathLive_working (s : State) (k path : Nat) (b : Bool) : working (setPathLive s k path b) = working s := by
  unfold setPathLive; simp [*]

@[simp] theorem showSplit_working (s : State) : working (showSplit s) = working s := by
  unfold showSplit; simp [*]

@[simp] theorem arrives_working (s : State) (k path : Nat) (claim : Option Nat) : working (arrives s k path claim) = working s := by
  unfold arrives; (repeat' split) <;> simp [*]

@[simp] theorem silentRecord_working (s : State) (k : Nat) : working (silentRecord s k) = working s := by
  unfold silentRecord; simp [*]

theorem execLivenessTick_working (s : State) : ∀ t, execLivenessTick s = .next t → working t = working s := by
  unfold execLivenessTick; simp [*]

theorem execHeartbeatTimer_working (s : State) : ∀ t, execHeartbeatTimer s = .next t → working t = working s := by
  unfold execHeartbeatTimer; simp [*]

@[simp] theorem dropFrame_working (s : State) (k : Nat) : working (dropFrame s k) = working s := by
  unfold dropFrame; simp [*]

@[simp] theorem takeFrame_working (s : State) (k mac : Nat) (f : Bytes) : working (takeFrame s k mac f) = working s := by
  unfold takeFrame; simp [*]

@[simp] theorem mgmtRequest_working (k mac : Nat) (f : Bytes) (s : State) : working (mgmtRequest k mac f s) = working s := by
  unfold mgmtRequest; simp [*]

theorem execRequest_working (k mac : Nat) (f : Bytes) (s : State) : ∀ t, execRequest k mac f s = .next t → working t =
    working s := by
  unfold execRequest; simp [*]

@[simp] theorem relearn_working (a : Access) (v : Nat) (s : State) : working (relearn a v s) = working s := by
  unfold relearn; simp [*]

theorem execRelearn_working (a : Access) (v : Nat) (s : State) : ∀ t, execRelearn a v s = .next t → working t = working s := by
  unfold execRelearn; simp [*]

@[simp] theorem mgmtLinkChange_working (k : Nat) (up pol : Bool) (s : State) : working (mgmtLinkChange k up pol s) = working s := by
  unfold mgmtLinkChange; simp [*]

theorem execMgmtLinkChange_working (k : Nat) (up pol : Bool) (s : State) : ∀ t, execMgmtLinkChange k up pol s = .next t →
    working t = working s := by
  unfold execMgmtLinkChange; simp [*]

@[simp] theorem choosePtp_working (s : State) : working (choosePtp s) = working s := by
  unfold choosePtp; simp [*]

@[simp] theorem ptpTimeout_working (k : Nat) (s : State) : working (ptpTimeout k s) = working s := by
  unfold ptpTimeout; simp [*]

theorem execPtpAnnounceTimeout_working (k : Nat) (s : State) : ∀ t, execPtpAnnounceTimeout k s = .next t → working t =
    working s := by
  unfold execPtpAnnounceTimeout; simp [*]

/-! ### Machine/Tally.lean -/

@[simp] theorem setShare_working (s : State) (w : Nat) : working (setShare s w) = working s := by
  unfold setShare; simp [*]

@[simp] theorem pwrPool_working (s : State) (c : Cmd) : working (pwrPool s c) = working s := by
  unfold pwrPool; simp [*]

theorem execPwrPool_working (src : Nat) (s : State) : ∀ t, execPwrPool src s = .next t → working t = working s := by
  unfold execPwrPool; simp [*]

@[simp] theorem takeRecord_working (s : State) (c : Nat) (payload : Bytes) : working (takeRecord s c payload) = working s := by
  unfold takeRecord; simp [*]

@[simp] theorem broadcast_working (s : State) (c : Nat) (payload : Bytes) : working (broadcast s c payload) = working s := by
  unfold broadcast; simp [*]

@[simp] theorem poolRound_working (s : State) : working (poolRound s) = working s := by
  unfold poolRound; simp [*]

theorem execPoolRound_working (s : State) : ∀ t, execPoolRound s = .next t → working t = working s := by
  unfold execPoolRound; simp [*]

theorem execPoolRecordTimeout_working (s : State) : ∀ t, execPoolRecordTimeout s = .next t → working t = working s := by
  unfold execPoolRecordTimeout
  repeat' (first
    | with_reducible rfl
    | with_reducible assumption
    | (extract_lets +lift +onlyGivenNames t; have ht : working t = working s := (by (first | (simp [t, *]; done) | (dsimp only [t]; (repeat' split) <;> (simp [*]; done)))); clear_value t)
    | (extract_lets +lift +onlyGivenNames t; clear_value t)
    | split
    | with_reducible refine (foldl_working fun s x => ?_).trans ?_
    | (simp [*]; done)
    | (simp +zetaDelta [*]; done))

theorem execPoolStale_working (s : State) : ∀ t, execPoolStale s = .next t → working t = working s := by
  unfold execPoolStale
  repeat' (first
    | with_reducible rfl
    | with_reducible assumption
    | (extract_lets +lift +onlyGivenNames t; have ht : working t = working s := (by (first | (simp [t, *]; done) | (dsimp only [t]; (repeat' split) <;> (simp [*]; done)))); clear_value t)
    | (extract_lets +lift +onlyGivenNames t; clear_value t)
    | split
    | with_reducible refine (foldl_working fun s x => ?_).trans ?_
    | (simp [*]; done)
    | (simp +zetaDelta [*]; done))

theorem execPoolShareRise_working (s : State) : ∀ t, execPoolShareRise s = .next t → working t = working s := by
  unfold execPoolShareRise
  repeat' (first
    | with_reducible rfl
    | with_reducible assumption
    | (extract_lets +lift +onlyGivenNames t; have ht : working t = working s := (by (first | (simp [t, *]; done) | (dsimp only [t]; (repeat' split) <;> (simp [*]; done)))); clear_value t)
    | (extract_lets +lift +onlyGivenNames t; clear_value t)
    | split
    | with_reducible refine (foldl_working fun s x => ?_).trans ?_
    | (simp [*]; done)
    | (simp +zetaDelta [*]; done))

theorem execTallyAdd_working (a : Access) (v : Nat) (s : State) : ∀ t, execTallyAdd a v s = .next t → working t = working s := by
  unfold execTallyAdd; simp [*]

@[simp] theorem fenceDrop_working (s : State) (p rid : Nat) : working (fenceDrop s p rid) = working s := by
  unfold fenceDrop; simp [*]

@[simp] theorem tallyIn_working (s : State) (p rid off : Nat) (b : Bytes) (kind : Nat) (f : State → Nat → State) (hf : ∀ (x0
    : State) (x1 : Nat), working (f x0 x1) = working x0) : working (tallyIn s p rid off b kind f) = working s := by
  unfold tallyIn; simp [*]

theorem execUp_working (p rid off : Nat) (b : Bytes) (s : State) : ∀ t, execUp p rid off b s = .next t → working t = working s := by
  unfold execUp; simp [*]

theorem execDown_working (p rid off : Nat) (b : Bytes) (s : State) : ∀ t, execDown p rid off b s = .next t → working t =
    working s := by
  unfold execDown; simp [*]

theorem execData_working (p rid off : Nat) (b : Bytes) (s : State) : ∀ t, execData p rid off b s = .next t → working t =
    working s := by
  unfold execData; simp [*]

theorem execMirrorAck_working (p rid off : Nat) (b : Bytes) (s : State) :
    ∀ t, execMirrorAck p rid off b s = .next t → working t = working s := by
  intro t h
  unfold execMirrorAck at h
  injection h with h
  rw [← h]
  apply tallyIn_working
  intro s c
  rw [working_mk, working_eta]

@[simp] theorem tallyStall_working (c : Nat) (s : State) : working (tallyStall c s) = working s := by
  unfold tallyStall; simp [*]

theorem execTallyStall_working (c : Nat) (s : State) : ∀ t, execTallyStall c s = .next t → working t = working s := by
  unfold execTallyStall; simp [*]

@[simp] theorem snapshot_working (s : State) (c : Cmd) : working (snapshot s c) = working s := by
  unfold snapshot; simp [*]

theorem execSnapshot_working (src : Nat) (s : State) : ∀ t, execSnapshot src s = .next t → working t = working s := by
  unfold execSnapshot; simp [*]

@[simp] theorem globalReset_working (s : State) (c : Cmd) : working (globalReset s c) = working s := by
  unfold globalReset; simp [*]

theorem execGlobalReset_working (src : Nat) (s : State) : ∀ t, execGlobalReset src s = .next t → working t = working s := by
  unfold execGlobalReset; simp [*]

/-! ### Machine/Fence.lean -/

@[simp] theorem bar2_working (p f rid off : Nat) (w : Bool) (data : Bytes) (s : State) : working (bar2 p f rid off w data s)
    = working s := by
  unfold bar2; (repeat' split) <;> simp [*]

theorem execBar2Access_working (p f rid off : Nat) (w : Bool) (data : Bytes) (s : State) : ∀ t, execBar2Access p f rid off w
    data s = .next t → working t = working s := by
  unfold execBar2Access; simp [*]

@[simp] theorem setFence_working (s : State) (st q n part seq : Nat) (keys : List Bytes) : working (setFence s st q n part
    seq keys) = working s := by
  unfold setFence; simp [*]

@[simp] theorem clearFenceTable_working (s : State) : working (clearFenceTable s) = working s := by
  unfold clearFenceTable; simp [*]

@[simp] theorem setSys_working (s : State) (v : Nat) : working (setSys s v) = working s := by
  unfold setSys; simp [*]

@[simp] theorem unfence_working (s : State) : working (unfence s) = working s := by
  unfold unfence; simp [*]

@[simp] theorem partSetup_working (s : State) (c : Cmd) : working (partSetup s c) = working s := by
  unfold partSetup; simp [*]

theorem execPartSetup_working (src : Nat) (s : State) : ∀ t, execPartSetup src s = .next t → working t = working s := by
  unfold execPartSetup; simp [*]

@[simp] theorem resetTallies_working (s : State) : working (resetTallies s) = working s := by
  unfold resetTallies; simp [*]

@[simp] theorem partLeave_working (s : State) (c : Cmd) : working (partLeave s c) = working s := by
  unfold partLeave; simp [*]

theorem execPartLeave_working (src : Nat) (s : State) : ∀ t, execPartLeave src s = .next t → working t = working s := by
  unfold execPartLeave; simp [*]

@[simp] theorem fenceCert_working (s : State) (c : Cmd) : working (fenceCert s c) = working s := by
  unfold fenceCert; simp [*]

theorem execFenceCert_working (src : Nat) (s : State) : ∀ t, execFenceCert src s = .next t → working t = working s := by
  unfold execFenceCert; simp [*]

@[simp] theorem fencedNow_working (s : State) : working (fencedNow s) = working s := by
  unfold fencedNow; (repeat' split) <;> simp [*]

theorem execFenced_working (s : State) : ∀ t, execFenced s = .next t → working t = working s := by
  unfold execFenced; simp [*]

@[simp] theorem beginShadow_working (s : State) (st : Nat) (x : Shadow) : working (beginShadow s st x) = working s := by
  unfold beginShadow; simp [*]

theorem execShadowElder_working (src : Nat) (peer : Option Nat) (s : State) : ∀ t, execShadowElder src peer s = .next t →
    working t = working s := by
  unfold execShadowElder; simp [*]

theorem execShadowJoin_working (src : Nat) (peerOk : Bool) (s : State) : ∀ t, execShadowJoin src peerOk s = .next t → working
    t = working s := by
  unfold execShadowJoin; simp [*]

theorem execShadowEnd_working (src : Nat) (s : State) : ∀ t, execShadowEnd src s = .next t → working t = working s := by
  unfold execShadowEnd; simp [*]

@[simp] theorem tellElder_working (s : State) (event code step tensor d1 d2 : Nat) : working (tellElder s event code step
    tensor d1 d2) = working s := by
  unfold tellElder; simp [*]

theorem execMirrorAckTimer_working (s : State) : ∀ t, execMirrorAckTimer s = .next t → working t = working s := by
  unfold execMirrorAckTimer; simp [*]

theorem execShadowLost_working (s : State) : ∀ t, execShadowLost s = .next t → working t = working s := by
  unfold execShadowLost; simp [*]

/-! ### Machine/FaultLog.lean -/

@[simp] theorem showUnclean_working (s : State) : working (showUnclean s) = working s := by
  unfold showUnclean; simp [*]

@[simp] theorem faultRead_working (s : State) (c : Cmd) : working (faultRead s c) = working s := by
  unfold faultRead
  repeat' (first
    | with_reducible rfl
    | with_reducible assumption
    | (extract_lets +lift +onlyGivenNames t; have ht : working t = working s := (by (first | (simp [t, *]; done) | (dsimp only [t]; (repeat' split) <;> (simp [*]; done)))); clear_value t)
    | (extract_lets +lift +onlyGivenNames t; clear_value t)
    | split
    | with_reducible refine (foldl_working fun s x => ?_).trans ?_
    | (simp [*]; done)
    | (simp +zetaDelta [*]; done))

theorem execFaultRead_working (src : Nat) (s : State) : ∀ t, execFaultRead src s = .next t → working t = working s := by
  unfold execFaultRead; simp [*]

@[simp] theorem flagSeq_working (s : State) (q flag : Nat) (ack : Bool) : working (flagSeq s q flag ack) = working s := by
  unfold flagSeq; simp [*]

@[simp] theorem faultAck_working (s : State) (c : Cmd) : working (faultAck s c) = working s := by
  unfold faultAck
  repeat' (first
    | with_reducible rfl
    | with_reducible assumption
    | (extract_lets +lift +onlyGivenNames t; have ht : working t = working s := (by (first | (simp [t, *]; done) | (dsimp only [t]; (repeat' split) <;> (simp [*]; done)))); clear_value t)
    | (extract_lets +lift +onlyGivenNames t; clear_value t)
    | split
    | with_reducible refine (foldl_working fun s x => ?_).trans ?_
    | (simp [*]; done)
    | (simp +zetaDelta [*]; done))

theorem execFaultAck_working (src : Nat) (s : State) : ∀ t, execFaultAck src s = .next t → working t = working s := by
  unfold execFaultAck; simp [*]

/-! ### Machine/Startup.lean -/

@[simp] theorem setHs_working (s : State) (h : HsState) : working (setHs s h) = working s := by
  unfold setHs; simp [*]

@[simp] theorem saveOp_working (s : State) : working (saveOp s) = working s := by
  unfold saveOp; simp [*]

@[simp] theorem beginStage_working (s : State) (n : Nat) : working (beginStage s n) = working s := by
  unfold beginStage; simp [*]

@[simp] theorem beginRails_working (s : State) : working (beginRails s) = working s := by
  unfold beginRails; simp [*]

@[simp] theorem beginStart_working (s : State) (cold : Bool) : working (beginStart s cold) = working s := by
  unfold beginStart; simp [*]

theorem execPreheatDone_working (s : State) : ∀ t, execPreheatDone s = .next t → working t = working s := by
  unfold execPreheatDone; simp [*]

@[simp] theorem moduleReset_working (s : State) (src level : Nat) : working (moduleReset s src level) = working s := by
  unfold moduleReset
  repeat' (first
    | with_reducible rfl
    | with_reducible assumption
    | (extract_lets +lift +onlyGivenNames t; have ht : working t = working s := (by (first | (simp [t, *]; done) | (dsimp only [t]; (repeat' split) <;> (simp [*]; done)))); clear_value t)
    | (extract_lets +lift +onlyGivenNames t; clear_value t)
    | split
    | with_reducible refine (foldl_working fun s x => ?_).trans ?_
    | (simp [*]; done)
    | (simp +zetaDelta [*]; done))

theorem execModuleResetWarm_working (src : Nat) (s : State) : ∀ t, execModuleResetWarm src s = .next t → working t = working s := by
  unfold execModuleResetWarm; simp [*]

theorem execModuleResetCold_working (src : Nat) (s : State) : ∀ t, execModuleResetCold src s = .next t → working t = working s := by
  unfold execModuleResetCold; simp [*]

@[simp] theorem calSaveDone_working (s : State) : working (calSaveDone s) = working s := by
  unfold calSaveDone; simp [*]

theorem execCalSaveDone_working (s : State) : ∀ t, execCalSaveDone s = .next t → working t = working s := by
  unfold execCalSaveDone; simp [*]

theorem execOperatingTimeSave_working (s : State) : ∀ t, execOperatingTimeSave s = .next t → working t = working s := by
  unfold execOperatingTimeSave; simp [*]

/-! ### Machine/Tray.lean -/

@[simp] theorem inputHigh_working (mv : Nat) (s : State) : working (inputHigh mv s) = working s := by
  unfold inputHigh; simp [*]

theorem execInputHigh_working (mv : Nat) (s : State) : ∀ t, execInputHigh mv s = .next t → working t = working s := by
  unfold execInputHigh; simp [*]

@[simp] theorem prsntMade_working (cold : Bool) (s : State) : working (prsntMade cold s) = working s := by
  unfold prsntMade; dsimp only; (repeat' split) <;> simp [*]

theorem execPrsntEarlyMade_working (cold : Bool) (s : State) : ∀ t, execPrsntEarlyMade cold s = .next t → working t = working s := by
  unfold execPrsntEarlyMade; simp [*]

@[simp] theorem startTrayDrain_working (s : State) (source : Nat) : working (startTrayDrain s source) = working s := by
  unfold startTrayDrain; simp [*]

@[simp] theorem leverOpen_working (cold : Bool) (s : State) : working (leverOpen cold s) = working s := by
  unfold leverOpen; simp [*]

theorem execLeverOpen_working (cold : Bool) (s : State) : ∀ t, execLeverOpen cold s = .next t → working t = working s := by
  unfold execLeverOpen; simp [*]

@[simp] theorem trayCfg_working (s : State) (c : Cmd) : working (trayCfg s c) = working s := by
  unfold trayCfg; simp [*]

theorem execTrayCfg_working (src : Nat) (s : State) : ∀ t, execTrayCfg src s = .next t → working t = working s := by
  unfold execTrayCfg; simp [*]

theorem execTrayRemove_working (src : Nat) (s : State) : ∀ t, execTrayRemove src s = .next t → working t = working s := by
  unfold execTrayRemove; simp [*]

@[simp] theorem trayResume_working (s : State) (c : Cmd) : working (trayResume s c) = working s := by
  unfold trayResume; simp [*]

theorem execTrayResume_working (src : Nat) (s : State) : ∀ t, execTrayResume src s = .next t → working t = working s := by
  unfold execTrayResume; simp [*]

@[simp] theorem ledLine_working (line : Nat) (s : State) : working (ledLine line s) = working s := by
  unfold ledLine; simp [*]

theorem execLedLine_working (line : Nat) (s : State) : ∀ t, execLedLine line s = .next t → working t = working s := by
  unfold execLedLine; simp [*]

@[simp] theorem ledRetry_working (line : Nat) (s : State) : working (ledRetry line s) = working s := by
  unfold ledRetry
  repeat' (first
    | with_reducible rfl
    | with_reducible assumption
    | (extract_lets +lift +onlyGivenNames t; have ht : working t = working s := (by (first | (simp [t, *]; done) | (dsimp only [t]; (repeat' split) <;> (simp [*]; done)))); clear_value t)
    | (extract_lets +lift +onlyGivenNames t; clear_value t)
    | split
    | with_reducible refine (foldl_working fun s x => ?_).trans ?_
    | (simp [*]; done)
    | (simp +zetaDelta [*]; done))

theorem execLedRetry_working (line : Nat) (s : State) : ∀ t, execLedRetry line s = .next t → working t = working s := by
  unfold execLedRetry; simp [*]

/-! ### Machine/Security.lean -/

@[simp] theorem setSvn_working (s : State) (img v : Nat) : working (setSvn s img v) = working s := by
  unfold setSvn; simp [*]

@[simp] theorem setImageOk_working (s : State) (img : Nat) (ok : Bool) : working (setImageOk s img ok) = working s := by
  unfold setImageOk; simp [*]

@[simp] theorem setImageVer_working (s : State) (img v : Nat) : working (setImageVer s img v) = working s := by
  unfold setImageVer; simp [*]

@[simp] theorem updating_working (s : State) (c : Cmd) (f : State → State) (hf : ∀ (x0 : State), working (f x0) = working x0)
    : working (updating s c f) = working s := by
  unfold updating; simp [*]

theorem execFwWrite_working (src : Nat) (s : State) : ∀ t, execFwWrite src s = .next t → working t = working s := by
  unfold execFwWrite; simp [*]

@[simp] theorem fwWriteDone_working (s : State) : working (fwWriteDone s) = working s := by
  unfold fwWriteDone
  repeat' (first
    | with_reducible rfl
    | with_reducible assumption
    | (extract_lets +lift +onlyGivenNames t; have ht : working t = working s := (by (first | (simp [t, *]; done) | (dsimp only [t]; (repeat' split) <;> (simp [*]; done)))); clear_value t)
    | (extract_lets +lift +onlyGivenNames t; clear_value t)
    | split
    | with_reducible refine (foldl_working fun s x => ?_).trans ?_
    | (simp [*]; done)
    | (simp +zetaDelta [*]; done))

theorem execFwWriteDone_working (s : State) : ∀ t, execFwWriteDone s = .next t → working t = working s := by
  unfold execFwWriteDone; simp [*]

theorem execFwActivate_working (src : Nat) (s : State) : ∀ t, execFwActivate src s = .next t → working t = working s := by
  unfold execFwActivate; simp [*]

@[simp] theorem svnCommit_working (s : State) (c : Cmd) : working (svnCommit s c) = working s := by
  unfold svnCommit; simp [*]

theorem execFwSvnCommit_working (src : Nat) (s : State) : ∀ t, execFwSvnCommit src s = .next t → working t = working s := by
  unfold execFwSvnCommit; simp [*]

@[simp] theorem putSet_working (s : State) (n : Nat) (v : Option (Nat × Bytes)) : working (putSet s n v) = working s := by
  unfold putSet; simp [*]

@[simp] theorem install_working (s : State) (c : Cmd) (mgmt : Bool) (f : State → Nat → Bytes → State) (hf : ∀ (x0 : State)
    (x1 : Nat) (x2 : Bytes), working (f x0 x1 x2) = working x0) : working (install s c mgmt f) = working s := by
  unfold install
  repeat' (first
    | with_reducible rfl
    | with_reducible assumption
    | (extract_lets +lift +onlyGivenNames t; have ht : working t = working s := (by (first | (simp [t, *]; done) | (dsimp only [t]; (repeat' split) <;> (simp [*]; done)))); clear_value t)
    | (extract_lets +lift +onlyGivenNames t; clear_value t)
    | split
    | with_reducible refine (foldl_working fun s x => ?_).trans ?_
    | (simp [*]; done)
    | (simp +zetaDelta [*]; done))

theorem execSetInstall_working (src : Nat) (s : State) : ∀ t, execSetInstall src s = .next t → working t = working s := by
  intro t h
  unfold execSetInstall at h
  injection h with h
  rw [← h]
  apply withCmd_working
  intro s c
  apply install_working
  intro s id k
  split <;> simp

theorem execSetRemove_working (src : Nat) (s : State) : ∀ t, execSetRemove src s = .next t → working t = working s := by
  intro t h
  unfold execSetRemove at h
  injection h with h
  rw [← h]
  apply withCmd_working
  intro s c
  dsimp only
  split <;> simp

theorem execMgmtKeyInstall_working (src : Nat) (s : State) : ∀ t, execMgmtKeyInstall src s = .next t → working t = working s := by
  unfold execMgmtKeyInstall; simp [*]

@[simp] theorem refuseLoad_working (s : State) (f id dest len code : Nat) : working (refuseLoad s f id dest len code) =
    working s := by
  unfold refuseLoad; simp [*]

@[simp] theorem bundleLoad_working (s : State) (c : Cmd) : working (bundleLoad s c) = working s := by
  unfold bundleLoad
  repeat' (first
    | with_reducible rfl
    | with_reducible assumption
    | (extract_lets +lift +onlyGivenNames t; have ht : working t = working s := (by (first | (simp [t, *]; done) | (dsimp only [t]; (repeat' split) <;> (simp [*]; done)))); clear_value t)
    | (extract_lets +lift +onlyGivenNames t; clear_value t)
    | split
    | with_reducible refine (foldl_working fun s x => ?_).trans ?_
    | (simp [*]; done)
    | (simp +zetaDelta [*]; done))

theorem execBundleLoad_working (src : Nat) (s : State) : ∀ t, execBundleLoad src s = .next t → working t = working s := by
  unfold execBundleLoad; simp [*]

@[simp] theorem bundleUnload_working (s : State) (c : Cmd) : working (bundleUnload s c) = working s := by
  unfold bundleUnload
  repeat' (first
    | with_reducible rfl
    | with_reducible assumption
    | (extract_lets +lift +onlyGivenNames t; have ht : working t = working s := (by (first | (simp [t, *]; done) | (dsimp only [t]; (repeat' split) <;> (simp [*]; done)))); clear_value t)
    | (extract_lets +lift +onlyGivenNames t; clear_value t)
    | split
    | with_reducible refine (foldl_working fun s x => ?_).trans ?_
    | (simp [*]; done)
    | (simp +zetaDelta [*]; done))

theorem execBundleUnload_working (src : Nat) (s : State) : ∀ t, execBundleUnload src s = .next t → working t = working s := by
  unfold execBundleUnload; simp [*]

/-! ### Machine/Session.lean -/

@[simp] theorem spdmPlain_working (s : State) (p sess code : Nat) (body : Bytes) : working (spdmPlain s p sess code body) =
    working s := by
  unfold spdmPlain; simp [*]

@[simp] theorem setSession_working (s : State) (x : Session) : working (setSession s x) = working s := by
  unfold setSession; simp [*]

@[simp] theorem spdm_working (s : State) (p sess code : Nat) (body : Bytes) : working (spdm s p sess code body) = working s := by
  unfold spdm
  repeat' (first
    | with_reducible rfl
    | with_reducible assumption
    | (extract_lets +lift +onlyGivenNames t; have ht : working t = working s := (by (first | (simp [t, *]; done) | (dsimp only [t]; (repeat' split) <;> (simp [*]; done)))); clear_value t)
    | (extract_lets +lift +onlyGivenNames t; clear_value t)
    | split
    | with_reducible refine (foldl_working fun s x => ?_).trans ?_
    | (simp [*]; done)
    | (simp +zetaDelta [*]; done))

@[simp] theorem spdmError_working (s : State) (p sess code : Nat) : working (spdmError s p sess code) = working s := by
  unfold spdmError; simp [*]

@[simp] theorem setStage_working (s : State) (p v : Nat) : working (setStage s p v) = working s := by
  unfold setStage; simp [*]

@[simp] theorem negotiated_working (s : State) (p sess : Nat) (f : State → State) (hf : ∀ (x0 : State), working (f x0) =
    working x0) : working (negotiated s p sess f) = working s := by
  unfold negotiated; simp [*]

@[simp] theorem inSession_working (s : State) (p sess : Nat) (outside : Bool) (f : State → State)
    (hf : ∀ s, working (f s) = working s) : working (inSession s p sess outside f) = working s := by
  apply negotiated_working
  intro s
  repeat' split
  all_goals first | exact hf _ | exact spdmError_working _ _ _ _

theorem execGetVersion_working (p : Nat) (s : State) : ∀ t, execGetVersion p s = .next t → working t = working s := by
  unfold execGetVersion; simp [*]

theorem execGetCapabilities_working (p : Nat) (s : State) : ∀ t, execGetCapabilities p s = .next t → working t = working s := by
  unfold execGetCapabilities; simp [*]

theorem execNegotiateAlgorithms_working (p : Nat) (offered : Bool) (s : State) : ∀ t, execNegotiateAlgorithms p offered s =
    .next t → working t = working s := by
  unfold execNegotiateAlgorithms; simp [*]

theorem execGetDigests_working (p sess : Nat) (s : State) : ∀ t, execGetDigests p sess s = .next t → working t = working s := by
  unfold execGetDigests; simp [*]

theorem execGetCertificate_working (p sess slot off len : Nat) (s : State) : ∀ t, execGetCertificate p sess slot off len s =
    .next t → working t = working s := by
  unfold execGetCertificate; simp [*]

theorem execFinish_working (p sess : Nat) (leaf sig mac : Bytes) (s : State) :
    ∀ t, execFinish p sess leaf sig mac s = .next t → working t = working s := by
  intro t h
  unfold execFinish at h
  injection h with h
  rw [← h]
  apply negotiated_working
  intro s
  repeat' split
  all_goals simp

theorem execKeyUpdate_working (p sess op : Nat) (s : State) :
    ∀ t, execKeyUpdate p sess op s = .next t → working t = working s := by
  intro t h
  unfold execKeyUpdate at h
  injection h with h
  rw [← h]
  apply inSession_working
  intro s
  repeat' split
  all_goals simp

theorem execSpdmHeartbeat_working (p sess : Nat) (s : State) : ∀ t, execSpdmHeartbeat p sess s = .next t → working t =
    working s := by
  unfold execSpdmHeartbeat; simp [*]

theorem execEndSession_working (p sess : Nat) (s : State) : ∀ t, execEndSession p sess s = .next t → working t = working s := by
  unfold execEndSession; simp [*]

@[simp] theorem keyRequest_working (s : State) (p sess : Nat) (f : State → Nat → State)
    (hf : ∀ s g, working (f s g) = working s) : working (keyRequest s p sess f) = working s := by
  apply inSession_working
  intro s
  repeat' split
  all_goals first | exact hf _ _ | exact spdm_working _ _ _ _ _

theorem execKeyList_working (p sess : Nat) (s : State) : ∀ t, execKeyList p sess s = .next t → working t = working s := by
  unfold execKeyList; simp [*]

/-! ### Machine/Serving.lean -/

@[simp] theorem tokenArea_working (s : State) (c : Cmd) : working (tokenArea s c) = working s := by
  unfold tokenArea; simp [*]

theorem execTokenArea_working (src : Nat) (s : State) : ∀ t, execTokenArea src s = .next t → working t = working s := by
  unfold execTokenArea; simp [*]

@[simp] theorem pauseWrite_working (a : Access) (v : Nat) (on : Bool) (s : State) : working (pauseWrite a v on s) = working s := by
  unfold pauseWrite; simp [*]

theorem execPause_working (a : Access) (v : Nat) (s : State) : ∀ t, execPause a v s = .next t → working t = working s := by
  unfold execPause; simp [*]

theorem execPauseClear_working (a : Access) (v : Nat) (s : State) : ∀ t, execPauseClear a v s = .next t → working t = working s := by
  unfold execPauseClear; simp [*]

theorem execRebuild_working (a : Access) (v : Nat) (s : State) : ∀ t, execRebuild a v s = .next t → working t = working s := by
  unfold execRebuild; simp [*]

/-! ### Machine/Boundary.lean -/

@[simp] theorem writeBatch_working (s : State) (p f : Nat) (x : Area) (bs : Bytes) : working (writeBatch s p f x bs) =
    working s := by
  unfold writeBatch; simp [*]

@[simp] theorem postBatch_working (s : State) (f : Nat) (bt : Batch) : working (postBatch s f bt) = working s := by
  unfold postBatch; dsimp only; (repeat' split) <;> simp [*]

@[simp] theorem heldBatchPost_working (f : Nat) (s : State) : working (heldBatchPost f s) = working s := by
  unfold heldBatchPost
  repeat' (first
    | with_reducible rfl
    | with_reducible assumption
    | (extract_lets +lift +onlyGivenNames t; have ht : working t = working s := (by (first | (simp [t, *]; done) | (dsimp only [t]; (repeat' split) <;> (simp [*]; done)))); clear_value t)
    | (extract_lets +lift +onlyGivenNames t; clear_value t)
    | split
    | with_reducible refine (foldl_working fun s x => ?_).trans ?_
    | (simp [*]; done)
    | (simp +zetaDelta [*]; done))

theorem execHeldBatchPost_working (f : Nat) (s : State) : ∀ t, execHeldBatchPost f s = .next t → working t = working s := by
  unfold execHeldBatchPost; simp [*]

/-! ### Machine/Access.lean -/

@[simp] theorem answer_working (s : State) (a : Access) (wide : Bool) (v : Nat) : working (answer s a wide v) = working s := by
  unfold answer; simp [*]

theorem execUnalignedAccess_working (a : Access) (s : State) : ∀ t, execUnalignedAccess a s = .next t → working t = working s := by
  unfold execUnalignedAccess; simp [*]

theorem execUnmappedAccess_working (a : Access) (read wide : Bool) (s : State) : ∀ t, execUnmappedAccess a read wide s =
    .next t → working t = working s := by
  unfold execUnmappedAccess; simp [*]

end Sys2Proof.Machine
end

