-- ==== Sys2Proof/Laws/Kept.lean ====
section
/-! SUPPORT. The granary's canonical form through folds, branches and field updates: what every lemma of the files
Kept*.lean builds on. -/

namespace Sys2Proof.Machine

/-- The granary's canonical form as a proposition. -/
def Tidy (m : List Host.Cell) : Prop := Memory.wf m = true

/-- What an operation that may refuse leaves is in the canonical form. -/
def GoodE (r : Except Nat State) : Prop := ∀ t, r = .ok t → Inv t
/-- A composite row's outcome, if any, is in the form. -/
def GoodR (r : Except Nat (State × Composite)) : Prop := ∀ t, r = .ok t → Inv t.1
/-- An allocation's outcome, if any, is in the form. -/
def GoodO (r : Option (Nat × State)) : Prop := ∀ t, r = some t → Inv t.2
/-- A draft's outcome, if any, is in the form. -/
def GoodOD (r : Option Draft) : Prop := ∀ t, r = some t → Inv t.s

/-- A command's outcome keeps the form. -/
def Kept (r : Host.Outcome State Fault Refusal) : Prop := ∀ t, r = .next t → Inv t
@[simp] theorem Kept_next {s : State} : Kept (.next s) ↔ Inv s := ⟨fun h => h s rfl, fun h _ e => by cases e; exact h⟩
@[simp] theorem GoodE_ok {s : State} : GoodE (.ok s) ↔ Inv s := ⟨fun h => h s rfl, fun h _ e => by cases e; exact h⟩
@[simp] theorem GoodE_error (c : Nat) : GoodE (.error c) := fun _ e => by cases e
@[simp] theorem GoodR_ok {s : State × Composite} : GoodR (.ok s) ↔ Inv s.1 := ⟨fun h => h s rfl, fun h _ e => by cases e; exact h⟩
@[simp] theorem GoodR_error (c : Nat) : GoodR (.error c) := fun _ e => by cases e
@[simp] theorem GoodO_some {s : Nat × State} : GoodO (some s) ↔ Inv s.2 := ⟨fun h => h s rfl, fun h _ e => by cases e; exact h⟩
@[simp] theorem GoodO_none : GoodO none := fun _ e => by cases e
@[simp] theorem GoodOD_some {s : Draft} : GoodOD (some s) ↔ Inv s.s := ⟨fun h => h s rfl, fun h _ e => by cases e; exact h⟩
@[simp] theorem GoodOD_none : GoodOD none := fun _ e => by cases e
@[simp] theorem GoodE_ite {c : Prop} [Decidable c] {a b : Except Nat State} :
    GoodE (if c then a else b) ↔ (c → GoodE a) ∧ (¬c → GoodE b) := by split <;> simp_all
@[simp] theorem GoodR_ite {c : Prop} [Decidable c] {a b : Except Nat (State × Composite)} :
    GoodR (if c then a else b) ↔ (c → GoodR a) ∧ (¬c → GoodR b) := by split <;> simp_all


/-- A state built field by field is in the form when its granary is. -/
@[simp] theorem Inv_mk (pending : List Instr) (clock : Nat) (mtime : BitVec 96) (lastSample : Nat) (free : Nat) (nextId : Nat) (out : List Output) (regs : Map Word) (staged : Map Word) (latched : Map Word) (unlocked : List (Nat × Nat)) (lockSeen : List Nat) (irqHigh : List Nat) (mem : List Host.Cell) (gwq : List GWrite) (readGrants : Map Nat) (held : List Held) (poison : List Nat) (lineVer : Map Nat) (retained : List Retained) (deferred : List Deferred) (lentLast : Map Nat) (bays : Map Bay) (mesh : List MeshMsg) (unitTokens : Map Nat) (ramp : Ramp) (slots : Map Slot) (raises : Nat) (stepEpoch : Option Nat) (stallFrom : Option Nat) (cmds : List Cmd) (sqs : Map SqRing) (eqs : Map EvRing) (ports : List Port) (msixTab : Map Word) (pba : List (Nat × Nat × Nat)) (tenants : Map Tenant) (hosts : List HostRec) (ptp : List (Option PtpMaster)) (everClaimed : Bool) (mgmtKey : Bytes) (claimKeys : List Nat) (wains : Map Wain) (wiring : Wiring) (shadow : Shadow) (tallyWaits : List TallyWait) (certs : List CertJob) (fencing : Option Nat) (tallySince : Map (Nat × Bool)) (tallyDown : List Nat) (tallyOut : List (Nat × Nat × Bytes)) (joinWait : Bool) (tray : Tray) (faultLog : List FaultRec) (faultSeq : Nat) (flash : Flash) (power : Power) (kvBlocks : Map (List (Nat × Nat))) (kvPoison : List (Nat × Nat × Nat)) (keySlots : Map (Nat × Bytes)) (nonces : Map Nat) (fwDone : List (Nat × Nat)) (fwWait : List (Nat × Chain)) (fwAgain : List (List Action)) (lastTb : Nat) (orphans : List (Nat × Nat)) (kvMarks : List (Nat × Nat)) (sec : Security) (keysLocked : Bool) (seqs : Map Seq) (seqPub : Map Seq) (srv : Serve) (video : Map VidCtx) (cores : Map VidCore) :
    Inv ⟨pending, clock, mtime, lastSample, free, nextId, out, regs, staged, latched, unlocked, lockSeen, irqHigh, mem, gwq, readGrants, held, poison, lineVer, retained, deferred, lentLast, bays, mesh, unitTokens, ramp, slots, raises, stepEpoch, stallFrom, cmds, sqs, eqs, ports, msixTab, pba, tenants, hosts, ptp, everClaimed, mgmtKey, claimKeys, wains, wiring, shadow, tallyWaits, certs, fencing, tallySince, tallyDown, tallyOut, joinWait, tray, faultLog, faultSeq, flash, power, kvBlocks, kvPoison, keySlots, nonces, fwDone, fwWait, fwAgain, lastTb, orphans, kvMarks, sec, keysLocked, seqs, seqPub, srv, video, cores⟩ ↔ Tidy mem := (Iff.rfl)
@[simp] theorem Tidy_mem {s : State} : Tidy s.mem ↔ Inv s := (Iff.rfl)

@[simp] theorem Tidy_nil : Tidy [] := rfl
@[simp] theorem Tidy_msetMany {m : List Host.Cell} (h : Tidy m) (k : Nat) (vs : List Byte) : Tidy (msetMany memReset m k vs) := mwf_msetMany h k vs
@[simp] theorem Tidy_mset {m : List Host.Cell} (h : Tidy m) (k : Nat) (v : Byte) : Tidy (mset memReset m k v) := mwf_mset h k v
@[simp] theorem Tidy_filter {m : List Host.Cell} (h : Tidy m) (p : Host.Cell → Bool) : Tidy (m.filter p) := mwf_filter h p

@[simp] theorem Inv_ite {c : Prop} [Decidable c] {a b : State} :
    Inv (if c then a else b) ↔ (c → Inv a) ∧ (¬c → Inv b) := by split <;> simp_all

@[simp] theorem Inv_ite_draft {c : Prop} [Decidable c] {a b : Draft} :
    Inv (if c then a else b).s ↔ (c → Inv a.s) ∧ (¬c → Inv b.s) := by split <;> simp_all

theorem foldl_keep {α β : Type} {P : β → Prop} {g : β → α → β} (hg : ∀ s x, P s → P (g s x)) (l : List α) (s : β) (h : P s) :
    P (l.foldl g s) := by
  induction l generalizing s with
  | nil => exact h
  | cons x l ih => exact ih _ (hg s x h)

@[simp] theorem Inv_foldl {α : Type} {g : State → α → State} {l : List α} {s : State} (h : Inv s)
    (hg : ∀ s x, Inv s → Inv (g s x)) : Inv (l.foldl g s) := foldl_keep (P := fun s : State => Inv s) hg l s h
@[simp] theorem Tidy_foldl_mem {α : Type} {g : List Host.Cell → α → List Host.Cell} {l : List α} {s : List Host.Cell} (h : Tidy s)
    (hg : ∀ s x, Tidy s → Tidy (g s x)) : Tidy (l.foldl g s) := foldl_keep (P := Tidy) hg l s h
@[simp] theorem Inv_foldl_fst {α β : Type} {g : State × β → α → State × β} {l : List α} {s : State × β} (h : Inv s.1)
    (hg : ∀ s x, Inv s.1 → Inv (g s x).1) : Inv (l.foldl g s).1 := foldl_keep (P := fun s : State × β => Inv s.1) hg l s h
@[simp] theorem Inv_foldl_snd {α β : Type} {g : β × State → α → β × State} {l : List α} {s : β × State} (h : Inv s.2)
    (hg : ∀ s x, Inv s.2 → Inv (g s x).2) : Inv (l.foldl g s).2 := foldl_keep (P := fun s : β × State => Inv s.2) hg l s h
@[simp] theorem Inv_foldl_draft {α : Type} {g : Draft → α → Draft} {l : List α} {b : Draft} (h : Inv b.s)
    (hg : ∀ b x, Inv b.s → Inv (g b x).s) : Inv (l.foldl g b).s := foldl_keep (P := fun b : Draft => Inv b.s) hg l b h
end Sys2Proof.Machine
end

