-- ==== Sys2Proof/Laws/KeptCore.lean ====
section
/-! SUPPORT. Every operation and command of the shared operations, the page rules, power, pools, tally tree, mirror and granary keeps the granary's canonical form. -/

set_option linter.unusedTactic false
set_option linter.unreachableTactic false
set_option linter.unusedSimpArgs false
set_option linter.unusedVariables false

namespace Sys2Proof.Machine

/-! ### Machine/Ops.lean -/

@[simp] theorem wr_inv {s : State} (k v : Nat) (hs : Inv s) : Inv (wr s k v) := by
  unfold wr; simp (maxDischargeDepth := 40) [*]

@[simp] theorem wrStaged_inv {s : State} (k v : Nat) (hs : Inv s) : Inv (wrStaged s k v) := by
  unfold wrStaged; simp (maxDischargeDepth := 40) [*]

@[simp] theorem wf_inv {s : State} (k hi lo v : Nat) (hs : Inv s) : Inv (wf s k hi lo v) := by
  unfold wf; simp (maxDischargeDepth := 40) [*]

@[simp] theorem setBit_inv {s : State} (k i : Nat) (b : Bool) (hs : Inv s) : Inv (setBit s k i b) := by
  unfold setBit; simp (maxDischargeDepth := 40) [*]

@[simp] theorem incr_inv {s : State} (k n : Nat) (hs : Inv s) : Inv (incr s k n) := by
  unfold incr; simp (maxDischargeDepth := 40) [*]

@[simp] theorem satIncr_inv {s : State} (k n : Nat) (hs : Inv s) : Inv (satIncr s k n) := by
  unfold satIncr; simp (maxDischargeDepth := 40) [*]

@[simp] theorem wr64_inv {s : State} (k v : Nat) (hs : Inv s) : Inv (wr64 s k v) := by
  unfold wr64; simp (maxDischargeDepth := 40) [*]

@[simp] theorem emit_inv {s : State} (o : Output) (hs : Inv s) : Inv (emit s o) := by
  unfold emit; simp (maxDischargeDepth := 40) [*]

@[simp] theorem idleCycle_inv {s : State} (hs : Inv s) : Inv (idleCycle s) := by
  unfold idleCycle; simp (maxDischargeDepth := 40) [*]

@[simp] theorem draw_inv {s : State} (hs : Inv s) : Inv (draw s).2 := by
  unfold draw; simp (maxDischargeDepth := 40) [*]

@[simp] theorem setPort_inv {s : State} (p : Nat) (x : Port) (hs : Inv s) : Inv (setPort s p x) := by
  unfold setPort; simp (maxDischargeDepth := 40) [*]

@[simp] theorem countTx_inv {s : State} (p n : Nat) (hs : Inv s) : Inv (countTx s p n) := by
  unfold countTx; simp (maxDischargeDepth := 40) [*]

@[simp] theorem countRx_inv {s : State} (p n : Nat) (hs : Inv s) : Inv (countRx s p n) := by
  unfold countRx; simp (maxDischargeDepth := 40) [*]

@[simp] theorem hostWrite_inv {s : State} (p f addr : Nat) (bs : Bytes) (hs : Inv s) : Inv (hostWrite s p f addr bs) := by
  unfold hostWrite; simp +contextual (maxDischargeDepth := 40) [*]

@[simp] theorem sendMsix_inv {s : State} (p f vec : Nat) (hs : Inv s) : Inv (sendMsix s p f vec) := by
  unfold sendMsix; simp (maxDischargeDepth := 40) [*]

@[simp] theorem setEqr_inv {s : State} (f n : Nat) (x : EvRing) (hs : Inv s) : Inv (setEqr s f n x) := by
  unfold setEqr; simp (maxDischargeDepth := 40) [*]

@[simp] theorem writeMsg_inv {s : State} (f n p : Nat) (m : Msg) (hs : Inv s) : Inv (writeMsg s f n p m) := by
  unfold writeMsg; simp (maxDischargeDepth := 40) [*]

@[simp] theorem loseMsg_inv {s : State} (f n : Nat) (hs : Inv s) : Inv (loseMsg s f n) := by
  unfold loseMsg; simp (maxDischargeDepth := 40) [*]

@[simp] theorem flushOverflow_inv {s : State} (f n : Nat) (hs : Inv s) : Inv (flushOverflow s f n) := by
  unfold flushOverflow; (repeat' split) <;> simp (maxDischargeDepth := 40) [*]

@[simp] theorem flushWaiting_inv (k : Nat) {s : State} (f n : Nat) (hs : Inv s) : Inv (flushWaiting k s f n) := by
  induction k generalizing s with
  | zero => simpa [flushWaiting] using hs
  | succ k ih =>
    unfold flushWaiting
    repeat' split
    all_goals simp (maxDischargeDepth := 40) [*]

@[simp] theorem flushResend_inv {s : State} (f n : Nat) (hs : Inv s) : Inv (flushResend s f n) := by
  unfold flushResend
  repeat' (first
    | with_reducible assumption
    | (extract_lets +lift +onlyGivenNames t; have ht : Inv t := (by (first | with_reducible assumption | (simp +contextual (maxDischargeDepth := 40) [t, *]; done) | (dsimp only [t]; (repeat' split) <;> (simp +contextual (maxDischargeDepth := 40) [*]; done)))); clear_value t)
    | (extract_lets +lift +onlyGivenNames t; clear_value t)
    | split
    | with_reducible refine Inv_foldl ?_ (fun s x h => ?_)
    | with_reducible refine Inv_foldl_draft ?_ (fun b x h => ?_)
    | (simp +contextual (maxDischargeDepth := 40) [*]; done)
    | (simp +contextual +zetaDelta (maxDischargeDepth := 40) [*]; done))

@[simp] theorem flushRing_inv {s : State} (f n : Nat) (hs : Inv s) : Inv (flushRing s f n) := by
  unfold flushRing; simp (maxDischargeDepth := 40) [*]

@[simp] theorem post_inv {s : State} (f n : Nat) (held : Bool) (m : Msg) (hs : Inv s) : Inv (post s f n held m) := by
  unfold post; (repeat' split) <;> simp (maxDischargeDepth := 40) [*]

@[simp] theorem setSticky_inv {s : State} (f i : Nat) (hs : Inv s) : Inv (setSticky s f i) := by
  unfold setSticky; simp (maxDischargeDepth := 40) [*]

@[simp] theorem postAsync_inv {s : State} (ring type func flags : Nat) (payload : Bytes) (hs : Inv s) : Inv (postAsync s ring
    type func flags payload) := by
  unfold postAsync; simp (maxDischargeDepth := 40) [*]

@[simp] theorem postCrit_inv {s : State} (ring type sticky : Nat) (payload : Bytes) (hs : Inv s) : Inv (postCrit s ring type
    sticky payload) := by
  unfold postCrit; simp (maxDischargeDepth := 40) [*]

@[simp] theorem setBay_inv {s : State} (b : Nat) (x : Bay) (hs : Inv s) : Inv (setBay s b x) := by
  unfold setBay; simp (maxDischargeDepth := 40) [*]

@[simp] theorem postBlockIrq_inv {s : State} (page : Nat) (hs : Inv s) : Inv (postBlockIrq s page) := by
  unfold postBlockIrq
  repeat' (first
    | with_reducible assumption
    | (extract_lets +lift +onlyGivenNames t; have ht : Inv t := (by (first | with_reducible assumption | (simp +contextual (maxDischargeDepth := 40) [t, *]; done) | (dsimp only [t]; (repeat' split) <;> (simp +contextual (maxDischargeDepth := 40) [*]; done)))); clear_value t)
    | (extract_lets +lift +onlyGivenNames t; clear_value t)
    | split
    | with_reducible refine Inv_foldl ?_ (fun s x h => ?_)
    | with_reducible refine Inv_foldl_draft ?_ (fun b x h => ?_)
    | (simp +contextual (maxDischargeDepth := 40) [*]; done)
    | (simp +contextual +zetaDelta (maxDischargeDepth := 40) [*]; done))

@[simp] theorem irqUpdate_inv {s : State} (page : Nat) (hs : Inv s) : Inv (irqUpdate s page) := by
  unfold irqUpdate; simp (maxDischargeDepth := 40) [*]

@[simp] theorem raiseIrq_inv {s : State} (page i : Nat) (hs : Inv s) : Inv (raiseIrq s page i) := by
  unfold raiseIrq; simp (maxDischargeDepth := 40) [*]

@[simp] theorem recordErr_inv {s : State} (page code func off : Nat) (detail : Nat) (hs : Inv s) : Inv (recordErr s page code
    func off detail) := by
  unfold recordErr; simp (maxDischargeDepth := 40) [*]

@[simp] theorem clearErr_inv {s : State} (page : Nat) (hs : Inv s) : Inv (clearErr s page) := by
  unfold clearErr; simp (maxDischargeDepth := 40) [*]

@[simp] theorem bumpVer_inv {s : State} (page : Nat) (hs : Inv s) : Inv (bumpVer s page) := by
  unfold bumpVer; simp (maxDischargeDepth := 40) [*]

@[simp] theorem clearPoison_inv {s : State} (a n : Nat) (hs : Inv s) : Inv (clearPoison s a n) := by
  unfold clearPoison; simp (maxDischargeDepth := 40) [*]

@[simp] theorem poke_inv {s : State} (a : Nat) (bs : Bytes) (hs : Inv s) : Inv (poke s a bs) := by
  unfold poke; simp (maxDischargeDepth := 40) [*]

@[simp] theorem applyWrite_inv {s : State} (w : GWrite) (hs : Inv s) : Inv (applyWrite s w) := by
  unfold applyWrite; dsimp only; split
  · exact clearPoison_inv _ _ (Tidy_foldl_mem hs fun m c h => Tidy_mset h _ _)
  · exact Tidy_foldl_mem hs fun m c h => Tidy_mset h _ _

@[simp] theorem queueWrite_inv {s : State} (unit : Nat) (cells : List Host.Cell) (hs : Inv s) : Inv (queueWrite s unit cells) := by
  unfold queueWrite; (repeat' split) <;> simp (maxDischargeDepth := 40) [*]

@[simp] theorem gwrite_inv {s : State} (unit a : Nat) (bs : Bytes) (hs : Inv s) : Inv (gwrite s unit a bs) := by
  unfold gwrite; simp +contextual (maxDischargeDepth := 40) [*]

@[simp] theorem send_inv {s : State} (m : MeshMsg) (hs : Inv s) : Inv (send s m) := by
  unfold send; simp (maxDischargeDepth := 40) [*]

@[simp] theorem sendAfter_inv {s : State} (unit : Nat) (m : MeshMsg) (hs : Inv s) : Inv (sendAfter s unit m) := by
  unfold sendAfter; simp (maxDischargeDepth := 40) [*]

@[simp] theorem releaseHeld_inv {s : State} (hs : Inv s) : Inv (releaseHeld s) := by
  unfold releaseHeld; simp (maxDischargeDepth := 40) [*]

@[simp] theorem setHost_inv {s : State} (k : Nat) (h : HostRec) (hs : Inv s) : Inv (setHost s k h) := by
  unfold setHost; simp (maxDischargeDepth := 40) [*]

@[simp] theorem sendFrame_inv {s : State} (k kind : Nat) (body : Bytes) (hs : Inv s) : Inv (sendFrame s k kind body) := by
  unfold sendFrame; simp (maxDischargeDepth := 40) [*]

/-! ### Machine/Control.lean -/

@[simp] theorem setFuncState_inv {s : State} (f v : Nat) (hs : Inv s) : Inv (setFuncState s f v) := by
  unfold setFuncState; simp (maxDischargeDepth := 40) [*]

@[simp] theorem sendHeartbeat_inv {s : State} (k : Nat) (hs : Inv s) : Inv (sendHeartbeat s k) := by
  unfold sendHeartbeat; extract_lets +lift; (repeat' split) <;> simp +zetaDelta (maxDischargeDepth := 40) [*]

@[simp] theorem sendHeartbeats_inv {s : State} (hs : Inv s) : Inv (sendHeartbeats s) := by
  unfold sendHeartbeats; simp (maxDischargeDepth := 40) [*]

@[simp] theorem claimEvent_inv {s : State} (ev rec code other cid : Nat) (hs : Inv s) : Inv (claimEvent s ev rec code other
    cid) := by
  unfold claimEvent; simp +contextual (maxDischargeDepth := 40) [*]

@[simp] theorem refuseAct_inv {s : State} (claim code cid : Nat) (hs : Inv s) : Inv (refuseAct s claim code cid) := by
  unfold refuseAct; simp (maxDischargeDepth := 40) [*]

@[simp] theorem finishC_inv {s : State} (c : Cmd) (status result detail cflags : Nat) (hs : Inv s) : Inv (finishC s c status
    result detail cflags) := by
  unfold finishC; simp (maxDischargeDepth := 40) [*]

@[simp] theorem finish_inv {s : State} (c : Cmd) (status : Nat) (result : Nat) (detail : Nat) (hs : Inv s) : Inv (finish s c
    status result detail) := by
  unfold finish; simp (maxDischargeDepth := 40) [*]

@[simp] theorem finishId_inv {s : State} (id status : Nat) (result : Nat) (detail : Nat) (hs : Inv s) : Inv (finishId s id
    status result detail) := by
  unfold finishId; (repeat' split) <;> simp (maxDischargeDepth := 40) [*]

@[simp] theorem markStarted_inv {s : State} (c : Cmd) (hs : Inv s) : Inv (markStarted s c) := by
  unfold markStarted; simp (maxDischargeDepth := 40) [*]

@[simp] theorem withCmd_inv {s : State} (src op : Nat) (f : State → Cmd → State) (hs : Inv s) (hf : ∀ (x0 : State) (x1 :
    Cmd), Inv x0 → Inv (f x0 x1)) : Inv (withCmd s src op f) := by
  unfold withCmd; (repeat' split) <;> simp (maxDischargeDepth := 40) [*]

@[simp] theorem noteLocked_inv {s : State} (pl : Place) (func : Nat) (hs : Inv s) : Inv (noteLocked s pl func) := by
  unfold noteLocked; simp (maxDischargeDepth := 40) [*]

@[simp] theorem atPlace_inv {s : State} (a : Access) (f : State → Place → State) (hs : Inv s) (hf : ∀ (x0 : State) (x1 :
    Place), Inv x0 → Inv (f x0 x1)) : Inv (atPlace s a f) := by
  unfold atPlace; (repeat' split) <;> simp (maxDischargeDepth := 40) [*]

@[simp] theorem relockFunc_inv {s : State} (func : Nat) (hs : Inv s) : Inv (relockFunc s func) := by
  unfold relockFunc; simp (maxDischargeDepth := 40) [*]

@[simp] theorem relockPage_inv {s : State} (page : Nat) (hs : Inv s) : Inv (relockPage s page) := by
  unfold relockPage; simp (maxDischargeDepth := 40) [*]

@[simp] theorem storeReg_inv {s : State} (k v : Nat) (hs : Inv s) : Inv (storeReg s k v) := by
  unfold storeReg; (repeat' split) <;> simp (maxDischargeDepth := 40) [*]

@[simp] theorem applyStaged_inv {s : State} (page : Nat) (hs : Inv s) : Inv (applyStaged s page) := by
  unfold applyStaged; simp +contextual (maxDischargeDepth := 40) [*]

@[simp] theorem discardStaged_inv {s : State} (page : Nat) (hs : Inv s) : Inv (discardStaged s page) := by
  unfold discardStaged; simp +contextual (maxDischargeDepth := 40) [*]

@[simp] theorem resetPage_inv {s : State} (page : Nat) (hs : Inv s) : Inv (resetPage s page) := by
  unfold resetPage; simp (maxDischargeDepth := 40) [*]

/-! ### Machine/Power.lean -/

@[simp] theorem setInner_inv {s : State} (x : Rat) (hs : Inv s) : Inv (setInner s x) := by
  unfold setInner; simp (maxDischargeDepth := 40) [*]

@[simp] theorem retarget_inv {s : State} (hs : Inv s) : Inv (retarget s) := by
  unfold retarget; simp (maxDischargeDepth := 40) [*]

@[simp] theorem postThermal_inv {s : State} (event source code value : Nat) (hs : Inv s) : Inv (postThermal s event source
    code value) := by
  unfold postThermal; simp +contextual (maxDischargeDepth := 40) [*]

@[simp] theorem countLag_inv {s : State} (hs : Inv s) : Inv (countLag s) := by
  unfold countLag; simp (maxDischargeDepth := 40) [*]

@[simp] theorem judgeLag_inv {s : State} (hs : Inv s) : Inv (judgeLag s) := by
  unfold judgeLag; extract_lets +lift; (repeat' split) <;> simp +zetaDelta (maxDischargeDepth := 40) [*]

@[simp] theorem setGate_inv {s : State} (f g : Nat) (hs : Inv s) : Inv (setGate s f g) := by
  unfold setGate; simp (maxDischargeDepth := 40) [*]

@[simp] theorem raiseGates_inv {s : State} (hs : Inv s) : Inv (raiseGates s) := by
  unfold raiseGates; simp +contextual (maxDischargeDepth := 40) [*]

@[simp] theorem lowerGates_inv {s : State} (hs : Inv s) : Inv (lowerGates s) := by
  unfold lowerGates; simp +contextual (maxDischargeDepth := 40) [*]

@[simp] theorem brakeTick_inv {s : State} (hs : Inv s) : Inv (brakeTick s) := by
  unfold brakeTick
  repeat' (first
    | with_reducible assumption
    | (extract_lets +lift +onlyGivenNames t; have ht : Inv t := (by (first | with_reducible assumption | (simp +contextual (maxDischargeDepth := 40) [t, *]; done) | (dsimp only [t]; (repeat' split) <;> (simp +contextual (maxDischargeDepth := 40) [*]; done)))); clear_value t)
    | (extract_lets +lift +onlyGivenNames t; clear_value t)
    | split
    | with_reducible refine Inv_foldl ?_ (fun s x h => ?_)
    | with_reducible refine Inv_foldl_draft ?_ (fun b x h => ?_)
    | (simp +contextual (maxDischargeDepth := 40) [*]; done)
    | (simp +contextual +zetaDelta (maxDischargeDepth := 40) [*]; done))

@[simp] theorem noteEst_inv {s : State} (e : Rat) (hs : Inv s) : Inv (noteEst s e) := by
  unfold noteEst; simp (maxDischargeDepth := 40) [*]

@[simp] theorem fastLoop_inv (raw add : Nat) {s : State} (hs : Inv s) : Inv (fastLoop raw add s) := by
  unfold fastLoop; simp (maxDischargeDepth := 40) [*]

@[simp] theorem execFastLoop_inv (raw add : Nat) {s : State} (hs : Inv s) : Kept (execFastLoop raw add s) := by
  unfold execFastLoop; simp (maxDischargeDepth := 40) [*]

@[simp] theorem execCapMet_inv {s : State} (hs : Inv s) : Kept (execCapMet s) := by
  unfold execCapMet; (repeat' split) <;> simp (maxDischargeDepth := 40) [*]

@[simp] theorem noteCode_inv {s : State} (code : Nat) (hs : Inv s) : Inv (noteCode s code) := by
  unfold noteCode; simp (maxDischargeDepth := 40) [*]

@[simp] theorem takeSample_inv {s : State} (m : Rat) (hs : Inv s) : Inv (takeSample s m) := by
  unfold takeSample; simp (maxDischargeDepth := 40) [*]

@[simp] theorem outerLoop_inv {s : State} (m : Rat) (hs : Inv s) : Inv (outerLoop s m) := by
  unfold outerLoop; simp (maxDischargeDepth := 40) [*]

@[simp] theorem powerSample_inv (vin : Nat) (ma : Int) (code : Nat) (atEnd : Bool) {s : State} (hs : Inv s) : Inv
    (powerSample vin ma code atEnd s) := by
  unfold powerSample; simp (maxDischargeDepth := 40) [*]

@[simp] theorem execPowerSample_inv (vin : Nat) (ma : Int) (code : Nat) (atEnd : Bool) {s : State} (hs : Inv s) : Kept
    (execPowerSample vin ma code atEnd s) := by
  unfold execPowerSample; simp (maxDischargeDepth := 40) [*]

@[simp] theorem execSensorOk_inv {s : State} (hs : Inv s) : Kept (execSensorOk s) := by
  unfold execSensorOk; (repeat' split) <;> simp (maxDischargeDepth := 40) [*]

@[simp] theorem estimateWindow_inv {s : State} (hs : Inv s) : Inv (estimateWindow s) := by
  unfold estimateWindow; simp (maxDischargeDepth := 40) [*]

@[simp] theorem execEstimateWindow_inv {s : State} (hs : Inv s) : Kept (execEstimateWindow s) := by
  unfold execEstimateWindow; simp (maxDischargeDepth := 40) [*]

@[simp] theorem execMismatchOn_inv {s : State} (hs : Inv s) : Kept (execMismatchOn s) := by
  unfold execMismatchOn; (repeat' split) <;> simp (maxDischargeDepth := 40) [*]

@[simp] theorem execMismatchOff_inv {s : State} (hs : Inv s) : Kept (execMismatchOff s) := by
  unfold execMismatchOff; (repeat' split) <;> simp (maxDischargeDepth := 40) [*]

@[simp] theorem execPwrSetCap_inv (src : Nat) {s : State} (hs : Inv s) : Kept (execPwrSetCap src s) := by
  unfold execPwrSetCap; simp +contextual (maxDischargeDepth := 40) [*]

@[simp] theorem setFctl_inv {s : State} (f : Nat) (x : FieldCtl) (hs : Inv s) : Inv (setFctl s f x) := by
  unfold setFctl; simp (maxDischargeDepth := 40) [*]

@[simp] theorem showClock_inv {s : State} (f step mv : Nat) (rel : Bool) (hs : Inv s) : Inv (showClock s f step mv rel) := by
  unfold showClock; simp (maxDischargeDepth := 40) [*]

@[simp] theorem startRelock_inv {s : State} (f : Nat) (hs : Inv s) : Inv (startRelock s f) := by
  unfold startRelock; simp (maxDischargeDepth := 40) [*]

@[simp] theorem startChange_inv {s : State} (f : Nat) (hs : Inv s) : Inv (startChange s f) := by
  unfold startChange; simp (maxDischargeDepth := 40) [*]

@[simp] theorem setClock_inv {s : State} (f step : Nat) (hs : Inv s) : Inv (setClock s f step) := by
  unfold setClock; simp (maxDischargeDepth := 40) [*]

@[simp] theorem execPllRelockDone_inv (f : Nat) {s : State} (hs : Inv s) : Kept (execPllRelockDone f s) := by
  unfold execPllRelockDone; extract_lets +lift; (repeat' split) <;> simp +zetaDelta (maxDischargeDepth := 40) [*]

@[simp] theorem execRailRampDone_inv (f : Nat) {s : State} (hs : Inv s) : Kept (execRailRampDone f s) := by
  unfold execRailRampDone; extract_lets +lift; (repeat' split) <;> simp +zetaDelta (maxDischargeDepth := 40) [*]

@[simp] theorem enforceCeil_inv {s : State} (f : Nat) (hs : Inv s) : Inv (enforceCeil s f) := by
  unfold enforceCeil; simp (maxDischargeDepth := 40) [*]

@[simp] theorem newPeriod_inv {s : State} (f : Nat) (hs : Inv s) : Inv (newPeriod s f) := by
  unfold newPeriod; simp (maxDischargeDepth := 40) [*]

@[simp] theorem countWord_inv {s : State} (f p : Nat) (hs : Inv s) : Inv (countWord s f p) := by
  unfold countWord; simp (maxDischargeDepth := 40) [*]

@[simp] theorem countBusy_inv {s : State} (f n : Nat) (hs : Inv s) : Inv (countBusy s f n) := by
  unfold countBusy; simp (maxDischargeDepth := 40) [*]

@[simp] theorem learn_inv {s : State} (f : Nat) (o : FieldObs) (hs : Inv s) : Inv (learn s f o) := by
  unfold learn; simp (maxDischargeDepth := 40) [*]

@[simp] theorem allocate_inv {s : State} (pfix dg dv : Nat) (obs : List FieldObs) (hs : Inv s) : Inv (allocate s pfix dg dv
    obs) := by
  unfold allocate
  repeat' (first
    | with_reducible assumption
    | (extract_lets +lift +onlyGivenNames t; have ht : Inv t := (by (first | with_reducible assumption | (simp +contextual (maxDischargeDepth := 40) [t, *]; done) | (dsimp only [t]; (repeat' split) <;> (simp +contextual (maxDischargeDepth := 40) [*]; done)))); clear_value t)
    | (extract_lets +lift +onlyGivenNames t; clear_value t)
    | split
    | with_reducible refine Inv_foldl ?_ (fun s x h => ?_)
    | with_reducible refine Inv_foldl_draft ?_ (fun b x h => ?_)
    | (simp +contextual (maxDischargeDepth := 40) [*]; done)
    | (simp +contextual +zetaDelta (maxDischargeDepth := 40) [*]; done))

@[simp] theorem noteObs_inv {s : State} (f : Nat) (o : FieldObs) (hs : Inv s) : Inv (noteObs s f o) := by
  unfold noteObs; simp (maxDischargeDepth := 40) [*]

@[simp] theorem learnerPeriod_inv (pfix dg dv : Nat) (fields : List Nat) {s : State} (hs : Inv s) : Inv (learnerPeriod pfix
    dg dv fields s) := by
  unfold learnerPeriod; simp +contextual (maxDischargeDepth := 40) [*]

@[simp] theorem execLearnerPeriod_inv (pfix dg dv : Nat) (fields : List Nat) {s : State} (hs : Inv s) : Kept
    (execLearnerPeriod pfix dg dv fields s) := by
  unfold execLearnerPeriod; simp (maxDischargeDepth := 40) [*]

@[simp] theorem execLearnReset_inv (a : Access) (v : Nat) {s : State} (hs : Inv s) : Kept (execLearnReset a v s) := by
  unfold execLearnReset; simp +contextual (maxDischargeDepth := 40) [*]

@[simp] theorem execDroop_inv (f : Nat) {s : State} (hs : Inv s) : Kept (execDroop f s) := by
  unfold execDroop; (repeat' split) <;> simp (maxDischargeDepth := 40) [*]

@[simp] theorem execDroopRecovered_inv (f cycles : Nat) {s : State} (hs : Inv s) : Kept (execDroopRecovered f cycles s) := by
  unfold execDroopRecovered; (repeat' split) <;> simp (maxDischargeDepth := 40) [*]

@[simp] theorem execBrakeOn_inv {s : State} (hs : Inv s) : Kept (execBrakeOn s) := by
  unfold execBrakeOn; (repeat' split) <;> simp (maxDischargeDepth := 40) [*]

@[simp] theorem execBrakeClockDrop_inv {s : State} (hs : Inv s) : Kept (execBrakeClockDrop s) := by
  unfold execBrakeClockDrop
  repeat' (first
    | with_reducible assumption
    | (extract_lets +lift +onlyGivenNames t; have ht : Inv t := (by (first | with_reducible assumption | (simp +contextual (maxDischargeDepth := 40) [t, *]; done) | (dsimp only [t]; (repeat' split) <;> (simp +contextual (maxDischargeDepth := 40) [*]; done)))); clear_value t)
    | (extract_lets +lift +onlyGivenNames t; clear_value t)
    | split
    | with_reducible refine Inv_foldl ?_ (fun s x h => ?_)
    | with_reducible refine Inv_foldl_draft ?_ (fun b x h => ?_)
    | (simp +contextual (maxDischargeDepth := 40) [*]; done)
    | (simp +contextual +zetaDelta (maxDischargeDepth := 40) [*]; done))

@[simp] theorem execBrakeOff_inv {s : State} (hs : Inv s) : Kept (execBrakeOff s) := by
  unfold execBrakeOff; (repeat' split) <;> simp (maxDischargeDepth := 40) [*]

@[simp] theorem endThrottle_inv {s : State} (f : Nat) (temp : Int) (hs : Inv s) : Inv (endThrottle s f temp) := by
  unfold endThrottle; extract_lets +lift; (repeat' split) <;> simp +zetaDelta (maxDischargeDepth := 40) [*]

@[simp] theorem junctionField_inv {s : State} (f : Nat) (l : List Int) (hs : Inv s) : Inv (junctionField s f l) := by
  unfold junctionField
  repeat' (first
    | with_reducible assumption
    | (extract_lets +lift +onlyGivenNames t; have ht : Inv t := (by (first | with_reducible assumption | (simp +contextual (maxDischargeDepth := 40) [t, *]; done) | (dsimp only [t]; (repeat' split) <;> (simp +contextual (maxDischargeDepth := 40) [*]; done)))); clear_value t)
    | (extract_lets +lift +onlyGivenNames t; clear_value t)
    | split
    | with_reducible refine Inv_foldl ?_ (fun s x h => ?_)
    | with_reducible refine Inv_foldl_draft ?_ (fun b x h => ?_)
    | (simp +contextual (maxDischargeDepth := 40) [*]; done)
    | (simp +contextual +zetaDelta (maxDischargeDepth := 40) [*]; done))

@[simp] theorem execJunctionSample_inv (raw : List Int) {s : State} (hs : Inv s) : Kept (execJunctionSample raw s) := by
  unfold execJunctionSample; simp +contextual (maxDischargeDepth := 40) [*]

@[simp] theorem throttleField_inv {s : State} (f : Nat) (hs : Inv s) : Inv (throttleField s f) := by
  unfold throttleField; extract_lets +lift; (repeat' split) <;> simp +zetaDelta (maxDischargeDepth := 40) [*]

@[simp] theorem execThermalThrottleStep_inv {s : State} (hs : Inv s) : Kept (execThermalThrottleStep s) := by
  unfold execThermalThrottleStep; simp +contextual (maxDischargeDepth := 40) [*]

@[simp] theorem hbmStack_inv {s : State} (k : Nat) (temp : Int) (hs : Inv s) : Inv (hbmStack s k temp) := by
  unfold hbmStack; simp (maxDischargeDepth := 40) [*]

@[simp] theorem execHbmTempSample_inv (raw : List Int) {s : State} (hs : Inv s) : Kept (execHbmTempSample raw s) := by
  unfold execHbmTempSample; simp +contextual (maxDischargeDepth := 40) [*]

@[simp] theorem coolSensor_inv {s : State} (key source : Nat) (t : Int) (fault : Bool) (hs : Inv s) : Inv (coolSensor s key
    source t fault) := by
  unfold coolSensor; simp (maxDischargeDepth := 40) [*]

@[simp] theorem inletRules_inv {s : State} (t : Int) (hs : Inv s) : Inv (inletRules s t) := by
  unfold inletRules; simp (maxDischargeDepth := 40) [*]

@[simp] theorem flowRules_inv {s : State} (tin tout : Int) (ok : Bool) (hs : Inv s) : Inv (flowRules s tin tout ok) := by
  unfold flowRules; simp (maxDischargeDepth := 40) [*]

@[simp] theorem coolantSample_inv (tin tout : Int) (fin fout : Bool) {s : State} (hs : Inv s) : Inv (coolantSample tin tout
    fin fout s) := by
  unfold coolantSample; simp (maxDischargeDepth := 40) [*]

@[simp] theorem execCoolantSample_inv (tin tout : Int) (fin fout : Bool) {s : State} (hs : Inv s) : Kept (execCoolantSample
    tin tout fin fout s) := by
  unfold execCoolantSample; simp (maxDischargeDepth := 40) [*]

@[simp] theorem execFlowLow_inv {s : State} (hs : Inv s) : Kept (execFlowLow s) := by
  unfold execFlowLow; (repeat' split) <;> simp (maxDischargeDepth := 40) [*]

@[simp] theorem execLeakSample_inv (wet lead : Bool) {s : State} (hs : Inv s) : Kept (execLeakSample wet lead s) := by
  unfold execLeakSample; (repeat' split) <;> simp (maxDischargeDepth := 40) [*]

@[simp] theorem execLeak_inv {s : State} (hs : Inv s) : Kept (execLeak s) := by
  unfold execLeak; (repeat' split) <;> simp (maxDischargeDepth := 40) [*]

@[simp] theorem execThmLeakClr_inv (a : Access) (v : Nat) {s : State} (hs : Inv s) : Kept (execThmLeakClr a v s) := by
  unfold execThmLeakClr; simp +contextual (maxDischargeDepth := 40) [*]

/-! ### Machine/Pools.lean -/

@[simp] theorem setBlocks_inv {s : State} (n : Nat) (l : List (Nat × Nat)) (hs : Inv s) : Inv (setBlocks s n l) := by
  unfold setBlocks; simp (maxDischargeDepth := 40) [*]

@[simp] theorem allocPage_inv {s : State} (n c : Nat) (hs : Inv s) : GoodO (allocPage s n c) := by
  intro t h
  unfold allocPage at h
  rw [Option.map_eq_some_iff] at h
  obtain ⟨u, -, rfl⟩ := h
  exact setBlocks_inv _ _ hs

@[simp] theorem freePage_inv {s : State} (n u : Nat) (hs : Inv s) : Inv (freePage s n u) := by
  unfold freePage; simp (maxDischargeDepth := 40) [*]

/-! ### Machine/Tree.lean -/

@[simp] theorem tallyBad_inv {s : State} (func off : Nat) (hs : Inv s) : Inv (tallyBad s func off) := by
  unfold tallyBad; simp (maxDischargeDepth := 40) [*]

@[simp] theorem flushTally_inv {s : State} (hs : Inv s) : Inv (flushTally s) := by
  unfold flushTally
  repeat' (first
    | with_reducible assumption
    | (extract_lets +lift +onlyGivenNames t; have ht : Inv t := (by (first | with_reducible assumption | (simp +contextual (maxDischargeDepth := 40) [t, *]; done) | (dsimp only [t]; (repeat' split) <;> (simp +contextual (maxDischargeDepth := 40) [*]; done)))); clear_value t)
    | (extract_lets +lift +onlyGivenNames t; clear_value t)
    | split
    | with_reducible refine Inv_foldl ?_ (fun s x h => ?_)
    | with_reducible refine Inv_foldl_draft ?_ (fun b x h => ?_)
    | (simp +contextual (maxDischargeDepth := 40) [*]; done)
    | (simp +contextual +zetaDelta (maxDischargeDepth := 40) [*]; done))

@[simp] theorem tallySend_inv {s : State} (sel addr : Nat) (bs : Bytes) (hs : Inv s) : Inv (tallySend s sel addr bs) := by
  unfold tallySend; simp (maxDischargeDepth := 40) [*]

@[simp] theorem sendParent_inv {s : State} (c kind flags : Nat) (payload : Bytes) (hs : Inv s) : Inv (sendParent s c kind
    flags payload) := by
  unfold sendParent; simp (maxDischargeDepth := 40) [*]

@[simp] theorem sendChild_inv {s : State} (c kind flags : Nat) (payload : Bytes) (k : Nat) (hs : Inv s) : Inv (sendChild s c
    kind flags payload k) := by
  unfold sendChild; simp (maxDischargeDepth := 40) [*]

@[simp] theorem sendDown_inv {s : State} (c kind flags : Nat) (payload : Bytes) (hs : Inv s) : Inv (sendDown s c kind flags
    payload) := by
  unfold sendDown; simp +contextual (maxDischargeDepth := 40) [*]

@[simp] theorem setSince_inv {s : State} (c : Nat) (v : Nat × Bool) (hs : Inv s) : Inv (setSince s c v) := by
  unfold setSince; simp (maxDischargeDepth := 40) [*]

@[simp] theorem noteWait_inv {s : State} (hs : Inv s) : Inv (noteWait s) := by
  unfold noteWait; extract_lets +lift; (repeat' split) <;> simp +zetaDelta (maxDischargeDepth := 40) [*]

@[simp] theorem treeUpdate_inv {s : State} (c : Nat) (hs : Inv s) : Inv (treeUpdate s c) := by
  unfold treeUpdate; simp (maxDischargeDepth := 40) [*]

@[simp] theorem addCount_inv {s : State} (c n : Nat) (hs : Inv s) : Inv (addCount s c n) := by
  unfold addCount; simp (maxDischargeDepth := 40) [*]

@[simp] theorem addTally_inv {s : State} (c func n off : Nat) (hs : Inv s) : Inv (addTally s c func n off) := by
  unfold addTally; simp (maxDischargeDepth := 40) [*]

@[simp] theorem addFirmware_inv {s : State} (c n : Nat) (hs : Inv s) : Inv (addFirmware s c n) := by
  unfold addFirmware; simp (maxDischargeDepth := 40) [*]

/-! ### Machine/Mirror.lean -/

@[simp] theorem postFence_inv {s : State} (event ctr code : Nat) (step tensor d1 d2 : Nat) (hs : Inv s) : Inv (postFence s
    event ctr code step tensor d1 d2) := by
  unfold postFence; simp +contextual (maxDischargeDepth := 40) [*]

@[simp] theorem setShadowSt_inv {s : State} (v : Nat) (hs : Inv s) : Inv (setShadowSt s v) := by
  unfold setShadowSt; simp (maxDischargeDepth := 40) [*]

@[simp] theorem shadowLost_inv {s : State} (hs : Inv s) : Inv (shadowLost s) := by
  unfold shadowLost; simp (maxDischargeDepth := 40) [*]

@[simp] theorem ringWrite_inv {s : State} (bs : Bytes) (hs : Inv s) : Inv (ringWrite s bs) := by
  unfold ringWrite; (repeat' split) <;> simp (maxDischargeDepth := 40) [*]

@[simp] theorem mirror_inv {s : State} (f kind addr : Nat) (body : Bytes) (hs : Inv s) : Inv (mirror s f kind addr body) := by
  unfold mirror; simp (maxDischargeDepth := 40) [*]

@[simp] theorem mirrorWrite_inv {s : State} (w : GWrite) (hs : Inv s) : Inv (mirrorWrite s w) := by
  unfold mirrorWrite; (repeat' split) <;> simp (maxDischargeDepth := 40) [*]

/-! ### Machine/Residents.lean -/

@[simp] theorem setSeq_inv {s : State} (i : Nat) (q : Seq) (hs : Inv s) : Inv (setSeq s i q) := by
  unfold setSeq; simp (maxDischargeDepth := 40) [*]

@[simp] theorem cancelSeq_inv {s : State} (i : Nat) (hs : Inv s) : Inv (cancelSeq s i) := by
  unfold cancelSeq; simp (maxDischargeDepth := 40) [*]

@[simp] theorem setArea_inv {s : State} (f : Nat) (x : Area) (hs : Inv s) : Inv (setArea s f x) := by
  unfold setArea; simp (maxDischargeDepth := 40) [*]

@[simp] theorem cancelSeqs_inv {s : State} (f : Nat) (hs : Inv s) : Inv (cancelSeqs s f) := by
  unfold cancelSeqs; simp +contextual (maxDischargeDepth := 40) [*]

@[simp] theorem endSeqs_inv {s : State} (code : Nat) (hs : Inv s) : Inv (endSeqs s code) := by
  unfold endSeqs; simp +contextual (maxDischargeDepth := 40) [*]

@[simp] theorem batchGone_inv {s : State} (f n : Nat) (hs : Inv s) : Inv (batchGone s f n) := by
  unfold batchGone; simp (maxDischargeDepth := 40) [*]

@[simp] theorem assignBay_inv {s : State} (b owner : Nat) (hs : Inv s) : Inv (assignBay s b owner) := by
  unfold assignBay; simp (maxDischargeDepth := 40) [*]

@[simp] theorem haltBay_inv {s : State} (b : Nat) (hs : Inv s) : Inv (haltBay s b) := by
  unfold haltBay; simp (maxDischargeDepth := 40) [*]

@[simp] theorem stopBay_inv {s : State} (b : Nat) (hs : Inv s) : Inv (stopBay s b) := by
  unfold stopBay; simp (maxDischargeDepth := 40) [*]

@[simp] theorem foldLine_inv {s : State} (f line : Nat) (bs : Bytes) (hs : Inv s) : Inv (foldLine s f line bs) := by
  unfold foldLine; simp +contextual (maxDischargeDepth := 40) [*]

@[simp] theorem closeDigest_inv {s : State} (f step : Nat) (entries : List Bytes) (hs : Inv s) : Inv (closeDigest s f step
    entries) := by
  unfold closeDigest; simp (maxDischargeDepth := 40) [*]

@[simp] theorem jobsCheck_inv {s : State} (hs : Inv s) : Inv (jobsCheck s) := by
  unfold jobsCheck
  repeat' (first
    | with_reducible assumption
    | (extract_lets +lift +onlyGivenNames t; have ht : Inv t := (by (first | with_reducible assumption | (simp +contextual (maxDischargeDepth := 40) [t, *]; done) | (dsimp only [t]; (repeat' split) <;> (simp +contextual (maxDischargeDepth := 40) [*]; done)))); clear_value t)
    | (extract_lets +lift +onlyGivenNames t; clear_value t)
    | split
    | with_reducible refine Inv_foldl ?_ (fun s x h => ?_)
    | with_reducible refine Inv_foldl_draft ?_ (fun b x h => ?_)
    | (simp +contextual (maxDischargeDepth := 40) [*]; done)
    | (simp +contextual +zetaDelta (maxDischargeDepth := 40) [*]; done))

@[simp] theorem failJob_inv {s : State} (b code : Nat) (hs : Inv s) : Inv (failJob s b code) := by
  unfold failJob; simp (maxDischargeDepth := 40) [*]

@[simp] theorem bayFailed_inv {s : State} (b code : Nat) (hs : Inv s) : Inv (bayFailed s b code) := by
  unfold bayFailed; simp +contextual (maxDischargeDepth := 40) [*]

@[simp] theorem endSessions_inv {s : State} (p : Session → Bool) (hs : Inv s) : Inv (endSessions s p) := by
  unfold endSessions; simp (maxDischargeDepth := 40) [*]

@[simp] theorem freeOrHold_inv {s : State} (p u c : Nat) (hs : Inv s) : Inv (freeOrHold s p u c) := by
  unfold freeOrHold; simp (maxDischargeDepth := 40) [*]

@[simp] theorem dropBundles_inv {s : State} (f : Nat) (hs : Inv s) : Inv (dropBundles s f) := by
  unfold dropBundles; simp (maxDischargeDepth := 40) [*]

@[simp] theorem forgetFunction_inv {s : State} (f : Nat) (hs : Inv s) : Inv (forgetFunction s f) := by
  unfold forgetFunction; simp +contextual (maxDischargeDepth := 40) [*]

@[simp] theorem openScopes_inv {s : State} (hs : Inv s) : Inv (openScopes s) := by
  unfold openScopes; simp +contextual (maxDischargeDepth := 40) [*]

@[simp] theorem setVctx_inv {s : State} (i : Nat) (x : VidCtx) (hs : Inv s) : Inv (setVctx s i x) := by
  unfold setVctx; simp (maxDischargeDepth := 40) [*]

@[simp] theorem setVcore_inv {s : State} (c : Nat) (x : VidCore) (hs : Inv s) : Inv (setVcore s c x) := by
  unfold setVcore; simp (maxDischargeDepth := 40) [*]

@[simp] theorem closeVideo_inv {s : State} (f : Nat) (hs : Inv s) : Inv (closeVideo s f) := by
  unfold closeVideo; simp +contextual (maxDischargeDepth := 40) [*]

@[simp] theorem abandonCore_inv {s : State} (core : Nat) (hs : Inv s) : Inv (abandonCore s core) := by
  unfold abandonCore; (repeat' split) <;> simp (maxDischargeDepth := 40) [*]

/-! ### Machine/Rules.lean -/

@[simp] theorem assignMfBays_inv {s : State} (hs : Inv s) : Inv (assignMfBays s) := by
  unfold assignMfBays; simp +contextual (maxDischargeDepth := 40) [*]

@[simp] theorem startSave_inv {s : State} (hs : Inv s) : Inv (startSave s) := by
  unfold startSave; simp (maxDischargeDepth := 40) [*]

@[simp] theorem showPool_inv {s : State} (n : Nat) (hs : Inv s) : Inv (showPool s n) := by
  unfold showPool; simp (maxDischargeDepth := 40) [*]

@[simp] theorem endMovedSessions_inv {old s : State} (hold : Inv old) (hs : Inv s) : Inv (endMovedSessions old s) := by
  unfold endMovedSessions; simp (maxDischargeDepth := 40) [*]

@[simp] theorem afterApply_inv {old s : State} (page : Nat) (hold : Inv old) (hs : Inv s) : Inv (afterApply old s page) := by
  unfold afterApply
  repeat' (first
    | with_reducible assumption
    | (extract_lets +lift +onlyGivenNames t; have ht : Inv t := (by (first | with_reducible assumption | (simp +contextual (maxDischargeDepth := 40) [t, *]; done) | (dsimp only [t]; (repeat' split) <;> (simp +contextual (maxDischargeDepth := 40) [*]; done)))); clear_value t)
    | (extract_lets +lift +onlyGivenNames t; clear_value t)
    | split
    | with_reducible refine Inv_foldl ?_ (fun s x h => ?_)
    | with_reducible refine Inv_foldl_draft ?_ (fun b x h => ?_)
    | (simp +contextual (maxDischargeDepth := 40) [*]; done)
    | (simp +contextual +zetaDelta (maxDischargeDepth := 40) [*]; done))

@[simp] theorem markClash_inv {s : State} (page : Nat) (hs : Inv s) : Inv (markClash s page) := by
  unfold markClash; simp (maxDischargeDepth := 40) [*]

@[simp] theorem commit_inv {s : State} (page : Nat) (a : Access) (v : Nat) (hs : Inv s) : Inv (commit s page a v) := by
  unfold commit; simp (maxDischargeDepth := 40) [*]

@[simp] theorem execPageCommit_inv (a : Access) (v : Nat) {s : State} (hs : Inv s) : Kept (execPageCommit a v s) := by
  unfold execPageCommit; simp +contextual (maxDischargeDepth := 40) [*]

@[simp] theorem execPageDiscard_inv (a : Access) (v : Nat) {s : State} (hs : Inv s) : Kept (execPageDiscard a v s) := by
  unfold execPageDiscard; simp +contextual (maxDischargeDepth := 40) [*]

/-! ### Machine/Granary.lean -/

@[simp] theorem grantFirst_inv {s : State} (chan c : Nat) (l : List (Option Nat)) (hs : Inv s) : Inv (grantFirst s chan c l) := by
  unfold grantFirst; simp (maxDischargeDepth := 40) [*]

@[simp] theorem granaryRound_inv {s : State} (chan : Nat) (q : List (List Bool)) (hs : Inv s) : Inv (granaryRound s chan q) := by
  unfold granaryRound; simp +contextual (maxDischargeDepth := 40) [*]

@[simp] theorem execGranaryRound_inv (chan : Nat) (q0 q1 q2 q3 : List Bool) {s : State} (hs : Inv s) : Kept (execGranaryRound
    chan q0 q1 q2 q3 s) := by
  unfold execGranaryRound; simp (maxDischargeDepth := 40) [*]

@[simp] theorem writeAck_inv {s : State} (unit chan : Nat) (hs : Inv s) : Inv (writeAck s unit chan) := by
  unfold writeAck; extract_lets +lift; (repeat' split) <;> simp +zetaDelta (maxDischargeDepth := 40) [*]

@[simp] theorem execGranaryWriteAck_inv (unit chan : Nat) {s : State} (hs : Inv s) : Kept (execGranaryWriteAck unit chan s) := by
  unfold execGranaryWriteAck; simp (maxDischargeDepth := 40) [*]

@[simp] theorem poisonLine_inv {s : State} (line : Nat) (hs : Inv s) : Inv (poisonLine s line) := by
  unfold poisonLine; simp (maxDischargeDepth := 40) [*]

@[simp] theorem readReturn_inv {s : State} (unit addr ecc lat : Nat) (weights : Bool) (hs : Inv s) : Inv (readReturn s unit
    addr ecc lat weights) := by
  unfold readReturn; simp (maxDischargeDepth := 40) [*]

@[simp] theorem takeMsg_inv {s : State} (src dst : Nat) (hs : Inv s) : Inv (takeMsg s src dst) := by
  unfold takeMsg; simp (maxDischargeDepth := 40) [*]

@[simp] theorem addToken_inv {s : State} (b c n : Nat) (hs : Inv s) : Inv (addToken s b c n) := by
  unfold addToken; simp (maxDischargeDepth := 40) [*]

@[simp] theorem addCredit_inv {s : State} (b c n : Nat) (hs : Inv s) : Inv (addCredit s b c n) := by
  unfold addCredit; simp (maxDischargeDepth := 40) [*]

@[simp] theorem addUnitToken_inv {s : State} (unit c n : Nat) (hs : Inv s) : Inv (addUnitToken s unit c n) := by
  unfold addUnitToken; simp (maxDischargeDepth := 40) [*]

@[simp] theorem tokenArrives_inv {s : State} (src dst : Nat) (hs : Inv s) : Inv (tokenArrives s src dst) := by
  unfold tokenArrives; (repeat' split) <;> simp (maxDischargeDepth := 40) [*]

@[simp] theorem execTokenArrival_inv (src dst : Nat) {s : State} (hs : Inv s) : Kept (execTokenArrival src dst s) := by
  unfold execTokenArrival; simp (maxDischargeDepth := 40) [*]

@[simp] theorem creditArrives_inv {s : State} (src dst : Nat) (hs : Inv s) : Inv (creditArrives s src dst) := by
  unfold creditArrives; (repeat' split) <;> simp (maxDischargeDepth := 40) [*]

@[simp] theorem execCreditArrival_inv (src dst : Nat) {s : State} (hs : Inv s) : Kept (execCreditArrival src dst s) := by
  unfold execCreditArrival; simp (maxDischargeDepth := 40) [*]

end Sys2Proof.Machine
end

