-- ==== Sys2Proof/Laws/KeptWork.lean ====
section
/-! SUPPORT. Every operation and command of wains, bents, bays, presses, VEC, composites, attention, convolution and the ramp limiter keeps the granary's canonical form. -/

set_option linter.unusedTactic false
set_option linter.unreachableTactic false
set_option linter.unusedSimpArgs false
set_option linter.unusedVariables false

namespace Sys2Proof.Machine

/-! ### Machine/Wain.lean -/

@[simp] theorem setWain_inv {s : State} (c : Nat) (x : Wain) (hs : Inv s) : Inv (setWain s c x) := by
  unfold setWain; simp (maxDischargeDepth := 40) [*]

@[simp] theorem setWainSt_inv {s : State} (c v : Nat) (hs : Inv s) : Inv (setWainSt s c v) := by
  unfold setWainSt; simp (maxDischargeDepth := 40) [*]

@[simp] theorem showPosted_inv {s : State} (c : Nat) (hs : Inv s) : Inv (showPosted s c) := by
  unfold showPosted; simp (maxDischargeDepth := 40) [*]

@[simp] theorem pourFirmware_inv {s : State} (c : Nat) (hs : Inv s) : Inv (pourFirmware s c) := by
  unfold pourFirmware; simp (maxDischargeDepth := 40) [*]

@[simp] theorem startChain_inv {s : State} (c : Nat) (hs : Inv s) : Inv (startChain s c) := by
  unfold startChain; extract_lets +lift; (repeat' split) <;> simp +zetaDelta (maxDischargeDepth := 40) [*]

@[simp] theorem postChain_inv {s : State} (c func : Nat) (ch : Chain) (off : Nat) (hs : Inv s) : Inv (postChain s c func ch
    off) := by
  unfold postChain; simp (maxDischargeDepth := 40) [*]

@[simp] theorem postFirmware_inv {s : State} (c job : Nat) (descs : List Bytes) (hs : Inv s) : Inv (postFirmware s c job descs) := by
  unfold postFirmware; simp (maxDischargeDepth := 40) [*]

@[simp] theorem startCopy_inv {s : State} (c : Nat) (descs : List Bytes) (hs : Inv s) : Inv (startCopy s c descs).2 := by
  unfold startCopy; simp (maxDischargeDepth := 40) [*]

@[simp] theorem hostAddr_inv {s : State} (c p a : Nat) (hs : Inv s) : Inv (hostAddr s c p a).1 := by
  unfold hostAddr; extract_lets +lift; (repeat' split) <;> simp +zetaDelta (maxDischargeDepth := 40) [*]

@[simp] theorem hostOut_inv {s : State} (c p a : Nat) (bs : Bytes) (hs : Inv s) : Inv (hostOut s c p a bs) := by
  refine Inv_foldl hs fun s e h => ?_
  exact hostWrite_inv _ _ _ _ (hostAddr_inv _ _ _ h)

@[simp] theorem hostIn_inv {s : State} (c p a n : Nat) (hs : Inv s) : Inv (hostIn s c p a n) :=
  Inv_foldl (countRx_inv _ _ hs) fun _ _ h => hostAddr_inv _ _ _ h

@[simp] theorem wainRecord_inv {s : State} (c : Nat) (d : RunDesc) (status res detail : Nat) (hs : Inv s) : Inv (wainRecord s
    c d status res detail) := by
  unfold wainRecord; extract_lets +lift; (repeat' split) <;> simp +zetaDelta (maxDischargeDepth := 40) [*]

@[simp] theorem wainMsg_inv {s : State} (c : Nat) (d : RunDesc) (event status res detail : Nat) (hs : Inv s) : Inv (wainMsg s
    c d event status res detail) := by
  unfold wainMsg; simp (maxDischargeDepth := 40) [*]

@[simp] theorem wainNext_inv {s : State} (c : Nat) (d : RunDesc) (hs : Inv s) : Inv (wainNext s c d) := by
  unfold wainNext; simp (maxDischargeDepth := 40) [*]

@[simp] theorem drainFunnel_inv {s : State} (c : Nat) (d : RunDesc) (hs : Inv s) : Inv (drainFunnel s c d) := by
  unfold drainFunnel
  split
  · exact Inv_foldl hs fun _ _ h => queueWrite_inv _ _ h
  · exact Inv_foldl hs fun _ _ h => hostOut_inv _ _ _ _ h

@[simp] theorem endFailed_inv {s : State} (c : Nat) (d : RunDesc) (code detail : Nat) (hs : Inv s) : Inv (endFailed s c d code
    detail) := by
  unfold endFailed; simp (maxDischargeDepth := 40) [*]

@[simp] theorem failDesc_inv {s : State} (c : Nat) (d : RunDesc) (code detail : Nat) (hs : Inv s) : Inv (failDesc s c d code
    detail) := by
  unfold failDesc; simp (maxDischargeDepth := 40) [*]

@[simp] theorem startDesc_inv {s : State} (c : Nat) (d : RunDesc) (hs : Inv s) : Inv (startDesc s c d) := by
  unfold startDesc; (repeat' split) <;> simp (maxDischargeDepth := 40) [*]

@[simp] theorem descFetched_inv (c : Nat) (ok : Bool) (data : Bytes) {s : State} (hs : Inv s) : Inv (descFetched c ok data s) := by
  unfold descFetched; dsimp only; (repeat' split) <;> simp +contextual (maxDischargeDepth := 40) [*]

@[simp] theorem execDescriptorFetchReturn_inv (c : Nat) (ok : Bool) (data : Bytes) {s : State} (hs : Inv s) : Kept
    (execDescriptorFetchReturn c ok data s) := by
  unfold execDescriptorFetchReturn; simp (maxDischargeDepth := 40) [*]

@[simp] theorem wainBytes_inv {s : State} (c n : Nat) (hs : Inv s) : Inv (wainBytes s c n) := by
  unfold wainBytes; simp (maxDischargeDepth := 40) [*]

@[simp] theorem wainOut_inv {s : State} (c : Nat) (d : RunDesc) (gran : Bool) (a : Nat) (bs : Bytes) (hs : Inv s) : Inv
    (wainOut s c d gran a bs) := by
  unfold wainOut; simp (maxDischargeDepth := 40) [*]

@[simp] theorem unitDone_inv {s : State} (c : Nat) (d : RunDesc) (i : Nat) (hs : Inv s) : Inv (unitDone s c d i) := by
  unfold unitDone; simp (maxDischargeDepth := 40) [*]

@[simp] theorem unitOut_inv {s : State} (c : Nat) (d : RunDesc) (i a : Nat) (bs : Bytes) (hs : Inv s) : Inv (unitOut s c d i a
    bs) := by
  unfold unitOut; simp (maxDischargeDepth := 40) [*]

@[simp] theorem copyUnit_inv {s : State} (c : Nat) (d : RunDesc) (i src dst n : Nat) (data : Bytes) (hs : Inv s) : Inv
    (copyUnit s c d i src dst n data) := by
  unfold copyUnit
  repeat' (first
    | with_reducible assumption
    | (extract_lets +lift +onlyGivenNames t; have ht : Inv t := (by (first | with_reducible assumption | (simp +contextual (maxDischargeDepth := 40) [t, *]; done) | (dsimp only [t]; (repeat' split) <;> (simp +contextual (maxDischargeDepth := 40) [*]; done)))); clear_value t)
    | (extract_lets +lift +onlyGivenNames t; clear_value t)
    | split
    | with_reducible refine Inv_foldl ?_ (fun s x h => ?_)
    | with_reducible refine Inv_foldl_draft ?_ (fun b x h => ?_)
    | (simp +contextual (maxDischargeDepth := 40) [*]; done)
    | (simp +contextual +zetaDelta (maxDischargeDepth := 40) [*]; done))

@[simp] theorem moveElement_inv {s : State} (c : Nat) (d : RunDesc) (i : Nat) (idx data : Bytes) (hs : Inv s) : Inv
    (moveElement s c d i idx data) := by
  unfold moveElement; simp (maxDischargeDepth := 40) [*]

@[simp] theorem moveFrame_inv {s : State} (c : Nat) (d : RunDesc) (i : Nat) (data : Bytes) (hs : Inv s) : Inv (moveFrame s c
    d i data) := by
  unfold moveFrame; extract_lets +lift; (repeat' split) <;> simp +zetaDelta (maxDischargeDepth := 40) [*]

@[simp] theorem burstDone_inv (c i : Nat) (idx data : Bytes) {s : State} (hs : Inv s) : Inv (burstDone c i idx data s) := by
  unfold burstDone; (repeat' split) <;> simp (maxDischargeDepth := 40) [*]

@[simp] theorem execBurstDone_inv (c i : Nat) (idx data : Bytes) {s : State} (hs : Inv s) : Kept (execBurstDone c i idx data s) := by
  unfold execBurstDone; simp (maxDischargeDepth := 40) [*]

@[simp] theorem execWainHostErr_inv (c i : Nat) {s : State} (hs : Inv s) : Kept (execWainHostErr c i s) := by
  unfold execWainHostErr; (repeat' split) <;> simp (maxDischargeDepth := 40) [*]

@[simp] theorem succeed_inv {s : State} (c : Nat) (d : RunDesc) (hs : Inv s) : Inv (succeed s c d) := by
  unfold succeed; simp (maxDischargeDepth := 40) [*]

@[simp] theorem readBack_inv {s : State} (c : Nat) (d : RunDesc) (readOk : Bool) (hs : Inv s) : Inv (readBack s c d readOk) := by
  unfold readBack; simp (maxDischargeDepth := 40) [*]

@[simp] theorem execDescriptorComplete_inv (c : Nat) (readOk : Bool) {s : State} (hs : Inv s) : Kept (execDescriptorComplete
    c readOk s) := by
  unfold execDescriptorComplete; (repeat' split) <;> simp (maxDischargeDepth := 40) [*]

@[simp] theorem abortWain_inv {s : State} (c code : Nat) (hs : Inv s) : Inv (abortWain s c code) := by
  unfold abortWain; dsimp only; (repeat' split) <;> simp (maxDischargeDepth := 40) [*]

@[simp] theorem resetWain_inv {s : State} (c owner : Nat) (hs : Inv s) : Inv (resetWain s c owner) := by
  unfold resetWain; simp (maxDischargeDepth := 40) [*]

@[simp] theorem assignWain_inv {s : State} (c owner : Nat) (hs : Inv s) : Inv (assignWain s c owner) := by
  unfold assignWain; simp (maxDischargeDepth := 40) [*]

@[simp] theorem abortDone_inv (c : Nat) {s : State} (hs : Inv s) : Inv (abortDone c s) := by
  unfold abortDone; dsimp only; (repeat' split) <;> simp +contextual (maxDischargeDepth := 40) [*]

@[simp] theorem execAbortDone_inv (c : Nat) {s : State} (hs : Inv s) : Kept (execAbortDone c s) := by
  unfold execAbortDone; simp (maxDischargeDepth := 40) [*]

@[simp] theorem execWainPost_inv (a : Access) (wide : Bool) (v : Nat) {s : State} (hs : Inv s) : Kept (execWainPost a wide v s) := by
  unfold execWainPost; simp +contextual (maxDischargeDepth := 40) [*]

@[simp] theorem execAbort_inv (a : Access) (v : Nat) {s : State} (hs : Inv s) : Kept (execAbort a v s) := by
  unfold execAbort; simp +contextual (maxDischargeDepth := 40) [*]

@[simp] theorem execResume_inv (a : Access) (v : Nat) {s : State} (hs : Inv s) : Kept (execResume a v s) := by
  unfold execResume; simp +contextual (maxDischargeDepth := 40) [*]

@[simp] theorem execWainCqHead_inv (a : Access) (v : Nat) {s : State} (hs : Inv s) : Kept (execWainCqHead a v s) := by
  unfold execWainCqHead; refine Kept_next.mpr ?_; refine atPlace_inv _ _ hs fun s pl h => ?_
  repeat' (first
    | with_reducible assumption
    | (extract_lets +lift +onlyGivenNames t; have ht : Inv t := (by (first | with_reducible assumption | (simp +contextual (maxDischargeDepth := 40) [t, *]; done) | (dsimp only [t]; (repeat' split) <;> (simp +contextual (maxDischargeDepth := 40) [*]; done)))); clear_value t)
    | (extract_lets +lift +onlyGivenNames t; clear_value t)
    | split
    | with_reducible refine Inv_foldl ?_ (fun s x h => ?_)
    | with_reducible refine Inv_foldl_draft ?_ (fun b x h => ?_)
    | (simp +contextual (maxDischargeDepth := 40) [*]; done)
    | (simp +contextual +zetaDelta (maxDischargeDepth := 40) [*]; done))

@[simp] theorem wainLinkDown_inv {s : State} (p c : Nat) (hs : Inv s) : Inv (wainLinkDown s p c) := by
  unfold wainLinkDown; (repeat' split) <;> simp (maxDischargeDepth := 40) [*]

/-! ### Machine/Txn.lean -/

@[simp] theorem setSlot_inv {s : State} (n : Nat) (x : Slot) (hs : Inv s) : Inv (setSlot s n x) := by
  unfold setSlot; simp (maxDischargeDepth := 40) [*]

@[simp] theorem noteOldest_inv {s : State} (hs : Inv s) : Inv (noteOldest s) := by
  unfold noteOldest; simp (maxDischargeDepth := 40) [*]

@[simp] theorem txnDone_inv {s : State} (n : Nat) (hs : Inv s) : Inv (txnDone s n) := by
  unfold txnDone; simp (maxDischargeDepth := 40) [*]

@[simp] theorem strikeSlot_inv {s : State} (n code index : Nat) (hs : Inv s) : Inv (strikeSlot s n code index) := by
  unfold strikeSlot; simp (maxDischargeDepth := 40) [*]

@[simp] theorem strikeFunc_inv {s : State} (f code : Nat) (hs : Inv s) : Inv (strikeFunc s f code) := by
  unfold strikeFunc; simp +contextual (maxDischargeDepth := 40) [*]

@[simp] theorem freeSlots_inv {s : State} (f : Nat) (hs : Inv s) : Inv (freeSlots s f) := by
  unfold freeSlots; simp (maxDischargeDepth := 40) [*]

@[simp] theorem strikeClaim_inv {s : State} (hs : Inv s) : Inv (strikeClaim s) := by
  unfold strikeClaim; simp +contextual (maxDischargeDepth := 40) [*]

@[simp] theorem applyRegs_inv {s : State} (l : List Action) (hs : Inv s) : Inv (applyRegs s l) := by
  unfold applyRegs; simp +contextual (maxDischargeDepth := 40) [*]

@[simp] theorem retain_inv {s : State} (lines : List Nat) (epoch : Nat) (hs : Inv s) : Inv (retain s lines epoch) := by
  unfold retain; simp (maxDischargeDepth := 40) [*]

@[simp] theorem dropStorage_inv {s : State} (addr epoch : Nat) (hs : Inv s) : Inv (dropStorage s addr epoch) := by
  unfold dropStorage; (repeat' split) <;> simp (maxDischargeDepth := 40) [*]

@[simp] theorem applyAction_inv {s : State} (l : List Action) (i : Nat) (a : Action) (hs : Inv s) : Inv (applyAction s l i a) := by
  unfold applyAction; (repeat' split) <;> simp (maxDischargeDepth := 40) [*]

@[simp] theorem postBentChains_inv {s : State} (x : Slot) (hs : Inv s) : Inv (postBentChains s x) := by
  refine Inv_foldl hs fun s c h => ?_
  split <;> simp [*]

@[simp] theorem bumpLine_inv {s : State} (l : Nat) (hs : Inv s) : Inv (bumpLine s l) := by
  unfold bumpLine; simp (maxDischargeDepth := 40) [*]

@[simp] theorem applyBent_inv {s : State} (x : Slot) (hs : Inv s) : Inv (applyBent s x) := by
  unfold applyBent; simp +contextual (maxDischargeDepth := 40) [*]

@[simp] theorem showRetain_inv {s : State} (hs : Inv s) : Inv (showRetain s) := by
  unfold showRetain; simp (maxDischargeDepth := 40) [*]

@[simp] theorem takeEffect_inv {s : State} (n : Nat) (hs : Inv s) : Inv (takeEffect s n) := by
  unfold takeEffect; extract_lets +lift; (repeat' split) <;> simp +zetaDelta (maxDischargeDepth := 40) [*]

@[simp] theorem runArmed_inv {s : State} (mode tally : Nat) (hs : Inv s) : Inv (runArmed s mode tally) := by
  unfold runArmed; simp +contextual (maxDischargeDepth := 40) [*]

@[simp] theorem fwRaise_inv {s : State} (l : List Action) (hs : Inv s) : Inv (fwRaise s l).1 := by
  unfold fwRaise; (repeat' split) <;> simp (maxDischargeDepth := 40) [*]

@[simp] theorem fwBent_inv {s : State} (l : List Action) (hs : Inv s) : Inv (fwBent s l) := by
  unfold fwBent; simp (maxDischargeDepth := 40) [*]

@[simp] theorem fwRetry_inv {s : State} (hs : Inv s) : Inv (fwRetry s) := by
  unfold fwRetry; simp +contextual (maxDischargeDepth := 40) [*]

@[simp] theorem returnPages_inv {s : State} (l : List (Nat × Nat × Nat)) (hs : Inv s) : Inv (returnPages s l) := by
  unfold returnPages; simp +contextual (maxDischargeDepth := 40) [*]

@[simp] theorem releaseHeldPages_inv {s : State} (hs : Inv s) : Inv (releaseHeldPages s) := by
  unfold releaseHeldPages; simp (maxDischargeDepth := 40) [*]

@[simp] theorem raiseSlot_inv {s : State} (n : Nat) (pend : Bool) (hs : Inv s) : Inv (raiseSlot s n pend) := by
  unfold raiseSlot; simp (maxDischargeDepth := 40) [*]

@[simp] theorem fetchEnds_inv {s : State} (n : Nat) (hs : Inv s) : Inv (fetchEnds s n) := by
  unfold fetchEnds; simp (maxDischargeDepth := 40) [*]

@[simp] theorem takeRecords_inv (k : Nat) {s : State} (n : Nat) (hs : Inv s) : Inv (takeRecords k s n) := by
  induction k generalizing s with
  | zero => exact hs
  | succ k ih =>
    unfold takeRecords; dsimp only; repeat' split
    all_goals simp (maxDischargeDepth := 40) [*]

@[simp] theorem listReturn_inv (n : Nat) (ok : Bool) (data : Bytes) {s : State} (hs : Inv s) : Inv (listReturn n ok data s) := by
  unfold listReturn; dsimp only; (repeat' split) <;> simp +contextual (maxDischargeDepth := 40) [*]

@[simp] theorem execTxnListLineReturn_inv (n : Nat) (ok : Bool) (data : Bytes) {s : State} (hs : Inv s) : Kept
    (execTxnListLineReturn n ok data s) := by
  unfold execTxnListLineReturn; simp (maxDischargeDepth := 40) [*]

@[simp] theorem execTxnListReadTimeout_inv (n : Nat) {s : State} (hs : Inv s) : Kept (execTxnListReadTimeout n s) := by
  unfold execTxnListReadTimeout; simp (maxDischargeDepth := 40) [*]

@[simp] theorem txnOpen_inv {s : State} (a : Access) (hs : Inv s) : Inv (txnOpen s a).1 := by
  unfold txnOpen; extract_lets +lift; (repeat' split) <;> simp +zetaDelta (maxDischargeDepth := 40) [*]

@[simp] theorem answerWord_inv (a : Access) {r : State × Nat} (hr : Inv r.1) : Inv (answerWord a r) := by
  unfold answerWord; simp (maxDischargeDepth := 40) [*]

@[simp] theorem execTxnOpen_inv (a : Access) {s : State} (hs : Inv s) : Kept (execTxnOpen a s) := by
  unfold execTxnOpen; (repeat' split) <;> simp (maxDischargeDepth := 40) [*]

@[simp] theorem txnState_inv {s : State} (func off : Nat) (hs : Inv s) : Inv (txnState s func off) := by
  unfold txnState; simp (maxDischargeDepth := 40) [*]

@[simp] theorem onSlot_inv {s : State} (a : Access) (pl : Place) (f : State → Nat → Slot → State) (hs : Inv s) (hf : ∀ (x0 :
    State) (x1 : Nat) (x2 : Slot), Inv x0 → Inv (f x0 x1 x2)) : Inv (onSlot s a pl f) := by
  unfold onSlot; simp (maxDischargeDepth := 40) [*]

@[simp] theorem execTxnListCmd_inv (a : Access) (v : Nat) {s : State} (hs : Inv s) : Kept (execTxnListCmd a v s) := by
  unfold execTxnListCmd
  repeat' (first
    | with_reducible assumption
    | (extract_lets +lift +onlyGivenNames t; have ht : Inv t := (by (first | with_reducible assumption | (simp +contextual (maxDischargeDepth := 40) [t, *]; done) | (dsimp only [t]; (repeat' split) <;> (simp +contextual (maxDischargeDepth := 40) [*]; done)))); clear_value t)
    | (extract_lets +lift +onlyGivenNames t; clear_value t)
    | split
    | with_reducible refine Inv_foldl ?_ (fun s x h => ?_)
    | with_reducible refine Inv_foldl_draft ?_ (fun b x h => ?_)
    | (simp +contextual (maxDischargeDepth := 40) [*]; done)
    | (simp +contextual +zetaDelta (maxDischargeDepth := 40) [*]; done))

@[simp] theorem txnAction_inv (a : Access) (v op : Nat) {s : State} (f : State → Nat → Slot → State) (hs : Inv s) (hf : ∀ (x0
    : State) (x1 : Nat) (x2 : Slot), Inv x0 → Inv (f x0 x1 x2)) : Inv (txnAction a v op s f) := by
  unfold txnAction; simp +contextual (maxDischargeDepth := 40) [*]

@[simp] theorem execRaise_inv (a : Access) (v : Nat) {s : State} (hs : Inv s) : Kept (execRaise a v s) := by
  unfold execRaise; simp +contextual (maxDischargeDepth := 40) [*]

@[simp] theorem execStrike_inv (a : Access) (v : Nat) {s : State} (hs : Inv s) : Kept (execStrike a v s) := by
  unfold execStrike; simp +contextual (maxDischargeDepth := 40) [*]

@[simp] theorem execRelease_inv (a : Access) (v : Nat) {s : State} (hs : Inv s) : Kept (execRelease a v s) := by
  unfold execRelease; simp +contextual (maxDischargeDepth := 40) [*]

@[simp] theorem execBentTakeEffect_inv (n : Nat) {s : State} (hs : Inv s) : Kept (execBentTakeEffect n s) := by
  unfold execBentTakeEffect; simp (maxDischargeDepth := 40) [*]

@[simp] theorem pagesReturn_inv {s : State} (l : List (Nat × Nat × Nat)) (hs : Inv s) : Inv (pagesReturn s l) := by
  unfold pagesReturn; simp (maxDischargeDepth := 40) [*]

@[simp] theorem retire_inv {s : State} (hs : Inv s) : Inv (retire s) := by
  unfold retire; simp (maxDischargeDepth := 40) [*]

@[simp] theorem execRetiredStorageFree_inv {s : State} (hs : Inv s) : Kept (execRetiredStorageFree s) := by
  unfold execRetiredStorageFree; simp (maxDischargeDepth := 40) [*]

@[simp] theorem execRetireStall_inv {s : State} (hs : Inv s) : Kept (execRetireStall s) := by
  unfold execRetireStall; (repeat' split) <;> simp (maxDischargeDepth := 40) [*]

/-! ### Machine/Bay.lean -/

@[simp] theorem bayCycle_inv {s : State} (b : Nat) (hs : Inv s) : Inv (bayCycle s b) := by
  unfold bayCycle; simp (maxDischargeDepth := 40) [*]

@[simp] theorem oneCycle_inv {s : State} (hs : Inv s) : Inv (oneCycle s) := by
  unfold oneCycle; simp +contextual (maxDischargeDepth := 40) [*]

@[simp] theorem freePerf_inv {s : State} (b j : Nat) (hs : Inv s) : Inv (freePerf s b j) := by
  unfold freePerf; simp (maxDischargeDepth := 40) [*]

@[simp] theorem refill_inv {s : State} (b : Nat) (hs : Inv s) : Inv (refill s b) := by
  unfold refill; simp (maxDischargeDepth := 40) [*]

@[simp] theorem issueHead_inv {s : State} (b : Nat) (q : QWord) (hs : Inv s) : Inv (issueHead s b q) := by
  unfold issueHead; simp (maxDischargeDepth := 40) [*]

@[simp] theorem dropIssued_inv {s : State} (b : Nat) (hs : Inv s) : Inv (dropIssued s b) := by
  unfold dropIssued; simp (maxDischargeDepth := 40) [*]

@[simp] theorem boundIssued_inv {s : State} (b : Nat) (hs : Inv s) : Inv (boundIssued s b) := by
  unfold boundIssued; simp (maxDischargeDepth := 40) [*]

@[simp] theorem leaveRunning_inv {s : State} (b : Nat) (st : BaySt) (hcode : Nat) (hs : Inv s) : Inv (leaveRunning s b st
    hcode) := by
  unfold leaveRunning; simp (maxDischargeDepth := 40) [*]

@[simp] theorem bayError_inv {s : State} (b code addr : Nat) (hs : Inv s) : Inv (bayError s b code addr) := by
  unfold bayError; simp (maxDischargeDepth := 40) [*]

@[simp] theorem bayHalted_inv {s : State} (b hcode : Nat) (hs : Inv s) : Inv (bayHalted s b hcode) := by
  unfold bayHalted; simp (maxDischargeDepth := 40) [*]

@[simp] theorem startProgram_inv {s : State} (b : Nat) (hs : Inv s) : Inv (startProgram s b) := by
  unfold startProgram; simp (maxDischargeDepth := 40) [*]

@[simp] theorem goBay_inv {s : State} (b func : Nat) (hs : Inv s) : Inv (goBay s b func) := by
  unfold goBay; simp (maxDischargeDepth := 40) [*]

@[simp] theorem tallyStart_inv {s : State} (b tally : Nat) (hs : Inv s) : Inv (tallyStart s b tally) := by
  unfold tallyStart; simp (maxDischargeDepth := 40) [*]

@[simp] theorem atBay_inv {s : State} (a : Access) (off : Nat) (f : State → Nat → State) (hs : Inv s) (hf : ∀ (x0 : State)
    (x1 : Nat), Inv x0 → Inv (f x0 x1)) : Inv (atBay s a off f) := by
  unfold atBay; simp +contextual (maxDischargeDepth := 40) [*]

@[simp] theorem execBayRunGo_inv (a : Access) (v : Nat) {s : State} (hs : Inv s) : Kept (execBayRunGo a v s) := by
  unfold execBayRunGo; simp +contextual (maxDischargeDepth := 40) [*]

@[simp] theorem execBayRunHalt_inv (a : Access) (v : Nat) {s : State} (hs : Inv s) : Kept (execBayRunHalt a v s) := by
  unfold execBayRunHalt; simp +contextual (maxDischargeDepth := 40) [*]

@[simp] theorem execBayRunClear_inv (a : Access) (v : Nat) {s : State} (hs : Inv s) : Kept (execBayRunClear a v s) := by
  unfold execBayRunClear; simp +contextual (maxDischargeDepth := 40) [*]

@[simp] theorem execBayTokenSet_inv (a : Access) (v : Nat) {s : State} (hs : Inv s) : Kept (execBayTokenSet a v s) := by
  unfold execBayTokenSet; simp +contextual (maxDischargeDepth := 40) [*]

@[simp] theorem execPerfClr_inv (a : Access) (v : Nat) {s : State} (hs : Inv s) : Kept (execPerfClr a v s) := by
  unfold execPerfClr; simp +contextual (maxDischargeDepth := 40) [*]

@[simp] theorem programFetch_inv {s : State} (b : Nat) (hs : Inv s) : Inv (programFetch s b) := by
  unfold programFetch; simp (maxDischargeDepth := 40) [*]

@[simp] theorem execProgramFetchReturn_inv (b : Nat) {s : State} (hs : Inv s) : Kept (execProgramFetchReturn b s) := by
  unfold execProgramFetchReturn; simp (maxDischargeDepth := 40) [*]

@[simp] theorem refusedHead_inv {s : State} (b : Nat) (hs : Inv s) : Inv (refusedHead s b) := by
  unfold refusedHead; extract_lets +lift; (repeat' split) <;> simp +zetaDelta (maxDischargeDepth := 40) [*]

@[simp] theorem execRefusedWordAtHead_inv (b : Nat) {s : State} (hs : Inv s) : Kept (execRefusedWordAtHead b s) := by
  unfold execRefusedWordAtHead; simp (maxDischargeDepth := 40) [*]

@[simp] theorem wordComplete_inv {s : State} (b : Nat) (e : Engine) (hs : Inv s) : Inv (wordComplete s b e) := by
  unfold wordComplete; extract_lets +lift; (repeat' split) <;> simp +zetaDelta (maxDischargeDepth := 40) [*]

@[simp] theorem execWordComplete_inv (b e : Nat) {s : State} (hs : Inv s) : Kept (execWordComplete b e s) := by
  unfold execWordComplete; simp (maxDischargeDepth := 40) [*]

@[simp] theorem runHead_inv {s : State} (b : Nat) (sel : Nat → Bool) (pre : State → Nat → Nat → Nat)
    (eff : State → Nat → QWord → Except Nat State) (hs : Inv s)
    (he : ∀ s b q, Inv s → GoodE (eff s b q)) : Inv (runHead s b sel pre eff) := by
  unfold runHead; dsimp only; repeat' split
  · exact hs
  · exact hs
  · exact hs
  · exact hs
  · exact bayError_inv _ _ _ hs
  · rename_i h _; exact boundIssued_inv _ (he _ _ _ (issueHead_inv _ _ hs) _ h)
  · rename_i h _; exact he _ _ _ (issueHead_inv _ _ hs) _ h
  · exact bayError_inv _ _ _ (dropIssued_inv _ (issueHead_inv _ _ hs))

@[simp] theorem storeEcc_inv {s : State} (b ecc : Nat) (rs : List Lines) (hs : Inv s) : Inv (storeEcc s b ecc rs) := by
  unfold storeEcc; (repeat' split) <;> simp (maxDischargeDepth := 40) [*]

@[simp] theorem behindEcc_inv (rs : Nat → List Lines) {eff : State → Nat → QWord → Except Nat State}
    (he : ∀ (s : State) (b : Nat) (q : QWord), Inv s → GoodE (eff s b q)) {s : State} (b : Nat) (q : QWord) (hs : Inv s) :
    GoodE (behindEcc rs eff s b q) := by
  unfold behindEcc; split <;> simp [*]

@[simp] theorem runReading_inv {s : State} (b ecc : Nat) (sel : Nat → Bool) (pre : State → Nat → Nat → Nat)
    (eff : State → Nat → QWord → Except Nat State) (hs : Inv s)
    (he : ∀ s b q, Inv s → GoodE (eff s b q)) : Inv (runReading s b ecc sel pre eff) := by
  unfold runReading; dsimp only; split
  · refine runHead_inv _ _ _ _ ?_ (fun s b q h => behindEcc_inv _ he b q h)
    split <;> simp [*]
  · exact runHead_inv _ _ _ _ hs he

@[simp] theorem loadEff_inv {s : State} (b : Nat) (q : QWord) (hs : Inv s) : GoodE (loadEff s b q) := by
  unfold loadEff; simp (maxDischargeDepth := 40) [*]

@[simp] theorem execLoad_inv (b : Nat) {s : State} (hs : Inv s) : Kept (execLoad b s) := by
  unfold execLoad; simp +contextual (maxDischargeDepth := 40) [*]

@[simp] theorem noteOut_inv {s : State} (b : Nat) (empty : Bool) (hs : Inv s) : Inv (noteOut s b empty) := by
  unfold noteOut; simp (maxDischargeDepth := 40) [*]

@[simp] theorem storeEff_inv {s : State} (b : Nat) (q : QWord) (hs : Inv s) : GoodE (storeEff s b q) := by
  unfold storeEff; simp +contextual (maxDischargeDepth := 40) [*]

@[simp] theorem execStore_inv (b ecc : Nat) {s : State} (hs : Inv s) : Kept (execStore b ecc s) := by
  unfold execStore; simp +contextual (maxDischargeDepth := 40) [*]

@[simp] theorem sendEff_inv {s : State} (b : Nat) (q : QWord) (hs : Inv s) : GoodE (sendEff s b q) := by
  unfold sendEff; simp +contextual (maxDischargeDepth := 40) [*]

@[simp] theorem execSendToken_inv (b : Nat) {s : State} (hs : Inv s) : Kept (execSendToken b s) := by
  unfold execSendToken; simp +contextual (maxDischargeDepth := 40) [*]

@[simp] theorem execSendCredit_inv (b : Nat) {s : State} (hs : Inv s) : Kept (execSendCredit b s) := by
  unfold execSendCredit; simp +contextual (maxDischargeDepth := 40) [*]

@[simp] theorem execWait_inv (b : Nat) {s : State} (hs : Inv s) : Kept (execWait b s) := by
  unfold execWait; simp (maxDischargeDepth := 40) [*]

@[simp] theorem tallyEff_inv {s : State} (b : Nat) (q : QWord) (hs : Inv s) : GoodE (tallyEff s b q) := by
  unfold tallyEff; simp (maxDischargeDepth := 40) [*]

@[simp] theorem execTally_inv (b : Nat) {s : State} (hs : Inv s) : Kept (execTally b s) := by
  unfold execTally; simp +contextual (maxDischargeDepth := 40) [*]

@[simp] theorem haltEff_inv {s : State} (b : Nat) (q : QWord) (hs : Inv s) : GoodE (haltEff s b q) := by
  unfold haltEff; simp (maxDischargeDepth := 40) [*]

@[simp] theorem execHalt_inv (b : Nat) {s : State} (hs : Inv s) : Kept (execHalt b s) := by
  unfold execHalt; simp +contextual (maxDischargeDepth := 40) [*]

/-! ### Machine/Press.lean -/

@[simp] theorem countTrunc_inv {s : State} (b : Nat) (cs : List (List (Nat × Bool))) (hs : Inv s) : Inv (countTrunc s b cs) := by
  unfold countTrunc; simp (maxDischargeDepth := 40) [*]

@[simp] theorem pressEff_inv {s : State} (b : Nat) (q : QWord) (hs : Inv s) : GoodE (pressEff s b q) := by
  unfold pressEff; simp (maxDischargeDepth := 40) [*]

@[simp] theorem execPress_inv (b ecc : Nat) {s : State} (hs : Inv s) : Kept (execPress b ecc s) := by
  unfold execPress; simp +contextual (maxDischargeDepth := 40) [*]

@[simp] theorem winnowEff_inv {s : State} (b : Nat) (q : QWord) (hs : Inv s) : GoodE (winnowEff s b q) := by
  unfold winnowEff; simp (maxDischargeDepth := 40) [*]

@[simp] theorem execWinnow_inv (b ecc : Nat) {s : State} (hs : Inv s) : Kept (execWinnow b ecc s) := by
  unfold execWinnow; simp +contextual (maxDischargeDepth := 40) [*]

/-! ### Machine/Vec.lean -/

@[simp] theorem vecEff_inv {s : State} (b : Nat) (q : QWord) (hs : Inv s) : GoodE (vecEff s b q) := by
  unfold vecEff; simp (maxDischargeDepth := 40) [*]

@[simp] theorem runVec_inv {s : State} (b vop ecc : Nat) (hs : Inv s) : Inv (runVec s b vop ecc) := by
  unfold runVec; simp +contextual (maxDischargeDepth := 40) [*]

@[simp] theorem execCvt_inv (b ecc : Nat) {s : State} (hs : Inv s) : Kept (execCvt b ecc s) := by
  unfold execCvt; simp (maxDischargeDepth := 40) [*]

@[simp] theorem execAdd_inv (b ecc : Nat) {s : State} (hs : Inv s) : Kept (execAdd b ecc s) := by
  unfold execAdd; simp (maxDischargeDepth := 40) [*]

@[simp] theorem execSub_inv (b ecc : Nat) {s : State} (hs : Inv s) : Kept (execSub b ecc s) := by
  unfold execSub; simp (maxDischargeDepth := 40) [*]

@[simp] theorem execMul_inv (b ecc : Nat) {s : State} (hs : Inv s) : Kept (execMul b ecc s) := by
  unfold execMul; simp (maxDischargeDepth := 40) [*]

@[simp] theorem execFma_inv (b ecc : Nat) {s : State} (hs : Inv s) : Kept (execFma b ecc s) := by
  unfold execFma; simp (maxDischargeDepth := 40) [*]

@[simp] theorem execMax_inv (b ecc : Nat) {s : State} (hs : Inv s) : Kept (execMax b ecc s) := by
  unfold execMax; simp (maxDischargeDepth := 40) [*]

@[simp] theorem execMin_inv (b ecc : Nat) {s : State} (hs : Inv s) : Kept (execMin b ecc s) := by
  unfold execMin; simp (maxDischargeDepth := 40) [*]

@[simp] theorem execMuls_inv (b ecc : Nat) {s : State} (hs : Inv s) : Kept (execMuls b ecc s) := by
  unfold execMuls; simp (maxDischargeDepth := 40) [*]

@[simp] theorem execAdds_inv (b ecc : Nat) {s : State} (hs : Inv s) : Kept (execAdds b ecc s) := by
  unfold execAdds; simp (maxDischargeDepth := 40) [*]

@[simp] theorem execExp2_inv (b ecc : Nat) {s : State} (hs : Inv s) : Kept (execExp2 b ecc s) := by
  unfold execExp2; simp (maxDischargeDepth := 40) [*]

@[simp] theorem execLog2_inv (b ecc : Nat) {s : State} (hs : Inv s) : Kept (execLog2 b ecc s) := by
  unfold execLog2; simp (maxDischargeDepth := 40) [*]

@[simp] theorem execRecip_inv (b ecc : Nat) {s : State} (hs : Inv s) : Kept (execRecip b ecc s) := by
  unfold execRecip; simp (maxDischargeDepth := 40) [*]

@[simp] theorem execRsqrt_inv (b ecc : Nat) {s : State} (hs : Inv s) : Kept (execRsqrt b ecc s) := by
  unfold execRsqrt; simp (maxDischargeDepth := 40) [*]

@[simp] theorem execTanh_inv (b ecc : Nat) {s : State} (hs : Inv s) : Kept (execTanh b ecc s) := by
  unfold execTanh; simp (maxDischargeDepth := 40) [*]

@[simp] theorem execGelu_inv (b ecc : Nat) {s : State} (hs : Inv s) : Kept (execGelu b ecc s) := by
  unfold execGelu; simp (maxDischargeDepth := 40) [*]

@[simp] theorem execSilu_inv (b ecc : Nat) {s : State} (hs : Inv s) : Kept (execSilu b ecc s) := by
  unfold execSilu; simp (maxDischargeDepth := 40) [*]

@[simp] theorem execRelu_inv (b ecc : Nat) {s : State} (hs : Inv s) : Kept (execRelu b ecc s) := by
  unfold execRelu; simp (maxDischargeDepth := 40) [*]

@[simp] theorem execRsum_inv (b ecc : Nat) {s : State} (hs : Inv s) : Kept (execRsum b ecc s) := by
  unfold execRsum; simp (maxDischargeDepth := 40) [*]

@[simp] theorem execRmax_inv (b ecc : Nat) {s : State} (hs : Inv s) : Kept (execRmax b ecc s) := by
  unfold execRmax; simp (maxDischargeDepth := 40) [*]

@[simp] theorem execArgmax_inv (b ecc : Nat) {s : State} (hs : Inv s) : Kept (execArgmax b ecc s) := by
  unfold execArgmax; simp (maxDischargeDepth := 40) [*]

@[simp] theorem execTree_inv (b ecc : Nat) {s : State} (hs : Inv s) : Kept (execTree b ecc s) := by
  unfold execTree; simp (maxDischargeDepth := 40) [*]

/-! ### Machine/Composite.lean -/

@[simp] theorem endComposite_inv {s : State} (b : Nat) (c : Composite) (status : Bytes) (hs : Inv s) : Inv (endComposite s b
    c status) := by
  unfold endComposite; simp (maxDischargeDepth := 40) [*]

@[simp] theorem finishComposite_inv {s : State} (b : Nat) (c : Composite) (empty : Bool) (hs : Inv s) : Inv (finishComposite
    s b c empty) := by
  unfold finishComposite; simp (maxDischargeDepth := 40) [*]

@[simp] theorem failComposite_inv {s : State} (b : Nat) (c : Composite) (code : Nat) (hs : Inv s) : Inv (failComposite s b c
    code) := by
  unfold failComposite; simp (maxDischargeDepth := 40) [*]

@[simp] theorem haltComposite_inv {s : State} (b : Nat) (c : Composite) (hs : Inv s) : Inv (haltComposite s b c) := by
  unfold haltComposite; simp (maxDischargeDepth := 40) [*]

@[simp] theorem countRow_inv {s : State} (b : Nat) (hs : Inv s) : Inv (countRow s b) := by
  unfold countRow; simp (maxDischargeDepth := 40) [*]

@[simp] theorem runRows_inv (k : Works) (hw : ∀ s b c, Inv s → Inv (k.wait s b c).1) (hr : ∀ s b c, Inv s → GoodR (k.row s b c))
    (hf : ∀ s b c, Inv s → Inv (k.finish s b c)) (b n : Nat) {s : State} (hs : Inv s) :
    Inv (runRows k b n s) := by
  induction n generalizing s with
  | zero => unfold runRows; repeat' split
            all_goals first | exact hs | exact hf _ _ _ hs
  | succ n ih =>
    unfold runRows
    split
    · exact hs
    · rename_i c _
      split
      · exact hs
      · split
        · exact hf _ _ _ hs
        · dsimp only
          generalize hq : setBay (k.wait s b c).1 b _ = t
          have ht : Inv t := hq ▸ setBay_inv _ _ (hw _ _ _ hs)
          split
          · exact ht
          · split
            · rename_i h; exact ih (countRow_inv _ (setBay_inv _ _ (hr _ _ _ ht _ h)))
            · exact failComposite_inv _ _ _ ht

@[simp] theorem compositeRow_inv {s : State} (b n cls op : Nat) (pre : State → Nat → Nat → Nat)
    (start : State → Nat → QWord → Except Nat State) (k : Works) (hs : Inv s)
    (he : ∀ s b q, Inv s → GoodE (start s b q)) (hw : ∀ s b c, Inv s → Inv (k.wait s b c).1) (hr : ∀ s b c, Inv s → GoodR
    (k.row s b c))
    (hf : ∀ s b c, Inv s → Inv (k.finish s b c)) : Inv (compositeRow s b n cls op pre start k) := by
  unfold compositeRow; split
  · split
    · exact runHead_inv _ _ _ _ hs he
    · split
      · exact hs
      · exact runRows_inv k hw hr hf _ _ hs
  · exact runRows_inv k hw hr hf _ _ (runHead_inv _ _ _ _ hs he)

@[simp] theorem haltComplete_inv {s : State} (b : Nat) (hs : Inv s) : Inv (haltComplete s b) := by
  unfold haltComplete; extract_lets +lift; (repeat' split) <;> simp +zetaDelta (maxDischargeDepth := 40) [*]

@[simp] theorem execHaltComplete_inv (b : Nat) {s : State} (hs : Inv s) : Kept (execHaltComplete b s) := by
  unfold execHaltComplete; simp (maxDischargeDepth := 40) [*]

/-! ### Machine/Attn.lean -/

@[simp] theorem attStart_inv (op : Nat) {s : State} (b : Nat) (q : QWord) (hs : Inv s) : GoodE (attStart op s b q) := by
  unfold attStart; simp (maxDischargeDepth := 40) [*]

@[simp] theorem writeOut_inv {s : State} (c : AttCtx) (i j : Nat) (t : Option Soft) (hs : Inv s) : Inv (writeOut s c i j t) := by
  unfold writeOut; simp (maxDischargeDepth := 40) [*]

@[simp] theorem writeHead_inv {s : State} (c : AttCtx) (i j : Nat) (r : HeadRes) (hs : Inv s) : Inv (writeHead s c i j r) := by
  unfold writeHead; simp +contextual (maxDischargeDepth := 40) [*]

@[simp] theorem markPages_inv {s : State} (c : AttCtx) (hit : List Nat) (hs : Inv s) : Inv (markPages s c hit) := by
  unfold markPages; simp (maxDischargeDepth := 40) [*]

@[simp] theorem rowDone_inv {s : State} (c : Composite) (seen bad range : Bool) (hs : Inv s) : Inv (rowDone s c seen bad
    range).1 := by
  unfold rowDone; simp (maxDischargeDepth := 40) [*]

@[simp] theorem noteRange_inv {s : State} (b n : Nat) (hs : Inv s) : Inv (noteRange s b n) := by
  unfold noteRange; simp +contextual (maxDischargeDepth := 40) [*]

@[simp] theorem attendRow_inv {s : State} (b : Nat) (c : Composite) (hs : Inv s) : GoodR (attendRow s b c) := by
  unfold attendRow; simp +contextual (maxDischargeDepth := 40) [*]

@[simp] theorem combineRow_inv {s : State} (b : Nat) (c : Composite) (hs : Inv s) : GoodR (combineRow s b c) := by
  unfold combineRow; simp +contextual (maxDischargeDepth := 40) [*]

@[simp] theorem appendOne_inv {s0 s : State} (c : AttCtx) (i k h : Nat) (hs0 : Inv s0) (hs : Inv s) : Inv (appendOne s0 s c i
    k h).1 := by
  unfold appendOne; extract_lets +lift; (repeat' split) <;> simp +zetaDelta (maxDischargeDepth := 40) [*]

@[simp] theorem appendNode_inv {s0 s : State} (c : AttCtx) (n k h : Nat) (hs0 : Inv s0) (hs : Inv s) : Inv (appendNode s0 s c
    n k h).1 := by
  unfold appendNode; extract_lets +lift; (repeat' split) <;> simp +zetaDelta (maxDischargeDepth := 40) [*]

@[simp] theorem appendRow_inv {s : State} (b : Nat) (c : Composite) (hs : Inv s) : GoodR (appendRow s b c) := by
  unfold appendRow; dsimp only; (repeat' split) <;> simp +contextual (maxDischargeDepth := 40) [*]

@[simp] theorem backwardRow_inv {s : State} (b : Nat) (c : Composite) (hs : Inv s) : GoodR (backwardRow s b c) := by
  unfold backwardRow; simp +contextual (maxDischargeDepth := 40) [*]

theorem attWorks_row (row : State → Nat → Composite → Except Nat (State × Composite)) {s : State} (b : Nat) (c : Composite)
    (h : GoodR (row s b c)) : GoodR ((attWorks row).row s b c) := h
theorem attWorks_finish (row : State → Nat → Composite → Except Nat (State × Composite)) {s : State} (b : Nat) (c : Composite)
    (hs : Inv s) : Inv ((attWorks row).finish s b c) := finishComposite_inv b c _ (noteOut_inv _ _ hs)
@[simp] theorem execPrefill_inv (b n : Nat) {s : State} (hs : Inv s) : Kept (execPrefill b n s) := by
  refine Kept_next.mpr (compositeRow_inv _ _ _ _ _ _ _ hs (fun _ b q h => attStart_inv _ b q h) (fun _ _ _ h => h) ?_ ?_)
  · intro s b c h; exact attWorks_row _ b c (attendRow_inv b c h)
  · intro s b c h; exact attWorks_finish _ b c h

@[simp] theorem execDecode_inv (b n : Nat) {s : State} (hs : Inv s) : Kept (execDecode b n s) := by
  refine Kept_next.mpr (compositeRow_inv _ _ _ _ _ _ _ hs (fun _ b q h => attStart_inv _ b q h) (fun _ _ _ h => h) ?_ ?_)
  · intro s b c h; exact attWorks_row _ b c (attendRow_inv b c h)
  · intro s b c h; exact attWorks_finish _ b c h

@[simp] theorem execAppend_inv (b n : Nat) {s : State} (hs : Inv s) : Kept (execAppend b n s) := by
  refine Kept_next.mpr (compositeRow_inv _ _ _ _ _ _ _ hs (fun _ b q h => attStart_inv _ b q h) (fun _ _ _ h => h) ?_ ?_)
  · intro s b c h; exact attWorks_row _ b c (appendRow_inv b c h)
  · intro s b c h; exact attWorks_finish _ b c h

@[simp] theorem execBackward_inv (b n : Nat) {s : State} (hs : Inv s) : Kept (execBackward b n s) := by
  refine Kept_next.mpr (compositeRow_inv _ _ _ _ _ _ _ hs (fun _ b q h => attStart_inv _ b q h) (fun _ _ _ h => h) ?_ ?_)
  · intro s b c h; exact attWorks_row _ b c (backwardRow_inv b c h)
  · intro s b c h; exact attWorks_finish _ b c h

@[simp] theorem execCombine_inv (b n : Nat) {s : State} (hs : Inv s) : Kept (execCombine b n s) := by
  refine Kept_next.mpr (compositeRow_inv _ _ _ _ _ _ _ hs (fun _ b q h => attStart_inv _ b q h) (fun _ _ _ h => h) ?_ ?_)
  · intro s b c h; exact attWorks_row _ b c (combineRow_inv b c h)
  · intro s b c h; exact attWorks_finish _ b c h

/-! ### Machine/Conv.lean -/

@[simp] theorem loadZrcEff_inv {s : State} (b : Nat) (q : QWord) (hs : Inv s) : GoodE (loadZrcEff s b q) := by
  unfold loadZrcEff; extract_lets +lift; (repeat' split) <;> simp +zetaDelta (maxDischargeDepth := 40) [*]

@[simp] theorem execLoadZrc_inv (b : Nat) {s : State} (hs : Inv s) : Kept (execLoadZrc b s) := by
  unfold execLoadZrc; simp +contextual (maxDischargeDepth := 40) [*]

@[simp] theorem storeZrcEff_inv {s : State} (b : Nat) (q : QWord) (hs : Inv s) : GoodE (storeZrcEff s b q) := by
  unfold storeZrcEff; simp +contextual (maxDischargeDepth := 40) [*]

@[simp] theorem execStoreZrc_inv (b ecc : Nat) {s : State} (hs : Inv s) : Kept (execStoreZrc b ecc s) := by
  unfold execStoreZrc; simp +contextual (maxDischargeDepth := 40) [*]

@[simp] theorem scarfSend_inv {s : State} (b : Nat) (c : Conv) (k : Nat) (hs : Inv s) : Inv (scarfSend s b c k) := by
  unfold scarfSend; simp (maxDischargeDepth := 40) [*]

@[simp] theorem rowValues_inv {s : State} (b : Nat) (c : Conv) (rows : List InRow) (oy : Nat) (ns : List Nat) (hs : Inv s) :
    Inv (rowValues s b c rows oy ns).2 := by
  unfold rowValues; (repeat' split) <;> simp (maxDischargeDepth := 40) [*]

@[simp] theorem convWait_inv {s : State} (b : Nat) (k : Composite) (hs : Inv s) : Inv (convWait s b k).1 := by
  unfold convWait; simp (maxDischargeDepth := 40) [*]

@[simp] theorem writeSpans_inv {s : State} (b a : Nat) (torn : Bool) (bs : Bytes) (spans : List (Nat × Nat)) (hs : Inv s) :
    Inv (writeSpans s b a torn bs spans) := by
  unfold writeSpans; simp +contextual (maxDischargeDepth := 40) [*]

@[simp] theorem convRow_inv {s : State} (b : Nat) (k : Composite) (hs : Inv s) : GoodR (convRow s b k) := by
  unfold convRow; dsimp only; (repeat' split) <;> simp +contextual (maxDischargeDepth := 40) [*]

@[simp] theorem convStart_inv (op : Nat) {s : State} (b : Nat) (q : QWord) (hs : Inv s) : GoodE (convStart op s b q) := by
  unfold convStart; simp (maxDischargeDepth := 40) [*]

@[simp] theorem convFinish_inv {s : State} (b : Nat) (k : Composite) (hs : Inv s) : Inv (convFinish s b k) := by
  unfold convFinish; simp (maxDischargeDepth := 40) [*]

@[simp] theorem convWorks_row {s : State} (b : Nat) (c : Composite) (hs : Inv s) : GoodR (convWorks.row s b c) :=
  convRow_inv b c hs
@[simp] theorem convWorks_finish {s : State} (b : Nat) (c : Composite) (hs : Inv s) : Inv (convWorks.finish s b c) :=
  convFinish_inv b c hs
@[simp] theorem execConvolution_inv (b n : Nat) {s : State} (hs : Inv s) : Kept (execConvolution b n s) :=
  Kept_next.mpr (compositeRow_inv _ _ _ _ _ _ _ hs (fun _ b q h => convStart_inv _ b q h)
    (fun _ b c h => convWait_inv b c h) (fun _ b c h => convWorks_row b c h) (fun _ b c h => convWorks_finish b c h))

@[simp] theorem execDepthwiseConvolution_inv (b n : Nat) {s : State} (hs : Inv s) : Kept (execDepthwiseConvolution b n s) :=
  Kept_next.mpr (compositeRow_inv _ _ _ _ _ _ _ hs (fun _ b q h => convStart_inv _ b q h)
    (fun _ b c h => convWait_inv b c h) (fun _ b c h => convWorks_row b c h) (fun _ b c h => convWorks_finish b c h))

@[simp] theorem execMaxPooling_inv (b n : Nat) {s : State} (hs : Inv s) : Kept (execMaxPooling b n s) :=
  Kept_next.mpr (compositeRow_inv _ _ _ _ _ _ _ hs (fun _ b q h => convStart_inv _ b q h)
    (fun _ b c h => convWait_inv b c h) (fun _ b c h => convWorks_row b c h) (fun _ b c h => convWorks_finish b c h))

@[simp] theorem execAveragePooling_inv (b n : Nat) {s : State} (hs : Inv s) : Kept (execAveragePooling b n s) :=
  Kept_next.mpr (compositeRow_inv _ _ _ _ _ _ _ hs (fun _ b q h => convStart_inv _ b q h)
    (fun _ b c h => convWait_inv b c h) (fun _ b c h => convWorks_row b c h) (fun _ b c h => convWorks_finish b c h))

@[simp] theorem scarfResume_inv {s : State} (b n : Nat) (hs : Inv s) : Inv (scarfResume s b n) := by
  unfold scarfResume; split
  · split
    · exact hs
    · dsimp only; split
      · exact runRows_inv _ (fun _ b c h => convWait_inv b c h) (fun _ b c h => convWorks_row b c h)
          (fun _ b c h => convWorks_finish b c h) _ _ (setBay_inv _ _ hs)
      · exact hs
  · exact hs

@[simp] theorem execScarfResume_inv (b n : Nat) {s : State} (hs : Inv s) : Kept (execScarfResume b n s) := by
  unfold execScarfResume; simp (maxDischargeDepth := 40) [*]

/-! ### Machine/Ramp.lean -/

@[simp] theorem setPresses_inv {s : State} (l : List (Nat × Nat)) (v : Nat) (hs : Inv s) : Inv (setPresses s l v) := by
  unfold setPresses; simp +contextual (maxDischargeDepth := 40) [*]

@[simp] theorem tick0_inv {s : State} (hs : Inv s) : Inv (tick0 s) := by
  unfold tick0; simp (maxDischargeDepth := 40) [*]

@[simp] theorem countPressCycles_inv {s : State} (hs : Inv s) : Inv (countPressCycles s) := by
  unfold countPressCycles; simp +contextual (maxDischargeDepth := 40) [*]

@[simp] theorem tickK_inv {s : State} (hs : Inv s) : Inv (tickK s) := by
  unfold tickK; simp (maxDischargeDepth := 40) [*]

@[simp] theorem rampTick_inv {s : State} (hs : Inv s) : Inv (rampTick s) := by
  unfold rampTick; simp (maxDischargeDepth := 40) [*]

@[simp] theorem execRampTick_inv {s : State} (hs : Inv s) : Kept (execRampTick s) := by
  unfold execRampTick; simp (maxDischargeDepth := 40) [*]

end Sys2Proof.Machine
end

