-- ==== Sys2Proof/Laws/KeptHost.lean ====
section
/-! SUPPORT. Every operation and command of host ports, register accesses, functions, claim, tally, fence and fault log keeps the granary's canonical form. -/

set_option linter.unusedTactic false
set_option linter.unreachableTactic false
set_option linter.unusedSimpArgs false
set_option linter.unusedVariables false

namespace Sys2Proof.Machine

/-! ### Machine/Host.lean -/

@[simp] theorem setSqr_inv {s : State} (f n : Nat) (x : SqRing) (hs : Inv s) : Inv (setSqr s f n x) := by
  unfold setSqr; simp (maxDischargeDepth := 40) [*]

@[simp] theorem disableEq_inv {s : State} (f n : Nat) (hs : Inv s) : Inv (disableEq s f n) := by
  unfold disableEq; simp +contextual (maxDischargeDepth := 40) [*]

@[simp] theorem enableEq_inv {s : State} (f n : Nat) (hs : Inv s) : Inv (enableEq s f n) := by
  unfold enableEq; simp (maxDischargeDepth := 40) [*]

@[simp] theorem ringCfg_inv {s : State} (f k off v : Nat) (ok : Bool) (enBit mask : Nat) (off? on? : State → State) (hs : Inv
    s) (hoff? : ∀ (x0 : State), Inv x0 → Inv (off? x0)) (hon? : ∀ (x0 : State), Inv x0 → Inv (on? x0)) : Inv (ringCfg s f k
    off v ok enBit mask off? on?) := by
  unfold ringCfg; simp (maxDischargeDepth := 40) [*]

@[simp] theorem sqCfgWrite_inv (a : Access) (v : Nat) {s : State} (hs : Inv s) : Inv (sqCfgWrite a v s) := by
  unfold sqCfgWrite
  repeat' (first
    | with_reducible assumption
    | (extract_lets +lift +onlyGivenNames t; have ht : Inv t := (by (first | with_reducible assumption | (simp +contextual (maxDischargeDepth := 40) [t, *]; done) | (dsimp only [t]; (repeat' split) <;> (simp +contextual (maxDischargeDepth := 40) [*]; done)))); clear_value t)
    | (extract_lets +lift +onlyGivenNames t; clear_value t)
    | split
    | with_reducible refine Inv_foldl ?_ (fun s x h => ?_)
    | with_reducible refine Inv_foldl_draft ?_ (fun b x h => ?_)
    | (simp +contextual (maxDischargeDepth := 40) [*]; done)
    | (simp +contextual +zetaDelta (maxDischargeDepth := 40) [*]; done))

@[simp] theorem execSqCfgWrite_inv (a : Access) (v : Nat) {s : State} (hs : Inv s) : Kept (execSqCfgWrite a v s) := by
  unfold execSqCfgWrite; simp (maxDischargeDepth := 40) [*]

@[simp] theorem eqCfgWrite_inv (a : Access) (v : Nat) {s : State} (hs : Inv s) : Inv (eqCfgWrite a v s) := by
  unfold eqCfgWrite
  repeat' (first
    | with_reducible assumption
    | (extract_lets +lift +onlyGivenNames t; have ht : Inv t := (by (first | with_reducible assumption | (simp +contextual (maxDischargeDepth := 40) [t, *]; done) | (dsimp only [t]; (repeat' split) <;> (simp +contextual (maxDischargeDepth := 40) [*]; done)))); clear_value t)
    | (extract_lets +lift +onlyGivenNames t; clear_value t)
    | split
    | with_reducible refine Inv_foldl ?_ (fun s x h => ?_)
    | with_reducible refine Inv_foldl_draft ?_ (fun b x h => ?_)
    | (simp +contextual (maxDischargeDepth := 40) [*]; done)
    | (simp +contextual +zetaDelta (maxDischargeDepth := 40) [*]; done))

@[simp] theorem execEqCfgWrite_inv (a : Access) (v : Nat) {s : State} (hs : Inv s) : Kept (execEqCfgWrite a v s) := by
  unfold execEqCfgWrite; simp (maxDischargeDepth := 40) [*]

@[simp] theorem ring_inv {s : State} (a : Access) (off size v : Nat) (on : Bool) (f : State → State) (hs : Inv s) (hf : ∀ (x0
    : State), Inv x0 → Inv (f x0)) : Inv (ring s a off size v on f) := by
  unfold ring; simp (maxDischargeDepth := 40) [*]

@[simp] theorem sqDoorbell_inv (a : Access) (v : Nat) {s : State} (hs : Inv s) : Inv (sqDoorbell a v s) := by
  unfold sqDoorbell
  repeat' (first
    | with_reducible assumption
    | (extract_lets +lift +onlyGivenNames t; have ht : Inv t := (by (first | with_reducible assumption | (simp +contextual (maxDischargeDepth := 40) [t, *]; done) | (dsimp only [t]; (repeat' split) <;> (simp +contextual (maxDischargeDepth := 40) [*]; done)))); clear_value t)
    | (extract_lets +lift +onlyGivenNames t; clear_value t)
    | split
    | with_reducible refine Inv_foldl ?_ (fun s x h => ?_)
    | with_reducible refine Inv_foldl_draft ?_ (fun b x h => ?_)
    | (simp +contextual (maxDischargeDepth := 40) [*]; done)
    | (simp +contextual +zetaDelta (maxDischargeDepth := 40) [*]; done))

@[simp] theorem execSqDoorbell_inv (a : Access) (v : Nat) {s : State} (hs : Inv s) : Kept (execSqDoorbell a v s) := by
  unfold execSqDoorbell; simp (maxDischargeDepth := 40) [*]

@[simp] theorem ringIrq_inv {s : State} (f n : Nat) (hs : Inv s) : Inv (ringIrq s f n) := by
  unfold ringIrq; (repeat' split) <;> simp (maxDischargeDepth := 40) [*]

@[simp] theorem passBatches_inv {s : State} (f n : Nat) (hs : Inv s) : Inv (passBatches s f n) := by
  unfold passBatches; simp +contextual (maxDischargeDepth := 40) [*]

@[simp] theorem eqDoorbell_inv (a : Access) (v : Nat) {s : State} (hs : Inv s) : Inv (eqDoorbell a v s) := by
  unfold eqDoorbell
  repeat' (first
    | with_reducible assumption
    | (extract_lets +lift +onlyGivenNames t; have ht : Inv t := (by (first | with_reducible assumption | (simp +contextual (maxDischargeDepth := 40) [t, *]; done) | (dsimp only [t]; (repeat' split) <;> (simp +contextual (maxDischargeDepth := 40) [*]; done)))); clear_value t)
    | (extract_lets +lift +onlyGivenNames t; clear_value t)
    | split
    | with_reducible refine Inv_foldl ?_ (fun s x h => ?_)
    | with_reducible refine Inv_foldl_draft ?_ (fun b x h => ?_)
    | (simp +contextual (maxDischargeDepth := 40) [*]; done)
    | (simp +contextual +zetaDelta (maxDischargeDepth := 40) [*]; done))

@[simp] theorem execEqHeadDoorbell_inv (a : Access) (v : Nat) {s : State} (hs : Inv s) : Kept (execEqHeadDoorbell a v s) := by
  unfold execEqHeadDoorbell; simp (maxDischargeDepth := 40) [*]

@[simp] theorem settleFetch_inv (k : Nat) {s : State} (src : Nat) (hs : Inv s) : Inv (settleFetch k s src) := by
  induction k generalizing s with
  | zero => exact hs
  | succ k ih =>
    unfold settleFetch; repeat' split
    all_goals first | exact hs | exact ih (by simp (maxDischargeDepth := 40) [hs])

@[simp] theorem takeCommand_inv {s : State} (f n : Nat) (body : Bytes) (hs : Inv s) : Inv (takeCommand s f n body) := by
  unfold takeCommand; simp (maxDischargeDepth := 40) [*]

@[simp] theorem fetchReturn_inv (f n : Nat) (body : Bytes) {s : State} (hs : Inv s) : Inv (fetchReturn f n body s) := by
  unfold fetchReturn; (repeat' split) <;> simp (maxDischargeDepth := 40) [*]

@[simp] theorem execCommandFetchReturn_inv (func r : Nat) (body : Bytes) {s : State} (hs : Inv s) : Kept
    (execCommandFetchReturn func r body s) := by
  unfold execCommandFetchReturn; simp (maxDischargeDepth := 40) [*]

@[simp] theorem fetchFails_inv (f n : Nat) {s : State} (hs : Inv s) : Inv (fetchFails f n s) := by
  unfold fetchFails; simp (maxDischargeDepth := 40) [*]

@[simp] theorem execCmdFetch_inv (func r : Nat) {s : State} (hs : Inv s) : Kept (execCmdFetch func r s) := by
  unfold execCmdFetch; simp (maxDischargeDepth := 40) [*]

@[simp] theorem execNop_inv (src : Nat) {s : State} (hs : Inv s) : Kept (execNop src s) := by
  unfold execNop; simp (maxDischargeDepth := 40) [*]

@[simp] theorem msixWrite_inv (p f off v : Nat) {s : State} (hs : Inv s) : Inv (msixWrite p f off v s) := by
  unfold msixWrite; simp (maxDischargeDepth := 40) [*]

@[simp] theorem unmaskPending_inv {s : State} (p f : Nat) (hs : Inv s) : Inv (unmaskPending s p f) := by
  unfold unmaskPending; simp +contextual (maxDischargeDepth := 40) [*]

@[simp] theorem cfgWrite_inv {s : State} (p : Nat) (c : CfgField) (v : Nat) (hs : Inv s) : Inv (cfgWrite s p c v) := by
  unfold cfgWrite; (repeat' split) <;> simp (maxDischargeDepth := 40) [*]

@[simp] theorem execMsixTableWrite_inv (p f off v : Nat) {s : State} (hs : Inv s) : Kept (execMsixTableWrite p f off v s) := by
  unfold execMsixTableWrite; simp (maxDischargeDepth := 40) [*]

@[simp] theorem sendIdentity_inv {s : State} (p : Nat) (hs : Inv s) : Inv (sendIdentity s p) := by
  unfold sendIdentity; simp (maxDischargeDepth := 40) [*]

@[simp] theorem execIdentSend_inv (a : Access) (v : Nat) {s : State} (hs : Inv s) : Kept (execIdentSend a v s) := by
  unfold execIdentSend; simp +contextual (maxDischargeDepth := 40) [*]

@[simp] theorem ringLinkDown_inv {s : State} (f n p : Nat) (hs : Inv s) : Inv (ringLinkDown s f n p) := by
  unfold ringLinkDown; simp (maxDischargeDepth := 40) [*]

@[simp] theorem linkDown_inv (p : Nat) {s : State} (hs : Inv s) : Inv (linkDown p s) := by
  unfold linkDown
  repeat' (first
    | with_reducible assumption
    | (extract_lets +lift +onlyGivenNames t; have ht : Inv t := (by (first | with_reducible assumption | (simp +contextual (maxDischargeDepth := 40) [t, *]; done) | (dsimp only [t]; (repeat' split) <;> (simp +contextual (maxDischargeDepth := 40) [*]; done)))); clear_value t)
    | (extract_lets +lift +onlyGivenNames t; clear_value t)
    | split
    | with_reducible refine Inv_foldl ?_ (fun s x h => ?_)
    | with_reducible refine Inv_foldl_draft ?_ (fun b x h => ?_)
    | (simp +contextual (maxDischargeDepth := 40) [*]; done)
    | (simp +contextual +zetaDelta (maxDischargeDepth := 40) [*]; done))

@[simp] theorem execLinkDown_inv (p : Nat) {s : State} (hs : Inv s) : Kept (execLinkDown p s) := by
  unfold execLinkDown; simp (maxDischargeDepth := 40) [*]

@[simp] theorem perst_inv (p : Nat) {s : State} (hs : Inv s) : Inv (perst p s) := by
  unfold perst; simp (maxDischargeDepth := 40) [*]

@[simp] theorem execPerst_inv (p : Nat) {s : State} (hs : Inv s) : Kept (execPerst p s) := by
  unfold execPerst; simp (maxDischargeDepth := 40) [*]

@[simp] theorem execPerstRelease_inv (p : Nat) {s : State} (hs : Inv s) : Kept (execPerstRelease p s) := by
  unfold execPerstRelease; simp (maxDischargeDepth := 40) [*]

@[simp] theorem cfgAnswer_inv {s : State} (p : Nat) (c : Option CfgField) (v : Option Nat) (hs : Inv s) : Inv (cfgAnswer s p
    c v) := by
  unfold cfgAnswer; (repeat' split) <;> simp (maxDischargeDepth := 40) [*]

@[simp] theorem configRequest_inv (p : Nat) (c : Option CfgField) (v : Option Nat) {s : State} (hs : Inv s) : Inv
    (configRequest p c v s) := by
  unfold configRequest; simp (maxDischargeDepth := 40) [*]

@[simp] theorem execConfigRequest_inv (p : Nat) (c : Option CfgField) (v : Option Nat) {s : State} (hs : Inv s) : Kept
    (execConfigRequest p c v s) := by
  unfold execConfigRequest; simp (maxDischargeDepth := 40) [*]

@[simp] theorem linkUp_inv {s : State} (p link : Nat) (hs : Inv s) : Inv (linkUp s p link) := by
  unfold linkUp; simp +contextual (maxDischargeDepth := 40) [*]

/-! ### Machine/Register.lean -/

@[simp] theorem readAt_inv {s : State} (a : Access) (pl : Place) (hs : Inv s) : Inv (readAt s a pl).1 := by
  unfold readAt; (repeat' split) <;> simp (maxDischargeDepth := 40) [*]

@[simp] theorem writeTxn_inv {s : State} (a : Access) (pl : Place) (v : Nat) (hs : Inv s) : Inv (writeTxn s a pl v) := by
  unfold writeTxn
  repeat' (first
    | with_reducible assumption
    | (extract_lets +lift +onlyGivenNames t; have ht : Inv t := (by (first | with_reducible assumption | (simp +contextual (maxDischargeDepth := 40) [t, *]; done) | (dsimp only [t]; (repeat' split) <;> (simp +contextual (maxDischargeDepth := 40) [*]; done)))); clear_value t)
    | (extract_lets +lift +onlyGivenNames t; clear_value t)
    | split
    | with_reducible refine Inv_foldl ?_ (fun s x h => ?_)
    | with_reducible refine Inv_foldl_draft ?_ (fun b x h => ?_)
    | (simp +contextual (maxDischargeDepth := 40) [*]; done)
    | (simp +contextual +zetaDelta (maxDischargeDepth := 40) [*]; done))

@[simp] theorem writeWain_inv {s : State} (a : Access) (pl : Place) (v : Nat) (hs : Inv s) : Inv (writeWain s a pl v) := by
  unfold writeWain; simp (maxDischargeDepth := 40) [*]

@[simp] theorem writeRingBase_inv {s : State} (a : Access) (pl : Place) (v : Nat) (hs : Inv s) : Inv (writeRingBase s a pl v) := by
  unfold writeRingBase; simp (maxDischargeDepth := 40) [*]

@[simp] theorem writeReg_inv {s : State} (a : Access) (pl : Place) (v : Nat) (hs : Inv s) : Inv (writeReg s a pl v) := by
  unfold writeReg; simp (maxDischargeDepth := 40) [*]

@[simp] theorem execBlkExpert_inv (a : Access) (v : Nat) {s : State} (hs : Inv s) : Kept (execBlkExpert a v s) := by
  unfold execBlkExpert; simp +contextual (maxDischargeDepth := 40) [*]

@[simp] theorem execBlkErrClear_inv (a : Access) (v : Nat) {s : State} (hs : Inv s) : Kept (execBlkErrClear a v s) := by
  unfold execBlkErrClear; simp +contextual (maxDischargeDepth := 40) [*]

@[simp] theorem bayReset_inv {s : State} (b : Nat) (hs : Inv s) : Inv (bayReset s b) := by
  unfold bayReset; simp (maxDischargeDepth := 40) [*]

@[simp] theorem softReset_inv {s : State} (page : Nat) (hs : Inv s) : Inv (softReset s page) := by
  unfold softReset; simp (maxDischargeDepth := 40) [*]

@[simp] theorem execSreset_inv (a : Access) (v : Nat) {s : State} (hs : Inv s) : Kept (execSreset a v s) := by
  unfold execSreset; simp +contextual (maxDischargeDepth := 40) [*]

/-! ### Machine/Functions.lean -/

@[simp] theorem setTenant_inv {s : State} (f : Nat) (x : Tenant) (hs : Inv s) : Inv (setTenant s f x) := by
  unfold setTenant; simp (maxDischargeDepth := 40) [*]

@[simp] theorem applyResources_inv {s : State} (f : Nat) (hs : Inv s) : Inv (applyResources s f) := by
  unfold applyResources; simp +contextual (maxDischargeDepth := 40) [*]

@[simp] theorem postFuncState_inv {s : State} (f st cause code bytes : Nat) (hs : Inv s) : Inv (postFuncState s f st cause
    code bytes) := by
  unfold postFuncState; simp (maxDischargeDepth := 40) [*]

@[simp] theorem enabled_inv {s : State} (f : Nat) (hs : Inv s) : Inv (enabled s f) := by
  unfold enabled; extract_lets +lift; (repeat' split) <;> simp +zetaDelta (maxDischargeDepth := 40) [*]

@[simp] theorem beginEnable_inv {s : State} (f : Nat) (cmd : Option Nat) (hs : Inv s) : Inv (beginEnable s f cmd) := by
  unfold beginEnable; simp +contextual (maxDischargeDepth := 40) [*]

@[simp] theorem funcEnable_inv {s : State} (c : Cmd) (hs : Inv s) : Inv (funcEnable s c) := by
  unfold funcEnable; (repeat' split) <;> simp (maxDischargeDepth := 40) [*]

@[simp] theorem execFuncEnable_inv (src : Nat) {s : State} (hs : Inv s) : Kept (execFuncEnable src s) := by
  unfold execFuncEnable; simp +contextual (maxDischargeDepth := 40) [*]

@[simp] theorem dropCommands_inv {s : State} (f : Nat) (silent : Bool) (hs : Inv s) : Inv (dropCommands s f silent) := by
  unfold dropCommands; simp +contextual (maxDischargeDepth := 40) [*]

@[simp] theorem disableStep1_inv {s : State} (f : Nat) (silent : Bool) (hs : Inv s) : Inv (disableStep1 s f silent) := by
  unfold disableStep1; simp (maxDischargeDepth := 40) [*]

@[simp] theorem startKill_inv {s : State} (f cause : Nat) (flr : Bool) (hs : Inv s) : Inv (startKill s f cause flr) := by
  unfold startKill; simp +contextual (maxDischargeDepth := 40) [*]

@[simp] theorem startDrain_inv {s : State} (f : Nat) (hs : Inv s) : Inv (startDrain s f) := by
  unfold startDrain; simp (maxDischargeDepth := 40) [*]

@[simp] theorem funcDisable_inv (mode : Nat) {s : State} (c : Cmd) (hs : Inv s) : Inv (funcDisable mode s c) := by
  unfold funcDisable; dsimp only; (repeat' split) <;> simp +contextual (maxDischargeDepth := 40) [*]

@[simp] theorem disableCmd_inv {s : State} (src mode : Nat) (hs : Inv s) : Inv (disableCmd s src mode) := by
  unfold disableCmd
  repeat' (first
    | with_reducible assumption
    | (extract_lets +lift +onlyGivenNames t; have ht : Inv t := (by (first | with_reducible assumption | (simp +contextual (maxDischargeDepth := 40) [t, *]; done) | (dsimp only [t]; (repeat' split) <;> (simp +contextual (maxDischargeDepth := 40) [*]; done)))); clear_value t)
    | (extract_lets +lift +onlyGivenNames t; clear_value t)
    | split
    | with_reducible refine Inv_foldl ?_ (fun s x h => ?_)
    | with_reducible refine Inv_foldl_draft ?_ (fun b x h => ?_)
    | (simp +contextual (maxDischargeDepth := 40) [*]; done)
    | (simp +contextual +zetaDelta (maxDischargeDepth := 40) [*]; done))

@[simp] theorem execFuncDisableDrain_inv (src : Nat) {s : State} (hs : Inv s) : Kept (execFuncDisableDrain src s) := by
  unfold execFuncDisableDrain; simp (maxDischargeDepth := 40) [*]

@[simp] theorem execFuncDisableKill_inv (src : Nat) {s : State} (hs : Inv s) : Kept (execFuncDisableKill src s) := by
  unfold execFuncDisableKill; simp (maxDischargeDepth := 40) [*]

@[simp] theorem drainComplete_inv (f : Nat) {s : State} (hs : Inv s) : Inv (drainComplete f s) := by
  unfold drainComplete; simp (maxDischargeDepth := 40) [*]

@[simp] theorem execFuncDrainComplete_inv (f : Nat) {s : State} (hs : Inv s) : Kept (execFuncDrainComplete f s) := by
  unfold execFuncDrainComplete; simp (maxDischargeDepth := 40) [*]

@[simp] theorem drainTimeout_inv (f : Nat) {s : State} (hs : Inv s) : Inv (drainTimeout f s) := by
  unfold drainTimeout; simp (maxDischargeDepth := 40) [*]

@[simp] theorem execFuncDrainTimeout_inv (f : Nat) {s : State} (hs : Inv s) : Kept (execFuncDrainTimeout f s) := by
  unfold execFuncDrainTimeout; simp (maxDischargeDepth := 40) [*]

@[simp] theorem disabled_inv {s : State} (f : Nat) (hs : Inv s) : Inv (disabled s f) := by
  unfold disabled; simp +contextual (maxDischargeDepth := 40) [*]

@[simp] theorem killDone_inv (f : Nat) {s : State} (hs : Inv s) : Inv (killDone f s) := by
  unfold killDone; simp (maxDischargeDepth := 40) [*]

@[simp] theorem execFuncKillDone_inv (f : Nat) {s : State} (hs : Inv s) : Kept (execFuncKillDone f s) := by
  unfold execFuncKillDone; simp (maxDischargeDepth := 40) [*]

@[simp] theorem scrubRange_inv {s : State} (a n : Nat) (hs : Inv s) : Inv (scrubRange s a n) := by
  unfold scrubRange; simp (maxDischargeDepth := 40) [*]

@[simp] theorem countScrub_inv {s : State} (n : Nat) (hs : Inv s) : Inv (countScrub s n) := by
  unfold countScrub; simp (maxDischargeDepth := 40) [*]

@[simp] theorem tenantScrubbed_inv {s : State} (f : Nat) (hs : Inv s) : Inv (tenantScrubbed s f) := by
  unfold tenantScrubbed; extract_lets +lift; (repeat' split) <;> simp +zetaDelta (maxDischargeDepth := 40) [*]

@[simp] theorem disableRings_inv {s : State} (f : Nat) (hs : Inv s) : Inv (disableRings s f) := by
  unfold disableRings; simp +contextual (maxDischargeDepth := 40) [*]

@[simp] theorem flr_inv (p f : Nat) {s : State} (hs : Inv s) : Inv (flr p f s) := by
  unfold flr; simp +contextual (maxDischargeDepth := 40) [*]

@[simp] theorem execFlr_inv (p f : Nat) {s : State} (hs : Inv s) : Kept (execFlr p f s) := by
  unfold execFlr; simp (maxDischargeDepth := 40) [*]

/-! ### Machine/Wiring.lean -/

@[simp] theorem postEject_inv {s : State} (event source code : Nat) (deadline : Nat) (step : Nat) (moment : Nat) (hs : Inv s)
    : Inv (postEject s event source code deadline step moment) := by
  unfold postEject; simp +contextual (maxDischargeDepth := 40) [*]

@[simp] theorem showSlot_inv {s : State} (hs : Inv s) : Inv (showSlot s) := by
  unfold showSlot; simp (maxDischargeDepth := 40) [*]

@[simp] theorem postWiring_inv {s : State} (event : Nat) (hs : Inv s) : Inv (postWiring s event) := by
  unfold postWiring; simp (maxDischargeDepth := 40) [*]

@[simp] theorem reportWiring_inv {s : State} (bad cross : Bool) (hs : Inv s) : Inv (reportWiring s bad cross) := by
  unfold reportWiring; simp (maxDischargeDepth := 40) [*]

@[simp] theorem wiringCheck_inv {s : State} (hs : Inv s) : Inv (wiringCheck s) := by
  unfold wiringCheck; simp (maxDischargeDepth := 40) [*]

@[simp] theorem wiringPlan_inv {s : State} (c : Cmd) (hs : Inv s) : Inv (wiringPlan s c) := by
  unfold wiringPlan; simp (maxDischargeDepth := 40) [*]

@[simp] theorem execWiringPlan_inv (src : Nat) {s : State} (hs : Inv s) : Kept (execWiringPlan src s) := by
  unfold execWiringPlan; simp +contextual (maxDischargeDepth := 40) [*]

@[simp] theorem wiringSeen_inv {s : State} (k p : Nat) (hs : Inv s) : Inv (wiringSeen s k p) := by
  unfold wiringSeen; simp (maxDischargeDepth := 40) [*]

/-! ### Machine/Claim.lean -/

@[simp] theorem setPathLive_inv {s : State} (k path : Nat) (b : Bool) (hs : Inv s) : Inv (setPathLive s k path b) := by
  unfold setPathLive; simp (maxDischargeDepth := 40) [*]

@[simp] theorem showSplit_inv {s : State} (hs : Inv s) : Inv (showSplit s) := by
  unfold showSplit; simp (maxDischargeDepth := 40) [*]

@[simp] theorem arrives_inv {s : State} (k path : Nat) (claim : Option Nat) (hs : Inv s) : Inv (arrives s k path claim) := by
  unfold arrives; (repeat' split) <;> simp (maxDischargeDepth := 40) [*]

@[simp] theorem silentRecord_inv {s : State} (k : Nat) (hs : Inv s) : Inv (silentRecord s k) := by
  unfold silentRecord; simp +contextual (maxDischargeDepth := 40) [*]

@[simp] theorem execLivenessTick_inv {s : State} (hs : Inv s) : Kept (execLivenessTick s) := by
  unfold execLivenessTick; simp (maxDischargeDepth := 40) [*]

@[simp] theorem execHeartbeatTimer_inv {s : State} (hs : Inv s) : Kept (execHeartbeatTimer s) := by
  unfold execHeartbeatTimer; simp (maxDischargeDepth := 40) [*]

@[simp] theorem postUnclean_inv {s : State} (hs : Inv s) : Inv (postUnclean s) := by
  unfold postUnclean; (repeat' split) <;> simp (maxDischargeDepth := 40) [*]

@[simp] theorem acceptClaim_inv {s : State} (k claim : Nat) (hs : Inv s) : Inv (acceptClaim s k claim) := by
  unfold acceptClaim; simp (maxDischargeDepth := 40) [*]

@[simp] theorem requestClaim_inv {s : State} (k claim : Nat) (hs : Inv s) : Inv (requestClaim s k claim) := by
  unfold requestClaim; simp (maxDischargeDepth := 40) [*]

@[simp] theorem heartbeat_inv {s : State} (k path claim : Nat) (hs : Inv s) : Inv (heartbeat s k path claim) := by
  unfold heartbeat; simp (maxDischargeDepth := 40) [*]

@[simp] theorem pcieHeartbeat_inv {s : State} (k p claim : Nat) (hs : Inv s) : Inv (pcieHeartbeat s k p claim) := by
  unfold pcieHeartbeat; simp (maxDischargeDepth := 40) [*]

@[simp] theorem hbHi_inv (a : Access) (wide : Bool) (v : Nat) {s : State} (hs : Inv s) : Inv (hbHi a wide v s) := by
  unfold hbHi
  repeat' (first
    | with_reducible assumption
    | (extract_lets +lift +onlyGivenNames t; have ht : Inv t := (by (first | with_reducible assumption | (simp +contextual (maxDischargeDepth := 40) [t, *]; done) | (dsimp only [t]; (repeat' split) <;> (simp +contextual (maxDischargeDepth := 40) [*]; done)))); clear_value t)
    | (extract_lets +lift +onlyGivenNames t; clear_value t)
    | split
    | with_reducible refine Inv_foldl ?_ (fun s x h => ?_)
    | with_reducible refine Inv_foldl_draft ?_ (fun b x h => ?_)
    | (simp +contextual (maxDischargeDepth := 40) [*]; done)
    | (simp +contextual +zetaDelta (maxDischargeDepth := 40) [*]; done))

@[simp] theorem execHbHi_inv (a : Access) (wide : Bool) (v : Nat) {s : State} (hs : Inv s) : Kept (execHbHi a wide v s) := by
  unfold execHbHi; simp (maxDischargeDepth := 40) [*]

@[simp] theorem dropFrame_inv {s : State} (k : Nat) (hs : Inv s) : Inv (dropFrame s k) := by
  unfold dropFrame; simp (maxDischargeDepth := 40) [*]

@[simp] theorem takeFrame_inv {s : State} (k mac : Nat) (f : Bytes) (hs : Inv s) : Inv (takeFrame s k mac f) := by
  unfold takeFrame; simp (maxDischargeDepth := 40) [*]

@[simp] theorem mgmtHeartbeat_inv (k mac : Nat) (f : Bytes) {s : State} (hs : Inv s) : Inv (mgmtHeartbeat k mac f s) := by
  unfold mgmtHeartbeat; simp (maxDischargeDepth := 40) [*]

@[simp] theorem execHeartbeat_inv (k mac : Nat) (f : Bytes) {s : State} (hs : Inv s) : Kept (execHeartbeat k mac f s) := by
  unfold execHeartbeat; simp (maxDischargeDepth := 40) [*]

@[simp] theorem mgmtRequest_inv (k mac : Nat) (f : Bytes) {s : State} (hs : Inv s) : Inv (mgmtRequest k mac f s) := by
  unfold mgmtRequest; simp (maxDischargeDepth := 40) [*]

@[simp] theorem execRequest_inv (k mac : Nat) (f : Bytes) {s : State} (hs : Inv s) : Kept (execRequest k mac f s) := by
  unfold execRequest; simp (maxDischargeDepth := 40) [*]

@[simp] theorem relearn_inv (a : Access) (v : Nat) {s : State} (hs : Inv s) : Inv (relearn a v s) := by
  unfold relearn; simp +contextual (maxDischargeDepth := 40) [*]

@[simp] theorem execRelearn_inv (a : Access) (v : Nat) {s : State} (hs : Inv s) : Kept (execRelearn a v s) := by
  unfold execRelearn; simp (maxDischargeDepth := 40) [*]

@[simp] theorem mgmtLinkChange_inv (k : Nat) (up pol : Bool) {s : State} (hs : Inv s) : Inv (mgmtLinkChange k up pol s) := by
  unfold mgmtLinkChange; simp (maxDischargeDepth := 40) [*]

@[simp] theorem execMgmtLinkChange_inv (k : Nat) (up pol : Bool) {s : State} (hs : Inv s) : Kept (execMgmtLinkChange k up pol
    s) := by
  unfold execMgmtLinkChange; simp (maxDischargeDepth := 40) [*]

@[simp] theorem choosePtp_inv {s : State} (hs : Inv s) : Inv (choosePtp s) := by
  unfold choosePtp; simp (maxDischargeDepth := 40) [*]

@[simp] theorem servo_inv {s : State} (hs : Inv s) : Inv (servo s) := by
  unfold servo; simp (maxDischargeDepth := 40) [*]

@[simp] theorem ptpMessage_inv (k : Nat) (m : PtpMsg) {s : State} (hs : Inv s) : Inv (ptpMessage k m s) := by
  unfold ptpMessage; (repeat' split) <;> simp (maxDischargeDepth := 40) [*]

@[simp] theorem execPtpMessage_inv (k : Nat) (m : PtpMsg) {s : State} (hs : Inv s) : Kept (execPtpMessage k m s) := by
  unfold execPtpMessage; simp (maxDischargeDepth := 40) [*]

@[simp] theorem ptpTimeout_inv (k : Nat) {s : State} (hs : Inv s) : Inv (ptpTimeout k s) := by
  unfold ptpTimeout; simp (maxDischargeDepth := 40) [*]

@[simp] theorem execPtpAnnounceTimeout_inv (k : Nat) {s : State} (hs : Inv s) : Kept (execPtpAnnounceTimeout k s) := by
  unfold execPtpAnnounceTimeout; simp (maxDischargeDepth := 40) [*]

/-! ### Machine/Tally.lean -/

@[simp] theorem setShare_inv {s : State} (w : Nat) (hs : Inv s) : Inv (setShare s w) := by
  unfold setShare; simp (maxDischargeDepth := 40) [*]

@[simp] theorem pwrPool_inv {s : State} (c : Cmd) (hs : Inv s) : Inv (pwrPool s c) := by
  unfold pwrPool; simp (maxDischargeDepth := 40) [*]

@[simp] theorem execPwrPool_inv (src : Nat) {s : State} (hs : Inv s) : Kept (execPwrPool src s) := by
  unfold execPwrPool; simp +contextual (maxDischargeDepth := 40) [*]

@[simp] theorem takeRecord_inv {s : State} (c : Nat) (payload : Bytes) (hs : Inv s) : Inv (takeRecord s c payload) := by
  unfold takeRecord; simp (maxDischargeDepth := 40) [*]

@[simp] theorem broadcast_inv {s : State} (c : Nat) (payload : Bytes) (hs : Inv s) : Inv (broadcast s c payload) := by
  unfold broadcast; simp (maxDischargeDepth := 40) [*]

@[simp] theorem poolRound_inv {s : State} (hs : Inv s) : Inv (poolRound s) := by
  unfold poolRound; simp (maxDischargeDepth := 40) [*]

@[simp] theorem execPoolRound_inv {s : State} (hs : Inv s) : Kept (execPoolRound s) := by
  unfold execPoolRound; simp (maxDischargeDepth := 40) [*]

@[simp] theorem applyShare_inv {s : State} (w : Nat) (hs : Inv s) : Inv (applyShare s w) := by
  unfold applyShare; simp (maxDischargeDepth := 40) [*]

@[simp] theorem poolFire_inv {s : State} (c : Nat) (hs : Inv s) : Inv (poolFire s c) := by
  unfold poolFire; simp (maxDischargeDepth := 40) [*]

@[simp] theorem execPoolRecordTimeout_inv {s : State} (hs : Inv s) : Kept (execPoolRecordTimeout s) := by
  unfold execPoolRecordTimeout; (repeat' split) <;> simp (maxDischargeDepth := 40) [*]

@[simp] theorem execPoolStale_inv {s : State} (hs : Inv s) : Kept (execPoolStale s) := by
  unfold execPoolStale; (repeat' split) <;> simp (maxDischargeDepth := 40) [*]

@[simp] theorem execPoolShareRise_inv {s : State} (hs : Inv s) : Kept (execPoolShareRise s) := by
  unfold execPoolShareRise; (repeat' split) <;> simp (maxDischargeDepth := 40) [*]

@[simp] theorem subToken_inv {s : State} (own ctr inc b : Nat) (hs : Inv s) : Inv (subToken s own ctr inc b) := by
  unfold subToken; simp (maxDischargeDepth := 40) [*]

@[simp] theorem resumeWaits_inv {s : State} (c : Nat) (hs : Inv s) : Inv (resumeWaits s c) := by
  unfold resumeWaits; simp +contextual (maxDischargeDepth := 40) [*]

@[simp] theorem fireTally_inv {s : State} (c : Nat) (hs : Inv s) : Inv (fireTally s c) := by
  unfold fireTally; simp +contextual (maxDischargeDepth := 40) [*]

@[simp] theorem execTallyFire_inv (c : Nat) {s : State} (hs : Inv s) : Kept (execTallyFire c s) := by
  unfold execTallyFire; simp (maxDischargeDepth := 40) [*]

@[simp] theorem execTallyAdd_inv (a : Access) (v : Nat) {s : State} (hs : Inv s) : Kept (execTallyAdd a v s) := by
  unfold execTallyAdd; simp +contextual (maxDischargeDepth := 40) [*]

@[simp] theorem tallyAddArrives_inv (src : Nat) {s : State} (hs : Inv s) : Inv (tallyAddArrives src s) := by
  unfold tallyAddArrives; (repeat' split) <;> simp (maxDischargeDepth := 40) [*]

@[simp] theorem execTallyAddArrival_inv (src : Nat) {s : State} (hs : Inv s) : Kept (execTallyAddArrival src s) := by
  unfold execTallyAddArrival; simp (maxDischargeDepth := 40) [*]

@[simp] theorem fenceDrop_inv {s : State} (p rid : Nat) (hs : Inv s) : Inv (fenceDrop s p rid) := by
  unfold fenceDrop; simp (maxDischargeDepth := 40) [*]

@[simp] theorem tallyIn_inv {s : State} (p rid off : Nat) (b : Bytes) (kind : Nat) (f : State → Nat → State) (hs : Inv s) (hf
    : ∀ (x0 : State) (x1 : Nat), Inv x0 → Inv (f x0 x1)) : Inv (tallyIn s p rid off b kind f) := by
  unfold tallyIn; simp (maxDischargeDepth := 40) [*]

@[simp] theorem execUp_inv (p rid off : Nat) (b : Bytes) {s : State} (hs : Inv s) : Kept (execUp p rid off b s) := by
  unfold execUp; simp +contextual (maxDischargeDepth := 40) [*]

@[simp] theorem execDown_inv (p rid off : Nat) (b : Bytes) {s : State} (hs : Inv s) : Kept (execDown p rid off b s) := by
  unfold execDown; simp +contextual (maxDischargeDepth := 40) [*]

@[simp] theorem execData_inv (p rid off : Nat) (b : Bytes) {s : State} (hs : Inv s) : Kept (execData p rid off b s) := by
  unfold execData; simp +contextual (maxDischargeDepth := 40) [*]

@[simp] theorem execMirrorAck_inv (p rid off : Nat) (b : Bytes) {s : State} (hs : Inv s) : Kept (execMirrorAck p rid off b s) := by
  unfold execMirrorAck; simp (maxDischargeDepth := 40) [*]

@[simp] theorem tallyStall_inv (c : Nat) {s : State} (hs : Inv s) : Inv (tallyStall c s) := by
  unfold tallyStall; simp (maxDischargeDepth := 40) [*]

@[simp] theorem execTallyStall_inv (c : Nat) {s : State} (hs : Inv s) : Kept (execTallyStall c s) := by
  unfold execTallyStall; simp (maxDischargeDepth := 40) [*]

@[simp] theorem snapshot_inv {s : State} (c : Cmd) (hs : Inv s) : Inv (snapshot s c) := by
  unfold snapshot; simp (maxDischargeDepth := 40) [*]

@[simp] theorem execSnapshot_inv (src : Nat) {s : State} (hs : Inv s) : Kept (execSnapshot src s) := by
  unfold execSnapshot; simp +contextual (maxDischargeDepth := 40) [*]

@[simp] theorem globalReset_inv {s : State} (c : Cmd) (hs : Inv s) : Inv (globalReset s c) := by
  unfold globalReset; simp (maxDischargeDepth := 40) [*]

@[simp] theorem execGlobalReset_inv (src : Nat) {s : State} (hs : Inv s) : Kept (execGlobalReset src s) := by
  unfold execGlobalReset; simp +contextual (maxDischargeDepth := 40) [*]

/-! ### Machine/Fence.lean -/

@[simp] theorem bar2_inv (p f rid off : Nat) (w : Bool) (data : Bytes) {s : State} (hs : Inv s) : Inv (bar2 p f rid off w
    data s) := by
  unfold bar2; (repeat' split) <;> simp (maxDischargeDepth := 40) [*]

@[simp] theorem execBar2Access_inv (p f rid off : Nat) (w : Bool) (data : Bytes) {s : State} (hs : Inv s) : Kept
    (execBar2Access p f rid off w data s) := by
  unfold execBar2Access; simp (maxDischargeDepth := 40) [*]

@[simp] theorem setFence_inv {s : State} (st q n part seq : Nat) (keys : List Bytes) (hs : Inv s) : Inv (setFence s st q n
    part seq keys) := by
  unfold setFence; simp (maxDischargeDepth := 40) [*]

@[simp] theorem clearFenceTable_inv {s : State} (hs : Inv s) : Inv (clearFenceTable s) := by
  unfold clearFenceTable; simp +contextual (maxDischargeDepth := 40) [*]

@[simp] theorem setSys_inv {s : State} (v : Nat) (hs : Inv s) : Inv (setSys s v) := by
  unfold setSys; simp (maxDischargeDepth := 40) [*]

@[simp] theorem unfence_inv {s : State} (hs : Inv s) : Inv (unfence s) := by
  unfold unfence; simp (maxDischargeDepth := 40) [*]

@[simp] theorem partSetup_inv {s : State} (c : Cmd) (hs : Inv s) : Inv (partSetup s c) := by
  unfold partSetup; simp (maxDischargeDepth := 40) [*]

@[simp] theorem execPartSetup_inv (src : Nat) {s : State} (hs : Inv s) : Kept (execPartSetup src s) := by
  unfold execPartSetup; simp +contextual (maxDischargeDepth := 40) [*]

@[simp] theorem resetTallies_inv {s : State} (hs : Inv s) : Inv (resetTallies s) := by
  unfold resetTallies; simp (maxDischargeDepth := 40) [*]

@[simp] theorem partLeave_inv {s : State} (c : Cmd) (hs : Inv s) : Inv (partLeave s c) := by
  unfold partLeave; simp (maxDischargeDepth := 40) [*]

@[simp] theorem execPartLeave_inv (src : Nat) {s : State} (hs : Inv s) : Kept (execPartLeave src s) := by
  unfold execPartLeave; simp +contextual (maxDischargeDepth := 40) [*]

@[simp] theorem fenceCert_inv {s : State} (c : Cmd) (hs : Inv s) : Inv (fenceCert s c) := by
  unfold fenceCert; simp (maxDischargeDepth := 40) [*]

@[simp] theorem execFenceCert_inv (src : Nat) {s : State} (hs : Inv s) : Kept (execFenceCert src s) := by
  unfold execFenceCert; simp +contextual (maxDischargeDepth := 40) [*]

@[simp] theorem startFencing_inv {s : State} (cmd : Nat) (hs : Inv s) : Inv (startFencing s cmd) := by
  unfold startFencing
  repeat' (first
    | with_reducible assumption
    | (extract_lets +lift +onlyGivenNames t; have ht : Inv t := (by (first | with_reducible assumption | (simp +contextual (maxDischargeDepth := 40) [t, *]; done) | (dsimp only [t]; (repeat' split) <;> (simp +contextual (maxDischargeDepth := 40) [*]; done)))); clear_value t)
    | (extract_lets +lift +onlyGivenNames t; clear_value t)
    | split
    | with_reducible refine Inv_foldl ?_ (fun s x h => ?_)
    | with_reducible refine Inv_foldl_draft ?_ (fun b x h => ?_)
    | (simp +contextual (maxDischargeDepth := 40) [*]; done)
    | (simp +contextual +zetaDelta (maxDischargeDepth := 40) [*]; done))

@[simp] theorem doUnfence_inv {s : State} (cmd : Nat) (hs : Inv s) : Inv (doUnfence s cmd) := by
  unfold doUnfence; simp (maxDischargeDepth := 40) [*]

@[simp] theorem certChecked_inv {s : State} (hs : Inv s) : Inv (certChecked s) := by
  unfold certChecked; (repeat' split) <;> simp (maxDischargeDepth := 40) [*]

@[simp] theorem execFenceCertChecked_inv {s : State} (hs : Inv s) : Kept (execFenceCertChecked s) := by
  unfold execFenceCertChecked; simp (maxDischargeDepth := 40) [*]

@[simp] theorem fencedNow_inv {s : State} (hs : Inv s) : Inv (fencedNow s) := by
  unfold fencedNow; (repeat' split) <;> simp (maxDischargeDepth := 40) [*]

@[simp] theorem execFenced_inv {s : State} (hs : Inv s) : Kept (execFenced s) := by
  unfold execFenced; simp (maxDischargeDepth := 40) [*]

@[simp] theorem beginShadow_inv {s : State} (st : Nat) (x : Shadow) (hs : Inv s) : Inv (beginShadow s st x) := by
  unfold beginShadow; simp (maxDischargeDepth := 40) [*]

@[simp] theorem execShadowElder_inv (src : Nat) (peer : Option Nat) {s : State} (hs : Inv s) : Kept (execShadowElder src peer
    s) := by
  unfold execShadowElder; simp +contextual (maxDischargeDepth := 40) [*]

@[simp] theorem execShadowJoin_inv (src : Nat) (peerOk : Bool) {s : State} (hs : Inv s) : Kept (execShadowJoin src peerOk s) := by
  unfold execShadowJoin; simp +contextual (maxDischargeDepth := 40) [*]

@[simp] theorem execShadowEnd_inv (src : Nat) {s : State} (hs : Inv s) : Kept (execShadowEnd src s) := by
  unfold execShadowEnd; simp +contextual (maxDischargeDepth := 40) [*]

@[simp] theorem endShadow_inv {s : State} (hs : Inv s) : Inv (endShadow s) := by
  unfold endShadow; (try dsimp only)
  repeat' (first | assumption | intro _ | split | (refine Inv_foldl ?_ (fun s x h => ?_)) | apply finishId_inv | apply setShadowSt_inv | rfl | (simp +contextual (maxDischargeDepth := 40) [*]; done) | dsimp only)

@[simp] theorem tellElder_inv {s : State} (event code step tensor d1 d2 : Nat) (hs : Inv s) : Inv (tellElder s event code
    step tensor d1 d2) := by
  unfold tellElder; simp (maxDischargeDepth := 40) [*]

@[simp] theorem compareStep_inv {s : State} (step : Nat) (mine elder : List Nat) (hs : Inv s) : Inv (compareStep s step mine
    elder) := by
  unfold compareStep; simp (maxDischargeDepth := 40) [*]

@[simp] theorem compareDigests_inv (n : Nat) {s : State} (hs : Inv s) : Inv (compareDigests n s) := by
  induction n generalizing s with
  | zero => exact hs
  | succ n ih =>
    unfold compareDigests; split
    · exact hs
    · split
      · exact hs
      · dsimp only; split
        · simp [hs]
        · exact ih (by simp [hs])

@[simp] theorem applyRecord_inv {s : State} (kind a : Nat) (body : Bytes) (hs : Inv s) : Inv (applyRecord s kind a body) := by
  unfold applyRecord; (repeat' split) <;> simp (maxDischargeDepth := 40) [*]

@[simp] theorem shadowApply_inv {s : State} (hs : Inv s) : Inv (shadowApply s) := by
  unfold shadowApply; simp (maxDischargeDepth := 40) [*]

@[simp] theorem execShadowApply_inv {s : State} (hs : Inv s) : Kept (execShadowApply s) := by
  unfold execShadowApply; simp (maxDischargeDepth := 40) [*]

@[simp] theorem execMirrorAckTimer_inv {s : State} (hs : Inv s) : Kept (execMirrorAckTimer s) := by
  unfold execMirrorAckTimer; simp (maxDischargeDepth := 40) [*]

@[simp] theorem execShadowLost_inv {s : State} (hs : Inv s) : Kept (execShadowLost s) := by
  unfold execShadowLost; simp (maxDischargeDepth := 40) [*]

/-! ### Machine/FaultLog.lean -/

@[simp] theorem showUnclean_inv {s : State} (hs : Inv s) : Inv (showUnclean s) := by
  unfold showUnclean; simp (maxDischargeDepth := 40) [*]

@[simp] theorem commitRecord_inv {s : State} (r : FaultRec) (hs : Inv s) : Inv (commitRecord s r) := by
  unfold commitRecord; simp (maxDischargeDepth := 40) [*]

@[simp] theorem writeRecord_inv {s : State} (kind code detail : Nat) (hs : Inv s) : Inv (writeRecord s kind code detail) := by
  unfold writeRecord; simp (maxDischargeDepth := 40) [*]

@[simp] theorem faultRead_inv {s : State} (c : Cmd) (hs : Inv s) : Inv (faultRead s c) := by
  unfold faultRead; (repeat' split) <;> simp (maxDischargeDepth := 40) [*]

@[simp] theorem execFaultRead_inv (src : Nat) {s : State} (hs : Inv s) : Kept (execFaultRead src s) := by
  unfold execFaultRead; simp +contextual (maxDischargeDepth := 40) [*]

@[simp] theorem flagSeq_inv {s : State} (q flag : Nat) (ack : Bool) (hs : Inv s) : Inv (flagSeq s q flag ack) := by
  unfold flagSeq; simp (maxDischargeDepth := 40) [*]

@[simp] theorem faultAck_inv {s : State} (c : Cmd) (hs : Inv s) : Inv (faultAck s c) := by
  unfold faultAck; (repeat' split) <;> simp (maxDischargeDepth := 40) [*]

@[simp] theorem execFaultAck_inv (src : Nat) {s : State} (hs : Inv s) : Kept (execFaultAck src s) := by
  unfold execFaultAck; simp +contextual (maxDischargeDepth := 40) [*]

end Sys2Proof.Machine
end

