-- ==== Sys2Proof/Laws/KeptModule.lean ====
section
/-! SUPPORT. Every operation and command of start-up, tray, security and SPDM keeps the granary's canonical form. -/

set_option linter.unusedTactic false
set_option linter.unreachableTactic false
set_option linter.unusedSimpArgs false
set_option linter.unusedVariables false

namespace Sys2Proof.Machine

/-! ### Machine/Startup.lean -/

@[simp] theorem reloadFence_inv {s : State} (hs : Inv s) : Inv (reloadFence s) := by
  unfold reloadFence; simp (maxDischargeDepth := 40) [*]

@[simp] theorem dieReset_inv {s : State} (keep : Bool) (hs : Inv s) : Inv (dieReset s keep) := by
  unfold dieReset; dsimp only; (repeat' split) <;> simp +contextual (maxDischargeDepth := 40) [*]

@[simp] theorem dieOff_inv {s : State} (hs : Inv s) : Inv (dieOff s) := by
  unfold dieOff; simp +contextual (maxDischargeDepth := 40) [*]

@[simp] theorem setHs_inv {s : State} (h : HsState) (hs : Inv s) : Inv (setHs s h) := by
  unfold setHs; simp (maxDischargeDepth := 40) [*]

@[simp] theorem setCause_inv {s : State} (c : Nat) (hs : Inv s) : Inv (setCause s c) := by
  unfold setCause; simp (maxDischargeDepth := 40) [*]

@[simp] theorem saveOp_inv {s : State} (hs : Inv s) : Inv (saveOp s) := by
  unfold saveOp; simp (maxDischargeDepth := 40) [*]

@[simp] theorem coldKeys_inv {s : State} (hs : Inv s) : Inv (coldKeys s) := by
  unfold coldKeys; simp (maxDischargeDepth := 40) [*]

@[simp] theorem coldReset_inv {s : State} (hs : Inv s) : Inv (coldReset s) := by
  unfold coldReset; simp +contextual (maxDischargeDepth := 40) [*]

@[simp] theorem beginStage_inv {s : State} (n : Nat) (hs : Inv s) : Inv (beginStage s n) := by
  unfold beginStage; simp (maxDischargeDepth := 40) [*]

@[simp] theorem beginRails_inv {s : State} (hs : Inv s) : Inv (beginRails s) := by
  unfold beginRails; simp (maxDischargeDepth := 40) [*]

@[simp] theorem beginStart_inv {s : State} (cold : Bool) (hs : Inv s) : Inv (beginStart s cold) := by
  unfold beginStart; simp (maxDischargeDepth := 40) [*]

@[simp] theorem toDrained_inv {s : State} (hs : Inv s) : Inv (toDrained s) := by
  unfold toDrained; simp (maxDischargeDepth := 40) [*]

@[simp] theorem nextStage_inv {s : State} (f : State → State) (hs : Inv s) (hf : ∀ (x0 : State), Inv x0 → Inv (f x0)) : Inv
    (nextStage s f) := by
  unfold nextStage; simp (maxDischargeDepth := 40) [*]

@[simp] theorem toFault_inv {s : State} (hs : Inv s) : Inv (toFault s) := by
  unfold toFault; simp (maxDischargeDepth := 40) [*]

@[simp] theorem startFault_inv {s : State} (kind code detail : Nat) (hs : Inv s) : Inv (startFault s kind code detail) := by
  unfold startFault; simp (maxDischargeDepth := 40) [*]

@[simp] theorem loadCal_inv {s : State} (hs : Inv s) : Inv (loadCal s) := by
  unfold loadCal; dsimp only; (repeat' split) <;> simp +contextual (maxDischargeDepth := 40) [*]

@[simp] theorem readSlot_inv {s : State} (pins : Nat) (eeprom : Bytes) (hs : Inv s) : Inv (readSlot s pins eeprom) := by
  unfold readSlot; simp (maxDischargeDepth := 40) [*]

@[simp] theorem reeveBootDone_inv (pins : Nat) (eeprom : Bytes) (links : Nat) (cold : Bool) {s : State} (hs : Inv s) : Inv
    (reeveBootDone pins eeprom links cold s) := by
  unfold reeveBootDone; simp (maxDischargeDepth := 40) [*]
@[simp] theorem execReeveBootDone_inv (pins : Nat) (eeprom : Bytes) (links : Nat) (cold : Bool) {s : State} (hs : Inv s) : Kept
    (execReeveBootDone pins eeprom links cold s) := by
  unfold execReeveBootDone; simp (maxDischargeDepth := 40) [*]

@[simp] theorem execPreheatDone_inv {s : State} (hs : Inv s) : Kept (execPreheatDone s) := by
  unfold execPreheatDone; simp (maxDischargeDepth := 40) [*]

@[simp] theorem execPreheatFail_inv {s : State} (hs : Inv s) : Kept (execPreheatFail s) := by
  unfold execPreheatFail; simp (maxDischargeDepth := 40) [*]

@[simp] theorem chooseImage_inv {s : State} (hs : Inv s) : Inv (chooseImage s) := by
  unfold chooseImage; simp (maxDischargeDepth := 40) [*]

@[simp] theorem beginBoot_inv {s : State} (hs : Inv s) : Inv (beginBoot s) := by
  unfold beginBoot; simp (maxDischargeDepth := 40) [*]

@[simp] theorem startClocks_inv {s : State} (hs : Inv s) : Inv (startClocks s) := by
  unfold startClocks; simp +contextual (maxDischargeDepth := 40) [*]

@[simp] theorem railsDone_inv {s : State} (hs : Inv s) : Inv (railsDone s) := by
  unfold railsDone; simp +contextual (maxDischargeDepth := 40) [*]

@[simp] theorem execRailsDone_inv {s : State} (hs : Inv s) : Kept (execRailsDone s) := by
  unfold execRailsDone; simp (maxDischargeDepth := 40) [*]

@[simp] theorem execRailFail_inv {s : State} (hs : Inv s) : Kept (execRailFail s) := by
  unfold execRailFail; simp (maxDischargeDepth := 40) [*]

@[simp] theorem beginLinks_inv {s : State} (hs : Inv s) : Inv (beginLinks s) := by
  unfold beginLinks; simp (maxDischargeDepth := 40) [*]

@[simp] theorem bootDone_inv (trained : Bool) {s : State} (hs : Inv s) : Inv (bootDone trained s) := by
  unfold bootDone; simp +contextual (maxDischargeDepth := 40) [*]

@[simp] theorem execBootDone_inv (trained : Bool) {s : State} (hs : Inv s) : Kept (execBootDone trained s) := by
  unfold execBootDone; simp (maxDischargeDepth := 40) [*]

@[simp] theorem bootTimeout_inv (bad : Bool) {s : State} (hs : Inv s) : Inv (bootTimeout bad s) := by
  unfold bootTimeout; simp (maxDischargeDepth := 40) [*]

@[simp] theorem execBootTimeout_inv (bad : Bool) {s : State} (hs : Inv s) : Kept (execBootTimeout bad s) := by
  unfold execBootTimeout; simp (maxDischargeDepth := 40) [*]

@[simp] theorem bistDone_inv (bad : List Nat) {s : State} (hs : Inv s) : Inv (bistDone bad s) := by
  unfold bistDone; simp +contextual (maxDischargeDepth := 40) [*]

@[simp] theorem execBistDone_inv (bad : List Nat) {s : State} (hs : Inv s) : Kept (execBistDone bad s) := by
  unfold execBistDone; simp (maxDischargeDepth := 40) [*]

@[simp] theorem tellInputFault_inv {s : State} (hs : Inv s) : Inv (tellInputFault s) := by
  unfold tellInputFault; simp (maxDischargeDepth := 40) [*]

@[simp] theorem ready_inv {s : State} (hs : Inv s) : Inv (ready s) := by
  unfold ready; simp (maxDischargeDepth := 40) [*]

@[simp] theorem linksDone_inv {s : State} (hs : Inv s) : Inv (linksDone s) := by
  unfold linksDone; simp +contextual (maxDischargeDepth := 40) [*]

@[simp] theorem dlUp_inv (p link : Nat) {s : State} (hs : Inv s) : Inv (dlUp p link s) := by
  unfold dlUp; simp (maxDischargeDepth := 40) [*]

@[simp] theorem execDlUp_inv (p link : Nat) {s : State} (hs : Inv s) : Kept (execDlUp p link s) := by
  unfold execDlUp; simp (maxDischargeDepth := 40) [*]

@[simp] theorem execLinksTimeout_inv {s : State} (hs : Inv s) : Kept (execLinksTimeout s) := by
  unfold execLinksTimeout; simp (maxDischargeDepth := 40) [*]

@[simp] theorem execStartRetry_inv {s : State} (hs : Inv s) : Kept (execStartRetry s) := by
  unfold execStartRetry; (repeat' split) <;> simp (maxDischargeDepth := 40) [*]

@[simp] theorem moduleReset_inv {s : State} (src level : Nat) (hs : Inv s) : Inv (moduleReset s src level) := by
  unfold moduleReset
  repeat' (first
    | with_reducible assumption
    | (extract_lets +lift +onlyGivenNames t; have ht : Inv t := (by (first | with_reducible assumption | (simp +contextual (maxDischargeDepth := 40) [t, *]; done) | (dsimp only [t]; (repeat' split) <;> (simp +contextual (maxDischargeDepth := 40) [*]; done)))); clear_value t)
    | (extract_lets +lift +onlyGivenNames t; clear_value t)
    | split
    | with_reducible refine Inv_foldl ?_ (fun s x h => ?_)
    | with_reducible refine Inv_foldl_draft ?_ (fun b x h => ?_)
    | (simp +contextual (maxDischargeDepth := 40) [*]; done)
    | (simp +contextual +zetaDelta (maxDischargeDepth := 40) [*]; done))

@[simp] theorem execModuleResetWarm_inv (src : Nat) {s : State} (hs : Inv s) : Kept (execModuleResetWarm src s) := by
  unfold execModuleResetWarm; simp (maxDischargeDepth := 40) [*]

@[simp] theorem execModuleResetCold_inv (src : Nat) {s : State} (hs : Inv s) : Kept (execModuleResetCold src s) := by
  unfold execModuleResetCold; simp (maxDischargeDepth := 40) [*]

@[simp] theorem resetStart_inv {s : State} (hs : Inv s) : Inv (resetStart s) := by
  unfold resetStart; (repeat' split) <;> simp (maxDischargeDepth := 40) [*]

@[simp] theorem execResetStart_inv {s : State} (hs : Inv s) : Kept (execResetStart s) := by
  unfold execResetStart; simp (maxDischargeDepth := 40) [*]

@[simp] theorem warmReset_inv (links : List Nat) {s : State} (hs : Inv s) : Inv (warmReset links s) := by
  unfold warmReset
  repeat' (first
    | with_reducible assumption
    | (extract_lets +lift +onlyGivenNames t; have ht : Inv t := (by (first | with_reducible assumption | (simp +contextual (maxDischargeDepth := 40) [t, *]; done) | (dsimp only [t]; (repeat' split) <;> (simp +contextual (maxDischargeDepth := 40) [*]; done)))); clear_value t)
    | (extract_lets +lift +onlyGivenNames t; clear_value t)
    | split
    | with_reducible refine Inv_foldl ?_ (fun s x h => ?_)
    | with_reducible refine Inv_foldl_draft ?_ (fun b x h => ?_)
    | (simp +contextual (maxDischargeDepth := 40) [*]; done)
    | (simp +contextual +zetaDelta (maxDischargeDepth := 40) [*]; done))

@[simp] theorem execDieWarmReset_inv (links : List Nat) {s : State} (hs : Inv s) : Kept (execDieWarmReset links s) := by
  unfold execDieWarmReset; simp (maxDischargeDepth := 40) [*]

@[simp] theorem memoryFault_inv {s : State} (code addr : Nat) (hs : Inv s) : Inv (memoryFault s code addr) := by
  unfold memoryFault; simp (maxDischargeDepth := 40) [*]

@[simp] theorem readReturned_inv {s : State} (unit addr ecc lat : Nat) (weights : Bool) (hs : Inv s) : Inv (readReturned s
    unit addr ecc lat weights) := by
  unfold readReturned; simp (maxDischargeDepth := 40) [*]

@[simp] theorem execGranaryReadReturn_inv (unit addr ecc lat : Nat) (weights : Bool) {s : State} (hs : Inv s) : Kept
    (execGranaryReadReturn unit addr ecc lat weights s) := by
  unfold execGranaryReadReturn; simp (maxDischargeDepth := 40) [*]

@[simp] theorem calSaveDone_inv {s : State} (hs : Inv s) : Inv (calSaveDone s) := by
  unfold calSaveDone; simp (maxDischargeDepth := 40) [*]

@[simp] theorem execCalSaveDone_inv {s : State} (hs : Inv s) : Kept (execCalSaveDone s) := by
  unfold execCalSaveDone; simp (maxDischargeDepth := 40) [*]

@[simp] theorem thermalShutdown_inv {s : State} (hs : Inv s) : Inv (thermalShutdown s) := by
  unfold thermalShutdown; (repeat' split) <;> simp (maxDischargeDepth := 40) [*]

@[simp] theorem execThermalShutdown_inv {s : State} (hs : Inv s) : Kept (execThermalShutdown s) := by
  unfold execThermalShutdown; simp (maxDischargeDepth := 40) [*]

@[simp] theorem thermalRestart_inv (temps : List Int) {s : State} (hs : Inv s) : Inv (thermalRestart temps s) := by
  unfold thermalRestart; (repeat' split) <;> simp (maxDischargeDepth := 40) [*]

@[simp] theorem execThermalRestart_inv (temps : List Int) {s : State} (hs : Inv s) : Kept (execThermalRestart temps s) := by
  unfold execThermalRestart; simp (maxDischargeDepth := 40) [*]

@[simp] theorem execOperatingTimeSave_inv {s : State} (hs : Inv s) : Kept (execOperatingTimeSave s) := by
  unfold execOperatingTimeSave; simp (maxDischargeDepth := 40) [*]

/-! ### Machine/Tray.lean -/

@[simp] theorem standbyLost_inv {s : State} (hs : Inv s) : Inv (standbyLost s) := by
  unfold standbyLost; simp (maxDischargeDepth := 40) [*]

@[simp] theorem execStandbyPower_inv {s : State} (hs : Inv s) : Kept (execStandbyPower s) := by
  unfold execStandbyPower; simp +contextual (maxDischargeDepth := 40) [*]

@[simp] theorem execStandbyLoss_inv {s : State} (hs : Inv s) : Kept (execStandbyLoss s) := by
  unfold execStandbyLoss; simp (maxDischargeDepth := 40) [*]

@[simp] theorem startQuench_inv {s : State} (kind code : Nat) (hs : Inv s) : Inv (startQuench s kind code) := by
  unfold startQuench; simp (maxDischargeDepth := 40) [*]

@[simp] theorem quenchDone_inv (input : Bool) {s : State} (hs : Inv s) : Inv (quenchDone input s) := by
  unfold quenchDone; simp +contextual (maxDischargeDepth := 40) [*]

@[simp] theorem execQuenchDone_inv (input : Bool) {s : State} (hs : Inv s) : Kept (execQuenchDone input s) := by
  unfold execQuenchDone; simp (maxDischargeDepth := 40) [*]

@[simp] theorem inputHigh_inv (mv : Nat) {s : State} (hs : Inv s) : Inv (inputHigh mv s) := by
  unfold inputHigh; simp (maxDischargeDepth := 40) [*]

@[simp] theorem execInputHigh_inv (mv : Nat) {s : State} (hs : Inv s) : Kept (execInputHigh mv s) := by
  unfold execInputHigh; simp (maxDischargeDepth := 40) [*]

@[simp] theorem inputQuench_inv {s : State} (hs : Inv s) : Inv (inputQuench s) := by
  unfold inputQuench; simp (maxDischargeDepth := 40) [*]

@[simp] theorem execInputHighTimeout_inv {s : State} (hs : Inv s) : Kept (execInputHighTimeout s) := by
  unfold execInputHighTimeout; (repeat' split) <;> simp (maxDischargeDepth := 40) [*]

@[simp] theorem execInputFault_inv (mv : Nat) {s : State} (hs : Inv s) : Kept (execInputFault mv s) := by
  unfold execInputFault; (repeat' split) <;> simp (maxDischargeDepth := 40) [*]

@[simp] theorem execInputReturn_inv (mv : Nat) {s : State} (hs : Inv s) : Kept (execInputReturn mv s) := by
  unfold execInputReturn; (repeat' split) <;> simp (maxDischargeDepth := 40) [*]

@[simp] theorem prsntMade_inv (cold : Bool) {s : State} (hs : Inv s) : Inv (prsntMade cold s) := by
  unfold prsntMade; (try dsimp only)
  repeat' (first | assumption | intro _ | split | (refine Inv_foldl ?_ (fun s x h => ?_)) | apply beginStart_inv | apply flagSeq_inv | rfl | (simp +contextual (maxDischargeDepth := 40) [*]; done) | dsimp only)

@[simp] theorem execPrsntEarlyMade_inv (cold : Bool) {s : State} (hs : Inv s) : Kept (execPrsntEarlyMade cold s) := by
  unfold execPrsntEarlyMade; simp (maxDischargeDepth := 40) [*]

@[simp] theorem prsntBreak_inv {s : State} (hs : Inv s) : Inv (prsntBreak s) := by
  unfold prsntBreak; simp (maxDischargeDepth := 40) [*]

@[simp] theorem execPrsntEarlyBreak_inv {s : State} (hs : Inv s) : Kept (execPrsntEarlyBreak s) := by
  unfold execPrsntEarlyBreak; simp (maxDischargeDepth := 40) [*]

@[simp] theorem startTrayDrain_inv {s : State} (source : Nat) (hs : Inv s) : Inv (startTrayDrain s source) := by
  unfold startTrayDrain; simp (maxDischargeDepth := 40) [*]

@[simp] theorem ejectReq_inv (closed : Bool) {s : State} (hs : Inv s) : Inv (ejectReq closed s) := by
  unfold ejectReq; extract_lets +lift; (repeat' split) <;> simp +zetaDelta (maxDischargeDepth := 40) [*]

@[simp] theorem execEjectReq_inv (closed : Bool) {s : State} (hs : Inv s) : Kept (execEjectReq closed s) := by
  unfold execEjectReq; simp (maxDischargeDepth := 40) [*]

@[simp] theorem leverOpen_inv (cold : Bool) {s : State} (hs : Inv s) : Inv (leverOpen cold s) := by
  unfold leverOpen; simp (maxDischargeDepth := 40) [*]

@[simp] theorem execLeverOpen_inv (cold : Bool) {s : State} (hs : Inv s) : Kept (execLeverOpen cold s) := by
  unfold execLeverOpen; simp (maxDischargeDepth := 40) [*]

@[simp] theorem trayCfg_inv {s : State} (c : Cmd) (hs : Inv s) : Inv (trayCfg s c) := by
  unfold trayCfg; simp (maxDischargeDepth := 40) [*]

@[simp] theorem execTrayCfg_inv (src : Nat) {s : State} (hs : Inv s) : Kept (execTrayCfg src s) := by
  unfold execTrayCfg; simp +contextual (maxDischargeDepth := 40) [*]

@[simp] theorem execTrayRemove_inv (src : Nat) {s : State} (hs : Inv s) : Kept (execTrayRemove src s) := by
  unfold execTrayRemove; simp +contextual (maxDischargeDepth := 40) [*]

@[simp] theorem trayResume_inv {s : State} (c : Cmd) (hs : Inv s) : Inv (trayResume s c) := by
  unfold trayResume; simp (maxDischargeDepth := 40) [*]

@[simp] theorem execTrayResume_inv (src : Nat) {s : State} (hs : Inv s) : Kept (execTrayResume src s) := by
  unfold execTrayResume; simp +contextual (maxDischargeDepth := 40) [*]

@[simp] theorem shutDown_inv {s : State} (hs : Inv s) : Inv (shutDown s) := by
  unfold shutDown; simp (maxDischargeDepth := 40) [*]

@[simp] theorem execDrained_inv {s : State} (hs : Inv s) : Kept (execDrained s) := by
  unfold execDrained; simp (maxDischargeDepth := 40) [*]

@[simp] theorem endFunction_inv {s : State} (f : Nat) (hs : Inv s) : Inv (endFunction s f) := by
  unfold endFunction; simp +contextual (maxDischargeDepth := 40) [*]

@[simp] theorem trayTimeout_inv {s : State} (hs : Inv s) : Inv (trayTimeout s) := by
  unfold trayTimeout; simp +contextual (maxDischargeDepth := 40) [*]

@[simp] theorem execDrainTimeout_inv {s : State} (hs : Inv s) : Kept (execDrainTimeout s) := by
  unfold execDrainTimeout; simp (maxDischargeDepth := 40) [*]

@[simp] theorem ledLine_inv (line : Nat) {s : State} (hs : Inv s) : Inv (ledLine line s) := by
  unfold ledLine; simp (maxDischargeDepth := 40) [*]

@[simp] theorem execLedLine_inv (line : Nat) {s : State} (hs : Inv s) : Kept (execLedLine line s) := by
  unfold execLedLine; simp (maxDischargeDepth := 40) [*]

@[simp] theorem ledRetry_inv (line : Nat) {s : State} (hs : Inv s) : Inv (ledRetry line s) := by
  unfold ledRetry; (repeat' split) <;> simp (maxDischargeDepth := 40) [*]

@[simp] theorem execLedRetry_inv (line : Nat) {s : State} (hs : Inv s) : Kept (execLedRetry line s) := by
  unfold execLedRetry; simp (maxDischargeDepth := 40) [*]

/-! ### Machine/Security.lean -/

@[simp] theorem setSvn_inv {s : State} (img v : Nat) (hs : Inv s) : Inv (setSvn s img v) := by
  unfold setSvn; simp (maxDischargeDepth := 40) [*]

@[simp] theorem setImageOk_inv {s : State} (img : Nat) (ok : Bool) (hs : Inv s) : Inv (setImageOk s img ok) := by
  unfold setImageOk; simp (maxDischargeDepth := 40) [*]

@[simp] theorem setImageVer_inv {s : State} (img v : Nat) (hs : Inv s) : Inv (setImageVer s img v) := by
  unfold setImageVer; simp (maxDischargeDepth := 40) [*]

@[simp] theorem updating_inv {s : State} (c : Cmd) (f : State → State) (hs : Inv s) (hf : ∀ (x0 : State), Inv x0 → Inv (f
    x0)) : Inv (updating s c f) := by
  unfold updating; simp (maxDischargeDepth := 40) [*]

@[simp] theorem execFwWrite_inv (src : Nat) {s : State} (hs : Inv s) : Kept (execFwWrite src s) := by
  unfold execFwWrite; simp +contextual (maxDischargeDepth := 40) [*]

@[simp] theorem fwWriteDone_inv {s : State} (hs : Inv s) : Inv (fwWriteDone s) := by
  unfold fwWriteDone; (repeat' split) <;> simp (maxDischargeDepth := 40) [*]

@[simp] theorem execFwWriteDone_inv {s : State} (hs : Inv s) : Kept (execFwWriteDone s) := by
  unfold execFwWriteDone; simp (maxDischargeDepth := 40) [*]

@[simp] theorem execFwActivate_inv (src : Nat) {s : State} (hs : Inv s) : Kept (execFwActivate src s) := by
  unfold execFwActivate; simp +contextual (maxDischargeDepth := 40) [*]

@[simp] theorem svnCommit_inv {s : State} (c : Cmd) (hs : Inv s) : Inv (svnCommit s c) := by
  unfold svnCommit; simp (maxDischargeDepth := 40) [*]

@[simp] theorem execFwSvnCommit_inv (src : Nat) {s : State} (hs : Inv s) : Kept (execFwSvnCommit src s) := by
  unfold execFwSvnCommit; simp +contextual (maxDischargeDepth := 40) [*]

@[simp] theorem putSet_inv {s : State} (n : Nat) (v : Option (Nat × Bytes)) (hs : Inv s) : Inv (putSet s n v) := by
  unfold putSet; simp (maxDischargeDepth := 40) [*]

@[simp] theorem install_inv {s : State} (c : Cmd) (mgmt : Bool) (f : State → Nat → Bytes → State) (hs : Inv s) (hf : ∀ (x0 :
    State) (x1 : Nat) (x2 : Bytes), Inv x0 → Inv (f x0 x1 x2)) : Inv (install s c mgmt f) := by
  unfold install; extract_lets +lift; (repeat' split) <;> simp +zetaDelta (maxDischargeDepth := 40) [*]

@[simp] theorem execSetInstall_inv (src : Nat) {s : State} (hs : Inv s) : Kept (execSetInstall src s) := by
  refine Kept_next.mpr (withCmd_inv _ _ _ hs fun s c h => install_inv _ _ _ h fun s id k h => ?_)
  split <;> simp [h]

@[simp] theorem execSetRemove_inv (src : Nat) {s : State} (hs : Inv s) : Kept (execSetRemove src s) := by
  unfold execSetRemove; refine Kept_next.mpr ?_; refine withCmd_inv _ _ _ hs fun s c h => ?_
  repeat' (first
    | with_reducible assumption
    | (extract_lets +lift +onlyGivenNames t; have ht : Inv t := (by (first | with_reducible assumption | (simp +contextual (maxDischargeDepth := 40) [t, *]; done) | (dsimp only [t]; (repeat' split) <;> (simp +contextual (maxDischargeDepth := 40) [*]; done)))); clear_value t)
    | (extract_lets +lift +onlyGivenNames t; clear_value t)
    | split
    | with_reducible refine Inv_foldl ?_ (fun s x h => ?_)
    | with_reducible refine Inv_foldl_draft ?_ (fun b x h => ?_)
    | (simp +contextual (maxDischargeDepth := 40) [*]; done)
    | (simp +contextual +zetaDelta (maxDischargeDepth := 40) [*]; done))

@[simp] theorem execMgmtKeyInstall_inv (src : Nat) {s : State} (hs : Inv s) : Kept (execMgmtKeyInstall src s) := by
  unfold execMgmtKeyInstall; simp +contextual (maxDischargeDepth := 40) [*]

@[simp] theorem freshNonce_inv {s : State} (hs : Inv s) : Inv (freshNonce s) := by
  unfold freshNonce; simp +contextual (maxDischargeDepth := 40) [*]

@[simp] theorem killNow_inv {s : State} (f : Nat) (hs : Inv s) : Inv (killNow s f) := by
  unfold killNow; (repeat' split) <;> simp (maxDischargeDepth := 40) [*]

@[simp] theorem debugUnlock_inv {s : State} (c : Cmd) (hs : Inv s) : Inv (debugUnlock s c) := by
  unfold debugUnlock; simp +contextual (maxDischargeDepth := 40) [*]

@[simp] theorem execDebugUnlock_inv (src : Nat) {s : State} (hs : Inv s) : Kept (execDebugUnlock src s) := by
  unfold execDebugUnlock; simp +contextual (maxDischargeDepth := 40) [*]

@[simp] theorem refuseLoad_inv {s : State} (f id dest len code : Nat) (hs : Inv s) : Inv (refuseLoad s f id dest len code) := by
  unfold refuseLoad; simp (maxDischargeDepth := 40) [*]

@[simp] theorem bundleLoad_inv {s : State} (c : Cmd) (hs : Inv s) : Inv (bundleLoad s c) := by
  unfold bundleLoad
  repeat' (first
    | with_reducible assumption
    | (extract_lets +lift +onlyGivenNames t; have ht : Inv t := (by (first | with_reducible assumption | (simp +contextual (maxDischargeDepth := 40) [t, *]; done) | (dsimp only [t]; (repeat' split) <;> (simp +contextual (maxDischargeDepth := 40) [*]; done)))); clear_value t)
    | (extract_lets +lift +onlyGivenNames t; clear_value t)
    | split
    | with_reducible refine Inv_foldl ?_ (fun s x h => ?_)
    | with_reducible refine Inv_foldl_draft ?_ (fun b x h => ?_)
    | (simp +contextual (maxDischargeDepth := 40) [*]; done)
    | (simp +contextual +zetaDelta (maxDischargeDepth := 40) [*]; done))

@[simp] theorem execBundleLoad_inv (src : Nat) {s : State} (hs : Inv s) : Kept (execBundleLoad src s) := by
  unfold execBundleLoad; simp +contextual (maxDischargeDepth := 40) [*]

@[simp] theorem bundleLoaded_inv {s : State} (hs : Inv s) : Inv (bundleLoaded s) := by
  unfold bundleLoaded; extract_lets +lift; (repeat' split) <;> simp +zetaDelta (maxDischargeDepth := 40) [*]

@[simp] theorem execBundleLoaded_inv {s : State} (hs : Inv s) : Kept (execBundleLoaded s) := by
  unfold execBundleLoaded; simp (maxDischargeDepth := 40) [*]

@[simp] theorem bundleUnload_inv {s : State} (c : Cmd) (hs : Inv s) : Inv (bundleUnload s c) := by
  unfold bundleUnload; extract_lets +lift; (repeat' split) <;> simp +zetaDelta (maxDischargeDepth := 40) [*]

@[simp] theorem execBundleUnload_inv (src : Nat) {s : State} (hs : Inv s) : Kept (execBundleUnload src s) := by
  unfold execBundleUnload; simp +contextual (maxDischargeDepth := 40) [*]

@[simp] theorem startJobBay_inv {s : State} (p : Nat × Nat) (hs : Inv s) : Inv (startJobBay s p) := by
  unfold startJobBay; simp (maxDischargeDepth := 40) [*]

@[simp] theorem jobRun_inv {s : State} (c : Cmd) (hs : Inv s) : Inv (jobRun s c) := by
  unfold jobRun
  repeat' (first
    | with_reducible assumption
    | (extract_lets +lift +onlyGivenNames t; have ht : Inv t := (by (first | with_reducible assumption | (simp +contextual (maxDischargeDepth := 40) [t, *]; done) | (dsimp only [t]; (repeat' split) <;> (simp +contextual (maxDischargeDepth := 40) [*]; done)))); clear_value t)
    | (extract_lets +lift +onlyGivenNames t; clear_value t)
    | split
    | with_reducible refine Inv_foldl ?_ (fun s x h => ?_)
    | with_reducible refine Inv_foldl_draft ?_ (fun b x h => ?_)
    | (simp +contextual (maxDischargeDepth := 40) [*]; done)
    | (simp +contextual +zetaDelta (maxDischargeDepth := 40) [*]; done))

@[simp] theorem execJobRun_inv (src : Nat) {s : State} (hs : Inv s) : Kept (execJobRun src s) := by
  unfold execJobRun; simp +contextual (maxDischargeDepth := 40) [*]

@[simp] theorem retireLine_inv {s : State} (line : Nat) (hs : Inv s) : Inv (retireLine s line) := by
  unfold retireLine; simp (maxDischargeDepth := 40) [*]

@[simp] theorem scrubWith_inv {s : State} (a n bad : Nat) (hs : Inv s) : Inv (scrubWith s a n bad) := by
  unfold scrubWith; simp (maxDischargeDepth := 40) [*]

@[simp] theorem scrubDone_inv (owner bad : Nat) {s : State} (hs : Inv s) : Inv (scrubDone owner bad s) := by
  unfold scrubDone; (repeat' split) <;> simp (maxDischargeDepth := 40) [*]

@[simp] theorem execScrubDone_inv (owner bad : Nat) {s : State} (hs : Inv s) : Kept (execScrubDone owner bad s) := by
  unfold execScrubDone; simp (maxDischargeDepth := 40) [*]

/-! ### Machine/Session.lean -/

@[simp] theorem spdmPlain_inv {s : State} (p sess code : Nat) (body : Bytes) (hs : Inv s) : Inv (spdmPlain s p sess code body) := by
  unfold spdmPlain; simp (maxDischargeDepth := 40) [*]

@[simp] theorem setSession_inv {s : State} (x : Session) (hs : Inv s) : Inv (setSession s x) := by
  unfold setSession; simp (maxDischargeDepth := 40) [*]

@[simp] theorem spdm_inv {s : State} (p sess code : Nat) (body : Bytes) (hs : Inv s) : Inv (spdm s p sess code body) := by
  unfold spdm; (repeat' split) <;> simp (maxDischargeDepth := 40) [*]

@[simp] theorem spdmError_inv {s : State} (p sess code : Nat) (hs : Inv s) : Inv (spdmError s p sess code) := by
  unfold spdmError; simp (maxDischargeDepth := 40) [*]

@[simp] theorem setStage_inv {s : State} (p v : Nat) (hs : Inv s) : Inv (setStage s p v) := by
  unfold setStage; simp (maxDischargeDepth := 40) [*]

@[simp] theorem negotiated_inv {s : State} (p sess : Nat) (f : State → State) (hs : Inv s) (hf : ∀ (x0 : State), Inv x0 → Inv
    (f x0)) : Inv (negotiated s p sess f) := by
  unfold negotiated; simp (maxDischargeDepth := 40) [*]

@[simp] theorem inSession_inv {s : State} (p sess : Nat) (outside : Bool) (f : State → State) (hs : Inv s)
    (hf : ∀ s, Inv s → Inv (f s)) : Inv (inSession s p sess outside f) := by
  refine negotiated_inv _ _ _ hs fun s h => ?_
  repeat' split
  all_goals first | exact hf _ h | exact spdmError_inv _ _ _ h

@[simp] theorem nonce32_inv {s : State} (hs : Inv s) : Inv (nonce32 s).2 := by
  unfold nonce32; simp +contextual (maxDischargeDepth := 40) [*]

@[simp] theorem execGetVersion_inv (p : Nat) {s : State} (hs : Inv s) : Kept (execGetVersion p s) := by
  unfold execGetVersion; simp (maxDischargeDepth := 40) [*]

@[simp] theorem execGetCapabilities_inv (p : Nat) {s : State} (hs : Inv s) : Kept (execGetCapabilities p s) := by
  unfold execGetCapabilities; simp (maxDischargeDepth := 40) [*]

@[simp] theorem execNegotiateAlgorithms_inv (p : Nat) (offered : Bool) {s : State} (hs : Inv s) : Kept
    (execNegotiateAlgorithms p offered s) := by
  unfold execNegotiateAlgorithms; simp (maxDischargeDepth := 40) [*]

@[simp] theorem execGetDigests_inv (p sess : Nat) {s : State} (hs : Inv s) : Kept (execGetDigests p sess s) := by
  unfold execGetDigests; simp +contextual (maxDischargeDepth := 40) [*]

@[simp] theorem execGetCertificate_inv (p sess slot off len : Nat) {s : State} (hs : Inv s) : Kept (execGetCertificate p sess
    slot off len s) := by
  unfold execGetCertificate; simp +contextual (maxDischargeDepth := 40) [*]

@[simp] theorem execChallenge_inv (p slot : Nat) (nonce : Bytes) {s : State} (hs : Inv s) : Kept (execChallenge p slot nonce s) := by
  unfold execChallenge; simp +contextual (maxDischargeDepth := 40) [*]

@[simp] theorem execGetMeasurements_inv (p sess index : Nat) (isSigned : Bool) (nonce : Bytes) {s : State} (hs : Inv s) :
    Kept (execGetMeasurements p sess index isSigned nonce s) := by
  unfold execGetMeasurements; simp +contextual (maxDischargeDepth := 40) [*]

@[simp] theorem execKeyExchange_inv (p slot : Nat) (wantsMutual : Bool) (share : Bytes) {s : State} (hs : Inv s) : Kept
    (execKeyExchange p slot wantsMutual share s) := by
  unfold execKeyExchange; simp +contextual (maxDischargeDepth := 40) [*]

@[simp] theorem execFinish_inv (p sess : Nat) (leaf sig mac : Bytes) {s : State} (hs : Inv s) :
    Kept (execFinish p sess leaf sig mac s) := by
  refine Kept_next.mpr (negotiated_inv _ _ _ hs fun s h => ?_)
  repeat' split
  all_goals simp (maxDischargeDepth := 40) [h]

@[simp] theorem execKeyUpdate_inv (p sess op : Nat) {s : State} (hs : Inv s) : Kept (execKeyUpdate p sess op s) := by
  refine Kept_next.mpr (inSession_inv _ _ _ _ hs fun s h => ?_)
  repeat' split
  all_goals first | exact h | simp (maxDischargeDepth := 40) [h]

@[simp] theorem execSpdmHeartbeat_inv (p sess : Nat) {s : State} (hs : Inv s) : Kept (execSpdmHeartbeat p sess s) := by
  unfold execSpdmHeartbeat; simp +contextual (maxDischargeDepth := 40) [*]

@[simp] theorem execEndSession_inv (p sess : Nat) {s : State} (hs : Inv s) : Kept (execEndSession p sess s) := by
  unfold execEndSession; simp +contextual (maxDischargeDepth := 40) [*]

@[simp] theorem keyRequest_inv {s : State} (p sess : Nat) (f : State → Nat → State) (hs : Inv s)
    (hf : ∀ s g, Inv s → Inv (f s g)) : Inv (keyRequest s p sess f) := by
  refine inSession_inv _ _ _ _ hs fun s h => ?_
  repeat' split
  all_goals first | exact hf _ _ h | exact spdm_inv _ _ _ _ h

@[simp] theorem execKeyPut_inv (p sess slot usage : Nat) (key : Bytes) {s : State} (hs : Inv s) : Kept (execKeyPut p sess
    slot usage key s) := by
  unfold execKeyPut; simp +contextual (maxDischargeDepth := 40) [*]

@[simp] theorem execKeyClear_inv (p sess slot : Nat) {s : State} (hs : Inv s) : Kept (execKeyClear p sess slot s) := by
  unfold execKeyClear; simp +contextual (maxDischargeDepth := 40) [*]

@[simp] theorem execKeyList_inv (p sess : Nat) {s : State} (hs : Inv s) : Kept (execKeyList p sess s) := by
  unfold execKeyList; simp +contextual (maxDischargeDepth := 40) [*]

end Sys2Proof.Machine
end

