-- ==== Sys2Proof/Laws/KeptServing.lean ====
section
/-! SUPPORT. Every operation and command of serving, the gleaner, the boundary, video and taps keeps the granary's canonical form. -/

set_option linter.unusedTactic false
set_option linter.unreachableTactic false
set_option linter.unusedSimpArgs false
set_option linter.unusedVariables false

namespace Sys2Proof.Machine

/-! ### Machine/Serving.lean -/

@[simp] theorem newSeq_inv {s : State} (c : Cmd) (bundle a : Nat) (fork : Option (Nat × Nat)) (hs : Inv s) : Inv (newSeq s c
    bundle a fork) := by
  unfold newSeq; (repeat' split) <;> simp (maxDischargeDepth := 40) [*]

@[simp] theorem admitReq_inv {s : State} (c : Cmd) (hs : Inv s) : Inv (admitReq s c) := by
  unfold admitReq; (repeat' split) <;> simp (maxDischargeDepth := 40) [*]

@[simp] theorem execAdmitSeq_inv (src : Nat) {s : State} (hs : Inv s) : Kept (execAdmitSeq src s) := by
  unfold execAdmitSeq; simp +contextual (maxDischargeDepth := 40) [*]

@[simp] theorem fork_inv {s : State} (c : Cmd) (hs : Inv s) : Inv (fork s c) := by
  unfold fork
  repeat' (first
    | with_reducible assumption
    | (extract_lets +lift +onlyGivenNames t; have ht : Inv t := (by (first | with_reducible assumption | (simp +contextual (maxDischargeDepth := 40) [t, *]; done) | (dsimp only [t]; (repeat' split) <;> (simp +contextual (maxDischargeDepth := 40) [*]; done)))); clear_value t)
    | (extract_lets +lift +onlyGivenNames t; clear_value t)
    | split
    | with_reducible refine Inv_foldl ?_ (fun s x h => ?_)
    | with_reducible refine Inv_foldl_draft ?_ (fun b x h => ?_)
    | (simp +contextual (maxDischargeDepth := 40) [*]; done)
    | (simp +contextual +zetaDelta (maxDischargeDepth := 40) [*]; done))

@[simp] theorem execFork_inv (src : Nat) {s : State} (hs : Inv s) : Kept (execFork src s) := by
  unfold execFork; simp +contextual (maxDischargeDepth := 40) [*]

@[simp] theorem onSeq_inv {s : State} (c : Cmd) (g : State → Nat → Seq → State) (hs : Inv s) (hg : ∀ (x0 : State) (x1 : Nat)
    (x2 : Seq), Inv x0 → Inv (g x0 x1 x2)) : Inv (onSeq s c g) := by
  unfold onSeq; (repeat' split) <;> simp (maxDischargeDepth := 40) [*]

@[simp] theorem cancelCmd_inv {s : State} (c : Cmd) (hs : Inv s) : Inv (cancelCmd s c) := by
  unfold cancelCmd; simp +contextual (maxDischargeDepth := 40) [*]

@[simp] theorem execCancel_inv (src : Nat) {s : State} (hs : Inv s) : Kept (execCancel src s) := by
  unfold execCancel; simp +contextual (maxDischargeDepth := 40) [*]

@[simp] theorem settleCancels_inv {s : State} (hs : Inv s) : Inv (settleCancels s) := by
  unfold settleCancels; simp +contextual (maxDischargeDepth := 40) [*]

@[simp] theorem setMask_inv {s : State} (c : Cmd) (i : Nat) (q : Seq) (hs : Inv s) : Inv (setMask s c i q) := by
  unfold setMask; simp (maxDischargeDepth := 40) [*]

@[simp] theorem execSetMask_inv (src : Nat) {s : State} (hs : Inv s) : Kept (execSetMask src s) := by
  unfold execSetMask; simp +contextual (maxDischargeDepth := 40) [*]

@[simp] theorem tokenArea_inv {s : State} (c : Cmd) (hs : Inv s) : Inv (tokenArea s c) := by
  unfold tokenArea; simp (maxDischargeDepth := 40) [*]

@[simp] theorem execTokenArea_inv (src : Nat) {s : State} (hs : Inv s) : Kept (execTokenArea src s) := by
  unfold execTokenArea; simp +contextual (maxDischargeDepth := 40) [*]

@[simp] theorem pauseWrite_inv (a : Access) (v : Nat) (on : Bool) {s : State} (hs : Inv s) : Inv (pauseWrite a v on s) := by
  unfold pauseWrite; simp +contextual (maxDischargeDepth := 40) [*]

@[simp] theorem execPause_inv (a : Access) (v : Nat) {s : State} (hs : Inv s) : Kept (execPause a v s) := by
  unfold execPause; simp (maxDischargeDepth := 40) [*]

@[simp] theorem execPauseClear_inv (a : Access) (v : Nat) {s : State} (hs : Inv s) : Kept (execPauseClear a v s) := by
  unfold execPauseClear; simp (maxDischargeDepth := 40) [*]

@[simp] theorem takeNonce_inv {s : State} (f : Nat) (hs : Inv s) : Inv (takeNonce s f).2 := by
  unfold takeNonce; simp (maxDischargeDepth := 40) [*]

@[simp] theorem postSwapOut_inv {s : State} (i : Nat) (hs : Inv s) : Inv (postSwapOut s i) := by
  unfold postSwapOut; dsimp only
  generalize hr : List.foldl _ (([] : List (Nat × Nat × Nat)), s) (seqOf s i).pages = r
  have h : Inv r.2 := hr ▸ Inv_foldl_snd hs fun acc p h => by
    dsimp only; split <;> simp [h]
  clear hr
  simp (maxDischargeDepth := 40) [h]

@[simp] theorem postSwapIn_inv {s : State} (i : Nat) (hs : Inv s) : Inv (postSwapIn s i) := by
  unfold postSwapIn; simp (maxDischargeDepth := 40) [*]

@[simp] theorem postSwaps_inv {s : State} (hs : Inv s) : Inv (postSwaps s) := by
  unfold postSwaps; simp +contextual (maxDischargeDepth := 40) [*]

@[simp] theorem swapEnded_inv (kind : Nat) (i : Nat) {s : State} (hs : Inv s) : Inv (swapEnded kind i s) := by
  unfold swapEnded; simp (maxDischargeDepth := 40) [*]

@[simp] theorem execSwapOutDone_inv (i : Nat) {s : State} (hs : Inv s) : Kept (execSwapOutDone i s) := by
  unfold execSwapOutDone; simp (maxDischargeDepth := 40) [*]

@[simp] theorem execSwapInDone_inv (i : Nat) {s : State} (hs : Inv s) : Kept (execSwapInDone i s) := by
  unfold execSwapInDone; simp (maxDischargeDepth := 40) [*]

@[simp] theorem execRebuild_inv (a : Access) (v : Nat) {s : State} (hs : Inv s) : Kept (execRebuild a v s) := by
  unfold execRebuild; simp +contextual (maxDischargeDepth := 40) [*]

@[simp] theorem mergeSeq_inv (pool : Nat) {s : State} (k : Nat) (hs : Inv s) : Inv (mergeSeq pool s k) := by
  unfold mergeSeq
  repeat' (first
    | with_reducible assumption
    | (extract_lets +lift +onlyGivenNames t; have ht : Inv t := (by (first | with_reducible assumption | (simp +contextual (maxDischargeDepth := 40) [t, *]; done) | (dsimp only [t]; (repeat' split) <;> (simp +contextual (maxDischargeDepth := 40) [*]; done)))); clear_value t)
    | (extract_lets +lift +onlyGivenNames t; clear_value t)
    | split
    | with_reducible refine Inv_foldl ?_ (fun s x h => ?_)
    | with_reducible refine Inv_foldl_draft ?_ (fun b x h => ?_)
    | (simp +contextual (maxDischargeDepth := 40) [*]; done)
    | (simp +contextual +zetaDelta (maxDischargeDepth := 40) [*]; done))

@[simp] theorem flagTables_inv (pool : Nat) {s : State} (hs : Inv s) : Inv (flagTables pool s) := by
  unfold flagTables; simp +contextual (maxDischargeDepth := 40) [*]

@[simp] theorem recount_inv (pool : Nat) {s : State} (hs : Inv s) : Inv (recount pool s) := by
  unfold recount
  repeat' (first
    | with_reducible assumption
    | (extract_lets +lift +onlyGivenNames t; have ht : Inv t := (by (first | with_reducible assumption | (simp +contextual (maxDischargeDepth := 40) [t, *]; done) | (dsimp only [t]; (repeat' split) <;> (simp +contextual (maxDischargeDepth := 40) [*]; done)))); clear_value t)
    | (extract_lets +lift +onlyGivenNames t; clear_value t)
    | split
    | with_reducible refine Inv_foldl ?_ (fun s x h => ?_)
    | with_reducible refine Inv_foldl_draft ?_ (fun b x h => ?_)
    | (simp +contextual (maxDischargeDepth := 40) [*]; done)
    | (simp +contextual +zetaDelta (maxDischargeDepth := 40) [*]; done))

@[simp] theorem rebuildPool_inv {s : State} (pool : Nat) (hs : Inv s) : Inv (rebuildPool s pool) := by
  unfold rebuildPool; simp +contextual (maxDischargeDepth := 40) [*]

@[simp] theorem rebuildDone_inv {s : State} (hs : Inv s) : Inv (rebuildDone s) := by
  unfold rebuildDone; simp +contextual (maxDischargeDepth := 40) [*]

@[simp] theorem execRebuildDone_inv {s : State} (hs : Inv s) : Kept (execRebuildDone s) := by
  unfold execRebuildDone; simp (maxDischargeDepth := 40) [*]

/-! ### Machine/Gleaner.lean -/

@[simp] theorem glnSeq_inv {s : State} (r : GlnRow) (hs : Inv s) : Inv (glnSeq s r) := by
  unfold glnSeq; simp (maxDischargeDepth := 40) [*]

@[simp] theorem glnGroup_inv (ctr target : Nat) (rows : List GlnRow) {s : State} (hs : Inv s) : Inv (glnGroup ctr target rows
    s) := by
  unfold glnGroup; simp +contextual (maxDischargeDepth := 40) [*]

@[simp] theorem execGleanerGroup_inv (ctr target : Nat) (rows : List GlnRow) {s : State} (hs : Inv s) : Kept
    (execGleanerGroup ctr target rows s) := by
  unfold execGleanerGroup; simp (maxDischargeDepth := 40) [*]

/-! ### Machine/Draft.lean -/

@[simp] theorem Draft.setSeq_inv {b : Draft} (i : Nat) (q : Seq) (hb : Inv b.s) : Inv (Draft.setSeq b i q).s := by
  unfold Draft.setSeq; simp (maxDischargeDepth := 40) [*]

@[simp] theorem Draft.setTab_inv {b : Draft} (i : Nat) (t : List Nat) (hb : Inv b.s) : Inv (Draft.setTab b i t).s := by
  unfold Draft.setTab; simp (maxDischargeDepth := 40) [*]

@[simp] theorem Draft.setHead_inv {b : Draft} (i len pages : Nat) (hb : Inv b.s) : Inv (Draft.setHead b i len pages).s := by
  unfold Draft.setHead; simp (maxDischargeDepth := 40) [*]

@[simp] theorem Draft.endEntry_inv {b : Draft} (i code : Nat) (hb : Inv b.s) : Inv (Draft.endEntry b i code).s := by
  unfold Draft.endEntry; simp (maxDischargeDepth := 40) [*]

@[simp] theorem Draft.release_inv {b : Draft} (i : Nat) (hb : Inv b.s) : Inv (Draft.release b i).s := by
  unfold Draft.release; simp (maxDischargeDepth := 40) [*]

@[simp] theorem Draft.ends_inv {b : Draft} (i code : Nat) (hb : Inv b.s) : Inv (Draft.ends b i code).s := by
  unfold Draft.ends; simp (maxDischargeDepth := 40) [*]

@[simp] theorem Draft.free_inv {b : Draft} (i : Nat) (hb : Inv b.s) : Inv (Draft.free b i).s := by
  unfold Draft.free; simp (maxDischargeDepth := 40) [*]

@[simp] theorem raiseBents_inv {s : State} (bents : List (List Action)) (drops : List Nat) (hs : Inv s) : Inv (raiseBents s
    bents drops) := by
  unfold raiseBents; simp +contextual (maxDischargeDepth := 40) [*]

/-! ### Machine/Outcome.lean -/

@[simp] theorem Draft.carryOn_inv {b : Draft} (i : Nat) (toks : List Nat) (hb : Inv b.s) : Inv (Draft.carryOn b i toks).s := by
  unfold Draft.carryOn; simp (maxDischargeDepth := 40) [*]

@[simp] theorem Draft.settle_inv {b : Draft} (i : Nat) (hb : Inv b.s) : Inv (Draft.settle b i).s := by
  unfold Draft.settle; dsimp only; (repeat' split) <;> simp +contextual (maxDischargeDepth := 40) [*]

@[simp] theorem Draft.swappedOut_inv {b : Draft} (i : Nat) (hb : Inv b.s) : Inv (Draft.swappedOut b i).s := by
  unfold Draft.swappedOut; simp (maxDischargeDepth := 40) [*]

@[simp] theorem Draft.swappedIn_inv {b : Draft} (i : Nat) (hb : Inv b.s) : Inv (Draft.swappedIn b i).s := by
  unfold Draft.swappedIn; simp (maxDischargeDepth := 40) [*]

@[simp] theorem Draft.swaps_inv {b : Draft} (hb : Inv b.s) : Inv (Draft.swaps b).s := by
  unfold Draft.swaps; simp +contextual (maxDischargeDepth := 40) [*]

@[simp] theorem Draft.mark_inv {b : Draft} (m : Nat × Nat) (hb : Inv b.s) : Inv (Draft.mark b m).s := by
  unfold Draft.mark
  repeat' (first
    | with_reducible assumption
    | (extract_lets +lift +onlyGivenNames t; have ht : Inv t := (by (first | with_reducible assumption | (simp +contextual (maxDischargeDepth := 40) [t, *]; done) | (dsimp only [t]; (repeat' split) <;> (simp +contextual (maxDischargeDepth := 40) [*]; done)))); clear_value t)
    | (extract_lets +lift +onlyGivenNames t; clear_value t)
    | split
    | with_reducible refine Inv_foldl ?_ (fun s x h => ?_)
    | with_reducible refine Inv_foldl_draft ?_ (fun b x h => ?_)
    | (simp +contextual (maxDischargeDepth := 40) [*]; done)
    | (simp +contextual +zetaDelta (maxDischargeDepth := 40) [*]; done))

@[simp] theorem Draft.outcome_inv {b : Draft} (hb : Inv b.s) : Inv (Draft.outcome b).s := by
  unfold Draft.outcome; simp +contextual (maxDischargeDepth := 40) [*]

/-! ### Machine/Allot.lean -/

@[simp] theorem Draft.forkFrom_inv {b : Draft} (child parent f pt : Nat) (hb : Inv b.s) : Inv (Draft.forkFrom b child parent
    f pt).s := by
  unfold Draft.forkFrom; simp (maxDischargeDepth := 40) [*]

@[simp] theorem Draft.fork_inv {b : Draft} (i : Nat) (hb : Inv b.s) : Inv (Draft.fork b i).s := by
  unfold Draft.fork; (try dsimp only)
  repeat' (first | assumption | intro _ | split | (refine Inv_foldl ?_ (fun s x h => ?_)) | apply Draft.ends_inv | apply Draft.forkFrom_inv | rfl | (simp +contextual (maxDischargeDepth := 40) [*]; done) | dsimp only)

theorem allocMany_inv {s : State} (pool : Nat) (cs : List Nat) (hs : Inv s) {r : List Nat × State}
    (h : allocMany s pool cs = some r) : Inv r.2 := by
  induction cs generalizing s r with
  | nil => simp only [allocMany, Option.some.injEq] at h; subst h; exact hs
  | cons c cs ih =>
    unfold allocMany at h
    split at h
    · cases h
    · cases he : allocPage s pool c with
      | none => rw [he] at h; cases h
      | some p =>
        rw [he] at h
        obtain ⟨q, hq, rfl⟩ := Option.map_eq_some_iff.mp h
        have := ih (allocPage_inv pool c hs _ he) hq
        exact this

@[simp] theorem Draft.preempt_inv {b : Draft} (v : Nat) (hb : Inv b.s) : Inv (Draft.preempt b v).s := by
  unfold Draft.preempt; extract_lets +lift; (repeat' split) <;> simp +zetaDelta (maxDischargeDepth := 40) [*]

@[simp] theorem Draft.ask_inv {b : Draft} (i : Nat) (admission : Bool) (sizes : List Nat) (n : Nat) (hb : Inv b.s) :
    Inv (b.ask i admission sizes n).2.s := by
  induction n generalizing b with
  | zero => exact hb
  | succ n ih =>
    unfold Draft.ask
    cases he : allocMany b.s (reqPool (b.seq i)) sizes with
    | some p => simp only [he]; exact allocMany_inv _ _ hb he
    | none =>
      simp only [he]
      repeat' split
      all_goals first | exact hb | exact ih (Draft.preempt_inv _ hb)

@[simp] theorem Draft.newPage_inv {b : Draft} (i e u : Nat) (hb : Inv b.s) : Inv (Draft.newPage b i e u).s := by
  unfold Draft.newPage; simp (maxDischargeDepth := 40) [*]

@[simp] theorem Draft.uncow_inv {b : Draft} (i e : Nat) (u : Option Nat) (hb : Inv b.s) : Inv (Draft.uncow b i e u).s := by
  unfold Draft.uncow; (repeat' split) <;> simp (maxDischargeDepth := 40) [*]

theorem Draft.giveTab_inv {b : Draft} (i : Nat) (hb : Inv b.s) : GoodOD (b.giveTab i) := by
  unfold Draft.giveTab; dsimp only; split
  · exact GoodOD_some.mpr hb
  · intro t h
    obtain ⟨u, -, rfl⟩ := Option.map_eq_some_iff.mp h
    exact Draft.setTab_inv _ _ (Draft.setSeq_inv _ _ hb)

@[simp] theorem Draft.cover_inv {b : Draft} (i a z : Nat) (admission : Bool) (hb : Inv b.s) :
    Inv (b.cover i a z admission).2.s := by
  unfold Draft.cover; dsimp only
  generalize hr : b.ask i admission _ 4096 = r
  have h : Inv r.2.s := by rw [← hr]; exact Draft.ask_inv _ _ _ _ hb
  obtain ⟨g, d⟩ := r
  cases g with
  | pages us =>
    refine Inv_foldl_draft (Inv_foldl_draft h fun b x hb => ?_) fun b x hb => Draft.uncow_inv _ _ _ hb
    split
    · exact Draft.newPage_inv _ _ _ hb
    · exact Draft.uncow_inv _ _ _ hb
  | later => exact h
  | exhausted => exact h

@[simp] theorem Draft.takeDecode_inv {b : Draft} (i : Nat) (admission : Bool) (hb : Inv b.s) :
    Inv (b.takeDecode i admission).s := by
  unfold Draft.takeDecode; dsimp only
  generalize hr : b.cover i _ _ admission = r
  have h : Inv r.2.s := by rw [← hr]; exact Draft.cover_inv _ _ _ _ hb
  obtain ⟨g, d⟩ := r
  cases g with
  | pages us => exact Draft.setSeq_inv _ _ h
  | later => exact h
  | exhausted => exact Draft.ends_inv _ _ h

@[simp] theorem Draft.takePrefill_inv {b : Draft} (i n : Nat) (admission : Bool) (hb : Inv b.s) :
    Inv (b.takePrefill i n admission).s := by
  unfold Draft.takePrefill; dsimp only
  generalize hr : b.cover i _ _ admission = r
  have h : Inv r.2.s := by rw [← hr]; exact Draft.cover_inv _ _ _ _ hb
  obtain ⟨g, d⟩ := r
  cases g with
  | pages us => exact Draft.setSeq_inv _ _ h
  | later => exact h
  | exhausted => exact Draft.ends_inv _ _ h

@[simp] theorem Draft.takeChunk_inv {b : Draft} (i : Nat) (admission : Bool) (hb : Inv b.s) : Inv (b.takeChunk i admission).s := by
  unfold Draft.takeChunk; extract_lets +lift q
  split
  · exact hb
  · split
    · exact hb
    · rename_i d h
      have hp : Inv (d.takePrefill i (b.chunk i) admission).s := Draft.takePrefill_inv _ _ _ (Draft.giveTab_inv _ hb _ h)
      generalize d.takePrefill i (b.chunk i) admission = r at hp ⊢
      extract_lets +lift
      split
      · exact hp
      · exact Draft.setSeq_inv _ _ hp

@[simp] theorem Draft.run_inv {b : Draft} (i : Nat) (hb : Inv b.s) : Inv (Draft.run b i).s := by
  unfold Draft.run; simp (maxDischargeDepth := 40) [*]

@[simp] theorem Draft.swapIn_inv {b : Draft} (i : Nat) (hb : Inv b.s) : Inv (b.swapIn i).s := by
  unfold Draft.swapIn; dsimp only
  generalize hr : b.ask i true _ 4096 = r
  have h : Inv r.2.s := by rw [← hr]; exact Draft.ask_inv _ _ _ _ hb
  obtain ⟨g, d⟩ := r
  cases g with
  | pages us => exact Draft.setSeq_inv _ _ h
  | later => exact h
  | exhausted => exact Draft.ends_inv _ _ h

@[simp] theorem Draft.admitSeq_inv {b : Draft} (i : Nat) (hb : Inv b.s) : Inv (b.admitSeq i).s := by
  unfold Draft.admitSeq; extract_lets +lift q
  repeat' split
  all_goals first
    | with_reducible exact hb
    | with_reducible exact Draft.swapIn_inv _ hb
    | with_reducible exact Draft.setSeq_inv _ _ hb
    | with_reducible exact Draft.takeChunk_inv _ _ hb
    | with_reducible exact Draft.takeDecode_inv _ _ hb

@[simp] theorem countHeld_inv {s : State} (hs : Inv s) : Inv (countHeld s) := by
  unfold countHeld; simp +contextual (maxDischargeDepth := 40) [*]

@[simp] theorem Draft.select_inv {b : Draft} (hb : Inv b.s) : Inv (Draft.select b).s := by
  unfold Draft.select; simp +contextual (maxDischargeDepth := 40) [*]

/-! ### Machine/Boundary.lean -/

@[simp] theorem writeList_inv {s : State} (l : RowList) (rows : List RowItem) (hs : Inv s) : Inv (writeList s l rows) := by
  unfold writeList; simp +contextual (maxDischargeDepth := 40) [*]

@[simp] theorem writeLists_inv {s : State} (chosen : List Nat) (hs : Inv s) : Inv (writeLists s chosen) := by
  unfold writeLists; simp +contextual (maxDischargeDepth := 40) [*]

@[simp] theorem enterStep_inv {s : State} (step : Nat) (chosen : List Nat) (hs : Inv s) : Inv (enterStep s step chosen) := by
  unfold enterStep; simp +contextual (maxDischargeDepth := 40) [*]

@[simp] theorem startStep_inv {s : State} (step : Nat) (chosen : List Nat) (hs : Inv s) : Inv (startStep s step chosen) := by
  unfold startStep; simp +contextual (maxDischargeDepth := 40) [*]

@[simp] theorem endStep_inv {s : State} (hs : Inv s) : Inv (endStep s) := by
  unfold endStep; simp (maxDischargeDepth := 40) [*]

@[simp] theorem emitTokens_inv {s : State} (e : Entry) (hs : Inv s) : Inv (emitTokens s e) := by
  unfold emitTokens; simp (maxDischargeDepth := 40) [*]

@[simp] theorem writeBatch_inv {s : State} (p f : Nat) (x : Area) (bs : Bytes) (hs : Inv s) : Inv (writeBatch s p f x bs) := by
  unfold writeBatch; simp (maxDischargeDepth := 40) [*]

@[simp] theorem postBatch_inv {s : State} (f : Nat) (bt : Batch) (hs : Inv s) : Inv (postBatch s f bt) := by
  unfold postBatch; dsimp only; (repeat' split) <;> simp +contextual (maxDischargeDepth := 40) [*]

@[simp] theorem giveBatch_inv {s : State} (f : Nat) (bt : Batch) (hs : Inv s) : Inv (giveBatch s f bt) := by
  unfold giveBatch; simp (maxDischargeDepth := 40) [*]

@[simp] theorem giveBatches_inv {s : State} (step tb : Nat) (ents : List Entry) (hs : Inv s) : Inv (giveBatches s step tb ents) := by
  unfold giveBatches; simp +contextual (maxDischargeDepth := 40) [*]

@[simp] theorem heldBatchPost_inv (f : Nat) {s : State} (hs : Inv s) : Inv (heldBatchPost f s) := by
  unfold heldBatchPost; (repeat' split) <;> simp (maxDischargeDepth := 40) [*]

@[simp] theorem execHeldBatchPost_inv (f : Nat) {s : State} (hs : Inv s) : Kept (execHeldBatchPost f s) := by
  unfold execHeldBatchPost; simp (maxDischargeDepth := 40) [*]

@[simp] theorem mirrorBoundary_inv {s : State} (step tb : Nat) (ents : List Entry) (hs : Inv s) : Inv (mirrorBoundary s step
    tb ents) := by
  unfold mirrorBoundary; simp (maxDischargeDepth := 40) [*]

@[simp] theorem writeEntries_inv {s : State} (f : Nat) (hs : Inv s) : Inv (writeEntries s f) := by
  unfold writeEntries; simp +contextual (maxDischargeDepth := 40) [*]

@[simp] theorem takeSnapshots_inv {s : State} (due : List TallyWait) (hs : Inv s) : Inv (takeSnapshots s due) := by
  unfold takeSnapshots; simp +contextual (maxDischargeDepth := 40) [*]

@[simp] theorem snapshotsOut_inv {s : State} (hs : Inv s) : Inv (snapshotsOut s) := by
  unfold snapshotsOut
  repeat' (first
    | with_reducible assumption
    | (extract_lets +lift +onlyGivenNames t; have ht : Inv t := (by (first | with_reducible assumption | (simp +contextual (maxDischargeDepth := 40) [t, *]; done) | (dsimp only [t]; (repeat' split) <;> (simp +contextual (maxDischargeDepth := 40) [*]; done)))); clear_value t)
    | (extract_lets +lift +onlyGivenNames t; clear_value t)
    | split
    | with_reducible refine Inv_foldl ?_ (fun s x h => ?_)
    | with_reducible refine Inv_foldl_draft ?_ (fun b x h => ?_)
    | (simp +contextual (maxDischargeDepth := 40) [*]; done)
    | (simp +contextual +zetaDelta (maxDischargeDepth := 40) [*]; done))

@[simp] theorem fillStep_inv {s : State} (tb step : Nat) (hold : Bool) (hs : Inv s) : Inv (fillStep s tb step hold).s := by
  unfold fillStep; simp +contextual (maxDischargeDepth := 40) [*]

@[simp] theorem postCopies_inv {s : State} (l : List (Nat × List Bytes)) (hs : Inv s) : Inv (postCopies s l).1 := by
  unfold postCopies; simp +contextual (maxDischargeDepth := 40) [*]

@[simp] theorem failCopies_inv {s : State} (jobs : List (Nat × Nat × Nat)) (hs : Inv s) : Inv (failCopies s jobs) := by
  unfold failCopies
  repeat' (first
    | with_reducible assumption
    | (extract_lets +lift +onlyGivenNames t; have ht : Inv t := (by (first | with_reducible assumption | (simp +contextual (maxDischargeDepth := 40) [t, *]; done) | (dsimp only [t]; (repeat' split) <;> (simp +contextual (maxDischargeDepth := 40) [*]; done)))); clear_value t)
    | (extract_lets +lift +onlyGivenNames t; clear_value t)
    | split
    | with_reducible refine Inv_foldl ?_ (fun s x h => ?_)
    | with_reducible refine Inv_foldl_draft ?_ (fun b x h => ?_)
    | (simp +contextual (maxDischargeDepth := 40) [*]; done)
    | (simp +contextual +zetaDelta (maxDischargeDepth := 40) [*]; done))

@[simp] theorem tidyCopies_inv {s : State} (hs : Inv s) : Inv (tidyCopies s) := by
  unfold tidyCopies; simp (maxDischargeDepth := 40) [*]

@[simp] theorem endBoundary_inv {s : State} (m : Mid) (hs : Inv s) : Inv (endBoundary s m) := by
  unfold endBoundary; simp +contextual (maxDischargeDepth := 40) [*]

@[simp] theorem boundary_inv {s : State} (hs : Inv s) : Inv (boundary s) := by
  unfold boundary; simp (maxDischargeDepth := 40) [*]

@[simp] theorem boundaryIf_inv {s : State} (due : Bool) (hs : Inv s) : Inv (boundaryIf s due) := by
  unfold boundaryIf; extract_lets +lift; (repeat' split) <;> simp +zetaDelta (maxDischargeDepth := 40) [*]

@[simp] theorem execStepBoundary_inv {s : State} (hs : Inv s) : Kept (execStepBoundary s) := by
  unfold execStepBoundary; simp (maxDischargeDepth := 40) [*]

@[simp] theorem execEmptyBoundary_inv {s : State} (hs : Inv s) : Kept (execEmptyBoundary s) := by
  unfold execEmptyBoundary; simp (maxDischargeDepth := 40) [*]

/-! ### Machine/Video.lean -/

@[simp] theorem vpost_inv {s : State} (x : VidCtx) (type : Nat) (payload : Bytes) (hs : Inv s) : Inv (vpost s x type payload) := by
  unfold vpost; simp (maxDischargeDepth := 40) [*]

@[simp] theorem streamEvent_inv {s : State} (i : Nat) (x : VidCtx) (ev code : Nat) (hs : Inv s) : Inv (streamEvent s i x ev
    code) := by
  unfold streamEvent; simp (maxDischargeDepth := 40) [*]

@[simp] theorem raiseFinal_inv {s : State} (x : VidCtx) (core : Nat) (p : VidPic) (rows : Nat) (hs : Inv s) : Inv (raiseFinal
    s x core p rows).1 := by
  unfold raiseFinal
  repeat' (first
    | with_reducible assumption
    | (extract_lets +lift +onlyGivenNames t; have ht : Inv t := (by (first | with_reducible assumption | (simp +contextual (maxDischargeDepth := 40) [t, *]; done) | (dsimp only [t]; (repeat' split) <;> (simp +contextual (maxDischargeDepth := 40) [*]; done)))); clear_value t)
    | (extract_lets +lift +onlyGivenNames t; clear_value t)
    | split
    | with_reducible refine Inv_foldl ?_ (fun s x h => ?_)
    | with_reducible refine Inv_foldl_draft ?_ (fun b x h => ?_)
    | (simp +contextual (maxDischargeDepth := 40) [*]; done)
    | (simp +contextual +zetaDelta (maxDischargeDepth := 40) [*]; done))

@[simp] theorem frameDone_inv {s : State} (i : Nat) (x : VidCtx) (p : VidPic) (hs : Inv s) : Inv (frameDone s i x p).1 := by
  unfold frameDone; simp (maxDischargeDepth := 40) [*]

@[simp] theorem outputs_inv (n : Nat) {s : State} (i : Nat) (x : VidCtx) (hs : Inv s) : Inv (outputs n s i x).1 := by
  induction n generalizing s x with
  | zero => exact hs
  | succ n ih =>
    unfold outputs; dsimp only; split
    · split
      · exact ih _ (by simp [hs])
      · exact hs
    · exact hs

@[simp] theorem doneSubs_inv (n : Nat) {s : State} (x : VidCtx) (hs : Inv s) : Inv (doneSubs n s x).1 := by
  induction n generalizing s x with
  | zero => exact hs
  | succ n ih =>
    unfold doneSubs; split
    · split
      · exact ih _ (by simp [hs])
      · exact hs
    · exact hs

@[simp] theorem settleVideo_inv {s : State} (i : Nat) (x : VidCtx) (hs : Inv s) : Inv (settleVideo s i x) := by
  unfold settleVideo; split
  · simp [hs]
  · have h : Inv (if vidEncode x then (s, x) else doneSubs x.subs.length s x).1 := by split <;> simp [hs]
    revert h
    generalize (if vidEncode x then (s, x) else doneSubs x.subs.length s x) = r
    intro h
    obtain ⟨s1, x1⟩ := r
    dsimp only
    have h2 : Inv (outputs ((bumpAll x1).pics.length + 1) s1 i (bumpAll x1)).1 := outputs_inv _ _ _ h
    revert h2
    generalize outputs ((bumpAll x1).pics.length + 1) s1 i (bumpAll x1) = r2
    intro h2
    obtain ⟨s2, x2⟩ := r2
    dsimp only at h2 ⊢
    split <;> simp (maxDischargeDepth := 40) [h2]

@[simp] theorem faultStream_inv {s : State} (i : Nat) (x : VidCtx) (code : Nat) (hs : Inv s) : Inv (faultStream s i x code) := by
  unfold faultStream; simp (maxDischargeDepth := 40) [*]

@[simp] theorem streamOpen_inv {s : State} (c : Cmd) (hs : Inv s) : Inv (streamOpen s c) := by
  unfold streamOpen; (repeat' split) <;> simp (maxDischargeDepth := 40) [*]

@[simp] theorem execStreamOpen_inv (src : Nat) {s : State} (hs : Inv s) : Kept (execStreamOpen src s) := by
  unfold execStreamOpen; simp +contextual (maxDischargeDepth := 40) [*]

@[simp] theorem onStream_inv {s : State} (c : Cmd) (sts : List Nat) (enc : Option Bool) (g : State → Nat → VidCtx → State)
    (hs : Inv s) (hg : ∀ (x0 : State) (x1 : Nat) (x2 : VidCtx), Inv x0 → Inv (g x0 x1 x2)) : Inv (onStream s c sts enc g) := by
  unfold onStream; simp (maxDischargeDepth := 40) [*]

@[simp] theorem decSubmit_inv {s : State} (c : Cmd) (i : Nat) (x : VidCtx) (hs : Inv s) : Inv (decSubmit s c i x) := by
  unfold decSubmit; simp (maxDischargeDepth := 40) [*]

@[simp] theorem execDecSubmit_inv (src : Nat) {s : State} (hs : Inv s) : Kept (execDecSubmit src s) := by
  unfold execDecSubmit; simp +contextual (maxDischargeDepth := 40) [*]

@[simp] theorem picRelease_inv {s : State} (c : Cmd) (i : Nat) (x : VidCtx) (hs : Inv s) : Inv (picRelease s c i x) := by
  unfold picRelease; simp (maxDischargeDepth := 40) [*]

@[simp] theorem execPicRelease_inv (src : Nat) {s : State} (hs : Inv s) : Kept (execPicRelease src s) := by
  unfold execPicRelease; simp +contextual (maxDischargeDepth := 40) [*]

@[simp] theorem encFrame_inv {s : State} (c : Cmd) (i : Nat) (x : VidCtx) (hs : Inv s) : Inv (encFrame s c i x) := by
  unfold encFrame; simp (maxDischargeDepth := 40) [*]

@[simp] theorem execEncFrame_inv (src : Nat) {s : State} (hs : Inv s) : Kept (execEncFrame src s) := by
  unfold execEncFrame; simp +contextual (maxDischargeDepth := 40) [*]

@[simp] theorem execEncRows_inv (src : Nat) {s : State} (hs : Inv s) : Kept (execEncRows src s) := by
  unfold execEncRows; simp +contextual (maxDischargeDepth := 40) [*]

@[simp] theorem tapSet_inv {s : State} (c : Cmd) (i : Nat) (x : VidCtx) (hs : Inv s) : Inv (tapSet s c i x) := by
  unfold tapSet; simp (maxDischargeDepth := 40) [*]

@[simp] theorem execTapSet_inv (src : Nat) {s : State} (hs : Inv s) : Kept (execTapSet src s) := by
  unfold execTapSet; simp +contextual (maxDischargeDepth := 40) [*]

@[simp] theorem execStreamFlush_inv (src : Nat) {s : State} (hs : Inv s) : Kept (execStreamFlush src s) := by
  unfold execStreamFlush; simp +contextual (maxDischargeDepth := 40) [*]

@[simp] theorem execStreamClose_inv (src : Nat) {s : State} (hs : Inv s) : Kept (execStreamClose src s) := by
  unfold execStreamClose; simp +contextual (maxDischargeDepth := 40) [*]

@[simp] theorem execBsRelease_inv (src : Nat) {s : State} (hs : Inv s) : Kept (execBsRelease src s) := by
  unfold execBsRelease; simp +contextual (maxDischargeDepth := 40) [*]

@[simp] theorem concealPlane_inv {s : State} (x : VidCtx) (p : VidPic) (pl : Plane) (bx by' : Nat) (src : Option (Nat × Nat ×
    Nat)) (dx dy : Int) (hs : Inv s) : Inv (concealPlane s x p pl bx by' src dx dy) := by
  unfold concealPlane; simp +contextual (maxDischargeDepth := 40) [*]

@[simp] theorem conceal_inv (x : VidCtx) {acc : State × VidPic} (e : Nat × Nat) (hacc : Inv acc.1) : Inv (conceal x acc e).1 := by
  unfold conceal; dsimp only
  exact Inv_foldl hacc fun s pl h => concealPlane_inv _ _ _ _ _ _ _ _ h

@[simp] theorem concealAll_inv {s : State} (x : VidCtx) (p : VidPic) (l : List (Nat × Nat)) (hs : Inv s) : Inv (concealAll s
    x p l).1 := by
  unfold concealAll; simp +contextual (maxDischargeDepth := 40) [*]

@[simp] theorem finishPic_inv {s : State} (x : VidCtx) (core : Nat) (p : VidPic) (hs : Inv s) : Inv (finishPic s x core p).1 := by
  unfold finishPic; (try dsimp only)
  repeat' (first | assumption | intro _ | split | (refine Inv_foldl ?_ (fun s x h => ?_)) | apply concealAll_inv | apply raiseFinal_inv | rfl | (simp +contextual (maxDischargeDepth := 40) [*]; done) | dsimp only)

@[simp] theorem closePic_inv {s : State} (x : VidCtx) (p : VidPic) (hs : Inv s) : Inv (closePic s x p).1 := by
  unfold closePic; (try dsimp only)
  repeat' (first | assumption | intro _ | split | (refine Inv_foldl ?_ (fun s x h => ?_)) | apply closed_inv | apply finishPic_inv | rfl | (simp +contextual (maxDischargeDepth := 40) [*]; done) | dsimp only)

@[simp] theorem newPic_inv {s : State} (i : Nat) (x : VidCtx) (h : UnitHead) (b : VidSub) (k : Nat) (hs : Inv s) : Inv
    (newPic s i x h b k) := by
  unfold newPic; simp (maxDischargeDepth := 40) [*]

@[simp] theorem beginPic_inv {s : State} (i : Nat) (x : VidCtx) (h : UnitHead) (b : VidSub) (hs : Inv s) : Inv (beginPic s i
    x h b) := by
  unfold beginPic; dsimp only; (repeat' split) <;> simp +contextual (maxDischargeDepth := 40) [*]

@[simp] theorem refuseHead_inv {s : State} (i : Nat) (x : VidCtx) (b : VidSub) (hs : Inv s) : Inv (refuseHead s i x b) := by
  unfold refuseHead; simp (maxDischargeDepth := 40) [*]

@[simp] theorem parseUnit_inv {s : State} (i : Nat) (x : VidCtx) (b : VidSub) (h : UnitHead) (hs : Inv s) : Inv (parseUnit s
    i x b h) := by
  unfold parseUnit; (repeat' split) <;> simp (maxDischargeDepth := 40) [*]

@[simp] theorem parseEnd_inv {s : State} (i : Nat) (x : VidCtx) (b : VidSub) (hs : Inv s) : Inv (parseEnd s i x b) := by
  unfold parseEnd; (try dsimp only)
  repeat' (first | assumption | intro _ | split | (refine Inv_foldl ?_ (fun s x h => ?_)) | apply Draft.mark_inv | apply closePic_inv | apply settleVideo_inv | rfl | (simp +contextual (maxDischargeDepth := 40) [*]; done) | dsimp only)

@[simp] theorem parseStep_inv {s : State} (i : Nat) (x : VidCtx) (b : VidSub) (o : ParseOut) (hs : Inv s) :
    Inv (parseStep s i x b o) := by
  unfold parseStep
  repeat' split
  all_goals simp (maxDischargeDepth := 40) [hs]

@[simp] theorem headerParsed_inv (i : Nat) {s : State} (hs : Inv s) : Inv (headerParsed i s) := by
  unfold headerParsed; extract_lets +lift; (repeat' split) <;> simp +zetaDelta (maxDischargeDepth := 40) [*]

@[simp] theorem execHeaderParseDone_inv (ctx : Nat) {s : State} (hs : Inv s) : Kept (execHeaderParseDone ctx s) := by
  unfold execHeaderParseDone; simp (maxDischargeDepth := 40) [*]

@[simp] theorem skipLate_inv (n : Nat) {s : State} (i : Nat) (hs : Inv s) : Inv (skipLate n s i) := by
  induction n generalizing s with
  | zero => exact hs
  | succ n ih =>
    unfold skipLate; dsimp only; split
    · exact hs
    · split
      · exact hs
      · exact ih (by simp (maxDischargeDepth := 40) [hs])

@[simp] theorem coreChoose_inv (core : Nat) {s : State} (hs : Inv s) : Inv (coreChoose core s) := by
  unfold coreChoose
  repeat' (first
    | with_reducible assumption
    | (extract_lets +lift +onlyGivenNames t; have ht : Inv t := (by (first | with_reducible assumption | (simp +contextual (maxDischargeDepth := 40) [t, *]; done) | (dsimp only [t]; (repeat' split) <;> (simp +contextual (maxDischargeDepth := 40) [*]; done)))); clear_value t)
    | (extract_lets +lift +onlyGivenNames t; clear_value t)
    | split
    | with_reducible refine Inv_foldl ?_ (fun s x h => ?_)
    | with_reducible refine Inv_foldl_draft ?_ (fun b x h => ?_)
    | (simp +contextual (maxDischargeDepth := 40) [*]; done)
    | (simp +contextual +zetaDelta (maxDischargeDepth := 40) [*]; done))

@[simp] theorem execCoreChoose_inv (core : Nat) {s : State} (hs : Inv s) : Kept (execCoreChoose core s) := by
  unfold execCoreChoose; simp (maxDischargeDepth := 40) [*]

@[simp] theorem freeCore_inv {s : State} (core : Nat) (left : Option Nat) (hs : Inv s) : Inv (freeCore s core left) := by
  unfold freeCore; simp (maxDischargeDepth := 40) [*]

@[simp] theorem countLuma_inv {s : State} (core reg luma : Nat) (hs : Inv s) : Inv (countLuma s core reg luma) := by
  unfold countLuma; simp (maxDischargeDepth := 40) [*]

@[simp] theorem countDecode_inv {s : State} (core luma cycles : Nat) (hs : Inv s) : Inv (countDecode s core luma cycles) := by
  unfold countDecode; simp (maxDischargeDepth := 40) [*]

@[simp] theorem writeSamples_inv {s : State} (x : VidCtx) (p : VidPic) (u : VidUnit) (hs : Inv s) : Inv (writeSamples s x p u) := by
  unfold writeSamples; simp +contextual (maxDischargeDepth := 40) [*]

@[simp] theorem unitSamples_inv {s : State} (x : VidCtx) (core : Nat) (p : VidPic) (u : VidUnit) (f : UnitFacts) (hs : Inv s)
    : Inv (unitSamples s x core p u f).1 := by
  unfold unitSamples; (repeat' split) <;> simp (maxDischargeDepth := 40) [*]

@[simp] theorem decodedUnit_inv {s : State} (core i : Nat) (x : VidCtx) (u : VidUnit) (p : VidPic) (hs : Inv s) : Inv
    (decodedUnit s core i x u p) := by
  unfold decodedUnit; dsimp only; (repeat' split) <;> simp +contextual (maxDischargeDepth := 40) [*]

@[simp] theorem unitDecoded_inv (core : Nat) {s : State} (hs : Inv s) : Inv (unitDecoded core s) := by
  unfold unitDecoded; dsimp only; (repeat' split) <;> simp +contextual (maxDischargeDepth := 40) [*]

@[simp] theorem execUnitDecoded_inv (core : Nat) {s : State} (hs : Inv s) : Kept (execUnitDecoded core s) := by
  unfold execUnitDecoded; simp (maxDischargeDepth := 40) [*]

@[simp] theorem closed_inv (i : Nat) {s : State} (hs : Inv s) : Inv (closed i s) := by
  unfold closed; simp +contextual (maxDischargeDepth := 40) [*]

@[simp] theorem execClosed_inv (ctx : Nat) {s : State} (hs : Inv s) : Kept (execClosed ctx s) := by
  unfold execClosed; simp (maxDischargeDepth := 40) [*]

/-! ### Machine/Encode.lean -/

@[simp] theorem startFrame_inv {s : State} (x : VidCtx) (b : VidSub) (hs : Inv s) : Inv (startFrame s x b).1 := by
  unfold startFrame; (repeat' split) <;> simp (maxDischargeDepth := 40) [*]

@[simp] theorem writeRecon_inv {s : State} (x : VidCtx) (b : VidSub) (q : Search) (vecs : List BlockVec) (hs : Inv s) : Inv
    (writeRecon s x b q vecs) := by
  unfold writeRecon; simp +contextual (maxDischargeDepth := 40) [*]

@[simp] theorem writeRing_inv {s : State} (x : VidCtx) (bs : Bytes) (hs : Inv s) : Inv (writeRing s x bs) := by
  unfold writeRing; simp (maxDischargeDepth := 40) [*]

@[simp] theorem countEncode_inv {s : State} (core luma n : Nat) (hs : Inv s) : Inv (countEncode s core luma n) := by
  unfold countEncode; simp (maxDischargeDepth := 40) [*]

@[simp] theorem codeSlice_inv {s : State} (core i j : Nat) (x : VidCtx) (b : VidSub) (hs : Inv s) : Inv (codeSlice s core i j
    x b) := by
  unfold codeSlice; simp (maxDischargeDepth := 40) [*]

@[simp] theorem sliceOut_inv (core : Nat) {s : State} (hs : Inv s) : Inv (sliceOut core s) := by
  unfold sliceOut
  repeat' (first
    | with_reducible assumption
    | (extract_lets +lift +onlyGivenNames t; have ht : Inv t := (by (first | with_reducible assumption | (simp +contextual (maxDischargeDepth := 40) [t, *]; done) | (dsimp only [t]; (repeat' split) <;> (simp +contextual (maxDischargeDepth := 40) [*]; done)))); clear_value t)
    | (extract_lets +lift +onlyGivenNames t; clear_value t)
    | split
    | with_reducible refine Inv_foldl ?_ (fun s x h => ?_)
    | with_reducible refine Inv_foldl_draft ?_ (fun b x h => ?_)
    | (simp +contextual (maxDischargeDepth := 40) [*]; done)
    | (simp +contextual +zetaDelta (maxDischargeDepth := 40) [*]; done))

@[simp] theorem execSliceOut_inv (core : Nat) {s : State} (hs : Inv s) : Kept (execSliceOut core s) := by
  unfold execSliceOut; simp (maxDischargeDepth := 40) [*]

/-! ### Machine/Taps.lean -/

@[simp] theorem writeTapRow_inv {s : State} (unit : Nat) (b : Bytes) (n y : Nat) (rows : List (List Nat)) (hs : Inv s) : Inv
    (writeTapRow s unit b n y rows) := by
  unfold writeTapRow; simp +contextual (maxDischargeDepth := 40) [*]

@[simp] theorem tapTokens_inv {s : State} (unit : Nat) (b : Bytes) (y : Nat) (hs : Inv s) : Inv (tapTokens s unit b y) := by
  unfold tapTokens; simp +contextual (maxDischargeDepth := 40) [*]

@[simp] theorem tapRowOf_inv {s : State} (i : Nat) (x : VidCtx) (p : VidPic) (j : TapJob) (hs : Inv s) : Inv (tapRowOf s i x
    p j) := by
  unfold tapRowOf; simp (maxDischargeDepth := 40) [*]

@[simp] theorem tapRow_inv (i t : Nat) {s : State} (hs : Inv s) : Inv (tapRow i t s) := by
  unfold tapRow
  repeat' (first
    | with_reducible assumption
    | (extract_lets +lift +onlyGivenNames t; have ht : Inv t := (by (first | with_reducible assumption | (simp +contextual (maxDischargeDepth := 40) [t, *]; done) | (dsimp only [t]; (repeat' split) <;> (simp +contextual (maxDischargeDepth := 40) [*]; done)))); clear_value t)
    | (extract_lets +lift +onlyGivenNames t; clear_value t)
    | split
    | with_reducible refine Inv_foldl ?_ (fun s x h => ?_)
    | with_reducible refine Inv_foldl_draft ?_ (fun b x h => ?_)
    | (simp +contextual (maxDischargeDepth := 40) [*]; done)
    | (simp +contextual +zetaDelta (maxDischargeDepth := 40) [*]; done))

@[simp] theorem execTapRow_inv (ctx tap : Nat) {s : State} (hs : Inv s) : Kept (execTapRow ctx tap s) := by
  unfold execTapRow; simp (maxDischargeDepth := 40) [*]

/-! ### Machine/Access.lean -/

@[simp] theorem readWord_inv {s : State} (a : Access) (hs : Inv s) : Inv (readWord s a).1 := by
  unfold readWord; (repeat' split) <;> simp (maxDischargeDepth := 40) [*]

@[simp] theorem answer_inv {s : State} (a : Access) (wide : Bool) (v : Nat) (hs : Inv s) : Inv (answer s a wide v) := by
  unfold answer; simp (maxDischargeDepth := 40) [*]

@[simp] theorem answerRead_inv (a : Access) (wide : Bool) (word : State → Access → State × Nat) {s : State} (hword : ∀ (x0 :
    State) (x1 : Access), Inv x0 → Inv (word x0 x1).1) (hs : Inv s) : Inv (answerRead a wide word s) := by
  unfold answerRead; (repeat' split) <;> simp (maxDischargeDepth := 40) [*]

@[simp] theorem execLatchedRead_inv (a : Access) (wide bar4 : Bool) {s : State} (hs : Inv s) : Kept (execLatchedRead a wide
    bar4 s) := by
  unfold execLatchedRead; simp +contextual (maxDischargeDepth := 40) [*]

@[simp] theorem execUnalignedAccess_inv (a : Access) {s : State} (hs : Inv s) : Kept (execUnalignedAccess a s) := by
  unfold execUnalignedAccess; simp (maxDischargeDepth := 40) [*]

@[simp] theorem execUnmappedAccess_inv (a : Access) (read wide : Bool) {s : State} (hs : Inv s) : Kept (execUnmappedAccess a
    read wide s) := by
  unfold execUnmappedAccess; simp (maxDischargeDepth := 40) [*]

@[simp] theorem effect_inv {o : Host.Outcome State Fault Refusal} {s : State} (ho : Kept o) (hs : Inv s) : Inv (effect o s) := by
  unfold effect; split
  · exact ho _ rfl
  · exact hs

theorem rowEffects_inv : ∀ f ∈ rowEffects, ∀ (a : Access) (v : Nat) (s : State), Inv s → Kept (f a v s) := by
  unfold rowEffects
  simp only [List.forall_mem_cons, List.not_mem_nil, false_implies, implies_true, and_true]
  repeat' apply And.intro
  all_goals (intro a v s h; simp (maxDischargeDepth := 40) [h])
theorem effects_inv (a : Access) (v : Nat) (l : List (Access → Nat → State → Host.Outcome State Fault Refusal))
    (hl : ∀ f ∈ l, ∀ (a : Access) (v : Nat) (s : State), Inv s → Kept (f a v s)) {s : State} (hs : Inv s) :
    Inv (l.foldl (fun s f => effect (f a v s) s) s) := by
  induction l generalizing s with
  | nil => exact hs
  | cons f l ih =>
    exact ih (fun g hg => hl g (List.mem_cons_of_mem _ hg)) (effect_inv (hl f (List.mem_cons_self ..) a v s hs) hs)
@[simp] theorem writeOwn_inv {s : State} (a : Access) (v : Nat) (hs : Inv s) : Inv (writeOwn s a v) := by
  unfold writeOwn; dsimp only
  refine effects_inv a v rowEffects rowEffects_inv (atPlace_inv _ _ hs fun s pl h => ?_)
  split <;> simp [h]

@[simp] theorem writeWord_inv {s : State} (a : Access) (v : Nat) (hs : Inv s) : Inv (writeWord s a v) := by
  unfold writeWord; (repeat' split) <;> simp (maxDischargeDepth := 40) [*]

@[simp] theorem registerWrite_inv (a : Access) (wide : Bool) (v : Nat) {s : State} (hs : Inv s) : Inv (registerWrite a wide v
    s) := by
  unfold registerWrite; simp (maxDischargeDepth := 40) [*]

@[simp] theorem execRegisterWrite_inv (a : Access) (wide : Bool) (v : Nat) {s : State} (hs : Inv s) : Kept (execRegisterWrite
    a wide v s) := by
  unfold execRegisterWrite; simp (maxDischargeDepth := 40) [*]

end Sys2Proof.Machine
end

