-- ==== Sys2Proof/Laws/State.lean ====
section
/-! SUPPORT. Each named update of the state leaves every field but its own as it was: one lemma per field per update. -/

namespace Sys2Proof.Machine

/-! `wr` writes `regs` alone. -/
section
variable (s : State) (k v : Nat)
@[simp] theorem wr_pending : (wr s k v).pending = s.pending := rfl
@[simp] theorem wr_clock : (wr s k v).clock = s.clock := rfl
@[simp] theorem wr_mtime : (wr s k v).mtime = s.mtime := rfl
@[simp] theorem wr_lastSample : (wr s k v).lastSample = s.lastSample := rfl
@[simp] theorem wr_free : (wr s k v).free = s.free := rfl
@[simp] theorem wr_nextId : (wr s k v).nextId = s.nextId := rfl
@[simp] theorem wr_out : (wr s k v).out = s.out := rfl
@[simp] theorem wr_staged : (wr s k v).staged = s.staged := rfl
@[simp] theorem wr_latched : (wr s k v).latched = s.latched := rfl
@[simp] theorem wr_unlocked : (wr s k v).unlocked = s.unlocked := rfl
@[simp] theorem wr_lockSeen : (wr s k v).lockSeen = s.lockSeen := rfl
@[simp] theorem wr_irqHigh : (wr s k v).irqHigh = s.irqHigh := rfl
@[simp] theorem wr_mem : (wr s k v).mem = s.mem := rfl
@[simp] theorem wr_gwq : (wr s k v).gwq = s.gwq := rfl
@[simp] theorem wr_readGrants : (wr s k v).readGrants = s.readGrants := rfl
@[simp] theorem wr_held : (wr s k v).held = s.held := rfl
@[simp] theorem wr_poison : (wr s k v).poison = s.poison := rfl
@[simp] theorem wr_lineVer : (wr s k v).lineVer = s.lineVer := rfl
@[simp] theorem wr_retained : (wr s k v).retained = s.retained := rfl
@[simp] theorem wr_deferred : (wr s k v).deferred = s.deferred := rfl
@[simp] theorem wr_lentLast : (wr s k v).lentLast = s.lentLast := rfl
@[simp] theorem wr_bays : (wr s k v).bays = s.bays := rfl
@[simp] theorem wr_mesh : (wr s k v).mesh = s.mesh := rfl
@[simp] theorem wr_unitTokens : (wr s k v).unitTokens = s.unitTokens := rfl
@[simp] theorem wr_ramp : (wr s k v).ramp = s.ramp := rfl
@[simp] theorem wr_slots : (wr s k v).slots = s.slots := rfl
@[simp] theorem wr_raises : (wr s k v).raises = s.raises := rfl
@[simp] theorem wr_stepEpoch : (wr s k v).stepEpoch = s.stepEpoch := rfl
@[simp] theorem wr_stallFrom : (wr s k v).stallFrom = s.stallFrom := rfl
@[simp] theorem wr_cmds : (wr s k v).cmds = s.cmds := rfl
@[simp] theorem wr_sqs : (wr s k v).sqs = s.sqs := rfl
@[simp] theorem wr_eqs : (wr s k v).eqs = s.eqs := rfl
@[simp] theorem wr_ports : (wr s k v).ports = s.ports := rfl
@[simp] theorem wr_msixTab : (wr s k v).msixTab = s.msixTab := rfl
@[simp] theorem wr_pba : (wr s k v).pba = s.pba := rfl
@[simp] theorem wr_tenants : (wr s k v).tenants = s.tenants := rfl
@[simp] theorem wr_hosts : (wr s k v).hosts = s.hosts := rfl
@[simp] theorem wr_ptp : (wr s k v).ptp = s.ptp := rfl
@[simp] theorem wr_everClaimed : (wr s k v).everClaimed = s.everClaimed := rfl
@[simp] theorem wr_mgmtKey : (wr s k v).mgmtKey = s.mgmtKey := rfl
@[simp] theorem wr_claimKeys : (wr s k v).claimKeys = s.claimKeys := rfl
@[simp] theorem wr_wains : (wr s k v).wains = s.wains := rfl
@[simp] theorem wr_wiring : (wr s k v).wiring = s.wiring := rfl
@[simp] theorem wr_shadow : (wr s k v).shadow = s.shadow := rfl
@[simp] theorem wr_tallyWaits : (wr s k v).tallyWaits = s.tallyWaits := rfl
@[simp] theorem wr_certs : (wr s k v).certs = s.certs := rfl
@[simp] theorem wr_fencing : (wr s k v).fencing = s.fencing := rfl
@[simp] theorem wr_tallySince : (wr s k v).tallySince = s.tallySince := rfl
@[simp] theorem wr_tallyDown : (wr s k v).tallyDown = s.tallyDown := rfl
@[simp] theorem wr_tallyOut : (wr s k v).tallyOut = s.tallyOut := rfl
@[simp] theorem wr_joinWait : (wr s k v).joinWait = s.joinWait := rfl
@[simp] theorem wr_tray : (wr s k v).tray = s.tray := rfl
@[simp] theorem wr_faultLog : (wr s k v).faultLog = s.faultLog := rfl
@[simp] theorem wr_faultSeq : (wr s k v).faultSeq = s.faultSeq := rfl
@[simp] theorem wr_flash : (wr s k v).flash = s.flash := rfl
@[simp] theorem wr_power : (wr s k v).power = s.power := rfl
@[simp] theorem wr_kvBlocks : (wr s k v).kvBlocks = s.kvBlocks := rfl
@[simp] theorem wr_kvPoison : (wr s k v).kvPoison = s.kvPoison := rfl
@[simp] theorem wr_keySlots : (wr s k v).keySlots = s.keySlots := rfl
@[simp] theorem wr_nonces : (wr s k v).nonces = s.nonces := rfl
@[simp] theorem wr_fwDone : (wr s k v).fwDone = s.fwDone := rfl
@[simp] theorem wr_fwWait : (wr s k v).fwWait = s.fwWait := rfl
@[simp] theorem wr_fwAgain : (wr s k v).fwAgain = s.fwAgain := rfl
@[simp] theorem wr_lastTb : (wr s k v).lastTb = s.lastTb := rfl
@[simp] theorem wr_orphans : (wr s k v).orphans = s.orphans := rfl
@[simp] theorem wr_kvMarks : (wr s k v).kvMarks = s.kvMarks := rfl
@[simp] theorem wr_sec : (wr s k v).sec = s.sec := rfl
@[simp] theorem wr_keysLocked : (wr s k v).keysLocked = s.keysLocked := rfl
@[simp] theorem wr_seqs : (wr s k v).seqs = s.seqs := rfl
@[simp] theorem wr_seqPub : (wr s k v).seqPub = s.seqPub := rfl
@[simp] theorem wr_srv : (wr s k v).srv = s.srv := rfl
@[simp] theorem wr_video : (wr s k v).video = s.video := rfl
@[simp] theorem wr_cores : (wr s k v).cores = s.cores := rfl
end

/-! `wf` writes `regs` alone. -/
section
variable (s : State) (k hi lo v : Nat)
@[simp] theorem wf_pending : (wf s k hi lo v).pending = s.pending := rfl
@[simp] theorem wf_clock : (wf s k hi lo v).clock = s.clock := rfl
@[simp] theorem wf_mtime : (wf s k hi lo v).mtime = s.mtime := rfl
@[simp] theorem wf_lastSample : (wf s k hi lo v).lastSample = s.lastSample := rfl
@[simp] theorem wf_free : (wf s k hi lo v).free = s.free := rfl
@[simp] theorem wf_nextId : (wf s k hi lo v).nextId = s.nextId := rfl
@[simp] theorem wf_out : (wf s k hi lo v).out = s.out := rfl
@[simp] theorem wf_staged : (wf s k hi lo v).staged = s.staged := rfl
@[simp] theorem wf_latched : (wf s k hi lo v).latched = s.latched := rfl
@[simp] theorem wf_unlocked : (wf s k hi lo v).unlocked = s.unlocked := rfl
@[simp] theorem wf_lockSeen : (wf s k hi lo v).lockSeen = s.lockSeen := rfl
@[simp] theorem wf_irqHigh : (wf s k hi lo v).irqHigh = s.irqHigh := rfl
@[simp] theorem wf_mem : (wf s k hi lo v).mem = s.mem := rfl
@[simp] theorem wf_gwq : (wf s k hi lo v).gwq = s.gwq := rfl
@[simp] theorem wf_readGrants : (wf s k hi lo v).readGrants = s.readGrants := rfl
@[simp] theorem wf_held : (wf s k hi lo v).held = s.held := rfl
@[simp] theorem wf_poison : (wf s k hi lo v).poison = s.poison := rfl
@[simp] theorem wf_lineVer : (wf s k hi lo v).lineVer = s.lineVer := rfl
@[simp] theorem wf_retained : (wf s k hi lo v).retained = s.retained := rfl
@[simp] theorem wf_deferred : (wf s k hi lo v).deferred = s.deferred := rfl
@[simp] theorem wf_lentLast : (wf s k hi lo v).lentLast = s.lentLast := rfl
@[simp] theorem wf_bays : (wf s k hi lo v).bays = s.bays := rfl
@[simp] theorem wf_mesh : (wf s k hi lo v).mesh = s.mesh := rfl
@[simp] theorem wf_unitTokens : (wf s k hi lo v).unitTokens = s.unitTokens := rfl
@[simp] theorem wf_ramp : (wf s k hi lo v).ramp = s.ramp := rfl
@[simp] theorem wf_slots : (wf s k hi lo v).slots = s.slots := rfl
@[simp] theorem wf_raises : (wf s k hi lo v).raises = s.raises := rfl
@[simp] theorem wf_stepEpoch : (wf s k hi lo v).stepEpoch = s.stepEpoch := rfl
@[simp] theorem wf_stallFrom : (wf s k hi lo v).stallFrom = s.stallFrom := rfl
@[simp] theorem wf_cmds : (wf s k hi lo v).cmds = s.cmds := rfl
@[simp] theorem wf_sqs : (wf s k hi lo v).sqs = s.sqs := rfl
@[simp] theorem wf_eqs : (wf s k hi lo v).eqs = s.eqs := rfl
@[simp] theorem wf_ports : (wf s k hi lo v).ports = s.ports := rfl
@[simp] theorem wf_msixTab : (wf s k hi lo v).msixTab = s.msixTab := rfl
@[simp] theorem wf_pba : (wf s k hi lo v).pba = s.pba := rfl
@[simp] theorem wf_tenants : (wf s k hi lo v).tenants = s.tenants := rfl
@[simp] theorem wf_hosts : (wf s k hi lo v).hosts = s.hosts := rfl
@[simp] theorem wf_ptp : (wf s k hi lo v).ptp = s.ptp := rfl
@[simp] theorem wf_everClaimed : (wf s k hi lo v).everClaimed = s.everClaimed := rfl
@[simp] theorem wf_mgmtKey : (wf s k hi lo v).mgmtKey = s.mgmtKey := rfl
@[simp] theorem wf_claimKeys : (wf s k hi lo v).claimKeys = s.claimKeys := rfl
@[simp] theorem wf_wains : (wf s k hi lo v).wains = s.wains := rfl
@[simp] theorem wf_wiring : (wf s k hi lo v).wiring = s.wiring := rfl
@[simp] theorem wf_shadow : (wf s k hi lo v).shadow = s.shadow := rfl
@[simp] theorem wf_tallyWaits : (wf s k hi lo v).tallyWaits = s.tallyWaits := rfl
@[simp] theorem wf_certs : (wf s k hi lo v).certs = s.certs := rfl
@[simp] theorem wf_fencing : (wf s k hi lo v).fencing = s.fencing := rfl
@[simp] theorem wf_tallySince : (wf s k hi lo v).tallySince = s.tallySince := rfl
@[simp] theorem wf_tallyDown : (wf s k hi lo v).tallyDown = s.tallyDown := rfl
@[simp] theorem wf_tallyOut : (wf s k hi lo v).tallyOut = s.tallyOut := rfl
@[simp] theorem wf_joinWait : (wf s k hi lo v).joinWait = s.joinWait := rfl
@[simp] theorem wf_tray : (wf s k hi lo v).tray = s.tray := rfl
@[simp] theorem wf_faultLog : (wf s k hi lo v).faultLog = s.faultLog := rfl
@[simp] theorem wf_faultSeq : (wf s k hi lo v).faultSeq = s.faultSeq := rfl
@[simp] theorem wf_flash : (wf s k hi lo v).flash = s.flash := rfl
@[simp] theorem wf_power : (wf s k hi lo v).power = s.power := rfl
@[simp] theorem wf_kvBlocks : (wf s k hi lo v).kvBlocks = s.kvBlocks := rfl
@[simp] theorem wf_kvPoison : (wf s k hi lo v).kvPoison = s.kvPoison := rfl
@[simp] theorem wf_keySlots : (wf s k hi lo v).keySlots = s.keySlots := rfl
@[simp] theorem wf_nonces : (wf s k hi lo v).nonces = s.nonces := rfl
@[simp] theorem wf_fwDone : (wf s k hi lo v).fwDone = s.fwDone := rfl
@[simp] theorem wf_fwWait : (wf s k hi lo v).fwWait = s.fwWait := rfl
@[simp] theorem wf_fwAgain : (wf s k hi lo v).fwAgain = s.fwAgain := rfl
@[simp] theorem wf_lastTb : (wf s k hi lo v).lastTb = s.lastTb := rfl
@[simp] theorem wf_orphans : (wf s k hi lo v).orphans = s.orphans := rfl
@[simp] theorem wf_kvMarks : (wf s k hi lo v).kvMarks = s.kvMarks := rfl
@[simp] theorem wf_sec : (wf s k hi lo v).sec = s.sec := rfl
@[simp] theorem wf_keysLocked : (wf s k hi lo v).keysLocked = s.keysLocked := rfl
@[simp] theorem wf_seqs : (wf s k hi lo v).seqs = s.seqs := rfl
@[simp] theorem wf_seqPub : (wf s k hi lo v).seqPub = s.seqPub := rfl
@[simp] theorem wf_srv : (wf s k hi lo v).srv = s.srv := rfl
@[simp] theorem wf_video : (wf s k hi lo v).video = s.video := rfl
@[simp] theorem wf_cores : (wf s k hi lo v).cores = s.cores := rfl
end

/-! `setBit` writes `regs` alone. -/
section
variable (s : State) (k i : Nat) (b : Bool)
@[simp] theorem setBit_pending : (setBit s k i b).pending = s.pending := rfl
@[simp] theorem setBit_clock : (setBit s k i b).clock = s.clock := rfl
@[simp] theorem setBit_mtime : (setBit s k i b).mtime = s.mtime := rfl
@[simp] theorem setBit_lastSample : (setBit s k i b).lastSample = s.lastSample := rfl
@[simp] theorem setBit_free : (setBit s k i b).free = s.free := rfl
@[simp] theorem setBit_nextId : (setBit s k i b).nextId = s.nextId := rfl
@[simp] theorem setBit_out : (setBit s k i b).out = s.out := rfl
@[simp] theorem setBit_staged : (setBit s k i b).staged = s.staged := rfl
@[simp] theorem setBit_latched : (setBit s k i b).latched = s.latched := rfl
@[simp] theorem setBit_unlocked : (setBit s k i b).unlocked = s.unlocked := rfl
@[simp] theorem setBit_lockSeen : (setBit s k i b).lockSeen = s.lockSeen := rfl
@[simp] theorem setBit_irqHigh : (setBit s k i b).irqHigh = s.irqHigh := rfl
@[simp] theorem setBit_mem : (setBit s k i b).mem = s.mem := rfl
@[simp] theorem setBit_gwq : (setBit s k i b).gwq = s.gwq := rfl
@[simp] theorem setBit_readGrants : (setBit s k i b).readGrants = s.readGrants := rfl
@[simp] theorem setBit_held : (setBit s k i b).held = s.held := rfl
@[simp] theorem setBit_poison : (setBit s k i b).poison = s.poison := rfl
@[simp] theorem setBit_lineVer : (setBit s k i b).lineVer = s.lineVer := rfl
@[simp] theorem setBit_retained : (setBit s k i b).retained = s.retained := rfl
@[simp] theorem setBit_deferred : (setBit s k i b).deferred = s.deferred := rfl
@[simp] theorem setBit_lentLast : (setBit s k i b).lentLast = s.lentLast := rfl
@[simp] theorem setBit_bays : (setBit s k i b).bays = s.bays := rfl
@[simp] theorem setBit_mesh : (setBit s k i b).mesh = s.mesh := rfl
@[simp] theorem setBit_unitTokens : (setBit s k i b).unitTokens = s.unitTokens := rfl
@[simp] theorem setBit_ramp : (setBit s k i b).ramp = s.ramp := rfl
@[simp] theorem setBit_slots : (setBit s k i b).slots = s.slots := rfl
@[simp] theorem setBit_raises : (setBit s k i b).raises = s.raises := rfl
@[simp] theorem setBit_stepEpoch : (setBit s k i b).stepEpoch = s.stepEpoch := rfl
@[simp] theorem setBit_stallFrom : (setBit s k i b).stallFrom = s.stallFrom := rfl
@[simp] theorem setBit_cmds : (setBit s k i b).cmds = s.cmds := rfl
@[simp] theorem setBit_sqs : (setBit s k i b).sqs = s.sqs := rfl
@[simp] theorem setBit_eqs : (setBit s k i b).eqs = s.eqs := rfl
@[simp] theorem setBit_ports : (setBit s k i b).ports = s.ports := rfl
@[simp] theorem setBit_msixTab : (setBit s k i b).msixTab = s.msixTab := rfl
@[simp] theorem setBit_pba : (setBit s k i b).pba = s.pba := rfl
@[simp] theorem setBit_tenants : (setBit s k i b).tenants = s.tenants := rfl
@[simp] theorem setBit_hosts : (setBit s k i b).hosts = s.hosts := rfl
@[simp] theorem setBit_ptp : (setBit s k i b).ptp = s.ptp := rfl
@[simp] theorem setBit_everClaimed : (setBit s k i b).everClaimed = s.everClaimed := rfl
@[simp] theorem setBit_mgmtKey : (setBit s k i b).mgmtKey = s.mgmtKey := rfl
@[simp] theorem setBit_claimKeys : (setBit s k i b).claimKeys = s.claimKeys := rfl
@[simp] theorem setBit_wains : (setBit s k i b).wains = s.wains := rfl
@[simp] theorem setBit_wiring : (setBit s k i b).wiring = s.wiring := rfl
@[simp] theorem setBit_shadow : (setBit s k i b).shadow = s.shadow := rfl
@[simp] theorem setBit_tallyWaits : (setBit s k i b).tallyWaits = s.tallyWaits := rfl
@[simp] theorem setBit_certs : (setBit s k i b).certs = s.certs := rfl
@[simp] theorem setBit_fencing : (setBit s k i b).fencing = s.fencing := rfl
@[simp] theorem setBit_tallySince : (setBit s k i b).tallySince = s.tallySince := rfl
@[simp] theorem setBit_tallyDown : (setBit s k i b).tallyDown = s.tallyDown := rfl
@[simp] theorem setBit_tallyOut : (setBit s k i b).tallyOut = s.tallyOut := rfl
@[simp] theorem setBit_joinWait : (setBit s k i b).joinWait = s.joinWait := rfl
@[simp] theorem setBit_tray : (setBit s k i b).tray = s.tray := rfl
@[simp] theorem setBit_faultLog : (setBit s k i b).faultLog = s.faultLog := rfl
@[simp] theorem setBit_faultSeq : (setBit s k i b).faultSeq = s.faultSeq := rfl
@[simp] theorem setBit_flash : (setBit s k i b).flash = s.flash := rfl
@[simp] theorem setBit_power : (setBit s k i b).power = s.power := rfl
@[simp] theorem setBit_kvBlocks : (setBit s k i b).kvBlocks = s.kvBlocks := rfl
@[simp] theorem setBit_kvPoison : (setBit s k i b).kvPoison = s.kvPoison := rfl
@[simp] theorem setBit_keySlots : (setBit s k i b).keySlots = s.keySlots := rfl
@[simp] theorem setBit_nonces : (setBit s k i b).nonces = s.nonces := rfl
@[simp] theorem setBit_fwDone : (setBit s k i b).fwDone = s.fwDone := rfl
@[simp] theorem setBit_fwWait : (setBit s k i b).fwWait = s.fwWait := rfl
@[simp] theorem setBit_fwAgain : (setBit s k i b).fwAgain = s.fwAgain := rfl
@[simp] theorem setBit_lastTb : (setBit s k i b).lastTb = s.lastTb := rfl
@[simp] theorem setBit_orphans : (setBit s k i b).orphans = s.orphans := rfl
@[simp] theorem setBit_kvMarks : (setBit s k i b).kvMarks = s.kvMarks := rfl
@[simp] theorem setBit_sec : (setBit s k i b).sec = s.sec := rfl
@[simp] theorem setBit_keysLocked : (setBit s k i b).keysLocked = s.keysLocked := rfl
@[simp] theorem setBit_seqs : (setBit s k i b).seqs = s.seqs := rfl
@[simp] theorem setBit_seqPub : (setBit s k i b).seqPub = s.seqPub := rfl
@[simp] theorem setBit_srv : (setBit s k i b).srv = s.srv := rfl
@[simp] theorem setBit_video : (setBit s k i b).video = s.video := rfl
@[simp] theorem setBit_cores : (setBit s k i b).cores = s.cores := rfl
end

/-! `incr` writes `regs` alone. -/
section
variable (s : State) (k n : Nat)
@[simp] theorem incr_pending : (incr s k n).pending = s.pending := rfl
@[simp] theorem incr_clock : (incr s k n).clock = s.clock := rfl
@[simp] theorem incr_mtime : (incr s k n).mtime = s.mtime := rfl
@[simp] theorem incr_lastSample : (incr s k n).lastSample = s.lastSample := rfl
@[simp] theorem incr_free : (incr s k n).free = s.free := rfl
@[simp] theorem incr_nextId : (incr s k n).nextId = s.nextId := rfl
@[simp] theorem incr_out : (incr s k n).out = s.out := rfl
@[simp] theorem incr_staged : (incr s k n).staged = s.staged := rfl
@[simp] theorem incr_latched : (incr s k n).latched = s.latched := rfl
@[simp] theorem incr_unlocked : (incr s k n).unlocked = s.unlocked := rfl
@[simp] theorem incr_lockSeen : (incr s k n).lockSeen = s.lockSeen := rfl
@[simp] theorem incr_irqHigh : (incr s k n).irqHigh = s.irqHigh := rfl
@[simp] theorem incr_mem : (incr s k n).mem = s.mem := rfl
@[simp] theorem incr_gwq : (incr s k n).gwq = s.gwq := rfl
@[simp] theorem incr_readGrants : (incr s k n).readGrants = s.readGrants := rfl
@[simp] theorem incr_held : (incr s k n).held = s.held := rfl
@[simp] theorem incr_poison : (incr s k n).poison = s.poison := rfl
@[simp] theorem incr_lineVer : (incr s k n).lineVer = s.lineVer := rfl
@[simp] theorem incr_retained : (incr s k n).retained = s.retained := rfl
@[simp] theorem incr_deferred : (incr s k n).deferred = s.deferred := rfl
@[simp] theorem incr_lentLast : (incr s k n).lentLast = s.lentLast := rfl
@[simp] theorem incr_bays : (incr s k n).bays = s.bays := rfl
@[simp] theorem incr_mesh : (incr s k n).mesh = s.mesh := rfl
@[simp] theorem incr_unitTokens : (incr s k n).unitTokens = s.unitTokens := rfl
@[simp] theorem incr_ramp : (incr s k n).ramp = s.ramp := rfl
@[simp] theorem incr_slots : (incr s k n).slots = s.slots := rfl
@[simp] theorem incr_raises : (incr s k n).raises = s.raises := rfl
@[simp] theorem incr_stepEpoch : (incr s k n).stepEpoch = s.stepEpoch := rfl
@[simp] theorem incr_stallFrom : (incr s k n).stallFrom = s.stallFrom := rfl
@[simp] theorem incr_cmds : (incr s k n).cmds = s.cmds := rfl
@[simp] theorem incr_sqs : (incr s k n).sqs = s.sqs := rfl
@[simp] theorem incr_eqs : (incr s k n).eqs = s.eqs := rfl
@[simp] theorem incr_ports : (incr s k n).ports = s.ports := rfl
@[simp] theorem incr_msixTab : (incr s k n).msixTab = s.msixTab := rfl
@[simp] theorem incr_pba : (incr s k n).pba = s.pba := rfl
@[simp] theorem incr_tenants : (incr s k n).tenants = s.tenants := rfl
@[simp] theorem incr_hosts : (incr s k n).hosts = s.hosts := rfl
@[simp] theorem incr_ptp : (incr s k n).ptp = s.ptp := rfl
@[simp] theorem incr_everClaimed : (incr s k n).everClaimed = s.everClaimed := rfl
@[simp] theorem incr_mgmtKey : (incr s k n).mgmtKey = s.mgmtKey := rfl
@[simp] theorem incr_claimKeys : (incr s k n).claimKeys = s.claimKeys := rfl
@[simp] theorem incr_wains : (incr s k n).wains = s.wains := rfl
@[simp] theorem incr_wiring : (incr s k n).wiring = s.wiring := rfl
@[simp] theorem incr_shadow : (incr s k n).shadow = s.shadow := rfl
@[simp] theorem incr_tallyWaits : (incr s k n).tallyWaits = s.tallyWaits := rfl
@[simp] theorem incr_certs : (incr s k n).certs = s.certs := rfl
@[simp] theorem incr_fencing : (incr s k n).fencing = s.fencing := rfl
@[simp] theorem incr_tallySince : (incr s k n).tallySince = s.tallySince := rfl
@[simp] theorem incr_tallyDown : (incr s k n).tallyDown = s.tallyDown := rfl
@[simp] theorem incr_tallyOut : (incr s k n).tallyOut = s.tallyOut := rfl
@[simp] theorem incr_joinWait : (incr s k n).joinWait = s.joinWait := rfl
@[simp] theorem incr_tray : (incr s k n).tray = s.tray := rfl
@[simp] theorem incr_faultLog : (incr s k n).faultLog = s.faultLog := rfl
@[simp] theorem incr_faultSeq : (incr s k n).faultSeq = s.faultSeq := rfl
@[simp] theorem incr_flash : (incr s k n).flash = s.flash := rfl
@[simp] theorem incr_power : (incr s k n).power = s.power := rfl
@[simp] theorem incr_kvBlocks : (incr s k n).kvBlocks = s.kvBlocks := rfl
@[simp] theorem incr_kvPoison : (incr s k n).kvPoison = s.kvPoison := rfl
@[simp] theorem incr_keySlots : (incr s k n).keySlots = s.keySlots := rfl
@[simp] theorem incr_nonces : (incr s k n).nonces = s.nonces := rfl
@[simp] theorem incr_fwDone : (incr s k n).fwDone = s.fwDone := rfl
@[simp] theorem incr_fwWait : (incr s k n).fwWait = s.fwWait := rfl
@[simp] theorem incr_fwAgain : (incr s k n).fwAgain = s.fwAgain := rfl
@[simp] theorem incr_lastTb : (incr s k n).lastTb = s.lastTb := rfl
@[simp] theorem incr_orphans : (incr s k n).orphans = s.orphans := rfl
@[simp] theorem incr_kvMarks : (incr s k n).kvMarks = s.kvMarks := rfl
@[simp] theorem incr_sec : (incr s k n).sec = s.sec := rfl
@[simp] theorem incr_keysLocked : (incr s k n).keysLocked = s.keysLocked := rfl
@[simp] theorem incr_seqs : (incr s k n).seqs = s.seqs := rfl
@[simp] theorem incr_seqPub : (incr s k n).seqPub = s.seqPub := rfl
@[simp] theorem incr_srv : (incr s k n).srv = s.srv := rfl
@[simp] theorem incr_video : (incr s k n).video = s.video := rfl
@[simp] theorem incr_cores : (incr s k n).cores = s.cores := rfl
end

/-! `satIncr` writes `regs` alone. -/
section
variable (s : State) (k n : Nat)
@[simp] theorem satIncr_pending : (satIncr s k n).pending = s.pending := rfl
@[simp] theorem satIncr_clock : (satIncr s k n).clock = s.clock := rfl
@[simp] theorem satIncr_mtime : (satIncr s k n).mtime = s.mtime := rfl
@[simp] theorem satIncr_lastSample : (satIncr s k n).lastSample = s.lastSample := rfl
@[simp] theorem satIncr_free : (satIncr s k n).free = s.free := rfl
@[simp] theorem satIncr_nextId : (satIncr s k n).nextId = s.nextId := rfl
@[simp] theorem satIncr_out : (satIncr s k n).out = s.out := rfl
@[simp] theorem satIncr_staged : (satIncr s k n).staged = s.staged := rfl
@[simp] theorem satIncr_latched : (satIncr s k n).latched = s.latched := rfl
@[simp] theorem satIncr_unlocked : (satIncr s k n).unlocked = s.unlocked := rfl
@[simp] theorem satIncr_lockSeen : (satIncr s k n).lockSeen = s.lockSeen := rfl
@[simp] theorem satIncr_irqHigh : (satIncr s k n).irqHigh = s.irqHigh := rfl
@[simp] theorem satIncr_mem : (satIncr s k n).mem = s.mem := rfl
@[simp] theorem satIncr_gwq : (satIncr s k n).gwq = s.gwq := rfl
@[simp] theorem satIncr_readGrants : (satIncr s k n).readGrants = s.readGrants := rfl
@[simp] theorem satIncr_held : (satIncr s k n).held = s.held := rfl
@[simp] theorem satIncr_poison : (satIncr s k n).poison = s.poison := rfl
@[simp] theorem satIncr_lineVer : (satIncr s k n).lineVer = s.lineVer := rfl
@[simp] theorem satIncr_retained : (satIncr s k n).retained = s.retained := rfl
@[simp] theorem satIncr_deferred : (satIncr s k n).deferred = s.deferred := rfl
@[simp] theorem satIncr_lentLast : (satIncr s k n).lentLast = s.lentLast := rfl
@[simp] theorem satIncr_bays : (satIncr s k n).bays = s.bays := rfl
@[simp] theorem satIncr_mesh : (satIncr s k n).mesh = s.mesh := rfl
@[simp] theorem satIncr_unitTokens : (satIncr s k n).unitTokens = s.unitTokens := rfl
@[simp] theorem satIncr_ramp : (satIncr s k n).ramp = s.ramp := rfl
@[simp] theorem satIncr_slots : (satIncr s k n).slots = s.slots := rfl
@[simp] theorem satIncr_raises : (satIncr s k n).raises = s.raises := rfl
@[simp] theorem satIncr_stepEpoch : (satIncr s k n).stepEpoch = s.stepEpoch := rfl
@[simp] theorem satIncr_stallFrom : (satIncr s k n).stallFrom = s.stallFrom := rfl
@[simp] theorem satIncr_cmds : (satIncr s k n).cmds = s.cmds := rfl
@[simp] theorem satIncr_sqs : (satIncr s k n).sqs = s.sqs := rfl
@[simp] theorem satIncr_eqs : (satIncr s k n).eqs = s.eqs := rfl
@[simp] theorem satIncr_ports : (satIncr s k n).ports = s.ports := rfl
@[simp] theorem satIncr_msixTab : (satIncr s k n).msixTab = s.msixTab := rfl
@[simp] theorem satIncr_pba : (satIncr s k n).pba = s.pba := rfl
@[simp] theorem satIncr_tenants : (satIncr s k n).tenants = s.tenants := rfl
@[simp] theorem satIncr_hosts : (satIncr s k n).hosts = s.hosts := rfl
@[simp] theorem satIncr_ptp : (satIncr s k n).ptp = s.ptp := rfl
@[simp] theorem satIncr_everClaimed : (satIncr s k n).everClaimed = s.everClaimed := rfl
@[simp] theorem satIncr_mgmtKey : (satIncr s k n).mgmtKey = s.mgmtKey := rfl
@[simp] theorem satIncr_claimKeys : (satIncr s k n).claimKeys = s.claimKeys := rfl
@[simp] theorem satIncr_wains : (satIncr s k n).wains = s.wains := rfl
@[simp] theorem satIncr_wiring : (satIncr s k n).wiring = s.wiring := rfl
@[simp] theorem satIncr_shadow : (satIncr s k n).shadow = s.shadow := rfl
@[simp] theorem satIncr_tallyWaits : (satIncr s k n).tallyWaits = s.tallyWaits := rfl
@[simp] theorem satIncr_certs : (satIncr s k n).certs = s.certs := rfl
@[simp] theorem satIncr_fencing : (satIncr s k n).fencing = s.fencing := rfl
@[simp] theorem satIncr_tallySince : (satIncr s k n).tallySince = s.tallySince := rfl
@[simp] theorem satIncr_tallyDown : (satIncr s k n).tallyDown = s.tallyDown := rfl
@[simp] theorem satIncr_tallyOut : (satIncr s k n).tallyOut = s.tallyOut := rfl
@[simp] theorem satIncr_joinWait : (satIncr s k n).joinWait = s.joinWait := rfl
@[simp] theorem satIncr_tray : (satIncr s k n).tray = s.tray := rfl
@[simp] theorem satIncr_faultLog : (satIncr s k n).faultLog = s.faultLog := rfl
@[simp] theorem satIncr_faultSeq : (satIncr s k n).faultSeq = s.faultSeq := rfl
@[simp] theorem satIncr_flash : (satIncr s k n).flash = s.flash := rfl
@[simp] theorem satIncr_power : (satIncr s k n).power = s.power := rfl
@[simp] theorem satIncr_kvBlocks : (satIncr s k n).kvBlocks = s.kvBlocks := rfl
@[simp] theorem satIncr_kvPoison : (satIncr s k n).kvPoison = s.kvPoison := rfl
@[simp] theorem satIncr_keySlots : (satIncr s k n).keySlots = s.keySlots := rfl
@[simp] theorem satIncr_nonces : (satIncr s k n).nonces = s.nonces := rfl
@[simp] theorem satIncr_fwDone : (satIncr s k n).fwDone = s.fwDone := rfl
@[simp] theorem satIncr_fwWait : (satIncr s k n).fwWait = s.fwWait := rfl
@[simp] theorem satIncr_fwAgain : (satIncr s k n).fwAgain = s.fwAgain := rfl
@[simp] theorem satIncr_lastTb : (satIncr s k n).lastTb = s.lastTb := rfl
@[simp] theorem satIncr_orphans : (satIncr s k n).orphans = s.orphans := rfl
@[simp] theorem satIncr_kvMarks : (satIncr s k n).kvMarks = s.kvMarks := rfl
@[simp] theorem satIncr_sec : (satIncr s k n).sec = s.sec := rfl
@[simp] theorem satIncr_keysLocked : (satIncr s k n).keysLocked = s.keysLocked := rfl
@[simp] theorem satIncr_seqs : (satIncr s k n).seqs = s.seqs := rfl
@[simp] theorem satIncr_seqPub : (satIncr s k n).seqPub = s.seqPub := rfl
@[simp] theorem satIncr_srv : (satIncr s k n).srv = s.srv := rfl
@[simp] theorem satIncr_video : (satIncr s k n).video = s.video := rfl
@[simp] theorem satIncr_cores : (satIncr s k n).cores = s.cores := rfl
end

/-! `wr64` writes `regs` alone. -/
section
variable (s : State) (k v : Nat)
@[simp] theorem wr64_pending : (wr64 s k v).pending = s.pending := rfl
@[simp] theorem wr64_clock : (wr64 s k v).clock = s.clock := rfl
@[simp] theorem wr64_mtime : (wr64 s k v).mtime = s.mtime := rfl
@[simp] theorem wr64_lastSample : (wr64 s k v).lastSample = s.lastSample := rfl
@[simp] theorem wr64_free : (wr64 s k v).free = s.free := rfl
@[simp] theorem wr64_nextId : (wr64 s k v).nextId = s.nextId := rfl
@[simp] theorem wr64_out : (wr64 s k v).out = s.out := rfl
@[simp] theorem wr64_staged : (wr64 s k v).staged = s.staged := rfl
@[simp] theorem wr64_latched : (wr64 s k v).latched = s.latched := rfl
@[simp] theorem wr64_unlocked : (wr64 s k v).unlocked = s.unlocked := rfl
@[simp] theorem wr64_lockSeen : (wr64 s k v).lockSeen = s.lockSeen := rfl
@[simp] theorem wr64_irqHigh : (wr64 s k v).irqHigh = s.irqHigh := rfl
@[simp] theorem wr64_mem : (wr64 s k v).mem = s.mem := rfl
@[simp] theorem wr64_gwq : (wr64 s k v).gwq = s.gwq := rfl
@[simp] theorem wr64_readGrants : (wr64 s k v).readGrants = s.readGrants := rfl
@[simp] theorem wr64_held : (wr64 s k v).held = s.held := rfl
@[simp] theorem wr64_poison : (wr64 s k v).poison = s.poison := rfl
@[simp] theorem wr64_lineVer : (wr64 s k v).lineVer = s.lineVer := rfl
@[simp] theorem wr64_retained : (wr64 s k v).retained = s.retained := rfl
@[simp] theorem wr64_deferred : (wr64 s k v).deferred = s.deferred := rfl
@[simp] theorem wr64_lentLast : (wr64 s k v).lentLast = s.lentLast := rfl
@[simp] theorem wr64_bays : (wr64 s k v).bays = s.bays := rfl
@[simp] theorem wr64_mesh : (wr64 s k v).mesh = s.mesh := rfl
@[simp] theorem wr64_unitTokens : (wr64 s k v).unitTokens = s.unitTokens := rfl
@[simp] theorem wr64_ramp : (wr64 s k v).ramp = s.ramp := rfl
@[simp] theorem wr64_slots : (wr64 s k v).slots = s.slots := rfl
@[simp] theorem wr64_raises : (wr64 s k v).raises = s.raises := rfl
@[simp] theorem wr64_stepEpoch : (wr64 s k v).stepEpoch = s.stepEpoch := rfl
@[simp] theorem wr64_stallFrom : (wr64 s k v).stallFrom = s.stallFrom := rfl
@[simp] theorem wr64_cmds : (wr64 s k v).cmds = s.cmds := rfl
@[simp] theorem wr64_sqs : (wr64 s k v).sqs = s.sqs := rfl
@[simp] theorem wr64_eqs : (wr64 s k v).eqs = s.eqs := rfl
@[simp] theorem wr64_ports : (wr64 s k v).ports = s.ports := rfl
@[simp] theorem wr64_msixTab : (wr64 s k v).msixTab = s.msixTab := rfl
@[simp] theorem wr64_pba : (wr64 s k v).pba = s.pba := rfl
@[simp] theorem wr64_tenants : (wr64 s k v).tenants = s.tenants := rfl
@[simp] theorem wr64_hosts : (wr64 s k v).hosts = s.hosts := rfl
@[simp] theorem wr64_ptp : (wr64 s k v).ptp = s.ptp := rfl
@[simp] theorem wr64_everClaimed : (wr64 s k v).everClaimed = s.everClaimed := rfl
@[simp] theorem wr64_mgmtKey : (wr64 s k v).mgmtKey = s.mgmtKey := rfl
@[simp] theorem wr64_claimKeys : (wr64 s k v).claimKeys = s.claimKeys := rfl
@[simp] theorem wr64_wains : (wr64 s k v).wains = s.wains := rfl
@[simp] theorem wr64_wiring : (wr64 s k v).wiring = s.wiring := rfl
@[simp] theorem wr64_shadow : (wr64 s k v).shadow = s.shadow := rfl
@[simp] theorem wr64_tallyWaits : (wr64 s k v).tallyWaits = s.tallyWaits := rfl
@[simp] theorem wr64_certs : (wr64 s k v).certs = s.certs := rfl
@[simp] theorem wr64_fencing : (wr64 s k v).fencing = s.fencing := rfl
@[simp] theorem wr64_tallySince : (wr64 s k v).tallySince = s.tallySince := rfl
@[simp] theorem wr64_tallyDown : (wr64 s k v).tallyDown = s.tallyDown := rfl
@[simp] theorem wr64_tallyOut : (wr64 s k v).tallyOut = s.tallyOut := rfl
@[simp] theorem wr64_joinWait : (wr64 s k v).joinWait = s.joinWait := rfl
@[simp] theorem wr64_tray : (wr64 s k v).tray = s.tray := rfl
@[simp] theorem wr64_faultLog : (wr64 s k v).faultLog = s.faultLog := rfl
@[simp] theorem wr64_faultSeq : (wr64 s k v).faultSeq = s.faultSeq := rfl
@[simp] theorem wr64_flash : (wr64 s k v).flash = s.flash := rfl
@[simp] theorem wr64_power : (wr64 s k v).power = s.power := rfl
@[simp] theorem wr64_kvBlocks : (wr64 s k v).kvBlocks = s.kvBlocks := rfl
@[simp] theorem wr64_kvPoison : (wr64 s k v).kvPoison = s.kvPoison := rfl
@[simp] theorem wr64_keySlots : (wr64 s k v).keySlots = s.keySlots := rfl
@[simp] theorem wr64_nonces : (wr64 s k v).nonces = s.nonces := rfl
@[simp] theorem wr64_fwDone : (wr64 s k v).fwDone = s.fwDone := rfl
@[simp] theorem wr64_fwWait : (wr64 s k v).fwWait = s.fwWait := rfl
@[simp] theorem wr64_fwAgain : (wr64 s k v).fwAgain = s.fwAgain := rfl
@[simp] theorem wr64_lastTb : (wr64 s k v).lastTb = s.lastTb := rfl
@[simp] theorem wr64_orphans : (wr64 s k v).orphans = s.orphans := rfl
@[simp] theorem wr64_kvMarks : (wr64 s k v).kvMarks = s.kvMarks := rfl
@[simp] theorem wr64_sec : (wr64 s k v).sec = s.sec := rfl
@[simp] theorem wr64_keysLocked : (wr64 s k v).keysLocked = s.keysLocked := rfl
@[simp] theorem wr64_seqs : (wr64 s k v).seqs = s.seqs := rfl
@[simp] theorem wr64_seqPub : (wr64 s k v).seqPub = s.seqPub := rfl
@[simp] theorem wr64_srv : (wr64 s k v).srv = s.srv := rfl
@[simp] theorem wr64_video : (wr64 s k v).video = s.video := rfl
@[simp] theorem wr64_cores : (wr64 s k v).cores = s.cores := rfl
end

/-! `bumpVer` writes `regs` alone. -/
section
variable (s : State) (page : Nat)
@[simp] theorem bumpVer_pending : (bumpVer s page).pending = s.pending := rfl
@[simp] theorem bumpVer_clock : (bumpVer s page).clock = s.clock := rfl
@[simp] theorem bumpVer_mtime : (bumpVer s page).mtime = s.mtime := rfl
@[simp] theorem bumpVer_lastSample : (bumpVer s page).lastSample = s.lastSample := rfl
@[simp] theorem bumpVer_free : (bumpVer s page).free = s.free := rfl
@[simp] theorem bumpVer_nextId : (bumpVer s page).nextId = s.nextId := rfl
@[simp] theorem bumpVer_out : (bumpVer s page).out = s.out := rfl
@[simp] theorem bumpVer_staged : (bumpVer s page).staged = s.staged := rfl
@[simp] theorem bumpVer_latched : (bumpVer s page).latched = s.latched := rfl
@[simp] theorem bumpVer_unlocked : (bumpVer s page).unlocked = s.unlocked := rfl
@[simp] theorem bumpVer_lockSeen : (bumpVer s page).lockSeen = s.lockSeen := rfl
@[simp] theorem bumpVer_irqHigh : (bumpVer s page).irqHigh = s.irqHigh := rfl
@[simp] theorem bumpVer_mem : (bumpVer s page).mem = s.mem := rfl
@[simp] theorem bumpVer_gwq : (bumpVer s page).gwq = s.gwq := rfl
@[simp] theorem bumpVer_readGrants : (bumpVer s page).readGrants = s.readGrants := rfl
@[simp] theorem bumpVer_held : (bumpVer s page).held = s.held := rfl
@[simp] theorem bumpVer_poison : (bumpVer s page).poison = s.poison := rfl
@[simp] theorem bumpVer_lineVer : (bumpVer s page).lineVer = s.lineVer := rfl
@[simp] theorem bumpVer_retained : (bumpVer s page).retained = s.retained := rfl
@[simp] theorem bumpVer_deferred : (bumpVer s page).deferred = s.deferred := rfl
@[simp] theorem bumpVer_lentLast : (bumpVer s page).lentLast = s.lentLast := rfl
@[simp] theorem bumpVer_bays : (bumpVer s page).bays = s.bays := rfl
@[simp] theorem bumpVer_mesh : (bumpVer s page).mesh = s.mesh := rfl
@[simp] theorem bumpVer_unitTokens : (bumpVer s page).unitTokens = s.unitTokens := rfl
@[simp] theorem bumpVer_ramp : (bumpVer s page).ramp = s.ramp := rfl
@[simp] theorem bumpVer_slots : (bumpVer s page).slots = s.slots := rfl
@[simp] theorem bumpVer_raises : (bumpVer s page).raises = s.raises := rfl
@[simp] theorem bumpVer_stepEpoch : (bumpVer s page).stepEpoch = s.stepEpoch := rfl
@[simp] theorem bumpVer_stallFrom : (bumpVer s page).stallFrom = s.stallFrom := rfl
@[simp] theorem bumpVer_cmds : (bumpVer s page).cmds = s.cmds := rfl
@[simp] theorem bumpVer_sqs : (bumpVer s page).sqs = s.sqs := rfl
@[simp] theorem bumpVer_eqs : (bumpVer s page).eqs = s.eqs := rfl
@[simp] theorem bumpVer_ports : (bumpVer s page).ports = s.ports := rfl
@[simp] theorem bumpVer_msixTab : (bumpVer s page).msixTab = s.msixTab := rfl
@[simp] theorem bumpVer_pba : (bumpVer s page).pba = s.pba := rfl
@[simp] theorem bumpVer_tenants : (bumpVer s page).tenants = s.tenants := rfl
@[simp] theorem bumpVer_hosts : (bumpVer s page).hosts = s.hosts := rfl
@[simp] theorem bumpVer_ptp : (bumpVer s page).ptp = s.ptp := rfl
@[simp] theorem bumpVer_everClaimed : (bumpVer s page).everClaimed = s.everClaimed := rfl
@[simp] theorem bumpVer_mgmtKey : (bumpVer s page).mgmtKey = s.mgmtKey := rfl
@[simp] theorem bumpVer_claimKeys : (bumpVer s page).claimKeys = s.claimKeys := rfl
@[simp] theorem bumpVer_wains : (bumpVer s page).wains = s.wains := rfl
@[simp] theorem bumpVer_wiring : (bumpVer s page).wiring = s.wiring := rfl
@[simp] theorem bumpVer_shadow : (bumpVer s page).shadow = s.shadow := rfl
@[simp] theorem bumpVer_tallyWaits : (bumpVer s page).tallyWaits = s.tallyWaits := rfl
@[simp] theorem bumpVer_certs : (bumpVer s page).certs = s.certs := rfl
@[simp] theorem bumpVer_fencing : (bumpVer s page).fencing = s.fencing := rfl
@[simp] theorem bumpVer_tallySince : (bumpVer s page).tallySince = s.tallySince := rfl
@[simp] theorem bumpVer_tallyDown : (bumpVer s page).tallyDown = s.tallyDown := rfl
@[simp] theorem bumpVer_tallyOut : (bumpVer s page).tallyOut = s.tallyOut := rfl
@[simp] theorem bumpVer_joinWait : (bumpVer s page).joinWait = s.joinWait := rfl
@[simp] theorem bumpVer_tray : (bumpVer s page).tray = s.tray := rfl
@[simp] theorem bumpVer_faultLog : (bumpVer s page).faultLog = s.faultLog := rfl
@[simp] theorem bumpVer_faultSeq : (bumpVer s page).faultSeq = s.faultSeq := rfl
@[simp] theorem bumpVer_flash : (bumpVer s page).flash = s.flash := rfl
@[simp] theorem bumpVer_power : (bumpVer s page).power = s.power := rfl
@[simp] theorem bumpVer_kvBlocks : (bumpVer s page).kvBlocks = s.kvBlocks := rfl
@[simp] theorem bumpVer_kvPoison : (bumpVer s page).kvPoison = s.kvPoison := rfl
@[simp] theorem bumpVer_keySlots : (bumpVer s page).keySlots = s.keySlots := rfl
@[simp] theorem bumpVer_nonces : (bumpVer s page).nonces = s.nonces := rfl
@[simp] theorem bumpVer_fwDone : (bumpVer s page).fwDone = s.fwDone := rfl
@[simp] theorem bumpVer_fwWait : (bumpVer s page).fwWait = s.fwWait := rfl
@[simp] theorem bumpVer_fwAgain : (bumpVer s page).fwAgain = s.fwAgain := rfl
@[simp] theorem bumpVer_lastTb : (bumpVer s page).lastTb = s.lastTb := rfl
@[simp] theorem bumpVer_orphans : (bumpVer s page).orphans = s.orphans := rfl
@[simp] theorem bumpVer_kvMarks : (bumpVer s page).kvMarks = s.kvMarks := rfl
@[simp] theorem bumpVer_sec : (bumpVer s page).sec = s.sec := rfl
@[simp] theorem bumpVer_keysLocked : (bumpVer s page).keysLocked = s.keysLocked := rfl
@[simp] theorem bumpVer_seqs : (bumpVer s page).seqs = s.seqs := rfl
@[simp] theorem bumpVer_seqPub : (bumpVer s page).seqPub = s.seqPub := rfl
@[simp] theorem bumpVer_srv : (bumpVer s page).srv = s.srv := rfl
@[simp] theorem bumpVer_video : (bumpVer s page).video = s.video := rfl
@[simp] theorem bumpVer_cores : (bumpVer s page).cores = s.cores := rfl
end

/-! `wrStaged` writes `staged` alone. -/
section
variable (s : State) (k v : Nat)
@[simp] theorem wrStaged_pending : (wrStaged s k v).pending = s.pending := rfl
@[simp] theorem wrStaged_clock : (wrStaged s k v).clock = s.clock := rfl
@[simp] theorem wrStaged_mtime : (wrStaged s k v).mtime = s.mtime := rfl
@[simp] theorem wrStaged_lastSample : (wrStaged s k v).lastSample = s.lastSample := rfl
@[simp] theorem wrStaged_free : (wrStaged s k v).free = s.free := rfl
@[simp] theorem wrStaged_nextId : (wrStaged s k v).nextId = s.nextId := rfl
@[simp] theorem wrStaged_out : (wrStaged s k v).out = s.out := rfl
@[simp] theorem wrStaged_regs : (wrStaged s k v).regs = s.regs := rfl
@[simp] theorem wrStaged_latched : (wrStaged s k v).latched = s.latched := rfl
@[simp] theorem wrStaged_unlocked : (wrStaged s k v).unlocked = s.unlocked := rfl
@[simp] theorem wrStaged_lockSeen : (wrStaged s k v).lockSeen = s.lockSeen := rfl
@[simp] theorem wrStaged_irqHigh : (wrStaged s k v).irqHigh = s.irqHigh := rfl
@[simp] theorem wrStaged_mem : (wrStaged s k v).mem = s.mem := rfl
@[simp] theorem wrStaged_gwq : (wrStaged s k v).gwq = s.gwq := rfl
@[simp] theorem wrStaged_readGrants : (wrStaged s k v).readGrants = s.readGrants := rfl
@[simp] theorem wrStaged_held : (wrStaged s k v).held = s.held := rfl
@[simp] theorem wrStaged_poison : (wrStaged s k v).poison = s.poison := rfl
@[simp] theorem wrStaged_lineVer : (wrStaged s k v).lineVer = s.lineVer := rfl
@[simp] theorem wrStaged_retained : (wrStaged s k v).retained = s.retained := rfl
@[simp] theorem wrStaged_deferred : (wrStaged s k v).deferred = s.deferred := rfl
@[simp] theorem wrStaged_lentLast : (wrStaged s k v).lentLast = s.lentLast := rfl
@[simp] theorem wrStaged_bays : (wrStaged s k v).bays = s.bays := rfl
@[simp] theorem wrStaged_mesh : (wrStaged s k v).mesh = s.mesh := rfl
@[simp] theorem wrStaged_unitTokens : (wrStaged s k v).unitTokens = s.unitTokens := rfl
@[simp] theorem wrStaged_ramp : (wrStaged s k v).ramp = s.ramp := rfl
@[simp] theorem wrStaged_slots : (wrStaged s k v).slots = s.slots := rfl
@[simp] theorem wrStaged_raises : (wrStaged s k v).raises = s.raises := rfl
@[simp] theorem wrStaged_stepEpoch : (wrStaged s k v).stepEpoch = s.stepEpoch := rfl
@[simp] theorem wrStaged_stallFrom : (wrStaged s k v).stallFrom = s.stallFrom := rfl
@[simp] theorem wrStaged_cmds : (wrStaged s k v).cmds = s.cmds := rfl
@[simp] theorem wrStaged_sqs : (wrStaged s k v).sqs = s.sqs := rfl
@[simp] theorem wrStaged_eqs : (wrStaged s k v).eqs = s.eqs := rfl
@[simp] theorem wrStaged_ports : (wrStaged s k v).ports = s.ports := rfl
@[simp] theorem wrStaged_msixTab : (wrStaged s k v).msixTab = s.msixTab := rfl
@[simp] theorem wrStaged_pba : (wrStaged s k v).pba = s.pba := rfl
@[simp] theorem wrStaged_tenants : (wrStaged s k v).tenants = s.tenants := rfl
@[simp] theorem wrStaged_hosts : (wrStaged s k v).hosts = s.hosts := rfl
@[simp] theorem wrStaged_ptp : (wrStaged s k v).ptp = s.ptp := rfl
@[simp] theorem wrStaged_everClaimed : (wrStaged s k v).everClaimed = s.everClaimed := rfl
@[simp] theorem wrStaged_mgmtKey : (wrStaged s k v).mgmtKey = s.mgmtKey := rfl
@[simp] theorem wrStaged_claimKeys : (wrStaged s k v).claimKeys = s.claimKeys := rfl
@[simp] theorem wrStaged_wains : (wrStaged s k v).wains = s.wains := rfl
@[simp] theorem wrStaged_wiring : (wrStaged s k v).wiring = s.wiring := rfl
@[simp] theorem wrStaged_shadow : (wrStaged s k v).shadow = s.shadow := rfl
@[simp] theorem wrStaged_tallyWaits : (wrStaged s k v).tallyWaits = s.tallyWaits := rfl
@[simp] theorem wrStaged_certs : (wrStaged s k v).certs = s.certs := rfl
@[simp] theorem wrStaged_fencing : (wrStaged s k v).fencing = s.fencing := rfl
@[simp] theorem wrStaged_tallySince : (wrStaged s k v).tallySince = s.tallySince := rfl
@[simp] theorem wrStaged_tallyDown : (wrStaged s k v).tallyDown = s.tallyDown := rfl
@[simp] theorem wrStaged_tallyOut : (wrStaged s k v).tallyOut = s.tallyOut := rfl
@[simp] theorem wrStaged_joinWait : (wrStaged s k v).joinWait = s.joinWait := rfl
@[simp] theorem wrStaged_tray : (wrStaged s k v).tray = s.tray := rfl
@[simp] theorem wrStaged_faultLog : (wrStaged s k v).faultLog = s.faultLog := rfl
@[simp] theorem wrStaged_faultSeq : (wrStaged s k v).faultSeq = s.faultSeq := rfl
@[simp] theorem wrStaged_flash : (wrStaged s k v).flash = s.flash := rfl
@[simp] theorem wrStaged_power : (wrStaged s k v).power = s.power := rfl
@[simp] theorem wrStaged_kvBlocks : (wrStaged s k v).kvBlocks = s.kvBlocks := rfl
@[simp] theorem wrStaged_kvPoison : (wrStaged s k v).kvPoison = s.kvPoison := rfl
@[simp] theorem wrStaged_keySlots : (wrStaged s k v).keySlots = s.keySlots := rfl
@[simp] theorem wrStaged_nonces : (wrStaged s k v).nonces = s.nonces := rfl
@[simp] theorem wrStaged_fwDone : (wrStaged s k v).fwDone = s.fwDone := rfl
@[simp] theorem wrStaged_fwWait : (wrStaged s k v).fwWait = s.fwWait := rfl
@[simp] theorem wrStaged_fwAgain : (wrStaged s k v).fwAgain = s.fwAgain := rfl
@[simp] theorem wrStaged_lastTb : (wrStaged s k v).lastTb = s.lastTb := rfl
@[simp] theorem wrStaged_orphans : (wrStaged s k v).orphans = s.orphans := rfl
@[simp] theorem wrStaged_kvMarks : (wrStaged s k v).kvMarks = s.kvMarks := rfl
@[simp] theorem wrStaged_sec : (wrStaged s k v).sec = s.sec := rfl
@[simp] theorem wrStaged_keysLocked : (wrStaged s k v).keysLocked = s.keysLocked := rfl
@[simp] theorem wrStaged_seqs : (wrStaged s k v).seqs = s.seqs := rfl
@[simp] theorem wrStaged_seqPub : (wrStaged s k v).seqPub = s.seqPub := rfl
@[simp] theorem wrStaged_srv : (wrStaged s k v).srv = s.srv := rfl
@[simp] theorem wrStaged_video : (wrStaged s k v).video = s.video := rfl
@[simp] theorem wrStaged_cores : (wrStaged s k v).cores = s.cores := rfl
end

/-! `emit` writes `out` alone. -/
section
variable (s : State) (o : Output)
@[simp] theorem emit_pending : (emit s o).pending = s.pending := rfl
@[simp] theorem emit_clock : (emit s o).clock = s.clock := rfl
@[simp] theorem emit_mtime : (emit s o).mtime = s.mtime := rfl
@[simp] theorem emit_lastSample : (emit s o).lastSample = s.lastSample := rfl
@[simp] theorem emit_free : (emit s o).free = s.free := rfl
@[simp] theorem emit_nextId : (emit s o).nextId = s.nextId := rfl
@[simp] theorem emit_regs : (emit s o).regs = s.regs := rfl
@[simp] theorem emit_staged : (emit s o).staged = s.staged := rfl
@[simp] theorem emit_latched : (emit s o).latched = s.latched := rfl
@[simp] theorem emit_unlocked : (emit s o).unlocked = s.unlocked := rfl
@[simp] theorem emit_lockSeen : (emit s o).lockSeen = s.lockSeen := rfl
@[simp] theorem emit_irqHigh : (emit s o).irqHigh = s.irqHigh := rfl
@[simp] theorem emit_mem : (emit s o).mem = s.mem := rfl
@[simp] theorem emit_gwq : (emit s o).gwq = s.gwq := rfl
@[simp] theorem emit_readGrants : (emit s o).readGrants = s.readGrants := rfl
@[simp] theorem emit_held : (emit s o).held = s.held := rfl
@[simp] theorem emit_poison : (emit s o).poison = s.poison := rfl
@[simp] theorem emit_lineVer : (emit s o).lineVer = s.lineVer := rfl
@[simp] theorem emit_retained : (emit s o).retained = s.retained := rfl
@[simp] theorem emit_deferred : (emit s o).deferred = s.deferred := rfl
@[simp] theorem emit_lentLast : (emit s o).lentLast = s.lentLast := rfl
@[simp] theorem emit_bays : (emit s o).bays = s.bays := rfl
@[simp] theorem emit_mesh : (emit s o).mesh = s.mesh := rfl
@[simp] theorem emit_unitTokens : (emit s o).unitTokens = s.unitTokens := rfl
@[simp] theorem emit_ramp : (emit s o).ramp = s.ramp := rfl
@[simp] theorem emit_slots : (emit s o).slots = s.slots := rfl
@[simp] theorem emit_raises : (emit s o).raises = s.raises := rfl
@[simp] theorem emit_stepEpoch : (emit s o).stepEpoch = s.stepEpoch := rfl
@[simp] theorem emit_stallFrom : (emit s o).stallFrom = s.stallFrom := rfl
@[simp] theorem emit_cmds : (emit s o).cmds = s.cmds := rfl
@[simp] theorem emit_sqs : (emit s o).sqs = s.sqs := rfl
@[simp] theorem emit_eqs : (emit s o).eqs = s.eqs := rfl
@[simp] theorem emit_ports : (emit s o).ports = s.ports := rfl
@[simp] theorem emit_msixTab : (emit s o).msixTab = s.msixTab := rfl
@[simp] theorem emit_pba : (emit s o).pba = s.pba := rfl
@[simp] theorem emit_tenants : (emit s o).tenants = s.tenants := rfl
@[simp] theorem emit_hosts : (emit s o).hosts = s.hosts := rfl
@[simp] theorem emit_ptp : (emit s o).ptp = s.ptp := rfl
@[simp] theorem emit_everClaimed : (emit s o).everClaimed = s.everClaimed := rfl
@[simp] theorem emit_mgmtKey : (emit s o).mgmtKey = s.mgmtKey := rfl
@[simp] theorem emit_claimKeys : (emit s o).claimKeys = s.claimKeys := rfl
@[simp] theorem emit_wains : (emit s o).wains = s.wains := rfl
@[simp] theorem emit_wiring : (emit s o).wiring = s.wiring := rfl
@[simp] theorem emit_shadow : (emit s o).shadow = s.shadow := rfl
@[simp] theorem emit_tallyWaits : (emit s o).tallyWaits = s.tallyWaits := rfl
@[simp] theorem emit_certs : (emit s o).certs = s.certs := rfl
@[simp] theorem emit_fencing : (emit s o).fencing = s.fencing := rfl
@[simp] theorem emit_tallySince : (emit s o).tallySince = s.tallySince := rfl
@[simp] theorem emit_tallyDown : (emit s o).tallyDown = s.tallyDown := rfl
@[simp] theorem emit_tallyOut : (emit s o).tallyOut = s.tallyOut := rfl
@[simp] theorem emit_joinWait : (emit s o).joinWait = s.joinWait := rfl
@[simp] theorem emit_tray : (emit s o).tray = s.tray := rfl
@[simp] theorem emit_faultLog : (emit s o).faultLog = s.faultLog := rfl
@[simp] theorem emit_faultSeq : (emit s o).faultSeq = s.faultSeq := rfl
@[simp] theorem emit_flash : (emit s o).flash = s.flash := rfl
@[simp] theorem emit_power : (emit s o).power = s.power := rfl
@[simp] theorem emit_kvBlocks : (emit s o).kvBlocks = s.kvBlocks := rfl
@[simp] theorem emit_kvPoison : (emit s o).kvPoison = s.kvPoison := rfl
@[simp] theorem emit_keySlots : (emit s o).keySlots = s.keySlots := rfl
@[simp] theorem emit_nonces : (emit s o).nonces = s.nonces := rfl
@[simp] theorem emit_fwDone : (emit s o).fwDone = s.fwDone := rfl
@[simp] theorem emit_fwWait : (emit s o).fwWait = s.fwWait := rfl
@[simp] theorem emit_fwAgain : (emit s o).fwAgain = s.fwAgain := rfl
@[simp] theorem emit_lastTb : (emit s o).lastTb = s.lastTb := rfl
@[simp] theorem emit_orphans : (emit s o).orphans = s.orphans := rfl
@[simp] theorem emit_kvMarks : (emit s o).kvMarks = s.kvMarks := rfl
@[simp] theorem emit_sec : (emit s o).sec = s.sec := rfl
@[simp] theorem emit_keysLocked : (emit s o).keysLocked = s.keysLocked := rfl
@[simp] theorem emit_seqs : (emit s o).seqs = s.seqs := rfl
@[simp] theorem emit_seqPub : (emit s o).seqPub = s.seqPub := rfl
@[simp] theorem emit_srv : (emit s o).srv = s.srv := rfl
@[simp] theorem emit_video : (emit s o).video = s.video := rfl
@[simp] theorem emit_cores : (emit s o).cores = s.cores := rfl
end

/-! `setPort` writes `ports` alone. -/
section
variable (s : State) (p : Nat) (x : Port)
@[simp] theorem setPort_pending : (setPort s p x).pending = s.pending := rfl
@[simp] theorem setPort_clock : (setPort s p x).clock = s.clock := rfl
@[simp] theorem setPort_mtime : (setPort s p x).mtime = s.mtime := rfl
@[simp] theorem setPort_lastSample : (setPort s p x).lastSample = s.lastSample := rfl
@[simp] theorem setPort_free : (setPort s p x).free = s.free := rfl
@[simp] theorem setPort_nextId : (setPort s p x).nextId = s.nextId := rfl
@[simp] theorem setPort_out : (setPort s p x).out = s.out := rfl
@[simp] theorem setPort_regs : (setPort s p x).regs = s.regs := rfl
@[simp] theorem setPort_staged : (setPort s p x).staged = s.staged := rfl
@[simp] theorem setPort_latched : (setPort s p x).latched = s.latched := rfl
@[simp] theorem setPort_unlocked : (setPort s p x).unlocked = s.unlocked := rfl
@[simp] theorem setPort_lockSeen : (setPort s p x).lockSeen = s.lockSeen := rfl
@[simp] theorem setPort_irqHigh : (setPort s p x).irqHigh = s.irqHigh := rfl
@[simp] theorem setPort_mem : (setPort s p x).mem = s.mem := rfl
@[simp] theorem setPort_gwq : (setPort s p x).gwq = s.gwq := rfl
@[simp] theorem setPort_readGrants : (setPort s p x).readGrants = s.readGrants := rfl
@[simp] theorem setPort_held : (setPort s p x).held = s.held := rfl
@[simp] theorem setPort_poison : (setPort s p x).poison = s.poison := rfl
@[simp] theorem setPort_lineVer : (setPort s p x).lineVer = s.lineVer := rfl
@[simp] theorem setPort_retained : (setPort s p x).retained = s.retained := rfl
@[simp] theorem setPort_deferred : (setPort s p x).deferred = s.deferred := rfl
@[simp] theorem setPort_lentLast : (setPort s p x).lentLast = s.lentLast := rfl
@[simp] theorem setPort_bays : (setPort s p x).bays = s.bays := rfl
@[simp] theorem setPort_mesh : (setPort s p x).mesh = s.mesh := rfl
@[simp] theorem setPort_unitTokens : (setPort s p x).unitTokens = s.unitTokens := rfl
@[simp] theorem setPort_ramp : (setPort s p x).ramp = s.ramp := rfl
@[simp] theorem setPort_slots : (setPort s p x).slots = s.slots := rfl
@[simp] theorem setPort_raises : (setPort s p x).raises = s.raises := rfl
@[simp] theorem setPort_stepEpoch : (setPort s p x).stepEpoch = s.stepEpoch := rfl
@[simp] theorem setPort_stallFrom : (setPort s p x).stallFrom = s.stallFrom := rfl
@[simp] theorem setPort_cmds : (setPort s p x).cmds = s.cmds := rfl
@[simp] theorem setPort_sqs : (setPort s p x).sqs = s.sqs := rfl
@[simp] theorem setPort_eqs : (setPort s p x).eqs = s.eqs := rfl
@[simp] theorem setPort_msixTab : (setPort s p x).msixTab = s.msixTab := rfl
@[simp] theorem setPort_pba : (setPort s p x).pba = s.pba := rfl
@[simp] theorem setPort_tenants : (setPort s p x).tenants = s.tenants := rfl
@[simp] theorem setPort_hosts : (setPort s p x).hosts = s.hosts := rfl
@[simp] theorem setPort_ptp : (setPort s p x).ptp = s.ptp := rfl
@[simp] theorem setPort_everClaimed : (setPort s p x).everClaimed = s.everClaimed := rfl
@[simp] theorem setPort_mgmtKey : (setPort s p x).mgmtKey = s.mgmtKey := rfl
@[simp] theorem setPort_claimKeys : (setPort s p x).claimKeys = s.claimKeys := rfl
@[simp] theorem setPort_wains : (setPort s p x).wains = s.wains := rfl
@[simp] theorem setPort_wiring : (setPort s p x).wiring = s.wiring := rfl
@[simp] theorem setPort_shadow : (setPort s p x).shadow = s.shadow := rfl
@[simp] theorem setPort_tallyWaits : (setPort s p x).tallyWaits = s.tallyWaits := rfl
@[simp] theorem setPort_certs : (setPort s p x).certs = s.certs := rfl
@[simp] theorem setPort_fencing : (setPort s p x).fencing = s.fencing := rfl
@[simp] theorem setPort_tallySince : (setPort s p x).tallySince = s.tallySince := rfl
@[simp] theorem setPort_tallyDown : (setPort s p x).tallyDown = s.tallyDown := rfl
@[simp] theorem setPort_tallyOut : (setPort s p x).tallyOut = s.tallyOut := rfl
@[simp] theorem setPort_joinWait : (setPort s p x).joinWait = s.joinWait := rfl
@[simp] theorem setPort_tray : (setPort s p x).tray = s.tray := rfl
@[simp] theorem setPort_faultLog : (setPort s p x).faultLog = s.faultLog := rfl
@[simp] theorem setPort_faultSeq : (setPort s p x).faultSeq = s.faultSeq := rfl
@[simp] theorem setPort_flash : (setPort s p x).flash = s.flash := rfl
@[simp] theorem setPort_power : (setPort s p x).power = s.power := rfl
@[simp] theorem setPort_kvBlocks : (setPort s p x).kvBlocks = s.kvBlocks := rfl
@[simp] theorem setPort_kvPoison : (setPort s p x).kvPoison = s.kvPoison := rfl
@[simp] theorem setPort_keySlots : (setPort s p x).keySlots = s.keySlots := rfl
@[simp] theorem setPort_nonces : (setPort s p x).nonces = s.nonces := rfl
@[simp] theorem setPort_fwDone : (setPort s p x).fwDone = s.fwDone := rfl
@[simp] theorem setPort_fwWait : (setPort s p x).fwWait = s.fwWait := rfl
@[simp] theorem setPort_fwAgain : (setPort s p x).fwAgain = s.fwAgain := rfl
@[simp] theorem setPort_lastTb : (setPort s p x).lastTb = s.lastTb := rfl
@[simp] theorem setPort_orphans : (setPort s p x).orphans = s.orphans := rfl
@[simp] theorem setPort_kvMarks : (setPort s p x).kvMarks = s.kvMarks := rfl
@[simp] theorem setPort_sec : (setPort s p x).sec = s.sec := rfl
@[simp] theorem setPort_keysLocked : (setPort s p x).keysLocked = s.keysLocked := rfl
@[simp] theorem setPort_seqs : (setPort s p x).seqs = s.seqs := rfl
@[simp] theorem setPort_seqPub : (setPort s p x).seqPub = s.seqPub := rfl
@[simp] theorem setPort_srv : (setPort s p x).srv = s.srv := rfl
@[simp] theorem setPort_video : (setPort s p x).video = s.video := rfl
@[simp] theorem setPort_cores : (setPort s p x).cores = s.cores := rfl
end

/-! `setEqr` writes `eqs` alone. -/
section
variable (s : State) (f n : Nat) (x : EvRing)
@[simp] theorem setEqr_pending : (setEqr s f n x).pending = s.pending := rfl
@[simp] theorem setEqr_clock : (setEqr s f n x).clock = s.clock := rfl
@[simp] theorem setEqr_mtime : (setEqr s f n x).mtime = s.mtime := rfl
@[simp] theorem setEqr_lastSample : (setEqr s f n x).lastSample = s.lastSample := rfl
@[simp] theorem setEqr_free : (setEqr s f n x).free = s.free := rfl
@[simp] theorem setEqr_nextId : (setEqr s f n x).nextId = s.nextId := rfl
@[simp] theorem setEqr_out : (setEqr s f n x).out = s.out := rfl
@[simp] theorem setEqr_regs : (setEqr s f n x).regs = s.regs := rfl
@[simp] theorem setEqr_staged : (setEqr s f n x).staged = s.staged := rfl
@[simp] theorem setEqr_latched : (setEqr s f n x).latched = s.latched := rfl
@[simp] theorem setEqr_unlocked : (setEqr s f n x).unlocked = s.unlocked := rfl
@[simp] theorem setEqr_lockSeen : (setEqr s f n x).lockSeen = s.lockSeen := rfl
@[simp] theorem setEqr_irqHigh : (setEqr s f n x).irqHigh = s.irqHigh := rfl
@[simp] theorem setEqr_mem : (setEqr s f n x).mem = s.mem := rfl
@[simp] theorem setEqr_gwq : (setEqr s f n x).gwq = s.gwq := rfl
@[simp] theorem setEqr_readGrants : (setEqr s f n x).readGrants = s.readGrants := rfl
@[simp] theorem setEqr_held : (setEqr s f n x).held = s.held := rfl
@[simp] theorem setEqr_poison : (setEqr s f n x).poison = s.poison := rfl
@[simp] theorem setEqr_lineVer : (setEqr s f n x).lineVer = s.lineVer := rfl
@[simp] theorem setEqr_retained : (setEqr s f n x).retained = s.retained := rfl
@[simp] theorem setEqr_deferred : (setEqr s f n x).deferred = s.deferred := rfl
@[simp] theorem setEqr_lentLast : (setEqr s f n x).lentLast = s.lentLast := rfl
@[simp] theorem setEqr_bays : (setEqr s f n x).bays = s.bays := rfl
@[simp] theorem setEqr_mesh : (setEqr s f n x).mesh = s.mesh := rfl
@[simp] theorem setEqr_unitTokens : (setEqr s f n x).unitTokens = s.unitTokens := rfl
@[simp] theorem setEqr_ramp : (setEqr s f n x).ramp = s.ramp := rfl
@[simp] theorem setEqr_slots : (setEqr s f n x).slots = s.slots := rfl
@[simp] theorem setEqr_raises : (setEqr s f n x).raises = s.raises := rfl
@[simp] theorem setEqr_stepEpoch : (setEqr s f n x).stepEpoch = s.stepEpoch := rfl
@[simp] theorem setEqr_stallFrom : (setEqr s f n x).stallFrom = s.stallFrom := rfl
@[simp] theorem setEqr_cmds : (setEqr s f n x).cmds = s.cmds := rfl
@[simp] theorem setEqr_sqs : (setEqr s f n x).sqs = s.sqs := rfl
@[simp] theorem setEqr_ports : (setEqr s f n x).ports = s.ports := rfl
@[simp] theorem setEqr_msixTab : (setEqr s f n x).msixTab = s.msixTab := rfl
@[simp] theorem setEqr_pba : (setEqr s f n x).pba = s.pba := rfl
@[simp] theorem setEqr_tenants : (setEqr s f n x).tenants = s.tenants := rfl
@[simp] theorem setEqr_hosts : (setEqr s f n x).hosts = s.hosts := rfl
@[simp] theorem setEqr_ptp : (setEqr s f n x).ptp = s.ptp := rfl
@[simp] theorem setEqr_everClaimed : (setEqr s f n x).everClaimed = s.everClaimed := rfl
@[simp] theorem setEqr_mgmtKey : (setEqr s f n x).mgmtKey = s.mgmtKey := rfl
@[simp] theorem setEqr_claimKeys : (setEqr s f n x).claimKeys = s.claimKeys := rfl
@[simp] theorem setEqr_wains : (setEqr s f n x).wains = s.wains := rfl
@[simp] theorem setEqr_wiring : (setEqr s f n x).wiring = s.wiring := rfl
@[simp] theorem setEqr_shadow : (setEqr s f n x).shadow = s.shadow := rfl
@[simp] theorem setEqr_tallyWaits : (setEqr s f n x).tallyWaits = s.tallyWaits := rfl
@[simp] theorem setEqr_certs : (setEqr s f n x).certs = s.certs := rfl
@[simp] theorem setEqr_fencing : (setEqr s f n x).fencing = s.fencing := rfl
@[simp] theorem setEqr_tallySince : (setEqr s f n x).tallySince = s.tallySince := rfl
@[simp] theorem setEqr_tallyDown : (setEqr s f n x).tallyDown = s.tallyDown := rfl
@[simp] theorem setEqr_tallyOut : (setEqr s f n x).tallyOut = s.tallyOut := rfl
@[simp] theorem setEqr_joinWait : (setEqr s f n x).joinWait = s.joinWait := rfl
@[simp] theorem setEqr_tray : (setEqr s f n x).tray = s.tray := rfl
@[simp] theorem setEqr_faultLog : (setEqr s f n x).faultLog = s.faultLog := rfl
@[simp] theorem setEqr_faultSeq : (setEqr s f n x).faultSeq = s.faultSeq := rfl
@[simp] theorem setEqr_flash : (setEqr s f n x).flash = s.flash := rfl
@[simp] theorem setEqr_power : (setEqr s f n x).power = s.power := rfl
@[simp] theorem setEqr_kvBlocks : (setEqr s f n x).kvBlocks = s.kvBlocks := rfl
@[simp] theorem setEqr_kvPoison : (setEqr s f n x).kvPoison = s.kvPoison := rfl
@[simp] theorem setEqr_keySlots : (setEqr s f n x).keySlots = s.keySlots := rfl
@[simp] theorem setEqr_nonces : (setEqr s f n x).nonces = s.nonces := rfl
@[simp] theorem setEqr_fwDone : (setEqr s f n x).fwDone = s.fwDone := rfl
@[simp] theorem setEqr_fwWait : (setEqr s f n x).fwWait = s.fwWait := rfl
@[simp] theorem setEqr_fwAgain : (setEqr s f n x).fwAgain = s.fwAgain := rfl
@[simp] theorem setEqr_lastTb : (setEqr s f n x).lastTb = s.lastTb := rfl
@[simp] theorem setEqr_orphans : (setEqr s f n x).orphans = s.orphans := rfl
@[simp] theorem setEqr_kvMarks : (setEqr s f n x).kvMarks = s.kvMarks := rfl
@[simp] theorem setEqr_sec : (setEqr s f n x).sec = s.sec := rfl
@[simp] theorem setEqr_keysLocked : (setEqr s f n x).keysLocked = s.keysLocked := rfl
@[simp] theorem setEqr_seqs : (setEqr s f n x).seqs = s.seqs := rfl
@[simp] theorem setEqr_seqPub : (setEqr s f n x).seqPub = s.seqPub := rfl
@[simp] theorem setEqr_srv : (setEqr s f n x).srv = s.srv := rfl
@[simp] theorem setEqr_video : (setEqr s f n x).video = s.video := rfl
@[simp] theorem setEqr_cores : (setEqr s f n x).cores = s.cores := rfl
end

/-! `setSqr` writes `sqs` alone. -/
section
variable (s : State) (f n : Nat) (x : SqRing)
@[simp] theorem setSqr_pending : (setSqr s f n x).pending = s.pending := rfl
@[simp] theorem setSqr_clock : (setSqr s f n x).clock = s.clock := rfl
@[simp] theorem setSqr_mtime : (setSqr s f n x).mtime = s.mtime := rfl
@[simp] theorem setSqr_lastSample : (setSqr s f n x).lastSample = s.lastSample := rfl
@[simp] theorem setSqr_free : (setSqr s f n x).free = s.free := rfl
@[simp] theorem setSqr_nextId : (setSqr s f n x).nextId = s.nextId := rfl
@[simp] theorem setSqr_out : (setSqr s f n x).out = s.out := rfl
@[simp] theorem setSqr_regs : (setSqr s f n x).regs = s.regs := rfl
@[simp] theorem setSqr_staged : (setSqr s f n x).staged = s.staged := rfl
@[simp] theorem setSqr_latched : (setSqr s f n x).latched = s.latched := rfl
@[simp] theorem setSqr_unlocked : (setSqr s f n x).unlocked = s.unlocked := rfl
@[simp] theorem setSqr_lockSeen : (setSqr s f n x).lockSeen = s.lockSeen := rfl
@[simp] theorem setSqr_irqHigh : (setSqr s f n x).irqHigh = s.irqHigh := rfl
@[simp] theorem setSqr_mem : (setSqr s f n x).mem = s.mem := rfl
@[simp] theorem setSqr_gwq : (setSqr s f n x).gwq = s.gwq := rfl
@[simp] theorem setSqr_readGrants : (setSqr s f n x).readGrants = s.readGrants := rfl
@[simp] theorem setSqr_held : (setSqr s f n x).held = s.held := rfl
@[simp] theorem setSqr_poison : (setSqr s f n x).poison = s.poison := rfl
@[simp] theorem setSqr_lineVer : (setSqr s f n x).lineVer = s.lineVer := rfl
@[simp] theorem setSqr_retained : (setSqr s f n x).retained = s.retained := rfl
@[simp] theorem setSqr_deferred : (setSqr s f n x).deferred = s.deferred := rfl
@[simp] theorem setSqr_lentLast : (setSqr s f n x).lentLast = s.lentLast := rfl
@[simp] theorem setSqr_bays : (setSqr s f n x).bays = s.bays := rfl
@[simp] theorem setSqr_mesh : (setSqr s f n x).mesh = s.mesh := rfl
@[simp] theorem setSqr_unitTokens : (setSqr s f n x).unitTokens = s.unitTokens := rfl
@[simp] theorem setSqr_ramp : (setSqr s f n x).ramp = s.ramp := rfl
@[simp] theorem setSqr_slots : (setSqr s f n x).slots = s.slots := rfl
@[simp] theorem setSqr_raises : (setSqr s f n x).raises = s.raises := rfl
@[simp] theorem setSqr_stepEpoch : (setSqr s f n x).stepEpoch = s.stepEpoch := rfl
@[simp] theorem setSqr_stallFrom : (setSqr s f n x).stallFrom = s.stallFrom := rfl
@[simp] theorem setSqr_cmds : (setSqr s f n x).cmds = s.cmds := rfl
@[simp] theorem setSqr_eqs : (setSqr s f n x).eqs = s.eqs := rfl
@[simp] theorem setSqr_ports : (setSqr s f n x).ports = s.ports := rfl
@[simp] theorem setSqr_msixTab : (setSqr s f n x).msixTab = s.msixTab := rfl
@[simp] theorem setSqr_pba : (setSqr s f n x).pba = s.pba := rfl
@[simp] theorem setSqr_tenants : (setSqr s f n x).tenants = s.tenants := rfl
@[simp] theorem setSqr_hosts : (setSqr s f n x).hosts = s.hosts := rfl
@[simp] theorem setSqr_ptp : (setSqr s f n x).ptp = s.ptp := rfl
@[simp] theorem setSqr_everClaimed : (setSqr s f n x).everClaimed = s.everClaimed := rfl
@[simp] theorem setSqr_mgmtKey : (setSqr s f n x).mgmtKey = s.mgmtKey := rfl
@[simp] theorem setSqr_claimKeys : (setSqr s f n x).claimKeys = s.claimKeys := rfl
@[simp] theorem setSqr_wains : (setSqr s f n x).wains = s.wains := rfl
@[simp] theorem setSqr_wiring : (setSqr s f n x).wiring = s.wiring := rfl
@[simp] theorem setSqr_shadow : (setSqr s f n x).shadow = s.shadow := rfl
@[simp] theorem setSqr_tallyWaits : (setSqr s f n x).tallyWaits = s.tallyWaits := rfl
@[simp] theorem setSqr_certs : (setSqr s f n x).certs = s.certs := rfl
@[simp] theorem setSqr_fencing : (setSqr s f n x).fencing = s.fencing := rfl
@[simp] theorem setSqr_tallySince : (setSqr s f n x).tallySince = s.tallySince := rfl
@[simp] theorem setSqr_tallyDown : (setSqr s f n x).tallyDown = s.tallyDown := rfl
@[simp] theorem setSqr_tallyOut : (setSqr s f n x).tallyOut = s.tallyOut := rfl
@[simp] theorem setSqr_joinWait : (setSqr s f n x).joinWait = s.joinWait := rfl
@[simp] theorem setSqr_tray : (setSqr s f n x).tray = s.tray := rfl
@[simp] theorem setSqr_faultLog : (setSqr s f n x).faultLog = s.faultLog := rfl
@[simp] theorem setSqr_faultSeq : (setSqr s f n x).faultSeq = s.faultSeq := rfl
@[simp] theorem setSqr_flash : (setSqr s f n x).flash = s.flash := rfl
@[simp] theorem setSqr_power : (setSqr s f n x).power = s.power := rfl
@[simp] theorem setSqr_kvBlocks : (setSqr s f n x).kvBlocks = s.kvBlocks := rfl
@[simp] theorem setSqr_kvPoison : (setSqr s f n x).kvPoison = s.kvPoison := rfl
@[simp] theorem setSqr_keySlots : (setSqr s f n x).keySlots = s.keySlots := rfl
@[simp] theorem setSqr_nonces : (setSqr s f n x).nonces = s.nonces := rfl
@[simp] theorem setSqr_fwDone : (setSqr s f n x).fwDone = s.fwDone := rfl
@[simp] theorem setSqr_fwWait : (setSqr s f n x).fwWait = s.fwWait := rfl
@[simp] theorem setSqr_fwAgain : (setSqr s f n x).fwAgain = s.fwAgain := rfl
@[simp] theorem setSqr_lastTb : (setSqr s f n x).lastTb = s.lastTb := rfl
@[simp] theorem setSqr_orphans : (setSqr s f n x).orphans = s.orphans := rfl
@[simp] theorem setSqr_kvMarks : (setSqr s f n x).kvMarks = s.kvMarks := rfl
@[simp] theorem setSqr_sec : (setSqr s f n x).sec = s.sec := rfl
@[simp] theorem setSqr_keysLocked : (setSqr s f n x).keysLocked = s.keysLocked := rfl
@[simp] theorem setSqr_seqs : (setSqr s f n x).seqs = s.seqs := rfl
@[simp] theorem setSqr_seqPub : (setSqr s f n x).seqPub = s.seqPub := rfl
@[simp] theorem setSqr_srv : (setSqr s f n x).srv = s.srv := rfl
@[simp] theorem setSqr_video : (setSqr s f n x).video = s.video := rfl
@[simp] theorem setSqr_cores : (setSqr s f n x).cores = s.cores := rfl
end

/-! `send` writes `mesh` alone. -/
section
variable (s : State) (m : MeshMsg)
@[simp] theorem send_pending : (send s m).pending = s.pending := rfl
@[simp] theorem send_clock : (send s m).clock = s.clock := rfl
@[simp] theorem send_mtime : (send s m).mtime = s.mtime := rfl
@[simp] theorem send_lastSample : (send s m).lastSample = s.lastSample := rfl
@[simp] theorem send_free : (send s m).free = s.free := rfl
@[simp] theorem send_nextId : (send s m).nextId = s.nextId := rfl
@[simp] theorem send_out : (send s m).out = s.out := rfl
@[simp] theorem send_regs : (send s m).regs = s.regs := rfl
@[simp] theorem send_staged : (send s m).staged = s.staged := rfl
@[simp] theorem send_latched : (send s m).latched = s.latched := rfl
@[simp] theorem send_unlocked : (send s m).unlocked = s.unlocked := rfl
@[simp] theorem send_lockSeen : (send s m).lockSeen = s.lockSeen := rfl
@[simp] theorem send_irqHigh : (send s m).irqHigh = s.irqHigh := rfl
@[simp] theorem send_mem : (send s m).mem = s.mem := rfl
@[simp] theorem send_gwq : (send s m).gwq = s.gwq := rfl
@[simp] theorem send_readGrants : (send s m).readGrants = s.readGrants := rfl
@[simp] theorem send_held : (send s m).held = s.held := rfl
@[simp] theorem send_poison : (send s m).poison = s.poison := rfl
@[simp] theorem send_lineVer : (send s m).lineVer = s.lineVer := rfl
@[simp] theorem send_retained : (send s m).retained = s.retained := rfl
@[simp] theorem send_deferred : (send s m).deferred = s.deferred := rfl
@[simp] theorem send_lentLast : (send s m).lentLast = s.lentLast := rfl
@[simp] theorem send_bays : (send s m).bays = s.bays := rfl
@[simp] theorem send_unitTokens : (send s m).unitTokens = s.unitTokens := rfl
@[simp] theorem send_ramp : (send s m).ramp = s.ramp := rfl
@[simp] theorem send_slots : (send s m).slots = s.slots := rfl
@[simp] theorem send_raises : (send s m).raises = s.raises := rfl
@[simp] theorem send_stepEpoch : (send s m).stepEpoch = s.stepEpoch := rfl
@[simp] theorem send_stallFrom : (send s m).stallFrom = s.stallFrom := rfl
@[simp] theorem send_cmds : (send s m).cmds = s.cmds := rfl
@[simp] theorem send_sqs : (send s m).sqs = s.sqs := rfl
@[simp] theorem send_eqs : (send s m).eqs = s.eqs := rfl
@[simp] theorem send_ports : (send s m).ports = s.ports := rfl
@[simp] theorem send_msixTab : (send s m).msixTab = s.msixTab := rfl
@[simp] theorem send_pba : (send s m).pba = s.pba := rfl
@[simp] theorem send_tenants : (send s m).tenants = s.tenants := rfl
@[simp] theorem send_hosts : (send s m).hosts = s.hosts := rfl
@[simp] theorem send_ptp : (send s m).ptp = s.ptp := rfl
@[simp] theorem send_everClaimed : (send s m).everClaimed = s.everClaimed := rfl
@[simp] theorem send_mgmtKey : (send s m).mgmtKey = s.mgmtKey := rfl
@[simp] theorem send_claimKeys : (send s m).claimKeys = s.claimKeys := rfl
@[simp] theorem send_wains : (send s m).wains = s.wains := rfl
@[simp] theorem send_wiring : (send s m).wiring = s.wiring := rfl
@[simp] theorem send_shadow : (send s m).shadow = s.shadow := rfl
@[simp] theorem send_tallyWaits : (send s m).tallyWaits = s.tallyWaits := rfl
@[simp] theorem send_certs : (send s m).certs = s.certs := rfl
@[simp] theorem send_fencing : (send s m).fencing = s.fencing := rfl
@[simp] theorem send_tallySince : (send s m).tallySince = s.tallySince := rfl
@[simp] theorem send_tallyDown : (send s m).tallyDown = s.tallyDown := rfl
@[simp] theorem send_tallyOut : (send s m).tallyOut = s.tallyOut := rfl
@[simp] theorem send_joinWait : (send s m).joinWait = s.joinWait := rfl
@[simp] theorem send_tray : (send s m).tray = s.tray := rfl
@[simp] theorem send_faultLog : (send s m).faultLog = s.faultLog := rfl
@[simp] theorem send_faultSeq : (send s m).faultSeq = s.faultSeq := rfl
@[simp] theorem send_flash : (send s m).flash = s.flash := rfl
@[simp] theorem send_power : (send s m).power = s.power := rfl
@[simp] theorem send_kvBlocks : (send s m).kvBlocks = s.kvBlocks := rfl
@[simp] theorem send_kvPoison : (send s m).kvPoison = s.kvPoison := rfl
@[simp] theorem send_keySlots : (send s m).keySlots = s.keySlots := rfl
@[simp] theorem send_nonces : (send s m).nonces = s.nonces := rfl
@[simp] theorem send_fwDone : (send s m).fwDone = s.fwDone := rfl
@[simp] theorem send_fwWait : (send s m).fwWait = s.fwWait := rfl
@[simp] theorem send_fwAgain : (send s m).fwAgain = s.fwAgain := rfl
@[simp] theorem send_lastTb : (send s m).lastTb = s.lastTb := rfl
@[simp] theorem send_orphans : (send s m).orphans = s.orphans := rfl
@[simp] theorem send_kvMarks : (send s m).kvMarks = s.kvMarks := rfl
@[simp] theorem send_sec : (send s m).sec = s.sec := rfl
@[simp] theorem send_keysLocked : (send s m).keysLocked = s.keysLocked := rfl
@[simp] theorem send_seqs : (send s m).seqs = s.seqs := rfl
@[simp] theorem send_seqPub : (send s m).seqPub = s.seqPub := rfl
@[simp] theorem send_srv : (send s m).srv = s.srv := rfl
@[simp] theorem send_video : (send s m).video = s.video := rfl
@[simp] theorem send_cores : (send s m).cores = s.cores := rfl
end

/-! `setBay` writes `bays` alone. -/
section
variable (s : State) (b : Nat) (x : Bay)
@[simp] theorem setBay_pending : (setBay s b x).pending = s.pending := rfl
@[simp] theorem setBay_clock : (setBay s b x).clock = s.clock := rfl
@[simp] theorem setBay_mtime : (setBay s b x).mtime = s.mtime := rfl
@[simp] theorem setBay_lastSample : (setBay s b x).lastSample = s.lastSample := rfl
@[simp] theorem setBay_free : (setBay s b x).free = s.free := rfl
@[simp] theorem setBay_nextId : (setBay s b x).nextId = s.nextId := rfl
@[simp] theorem setBay_out : (setBay s b x).out = s.out := rfl
@[simp] theorem setBay_regs : (setBay s b x).regs = s.regs := rfl
@[simp] theorem setBay_staged : (setBay s b x).staged = s.staged := rfl
@[simp] theorem setBay_latched : (setBay s b x).latched = s.latched := rfl
@[simp] theorem setBay_unlocked : (setBay s b x).unlocked = s.unlocked := rfl
@[simp] theorem setBay_lockSeen : (setBay s b x).lockSeen = s.lockSeen := rfl
@[simp] theorem setBay_irqHigh : (setBay s b x).irqHigh = s.irqHigh := rfl
@[simp] theorem setBay_mem : (setBay s b x).mem = s.mem := rfl
@[simp] theorem setBay_gwq : (setBay s b x).gwq = s.gwq := rfl
@[simp] theorem setBay_readGrants : (setBay s b x).readGrants = s.readGrants := rfl
@[simp] theorem setBay_held : (setBay s b x).held = s.held := rfl
@[simp] theorem setBay_poison : (setBay s b x).poison = s.poison := rfl
@[simp] theorem setBay_lineVer : (setBay s b x).lineVer = s.lineVer := rfl
@[simp] theorem setBay_retained : (setBay s b x).retained = s.retained := rfl
@[simp] theorem setBay_deferred : (setBay s b x).deferred = s.deferred := rfl
@[simp] theorem setBay_lentLast : (setBay s b x).lentLast = s.lentLast := rfl
@[simp] theorem setBay_mesh : (setBay s b x).mesh = s.mesh := rfl
@[simp] theorem setBay_unitTokens : (setBay s b x).unitTokens = s.unitTokens := rfl
@[simp] theorem setBay_ramp : (setBay s b x).ramp = s.ramp := rfl
@[simp] theorem setBay_slots : (setBay s b x).slots = s.slots := rfl
@[simp] theorem setBay_raises : (setBay s b x).raises = s.raises := rfl
@[simp] theorem setBay_stepEpoch : (setBay s b x).stepEpoch = s.stepEpoch := rfl
@[simp] theorem setBay_stallFrom : (setBay s b x).stallFrom = s.stallFrom := rfl
@[simp] theorem setBay_cmds : (setBay s b x).cmds = s.cmds := rfl
@[simp] theorem setBay_sqs : (setBay s b x).sqs = s.sqs := rfl
@[simp] theorem setBay_eqs : (setBay s b x).eqs = s.eqs := rfl
@[simp] theorem setBay_ports : (setBay s b x).ports = s.ports := rfl
@[simp] theorem setBay_msixTab : (setBay s b x).msixTab = s.msixTab := rfl
@[simp] theorem setBay_pba : (setBay s b x).pba = s.pba := rfl
@[simp] theorem setBay_tenants : (setBay s b x).tenants = s.tenants := rfl
@[simp] theorem setBay_hosts : (setBay s b x).hosts = s.hosts := rfl
@[simp] theorem setBay_ptp : (setBay s b x).ptp = s.ptp := rfl
@[simp] theorem setBay_everClaimed : (setBay s b x).everClaimed = s.everClaimed := rfl
@[simp] theorem setBay_mgmtKey : (setBay s b x).mgmtKey = s.mgmtKey := rfl
@[simp] theorem setBay_claimKeys : (setBay s b x).claimKeys = s.claimKeys := rfl
@[simp] theorem setBay_wains : (setBay s b x).wains = s.wains := rfl
@[simp] theorem setBay_wiring : (setBay s b x).wiring = s.wiring := rfl
@[simp] theorem setBay_shadow : (setBay s b x).shadow = s.shadow := rfl
@[simp] theorem setBay_tallyWaits : (setBay s b x).tallyWaits = s.tallyWaits := rfl
@[simp] theorem setBay_certs : (setBay s b x).certs = s.certs := rfl
@[simp] theorem setBay_fencing : (setBay s b x).fencing = s.fencing := rfl
@[simp] theorem setBay_tallySince : (setBay s b x).tallySince = s.tallySince := rfl
@[simp] theorem setBay_tallyDown : (setBay s b x).tallyDown = s.tallyDown := rfl
@[simp] theorem setBay_tallyOut : (setBay s b x).tallyOut = s.tallyOut := rfl
@[simp] theorem setBay_joinWait : (setBay s b x).joinWait = s.joinWait := rfl
@[simp] theorem setBay_tray : (setBay s b x).tray = s.tray := rfl
@[simp] theorem setBay_faultLog : (setBay s b x).faultLog = s.faultLog := rfl
@[simp] theorem setBay_faultSeq : (setBay s b x).faultSeq = s.faultSeq := rfl
@[simp] theorem setBay_flash : (setBay s b x).flash = s.flash := rfl
@[simp] theorem setBay_power : (setBay s b x).power = s.power := rfl
@[simp] theorem setBay_kvBlocks : (setBay s b x).kvBlocks = s.kvBlocks := rfl
@[simp] theorem setBay_kvPoison : (setBay s b x).kvPoison = s.kvPoison := rfl
@[simp] theorem setBay_keySlots : (setBay s b x).keySlots = s.keySlots := rfl
@[simp] theorem setBay_nonces : (setBay s b x).nonces = s.nonces := rfl
@[simp] theorem setBay_fwDone : (setBay s b x).fwDone = s.fwDone := rfl
@[simp] theorem setBay_fwWait : (setBay s b x).fwWait = s.fwWait := rfl
@[simp] theorem setBay_fwAgain : (setBay s b x).fwAgain = s.fwAgain := rfl
@[simp] theorem setBay_lastTb : (setBay s b x).lastTb = s.lastTb := rfl
@[simp] theorem setBay_orphans : (setBay s b x).orphans = s.orphans := rfl
@[simp] theorem setBay_kvMarks : (setBay s b x).kvMarks = s.kvMarks := rfl
@[simp] theorem setBay_sec : (setBay s b x).sec = s.sec := rfl
@[simp] theorem setBay_keysLocked : (setBay s b x).keysLocked = s.keysLocked := rfl
@[simp] theorem setBay_seqs : (setBay s b x).seqs = s.seqs := rfl
@[simp] theorem setBay_seqPub : (setBay s b x).seqPub = s.seqPub := rfl
@[simp] theorem setBay_srv : (setBay s b x).srv = s.srv := rfl
@[simp] theorem setBay_video : (setBay s b x).video = s.video := rfl
@[simp] theorem setBay_cores : (setBay s b x).cores = s.cores := rfl
end

/-! `setHost` writes `hosts` alone. -/
section
variable (s : State) (k : Nat) (h : HostRec)
@[simp] theorem setHost_pending : (setHost s k h).pending = s.pending := rfl
@[simp] theorem setHost_clock : (setHost s k h).clock = s.clock := rfl
@[simp] theorem setHost_mtime : (setHost s k h).mtime = s.mtime := rfl
@[simp] theorem setHost_lastSample : (setHost s k h).lastSample = s.lastSample := rfl
@[simp] theorem setHost_free : (setHost s k h).free = s.free := rfl
@[simp] theorem setHost_nextId : (setHost s k h).nextId = s.nextId := rfl
@[simp] theorem setHost_out : (setHost s k h).out = s.out := rfl
@[simp] theorem setHost_regs : (setHost s k h).regs = s.regs := rfl
@[simp] theorem setHost_staged : (setHost s k h).staged = s.staged := rfl
@[simp] theorem setHost_latched : (setHost s k h).latched = s.latched := rfl
@[simp] theorem setHost_unlocked : (setHost s k h).unlocked = s.unlocked := rfl
@[simp] theorem setHost_lockSeen : (setHost s k h).lockSeen = s.lockSeen := rfl
@[simp] theorem setHost_irqHigh : (setHost s k h).irqHigh = s.irqHigh := rfl
@[simp] theorem setHost_mem : (setHost s k h).mem = s.mem := rfl
@[simp] theorem setHost_gwq : (setHost s k h).gwq = s.gwq := rfl
@[simp] theorem setHost_readGrants : (setHost s k h).readGrants = s.readGrants := rfl
@[simp] theorem setHost_held : (setHost s k h).held = s.held := rfl
@[simp] theorem setHost_poison : (setHost s k h).poison = s.poison := rfl
@[simp] theorem setHost_lineVer : (setHost s k h).lineVer = s.lineVer := rfl
@[simp] theorem setHost_retained : (setHost s k h).retained = s.retained := rfl
@[simp] theorem setHost_deferred : (setHost s k h).deferred = s.deferred := rfl
@[simp] theorem setHost_lentLast : (setHost s k h).lentLast = s.lentLast := rfl
@[simp] theorem setHost_bays : (setHost s k h).bays = s.bays := rfl
@[simp] theorem setHost_mesh : (setHost s k h).mesh = s.mesh := rfl
@[simp] theorem setHost_unitTokens : (setHost s k h).unitTokens = s.unitTokens := rfl
@[simp] theorem setHost_ramp : (setHost s k h).ramp = s.ramp := rfl
@[simp] theorem setHost_slots : (setHost s k h).slots = s.slots := rfl
@[simp] theorem setHost_raises : (setHost s k h).raises = s.raises := rfl
@[simp] theorem setHost_stepEpoch : (setHost s k h).stepEpoch = s.stepEpoch := rfl
@[simp] theorem setHost_stallFrom : (setHost s k h).stallFrom = s.stallFrom := rfl
@[simp] theorem setHost_cmds : (setHost s k h).cmds = s.cmds := rfl
@[simp] theorem setHost_sqs : (setHost s k h).sqs = s.sqs := rfl
@[simp] theorem setHost_eqs : (setHost s k h).eqs = s.eqs := rfl
@[simp] theorem setHost_ports : (setHost s k h).ports = s.ports := rfl
@[simp] theorem setHost_msixTab : (setHost s k h).msixTab = s.msixTab := rfl
@[simp] theorem setHost_pba : (setHost s k h).pba = s.pba := rfl
@[simp] theorem setHost_tenants : (setHost s k h).tenants = s.tenants := rfl
@[simp] theorem setHost_ptp : (setHost s k h).ptp = s.ptp := rfl
@[simp] theorem setHost_everClaimed : (setHost s k h).everClaimed = s.everClaimed := rfl
@[simp] theorem setHost_mgmtKey : (setHost s k h).mgmtKey = s.mgmtKey := rfl
@[simp] theorem setHost_claimKeys : (setHost s k h).claimKeys = s.claimKeys := rfl
@[simp] theorem setHost_wains : (setHost s k h).wains = s.wains := rfl
@[simp] theorem setHost_wiring : (setHost s k h).wiring = s.wiring := rfl
@[simp] theorem setHost_shadow : (setHost s k h).shadow = s.shadow := rfl
@[simp] theorem setHost_tallyWaits : (setHost s k h).tallyWaits = s.tallyWaits := rfl
@[simp] theorem setHost_certs : (setHost s k h).certs = s.certs := rfl
@[simp] theorem setHost_fencing : (setHost s k h).fencing = s.fencing := rfl
@[simp] theorem setHost_tallySince : (setHost s k h).tallySince = s.tallySince := rfl
@[simp] theorem setHost_tallyDown : (setHost s k h).tallyDown = s.tallyDown := rfl
@[simp] theorem setHost_tallyOut : (setHost s k h).tallyOut = s.tallyOut := rfl
@[simp] theorem setHost_joinWait : (setHost s k h).joinWait = s.joinWait := rfl
@[simp] theorem setHost_tray : (setHost s k h).tray = s.tray := rfl
@[simp] theorem setHost_faultLog : (setHost s k h).faultLog = s.faultLog := rfl
@[simp] theorem setHost_faultSeq : (setHost s k h).faultSeq = s.faultSeq := rfl
@[simp] theorem setHost_flash : (setHost s k h).flash = s.flash := rfl
@[simp] theorem setHost_power : (setHost s k h).power = s.power := rfl
@[simp] theorem setHost_kvBlocks : (setHost s k h).kvBlocks = s.kvBlocks := rfl
@[simp] theorem setHost_kvPoison : (setHost s k h).kvPoison = s.kvPoison := rfl
@[simp] theorem setHost_keySlots : (setHost s k h).keySlots = s.keySlots := rfl
@[simp] theorem setHost_nonces : (setHost s k h).nonces = s.nonces := rfl
@[simp] theorem setHost_fwDone : (setHost s k h).fwDone = s.fwDone := rfl
@[simp] theorem setHost_fwWait : (setHost s k h).fwWait = s.fwWait := rfl
@[simp] theorem setHost_fwAgain : (setHost s k h).fwAgain = s.fwAgain := rfl
@[simp] theorem setHost_lastTb : (setHost s k h).lastTb = s.lastTb := rfl
@[simp] theorem setHost_orphans : (setHost s k h).orphans = s.orphans := rfl
@[simp] theorem setHost_kvMarks : (setHost s k h).kvMarks = s.kvMarks := rfl
@[simp] theorem setHost_sec : (setHost s k h).sec = s.sec := rfl
@[simp] theorem setHost_keysLocked : (setHost s k h).keysLocked = s.keysLocked := rfl
@[simp] theorem setHost_seqs : (setHost s k h).seqs = s.seqs := rfl
@[simp] theorem setHost_seqPub : (setHost s k h).seqPub = s.seqPub := rfl
@[simp] theorem setHost_srv : (setHost s k h).srv = s.srv := rfl
@[simp] theorem setHost_video : (setHost s k h).video = s.video := rfl
@[simp] theorem setHost_cores : (setHost s k h).cores = s.cores := rfl
end

/-! `markStarted` writes `cmds` alone. -/
section
variable (s : State) (c : Cmd)
@[simp] theorem markStarted_pending : (markStarted s c).pending = s.pending := rfl
@[simp] theorem markStarted_clock : (markStarted s c).clock = s.clock := rfl
@[simp] theorem markStarted_mtime : (markStarted s c).mtime = s.mtime := rfl
@[simp] theorem markStarted_lastSample : (markStarted s c).lastSample = s.lastSample := rfl
@[simp] theorem markStarted_free : (markStarted s c).free = s.free := rfl
@[simp] theorem markStarted_nextId : (markStarted s c).nextId = s.nextId := rfl
@[simp] theorem markStarted_out : (markStarted s c).out = s.out := rfl
@[simp] theorem markStarted_regs : (markStarted s c).regs = s.regs := rfl
@[simp] theorem markStarted_staged : (markStarted s c).staged = s.staged := rfl
@[simp] theorem markStarted_latched : (markStarted s c).latched = s.latched := rfl
@[simp] theorem markStarted_unlocked : (markStarted s c).unlocked = s.unlocked := rfl
@[simp] theorem markStarted_lockSeen : (markStarted s c).lockSeen = s.lockSeen := rfl
@[simp] theorem markStarted_irqHigh : (markStarted s c).irqHigh = s.irqHigh := rfl
@[simp] theorem markStarted_mem : (markStarted s c).mem = s.mem := rfl
@[simp] theorem markStarted_gwq : (markStarted s c).gwq = s.gwq := rfl
@[simp] theorem markStarted_readGrants : (markStarted s c).readGrants = s.readGrants := rfl
@[simp] theorem markStarted_held : (markStarted s c).held = s.held := rfl
@[simp] theorem markStarted_poison : (markStarted s c).poison = s.poison := rfl
@[simp] theorem markStarted_lineVer : (markStarted s c).lineVer = s.lineVer := rfl
@[simp] theorem markStarted_retained : (markStarted s c).retained = s.retained := rfl
@[simp] theorem markStarted_deferred : (markStarted s c).deferred = s.deferred := rfl
@[simp] theorem markStarted_lentLast : (markStarted s c).lentLast = s.lentLast := rfl
@[simp] theorem markStarted_bays : (markStarted s c).bays = s.bays := rfl
@[simp] theorem markStarted_mesh : (markStarted s c).mesh = s.mesh := rfl
@[simp] theorem markStarted_unitTokens : (markStarted s c).unitTokens = s.unitTokens := rfl
@[simp] theorem markStarted_ramp : (markStarted s c).ramp = s.ramp := rfl
@[simp] theorem markStarted_slots : (markStarted s c).slots = s.slots := rfl
@[simp] theorem markStarted_raises : (markStarted s c).raises = s.raises := rfl
@[simp] theorem markStarted_stepEpoch : (markStarted s c).stepEpoch = s.stepEpoch := rfl
@[simp] theorem markStarted_stallFrom : (markStarted s c).stallFrom = s.stallFrom := rfl
@[simp] theorem markStarted_sqs : (markStarted s c).sqs = s.sqs := rfl
@[simp] theorem markStarted_eqs : (markStarted s c).eqs = s.eqs := rfl
@[simp] theorem markStarted_ports : (markStarted s c).ports = s.ports := rfl
@[simp] theorem markStarted_msixTab : (markStarted s c).msixTab = s.msixTab := rfl
@[simp] theorem markStarted_pba : (markStarted s c).pba = s.pba := rfl
@[simp] theorem markStarted_tenants : (markStarted s c).tenants = s.tenants := rfl
@[simp] theorem markStarted_hosts : (markStarted s c).hosts = s.hosts := rfl
@[simp] theorem markStarted_ptp : (markStarted s c).ptp = s.ptp := rfl
@[simp] theorem markStarted_everClaimed : (markStarted s c).everClaimed = s.everClaimed := rfl
@[simp] theorem markStarted_mgmtKey : (markStarted s c).mgmtKey = s.mgmtKey := rfl
@[simp] theorem markStarted_claimKeys : (markStarted s c).claimKeys = s.claimKeys := rfl
@[simp] theorem markStarted_wains : (markStarted s c).wains = s.wains := rfl
@[simp] theorem markStarted_wiring : (markStarted s c).wiring = s.wiring := rfl
@[simp] theorem markStarted_shadow : (markStarted s c).shadow = s.shadow := rfl
@[simp] theorem markStarted_tallyWaits : (markStarted s c).tallyWaits = s.tallyWaits := rfl
@[simp] theorem markStarted_certs : (markStarted s c).certs = s.certs := rfl
@[simp] theorem markStarted_fencing : (markStarted s c).fencing = s.fencing := rfl
@[simp] theorem markStarted_tallySince : (markStarted s c).tallySince = s.tallySince := rfl
@[simp] theorem markStarted_tallyDown : (markStarted s c).tallyDown = s.tallyDown := rfl
@[simp] theorem markStarted_tallyOut : (markStarted s c).tallyOut = s.tallyOut := rfl
@[simp] theorem markStarted_joinWait : (markStarted s c).joinWait = s.joinWait := rfl
@[simp] theorem markStarted_tray : (markStarted s c).tray = s.tray := rfl
@[simp] theorem markStarted_faultLog : (markStarted s c).faultLog = s.faultLog := rfl
@[simp] theorem markStarted_faultSeq : (markStarted s c).faultSeq = s.faultSeq := rfl
@[simp] theorem markStarted_flash : (markStarted s c).flash = s.flash := rfl
@[simp] theorem markStarted_power : (markStarted s c).power = s.power := rfl
@[simp] theorem markStarted_kvBlocks : (markStarted s c).kvBlocks = s.kvBlocks := rfl
@[simp] theorem markStarted_kvPoison : (markStarted s c).kvPoison = s.kvPoison := rfl
@[simp] theorem markStarted_keySlots : (markStarted s c).keySlots = s.keySlots := rfl
@[simp] theorem markStarted_nonces : (markStarted s c).nonces = s.nonces := rfl
@[simp] theorem markStarted_fwDone : (markStarted s c).fwDone = s.fwDone := rfl
@[simp] theorem markStarted_fwWait : (markStarted s c).fwWait = s.fwWait := rfl
@[simp] theorem markStarted_fwAgain : (markStarted s c).fwAgain = s.fwAgain := rfl
@[simp] theorem markStarted_lastTb : (markStarted s c).lastTb = s.lastTb := rfl
@[simp] theorem markStarted_orphans : (markStarted s c).orphans = s.orphans := rfl
@[simp] theorem markStarted_kvMarks : (markStarted s c).kvMarks = s.kvMarks := rfl
@[simp] theorem markStarted_sec : (markStarted s c).sec = s.sec := rfl
@[simp] theorem markStarted_keysLocked : (markStarted s c).keysLocked = s.keysLocked := rfl
@[simp] theorem markStarted_seqs : (markStarted s c).seqs = s.seqs := rfl
@[simp] theorem markStarted_seqPub : (markStarted s c).seqPub = s.seqPub := rfl
@[simp] theorem markStarted_srv : (markStarted s c).srv = s.srv := rfl
@[simp] theorem markStarted_video : (markStarted s c).video = s.video := rfl
@[simp] theorem markStarted_cores : (markStarted s c).cores = s.cores := rfl
end

/-! `setFctl` writes `power` alone. -/
section
variable (s : State) (f : Nat) (x : FieldCtl)
@[simp] theorem setFctl_pending : (setFctl s f x).pending = s.pending := rfl
@[simp] theorem setFctl_clock : (setFctl s f x).clock = s.clock := rfl
@[simp] theorem setFctl_mtime : (setFctl s f x).mtime = s.mtime := rfl
@[simp] theorem setFctl_lastSample : (setFctl s f x).lastSample = s.lastSample := rfl
@[simp] theorem setFctl_free : (setFctl s f x).free = s.free := rfl
@[simp] theorem setFctl_nextId : (setFctl s f x).nextId = s.nextId := rfl
@[simp] theorem setFctl_out : (setFctl s f x).out = s.out := rfl
@[simp] theorem setFctl_regs : (setFctl s f x).regs = s.regs := rfl
@[simp] theorem setFctl_staged : (setFctl s f x).staged = s.staged := rfl
@[simp] theorem setFctl_latched : (setFctl s f x).latched = s.latched := rfl
@[simp] theorem setFctl_unlocked : (setFctl s f x).unlocked = s.unlocked := rfl
@[simp] theorem setFctl_lockSeen : (setFctl s f x).lockSeen = s.lockSeen := rfl
@[simp] theorem setFctl_irqHigh : (setFctl s f x).irqHigh = s.irqHigh := rfl
@[simp] theorem setFctl_mem : (setFctl s f x).mem = s.mem := rfl
@[simp] theorem setFctl_gwq : (setFctl s f x).gwq = s.gwq := rfl
@[simp] theorem setFctl_readGrants : (setFctl s f x).readGrants = s.readGrants := rfl
@[simp] theorem setFctl_held : (setFctl s f x).held = s.held := rfl
@[simp] theorem setFctl_poison : (setFctl s f x).poison = s.poison := rfl
@[simp] theorem setFctl_lineVer : (setFctl s f x).lineVer = s.lineVer := rfl
@[simp] theorem setFctl_retained : (setFctl s f x).retained = s.retained := rfl
@[simp] theorem setFctl_deferred : (setFctl s f x).deferred = s.deferred := rfl
@[simp] theorem setFctl_lentLast : (setFctl s f x).lentLast = s.lentLast := rfl
@[simp] theorem setFctl_bays : (setFctl s f x).bays = s.bays := rfl
@[simp] theorem setFctl_mesh : (setFctl s f x).mesh = s.mesh := rfl
@[simp] theorem setFctl_unitTokens : (setFctl s f x).unitTokens = s.unitTokens := rfl
@[simp] theorem setFctl_ramp : (setFctl s f x).ramp = s.ramp := rfl
@[simp] theorem setFctl_slots : (setFctl s f x).slots = s.slots := rfl
@[simp] theorem setFctl_raises : (setFctl s f x).raises = s.raises := rfl
@[simp] theorem setFctl_stepEpoch : (setFctl s f x).stepEpoch = s.stepEpoch := rfl
@[simp] theorem setFctl_stallFrom : (setFctl s f x).stallFrom = s.stallFrom := rfl
@[simp] theorem setFctl_cmds : (setFctl s f x).cmds = s.cmds := rfl
@[simp] theorem setFctl_sqs : (setFctl s f x).sqs = s.sqs := rfl
@[simp] theorem setFctl_eqs : (setFctl s f x).eqs = s.eqs := rfl
@[simp] theorem setFctl_ports : (setFctl s f x).ports = s.ports := rfl
@[simp] theorem setFctl_msixTab : (setFctl s f x).msixTab = s.msixTab := rfl
@[simp] theorem setFctl_pba : (setFctl s f x).pba = s.pba := rfl
@[simp] theorem setFctl_tenants : (setFctl s f x).tenants = s.tenants := rfl
@[simp] theorem setFctl_hosts : (setFctl s f x).hosts = s.hosts := rfl
@[simp] theorem setFctl_ptp : (setFctl s f x).ptp = s.ptp := rfl
@[simp] theorem setFctl_everClaimed : (setFctl s f x).everClaimed = s.everClaimed := rfl
@[simp] theorem setFctl_mgmtKey : (setFctl s f x).mgmtKey = s.mgmtKey := rfl
@[simp] theorem setFctl_claimKeys : (setFctl s f x).claimKeys = s.claimKeys := rfl
@[simp] theorem setFctl_wains : (setFctl s f x).wains = s.wains := rfl
@[simp] theorem setFctl_wiring : (setFctl s f x).wiring = s.wiring := rfl
@[simp] theorem setFctl_shadow : (setFctl s f x).shadow = s.shadow := rfl
@[simp] theorem setFctl_tallyWaits : (setFctl s f x).tallyWaits = s.tallyWaits := rfl
@[simp] theorem setFctl_certs : (setFctl s f x).certs = s.certs := rfl
@[simp] theorem setFctl_fencing : (setFctl s f x).fencing = s.fencing := rfl
@[simp] theorem setFctl_tallySince : (setFctl s f x).tallySince = s.tallySince := rfl
@[simp] theorem setFctl_tallyDown : (setFctl s f x).tallyDown = s.tallyDown := rfl
@[simp] theorem setFctl_tallyOut : (setFctl s f x).tallyOut = s.tallyOut := rfl
@[simp] theorem setFctl_joinWait : (setFctl s f x).joinWait = s.joinWait := rfl
@[simp] theorem setFctl_tray : (setFctl s f x).tray = s.tray := rfl
@[simp] theorem setFctl_faultLog : (setFctl s f x).faultLog = s.faultLog := rfl
@[simp] theorem setFctl_faultSeq : (setFctl s f x).faultSeq = s.faultSeq := rfl
@[simp] theorem setFctl_flash : (setFctl s f x).flash = s.flash := rfl
@[simp] theorem setFctl_kvBlocks : (setFctl s f x).kvBlocks = s.kvBlocks := rfl
@[simp] theorem setFctl_kvPoison : (setFctl s f x).kvPoison = s.kvPoison := rfl
@[simp] theorem setFctl_keySlots : (setFctl s f x).keySlots = s.keySlots := rfl
@[simp] theorem setFctl_nonces : (setFctl s f x).nonces = s.nonces := rfl
@[simp] theorem setFctl_fwDone : (setFctl s f x).fwDone = s.fwDone := rfl
@[simp] theorem setFctl_fwWait : (setFctl s f x).fwWait = s.fwWait := rfl
@[simp] theorem setFctl_fwAgain : (setFctl s f x).fwAgain = s.fwAgain := rfl
@[simp] theorem setFctl_lastTb : (setFctl s f x).lastTb = s.lastTb := rfl
@[simp] theorem setFctl_orphans : (setFctl s f x).orphans = s.orphans := rfl
@[simp] theorem setFctl_kvMarks : (setFctl s f x).kvMarks = s.kvMarks := rfl
@[simp] theorem setFctl_sec : (setFctl s f x).sec = s.sec := rfl
@[simp] theorem setFctl_keysLocked : (setFctl s f x).keysLocked = s.keysLocked := rfl
@[simp] theorem setFctl_seqs : (setFctl s f x).seqs = s.seqs := rfl
@[simp] theorem setFctl_seqPub : (setFctl s f x).seqPub = s.seqPub := rfl
@[simp] theorem setFctl_srv : (setFctl s f x).srv = s.srv := rfl
@[simp] theorem setFctl_video : (setFctl s f x).video = s.video := rfl
@[simp] theorem setFctl_cores : (setFctl s f x).cores = s.cores := rfl
end

/-! `setBlocks` writes `kvBlocks` alone. -/
section
variable (s : State) (n : Nat) (l : List (Nat × Nat))
@[simp] theorem setBlocks_pending : (setBlocks s n l).pending = s.pending := rfl
@[simp] theorem setBlocks_clock : (setBlocks s n l).clock = s.clock := rfl
@[simp] theorem setBlocks_mtime : (setBlocks s n l).mtime = s.mtime := rfl
@[simp] theorem setBlocks_lastSample : (setBlocks s n l).lastSample = s.lastSample := rfl
@[simp] theorem setBlocks_free : (setBlocks s n l).free = s.free := rfl
@[simp] theorem setBlocks_nextId : (setBlocks s n l).nextId = s.nextId := rfl
@[simp] theorem setBlocks_out : (setBlocks s n l).out = s.out := rfl
@[simp] theorem setBlocks_regs : (setBlocks s n l).regs = s.regs := rfl
@[simp] theorem setBlocks_staged : (setBlocks s n l).staged = s.staged := rfl
@[simp] theorem setBlocks_latched : (setBlocks s n l).latched = s.latched := rfl
@[simp] theorem setBlocks_unlocked : (setBlocks s n l).unlocked = s.unlocked := rfl
@[simp] theorem setBlocks_lockSeen : (setBlocks s n l).lockSeen = s.lockSeen := rfl
@[simp] theorem setBlocks_irqHigh : (setBlocks s n l).irqHigh = s.irqHigh := rfl
@[simp] theorem setBlocks_mem : (setBlocks s n l).mem = s.mem := rfl
@[simp] theorem setBlocks_gwq : (setBlocks s n l).gwq = s.gwq := rfl
@[simp] theorem setBlocks_readGrants : (setBlocks s n l).readGrants = s.readGrants := rfl
@[simp] theorem setBlocks_held : (setBlocks s n l).held = s.held := rfl
@[simp] theorem setBlocks_poison : (setBlocks s n l).poison = s.poison := rfl
@[simp] theorem setBlocks_lineVer : (setBlocks s n l).lineVer = s.lineVer := rfl
@[simp] theorem setBlocks_retained : (setBlocks s n l).retained = s.retained := rfl
@[simp] theorem setBlocks_deferred : (setBlocks s n l).deferred = s.deferred := rfl
@[simp] theorem setBlocks_lentLast : (setBlocks s n l).lentLast = s.lentLast := rfl
@[simp] theorem setBlocks_bays : (setBlocks s n l).bays = s.bays := rfl
@[simp] theorem setBlocks_mesh : (setBlocks s n l).mesh = s.mesh := rfl
@[simp] theorem setBlocks_unitTokens : (setBlocks s n l).unitTokens = s.unitTokens := rfl
@[simp] theorem setBlocks_ramp : (setBlocks s n l).ramp = s.ramp := rfl
@[simp] theorem setBlocks_slots : (setBlocks s n l).slots = s.slots := rfl
@[simp] theorem setBlocks_raises : (setBlocks s n l).raises = s.raises := rfl
@[simp] theorem setBlocks_stepEpoch : (setBlocks s n l).stepEpoch = s.stepEpoch := rfl
@[simp] theorem setBlocks_stallFrom : (setBlocks s n l).stallFrom = s.stallFrom := rfl
@[simp] theorem setBlocks_cmds : (setBlocks s n l).cmds = s.cmds := rfl
@[simp] theorem setBlocks_sqs : (setBlocks s n l).sqs = s.sqs := rfl
@[simp] theorem setBlocks_eqs : (setBlocks s n l).eqs = s.eqs := rfl
@[simp] theorem setBlocks_ports : (setBlocks s n l).ports = s.ports := rfl
@[simp] theorem setBlocks_msixTab : (setBlocks s n l).msixTab = s.msixTab := rfl
@[simp] theorem setBlocks_pba : (setBlocks s n l).pba = s.pba := rfl
@[simp] theorem setBlocks_tenants : (setBlocks s n l).tenants = s.tenants := rfl
@[simp] theorem setBlocks_hosts : (setBlocks s n l).hosts = s.hosts := rfl
@[simp] theorem setBlocks_ptp : (setBlocks s n l).ptp = s.ptp := rfl
@[simp] theorem setBlocks_everClaimed : (setBlocks s n l).everClaimed = s.everClaimed := rfl
@[simp] theorem setBlocks_mgmtKey : (setBlocks s n l).mgmtKey = s.mgmtKey := rfl
@[simp] theorem setBlocks_claimKeys : (setBlocks s n l).claimKeys = s.claimKeys := rfl
@[simp] theorem setBlocks_wains : (setBlocks s n l).wains = s.wains := rfl
@[simp] theorem setBlocks_wiring : (setBlocks s n l).wiring = s.wiring := rfl
@[simp] theorem setBlocks_shadow : (setBlocks s n l).shadow = s.shadow := rfl
@[simp] theorem setBlocks_tallyWaits : (setBlocks s n l).tallyWaits = s.tallyWaits := rfl
@[simp] theorem setBlocks_certs : (setBlocks s n l).certs = s.certs := rfl
@[simp] theorem setBlocks_fencing : (setBlocks s n l).fencing = s.fencing := rfl
@[simp] theorem setBlocks_tallySince : (setBlocks s n l).tallySince = s.tallySince := rfl
@[simp] theorem setBlocks_tallyDown : (setBlocks s n l).tallyDown = s.tallyDown := rfl
@[simp] theorem setBlocks_tallyOut : (setBlocks s n l).tallyOut = s.tallyOut := rfl
@[simp] theorem setBlocks_joinWait : (setBlocks s n l).joinWait = s.joinWait := rfl
@[simp] theorem setBlocks_tray : (setBlocks s n l).tray = s.tray := rfl
@[simp] theorem setBlocks_faultLog : (setBlocks s n l).faultLog = s.faultLog := rfl
@[simp] theorem setBlocks_faultSeq : (setBlocks s n l).faultSeq = s.faultSeq := rfl
@[simp] theorem setBlocks_flash : (setBlocks s n l).flash = s.flash := rfl
@[simp] theorem setBlocks_power : (setBlocks s n l).power = s.power := rfl
@[simp] theorem setBlocks_kvPoison : (setBlocks s n l).kvPoison = s.kvPoison := rfl
@[simp] theorem setBlocks_keySlots : (setBlocks s n l).keySlots = s.keySlots := rfl
@[simp] theorem setBlocks_nonces : (setBlocks s n l).nonces = s.nonces := rfl
@[simp] theorem setBlocks_fwDone : (setBlocks s n l).fwDone = s.fwDone := rfl
@[simp] theorem setBlocks_fwWait : (setBlocks s n l).fwWait = s.fwWait := rfl
@[simp] theorem setBlocks_fwAgain : (setBlocks s n l).fwAgain = s.fwAgain := rfl
@[simp] theorem setBlocks_lastTb : (setBlocks s n l).lastTb = s.lastTb := rfl
@[simp] theorem setBlocks_orphans : (setBlocks s n l).orphans = s.orphans := rfl
@[simp] theorem setBlocks_kvMarks : (setBlocks s n l).kvMarks = s.kvMarks := rfl
@[simp] theorem setBlocks_sec : (setBlocks s n l).sec = s.sec := rfl
@[simp] theorem setBlocks_keysLocked : (setBlocks s n l).keysLocked = s.keysLocked := rfl
@[simp] theorem setBlocks_seqs : (setBlocks s n l).seqs = s.seqs := rfl
@[simp] theorem setBlocks_seqPub : (setBlocks s n l).seqPub = s.seqPub := rfl
@[simp] theorem setBlocks_srv : (setBlocks s n l).srv = s.srv := rfl
@[simp] theorem setBlocks_video : (setBlocks s n l).video = s.video := rfl
@[simp] theorem setBlocks_cores : (setBlocks s n l).cores = s.cores := rfl
end

/-! `setSince` writes `tallySince` alone. -/
section
variable (s : State) (c : Nat) (v : Nat × Bool)
@[simp] theorem setSince_pending : (setSince s c v).pending = s.pending := rfl
@[simp] theorem setSince_clock : (setSince s c v).clock = s.clock := rfl
@[simp] theorem setSince_mtime : (setSince s c v).mtime = s.mtime := rfl
@[simp] theorem setSince_lastSample : (setSince s c v).lastSample = s.lastSample := rfl
@[simp] theorem setSince_free : (setSince s c v).free = s.free := rfl
@[simp] theorem setSince_nextId : (setSince s c v).nextId = s.nextId := rfl
@[simp] theorem setSince_out : (setSince s c v).out = s.out := rfl
@[simp] theorem setSince_regs : (setSince s c v).regs = s.regs := rfl
@[simp] theorem setSince_staged : (setSince s c v).staged = s.staged := rfl
@[simp] theorem setSince_latched : (setSince s c v).latched = s.latched := rfl
@[simp] theorem setSince_unlocked : (setSince s c v).unlocked = s.unlocked := rfl
@[simp] theorem setSince_lockSeen : (setSince s c v).lockSeen = s.lockSeen := rfl
@[simp] theorem setSince_irqHigh : (setSince s c v).irqHigh = s.irqHigh := rfl
@[simp] theorem setSince_mem : (setSince s c v).mem = s.mem := rfl
@[simp] theorem setSince_gwq : (setSince s c v).gwq = s.gwq := rfl
@[simp] theorem setSince_readGrants : (setSince s c v).readGrants = s.readGrants := rfl
@[simp] theorem setSince_held : (setSince s c v).held = s.held := rfl
@[simp] theorem setSince_poison : (setSince s c v).poison = s.poison := rfl
@[simp] theorem setSince_lineVer : (setSince s c v).lineVer = s.lineVer := rfl
@[simp] theorem setSince_retained : (setSince s c v).retained = s.retained := rfl
@[simp] theorem setSince_deferred : (setSince s c v).deferred = s.deferred := rfl
@[simp] theorem setSince_lentLast : (setSince s c v).lentLast = s.lentLast := rfl
@[simp] theorem setSince_bays : (setSince s c v).bays = s.bays := rfl
@[simp] theorem setSince_mesh : (setSince s c v).mesh = s.mesh := rfl
@[simp] theorem setSince_unitTokens : (setSince s c v).unitTokens = s.unitTokens := rfl
@[simp] theorem setSince_ramp : (setSince s c v).ramp = s.ramp := rfl
@[simp] theorem setSince_slots : (setSince s c v).slots = s.slots := rfl
@[simp] theorem setSince_raises : (setSince s c v).raises = s.raises := rfl
@[simp] theorem setSince_stepEpoch : (setSince s c v).stepEpoch = s.stepEpoch := rfl
@[simp] theorem setSince_stallFrom : (setSince s c v).stallFrom = s.stallFrom := rfl
@[simp] theorem setSince_cmds : (setSince s c v).cmds = s.cmds := rfl
@[simp] theorem setSince_sqs : (setSince s c v).sqs = s.sqs := rfl
@[simp] theorem setSince_eqs : (setSince s c v).eqs = s.eqs := rfl
@[simp] theorem setSince_ports : (setSince s c v).ports = s.ports := rfl
@[simp] theorem setSince_msixTab : (setSince s c v).msixTab = s.msixTab := rfl
@[simp] theorem setSince_pba : (setSince s c v).pba = s.pba := rfl
@[simp] theorem setSince_tenants : (setSince s c v).tenants = s.tenants := rfl
@[simp] theorem setSince_hosts : (setSince s c v).hosts = s.hosts := rfl
@[simp] theorem setSince_ptp : (setSince s c v).ptp = s.ptp := rfl
@[simp] theorem setSince_everClaimed : (setSince s c v).everClaimed = s.everClaimed := rfl
@[simp] theorem setSince_mgmtKey : (setSince s c v).mgmtKey = s.mgmtKey := rfl
@[simp] theorem setSince_claimKeys : (setSince s c v).claimKeys = s.claimKeys := rfl
@[simp] theorem setSince_wains : (setSince s c v).wains = s.wains := rfl
@[simp] theorem setSince_wiring : (setSince s c v).wiring = s.wiring := rfl
@[simp] theorem setSince_shadow : (setSince s c v).shadow = s.shadow := rfl
@[simp] theorem setSince_tallyWaits : (setSince s c v).tallyWaits = s.tallyWaits := rfl
@[simp] theorem setSince_certs : (setSince s c v).certs = s.certs := rfl
@[simp] theorem setSince_fencing : (setSince s c v).fencing = s.fencing := rfl
@[simp] theorem setSince_tallyDown : (setSince s c v).tallyDown = s.tallyDown := rfl
@[simp] theorem setSince_tallyOut : (setSince s c v).tallyOut = s.tallyOut := rfl
@[simp] theorem setSince_joinWait : (setSince s c v).joinWait = s.joinWait := rfl
@[simp] theorem setSince_tray : (setSince s c v).tray = s.tray := rfl
@[simp] theorem setSince_faultLog : (setSince s c v).faultLog = s.faultLog := rfl
@[simp] theorem setSince_faultSeq : (setSince s c v).faultSeq = s.faultSeq := rfl
@[simp] theorem setSince_flash : (setSince s c v).flash = s.flash := rfl
@[simp] theorem setSince_power : (setSince s c v).power = s.power := rfl
@[simp] theorem setSince_kvBlocks : (setSince s c v).kvBlocks = s.kvBlocks := rfl
@[simp] theorem setSince_kvPoison : (setSince s c v).kvPoison = s.kvPoison := rfl
@[simp] theorem setSince_keySlots : (setSince s c v).keySlots = s.keySlots := rfl
@[simp] theorem setSince_nonces : (setSince s c v).nonces = s.nonces := rfl
@[simp] theorem setSince_fwDone : (setSince s c v).fwDone = s.fwDone := rfl
@[simp] theorem setSince_fwWait : (setSince s c v).fwWait = s.fwWait := rfl
@[simp] theorem setSince_fwAgain : (setSince s c v).fwAgain = s.fwAgain := rfl
@[simp] theorem setSince_lastTb : (setSince s c v).lastTb = s.lastTb := rfl
@[simp] theorem setSince_orphans : (setSince s c v).orphans = s.orphans := rfl
@[simp] theorem setSince_kvMarks : (setSince s c v).kvMarks = s.kvMarks := rfl
@[simp] theorem setSince_sec : (setSince s c v).sec = s.sec := rfl
@[simp] theorem setSince_keysLocked : (setSince s c v).keysLocked = s.keysLocked := rfl
@[simp] theorem setSince_seqs : (setSince s c v).seqs = s.seqs := rfl
@[simp] theorem setSince_seqPub : (setSince s c v).seqPub = s.seqPub := rfl
@[simp] theorem setSince_srv : (setSince s c v).srv = s.srv := rfl
@[simp] theorem setSince_video : (setSince s c v).video = s.video := rfl
@[simp] theorem setSince_cores : (setSince s c v).cores = s.cores := rfl
end

/-! `setSeq` writes `seqs` alone. -/
section
variable (s : State) (i : Nat) (q : Seq)
@[simp] theorem setSeq_pending : (setSeq s i q).pending = s.pending := rfl
@[simp] theorem setSeq_clock : (setSeq s i q).clock = s.clock := rfl
@[simp] theorem setSeq_mtime : (setSeq s i q).mtime = s.mtime := rfl
@[simp] theorem setSeq_lastSample : (setSeq s i q).lastSample = s.lastSample := rfl
@[simp] theorem setSeq_free : (setSeq s i q).free = s.free := rfl
@[simp] theorem setSeq_nextId : (setSeq s i q).nextId = s.nextId := rfl
@[simp] theorem setSeq_out : (setSeq s i q).out = s.out := rfl
@[simp] theorem setSeq_regs : (setSeq s i q).regs = s.regs := rfl
@[simp] theorem setSeq_staged : (setSeq s i q).staged = s.staged := rfl
@[simp] theorem setSeq_latched : (setSeq s i q).latched = s.latched := rfl
@[simp] theorem setSeq_unlocked : (setSeq s i q).unlocked = s.unlocked := rfl
@[simp] theorem setSeq_lockSeen : (setSeq s i q).lockSeen = s.lockSeen := rfl
@[simp] theorem setSeq_irqHigh : (setSeq s i q).irqHigh = s.irqHigh := rfl
@[simp] theorem setSeq_mem : (setSeq s i q).mem = s.mem := rfl
@[simp] theorem setSeq_gwq : (setSeq s i q).gwq = s.gwq := rfl
@[simp] theorem setSeq_readGrants : (setSeq s i q).readGrants = s.readGrants := rfl
@[simp] theorem setSeq_held : (setSeq s i q).held = s.held := rfl
@[simp] theorem setSeq_poison : (setSeq s i q).poison = s.poison := rfl
@[simp] theorem setSeq_lineVer : (setSeq s i q).lineVer = s.lineVer := rfl
@[simp] theorem setSeq_retained : (setSeq s i q).retained = s.retained := rfl
@[simp] theorem setSeq_deferred : (setSeq s i q).deferred = s.deferred := rfl
@[simp] theorem setSeq_lentLast : (setSeq s i q).lentLast = s.lentLast := rfl
@[simp] theorem setSeq_bays : (setSeq s i q).bays = s.bays := rfl
@[simp] theorem setSeq_mesh : (setSeq s i q).mesh = s.mesh := rfl
@[simp] theorem setSeq_unitTokens : (setSeq s i q).unitTokens = s.unitTokens := rfl
@[simp] theorem setSeq_ramp : (setSeq s i q).ramp = s.ramp := rfl
@[simp] theorem setSeq_slots : (setSeq s i q).slots = s.slots := rfl
@[simp] theorem setSeq_raises : (setSeq s i q).raises = s.raises := rfl
@[simp] theorem setSeq_stepEpoch : (setSeq s i q).stepEpoch = s.stepEpoch := rfl
@[simp] theorem setSeq_stallFrom : (setSeq s i q).stallFrom = s.stallFrom := rfl
@[simp] theorem setSeq_cmds : (setSeq s i q).cmds = s.cmds := rfl
@[simp] theorem setSeq_sqs : (setSeq s i q).sqs = s.sqs := rfl
@[simp] theorem setSeq_eqs : (setSeq s i q).eqs = s.eqs := rfl
@[simp] theorem setSeq_ports : (setSeq s i q).ports = s.ports := rfl
@[simp] theorem setSeq_msixTab : (setSeq s i q).msixTab = s.msixTab := rfl
@[simp] theorem setSeq_pba : (setSeq s i q).pba = s.pba := rfl
@[simp] theorem setSeq_tenants : (setSeq s i q).tenants = s.tenants := rfl
@[simp] theorem setSeq_hosts : (setSeq s i q).hosts = s.hosts := rfl
@[simp] theorem setSeq_ptp : (setSeq s i q).ptp = s.ptp := rfl
@[simp] theorem setSeq_everClaimed : (setSeq s i q).everClaimed = s.everClaimed := rfl
@[simp] theorem setSeq_mgmtKey : (setSeq s i q).mgmtKey = s.mgmtKey := rfl
@[simp] theorem setSeq_claimKeys : (setSeq s i q).claimKeys = s.claimKeys := rfl
@[simp] theorem setSeq_wains : (setSeq s i q).wains = s.wains := rfl
@[simp] theorem setSeq_wiring : (setSeq s i q).wiring = s.wiring := rfl
@[simp] theorem setSeq_shadow : (setSeq s i q).shadow = s.shadow := rfl
@[simp] theorem setSeq_tallyWaits : (setSeq s i q).tallyWaits = s.tallyWaits := rfl
@[simp] theorem setSeq_certs : (setSeq s i q).certs = s.certs := rfl
@[simp] theorem setSeq_fencing : (setSeq s i q).fencing = s.fencing := rfl
@[simp] theorem setSeq_tallySince : (setSeq s i q).tallySince = s.tallySince := rfl
@[simp] theorem setSeq_tallyDown : (setSeq s i q).tallyDown = s.tallyDown := rfl
@[simp] theorem setSeq_tallyOut : (setSeq s i q).tallyOut = s.tallyOut := rfl
@[simp] theorem setSeq_joinWait : (setSeq s i q).joinWait = s.joinWait := rfl
@[simp] theorem setSeq_tray : (setSeq s i q).tray = s.tray := rfl
@[simp] theorem setSeq_faultLog : (setSeq s i q).faultLog = s.faultLog := rfl
@[simp] theorem setSeq_faultSeq : (setSeq s i q).faultSeq = s.faultSeq := rfl
@[simp] theorem setSeq_flash : (setSeq s i q).flash = s.flash := rfl
@[simp] theorem setSeq_power : (setSeq s i q).power = s.power := rfl
@[simp] theorem setSeq_kvBlocks : (setSeq s i q).kvBlocks = s.kvBlocks := rfl
@[simp] theorem setSeq_kvPoison : (setSeq s i q).kvPoison = s.kvPoison := rfl
@[simp] theorem setSeq_keySlots : (setSeq s i q).keySlots = s.keySlots := rfl
@[simp] theorem setSeq_nonces : (setSeq s i q).nonces = s.nonces := rfl
@[simp] theorem setSeq_fwDone : (setSeq s i q).fwDone = s.fwDone := rfl
@[simp] theorem setSeq_fwWait : (setSeq s i q).fwWait = s.fwWait := rfl
@[simp] theorem setSeq_fwAgain : (setSeq s i q).fwAgain = s.fwAgain := rfl
@[simp] theorem setSeq_lastTb : (setSeq s i q).lastTb = s.lastTb := rfl
@[simp] theorem setSeq_orphans : (setSeq s i q).orphans = s.orphans := rfl
@[simp] theorem setSeq_kvMarks : (setSeq s i q).kvMarks = s.kvMarks := rfl
@[simp] theorem setSeq_sec : (setSeq s i q).sec = s.sec := rfl
@[simp] theorem setSeq_keysLocked : (setSeq s i q).keysLocked = s.keysLocked := rfl
@[simp] theorem setSeq_seqPub : (setSeq s i q).seqPub = s.seqPub := rfl
@[simp] theorem setSeq_srv : (setSeq s i q).srv = s.srv := rfl
@[simp] theorem setSeq_video : (setSeq s i q).video = s.video := rfl
@[simp] theorem setSeq_cores : (setSeq s i q).cores = s.cores := rfl
end

/-! `setArea` writes `srv` alone. -/
section
variable (s : State) (f : Nat) (x : Area)
@[simp] theorem setArea_pending : (setArea s f x).pending = s.pending := rfl
@[simp] theorem setArea_clock : (setArea s f x).clock = s.clock := rfl
@[simp] theorem setArea_mtime : (setArea s f x).mtime = s.mtime := rfl
@[simp] theorem setArea_lastSample : (setArea s f x).lastSample = s.lastSample := rfl
@[simp] theorem setArea_free : (setArea s f x).free = s.free := rfl
@[simp] theorem setArea_nextId : (setArea s f x).nextId = s.nextId := rfl
@[simp] theorem setArea_out : (setArea s f x).out = s.out := rfl
@[simp] theorem setArea_regs : (setArea s f x).regs = s.regs := rfl
@[simp] theorem setArea_staged : (setArea s f x).staged = s.staged := rfl
@[simp] theorem setArea_latched : (setArea s f x).latched = s.latched := rfl
@[simp] theorem setArea_unlocked : (setArea s f x).unlocked = s.unlocked := rfl
@[simp] theorem setArea_lockSeen : (setArea s f x).lockSeen = s.lockSeen := rfl
@[simp] theorem setArea_irqHigh : (setArea s f x).irqHigh = s.irqHigh := rfl
@[simp] theorem setArea_mem : (setArea s f x).mem = s.mem := rfl
@[simp] theorem setArea_gwq : (setArea s f x).gwq = s.gwq := rfl
@[simp] theorem setArea_readGrants : (setArea s f x).readGrants = s.readGrants := rfl
@[simp] theorem setArea_held : (setArea s f x).held = s.held := rfl
@[simp] theorem setArea_poison : (setArea s f x).poison = s.poison := rfl
@[simp] theorem setArea_lineVer : (setArea s f x).lineVer = s.lineVer := rfl
@[simp] theorem setArea_retained : (setArea s f x).retained = s.retained := rfl
@[simp] theorem setArea_deferred : (setArea s f x).deferred = s.deferred := rfl
@[simp] theorem setArea_lentLast : (setArea s f x).lentLast = s.lentLast := rfl
@[simp] theorem setArea_bays : (setArea s f x).bays = s.bays := rfl
@[simp] theorem setArea_mesh : (setArea s f x).mesh = s.mesh := rfl
@[simp] theorem setArea_unitTokens : (setArea s f x).unitTokens = s.unitTokens := rfl
@[simp] theorem setArea_ramp : (setArea s f x).ramp = s.ramp := rfl
@[simp] theorem setArea_slots : (setArea s f x).slots = s.slots := rfl
@[simp] theorem setArea_raises : (setArea s f x).raises = s.raises := rfl
@[simp] theorem setArea_stepEpoch : (setArea s f x).stepEpoch = s.stepEpoch := rfl
@[simp] theorem setArea_stallFrom : (setArea s f x).stallFrom = s.stallFrom := rfl
@[simp] theorem setArea_cmds : (setArea s f x).cmds = s.cmds := rfl
@[simp] theorem setArea_sqs : (setArea s f x).sqs = s.sqs := rfl
@[simp] theorem setArea_eqs : (setArea s f x).eqs = s.eqs := rfl
@[simp] theorem setArea_ports : (setArea s f x).ports = s.ports := rfl
@[simp] theorem setArea_msixTab : (setArea s f x).msixTab = s.msixTab := rfl
@[simp] theorem setArea_pba : (setArea s f x).pba = s.pba := rfl
@[simp] theorem setArea_tenants : (setArea s f x).tenants = s.tenants := rfl
@[simp] theorem setArea_hosts : (setArea s f x).hosts = s.hosts := rfl
@[simp] theorem setArea_ptp : (setArea s f x).ptp = s.ptp := rfl
@[simp] theorem setArea_everClaimed : (setArea s f x).everClaimed = s.everClaimed := rfl
@[simp] theorem setArea_mgmtKey : (setArea s f x).mgmtKey = s.mgmtKey := rfl
@[simp] theorem setArea_claimKeys : (setArea s f x).claimKeys = s.claimKeys := rfl
@[simp] theorem setArea_wains : (setArea s f x).wains = s.wains := rfl
@[simp] theorem setArea_wiring : (setArea s f x).wiring = s.wiring := rfl
@[simp] theorem setArea_shadow : (setArea s f x).shadow = s.shadow := rfl
@[simp] theorem setArea_tallyWaits : (setArea s f x).tallyWaits = s.tallyWaits := rfl
@[simp] theorem setArea_certs : (setArea s f x).certs = s.certs := rfl
@[simp] theorem setArea_fencing : (setArea s f x).fencing = s.fencing := rfl
@[simp] theorem setArea_tallySince : (setArea s f x).tallySince = s.tallySince := rfl
@[simp] theorem setArea_tallyDown : (setArea s f x).tallyDown = s.tallyDown := rfl
@[simp] theorem setArea_tallyOut : (setArea s f x).tallyOut = s.tallyOut := rfl
@[simp] theorem setArea_joinWait : (setArea s f x).joinWait = s.joinWait := rfl
@[simp] theorem setArea_tray : (setArea s f x).tray = s.tray := rfl
@[simp] theorem setArea_faultLog : (setArea s f x).faultLog = s.faultLog := rfl
@[simp] theorem setArea_faultSeq : (setArea s f x).faultSeq = s.faultSeq := rfl
@[simp] theorem setArea_flash : (setArea s f x).flash = s.flash := rfl
@[simp] theorem setArea_power : (setArea s f x).power = s.power := rfl
@[simp] theorem setArea_kvBlocks : (setArea s f x).kvBlocks = s.kvBlocks := rfl
@[simp] theorem setArea_kvPoison : (setArea s f x).kvPoison = s.kvPoison := rfl
@[simp] theorem setArea_keySlots : (setArea s f x).keySlots = s.keySlots := rfl
@[simp] theorem setArea_nonces : (setArea s f x).nonces = s.nonces := rfl
@[simp] theorem setArea_fwDone : (setArea s f x).fwDone = s.fwDone := rfl
@[simp] theorem setArea_fwWait : (setArea s f x).fwWait = s.fwWait := rfl
@[simp] theorem setArea_fwAgain : (setArea s f x).fwAgain = s.fwAgain := rfl
@[simp] theorem setArea_lastTb : (setArea s f x).lastTb = s.lastTb := rfl
@[simp] theorem setArea_orphans : (setArea s f x).orphans = s.orphans := rfl
@[simp] theorem setArea_kvMarks : (setArea s f x).kvMarks = s.kvMarks := rfl
@[simp] theorem setArea_sec : (setArea s f x).sec = s.sec := rfl
@[simp] theorem setArea_keysLocked : (setArea s f x).keysLocked = s.keysLocked := rfl
@[simp] theorem setArea_seqs : (setArea s f x).seqs = s.seqs := rfl
@[simp] theorem setArea_seqPub : (setArea s f x).seqPub = s.seqPub := rfl
@[simp] theorem setArea_video : (setArea s f x).video = s.video := rfl
@[simp] theorem setArea_cores : (setArea s f x).cores = s.cores := rfl
end

/-! `setVctx` writes `video` alone. -/
section
variable (s : State) (i : Nat) (x : VidCtx)
@[simp] theorem setVctx_pending : (setVctx s i x).pending = s.pending := rfl
@[simp] theorem setVctx_clock : (setVctx s i x).clock = s.clock := rfl
@[simp] theorem setVctx_mtime : (setVctx s i x).mtime = s.mtime := rfl
@[simp] theorem setVctx_lastSample : (setVctx s i x).lastSample = s.lastSample := rfl
@[simp] theorem setVctx_free : (setVctx s i x).free = s.free := rfl
@[simp] theorem setVctx_nextId : (setVctx s i x).nextId = s.nextId := rfl
@[simp] theorem setVctx_out : (setVctx s i x).out = s.out := rfl
@[simp] theorem setVctx_regs : (setVctx s i x).regs = s.regs := rfl
@[simp] theorem setVctx_staged : (setVctx s i x).staged = s.staged := rfl
@[simp] theorem setVctx_latched : (setVctx s i x).latched = s.latched := rfl
@[simp] theorem setVctx_unlocked : (setVctx s i x).unlocked = s.unlocked := rfl
@[simp] theorem setVctx_lockSeen : (setVctx s i x).lockSeen = s.lockSeen := rfl
@[simp] theorem setVctx_irqHigh : (setVctx s i x).irqHigh = s.irqHigh := rfl
@[simp] theorem setVctx_mem : (setVctx s i x).mem = s.mem := rfl
@[simp] theorem setVctx_gwq : (setVctx s i x).gwq = s.gwq := rfl
@[simp] theorem setVctx_readGrants : (setVctx s i x).readGrants = s.readGrants := rfl
@[simp] theorem setVctx_held : (setVctx s i x).held = s.held := rfl
@[simp] theorem setVctx_poison : (setVctx s i x).poison = s.poison := rfl
@[simp] theorem setVctx_lineVer : (setVctx s i x).lineVer = s.lineVer := rfl
@[simp] theorem setVctx_retained : (setVctx s i x).retained = s.retained := rfl
@[simp] theorem setVctx_deferred : (setVctx s i x).deferred = s.deferred := rfl
@[simp] theorem setVctx_lentLast : (setVctx s i x).lentLast = s.lentLast := rfl
@[simp] theorem setVctx_bays : (setVctx s i x).bays = s.bays := rfl
@[simp] theorem setVctx_mesh : (setVctx s i x).mesh = s.mesh := rfl
@[simp] theorem setVctx_unitTokens : (setVctx s i x).unitTokens = s.unitTokens := rfl
@[simp] theorem setVctx_ramp : (setVctx s i x).ramp = s.ramp := rfl
@[simp] theorem setVctx_slots : (setVctx s i x).slots = s.slots := rfl
@[simp] theorem setVctx_raises : (setVctx s i x).raises = s.raises := rfl
@[simp] theorem setVctx_stepEpoch : (setVctx s i x).stepEpoch = s.stepEpoch := rfl
@[simp] theorem setVctx_stallFrom : (setVctx s i x).stallFrom = s.stallFrom := rfl
@[simp] theorem setVctx_cmds : (setVctx s i x).cmds = s.cmds := rfl
@[simp] theorem setVctx_sqs : (setVctx s i x).sqs = s.sqs := rfl
@[simp] theorem setVctx_eqs : (setVctx s i x).eqs = s.eqs := rfl
@[simp] theorem setVctx_ports : (setVctx s i x).ports = s.ports := rfl
@[simp] theorem setVctx_msixTab : (setVctx s i x).msixTab = s.msixTab := rfl
@[simp] theorem setVctx_pba : (setVctx s i x).pba = s.pba := rfl
@[simp] theorem setVctx_tenants : (setVctx s i x).tenants = s.tenants := rfl
@[simp] theorem setVctx_hosts : (setVctx s i x).hosts = s.hosts := rfl
@[simp] theorem setVctx_ptp : (setVctx s i x).ptp = s.ptp := rfl
@[simp] theorem setVctx_everClaimed : (setVctx s i x).everClaimed = s.everClaimed := rfl
@[simp] theorem setVctx_mgmtKey : (setVctx s i x).mgmtKey = s.mgmtKey := rfl
@[simp] theorem setVctx_claimKeys : (setVctx s i x).claimKeys = s.claimKeys := rfl
@[simp] theorem setVctx_wains : (setVctx s i x).wains = s.wains := rfl
@[simp] theorem setVctx_wiring : (setVctx s i x).wiring = s.wiring := rfl
@[simp] theorem setVctx_shadow : (setVctx s i x).shadow = s.shadow := rfl
@[simp] theorem setVctx_tallyWaits : (setVctx s i x).tallyWaits = s.tallyWaits := rfl
@[simp] theorem setVctx_certs : (setVctx s i x).certs = s.certs := rfl
@[simp] theorem setVctx_fencing : (setVctx s i x).fencing = s.fencing := rfl
@[simp] theorem setVctx_tallySince : (setVctx s i x).tallySince = s.tallySince := rfl
@[simp] theorem setVctx_tallyDown : (setVctx s i x).tallyDown = s.tallyDown := rfl
@[simp] theorem setVctx_tallyOut : (setVctx s i x).tallyOut = s.tallyOut := rfl
@[simp] theorem setVctx_joinWait : (setVctx s i x).joinWait = s.joinWait := rfl
@[simp] theorem setVctx_tray : (setVctx s i x).tray = s.tray := rfl
@[simp] theorem setVctx_faultLog : (setVctx s i x).faultLog = s.faultLog := rfl
@[simp] theorem setVctx_faultSeq : (setVctx s i x).faultSeq = s.faultSeq := rfl
@[simp] theorem setVctx_flash : (setVctx s i x).flash = s.flash := rfl
@[simp] theorem setVctx_power : (setVctx s i x).power = s.power := rfl
@[simp] theorem setVctx_kvBlocks : (setVctx s i x).kvBlocks = s.kvBlocks := rfl
@[simp] theorem setVctx_kvPoison : (setVctx s i x).kvPoison = s.kvPoison := rfl
@[simp] theorem setVctx_keySlots : (setVctx s i x).keySlots = s.keySlots := rfl
@[simp] theorem setVctx_nonces : (setVctx s i x).nonces = s.nonces := rfl
@[simp] theorem setVctx_fwDone : (setVctx s i x).fwDone = s.fwDone := rfl
@[simp] theorem setVctx_fwWait : (setVctx s i x).fwWait = s.fwWait := rfl
@[simp] theorem setVctx_fwAgain : (setVctx s i x).fwAgain = s.fwAgain := rfl
@[simp] theorem setVctx_lastTb : (setVctx s i x).lastTb = s.lastTb := rfl
@[simp] theorem setVctx_orphans : (setVctx s i x).orphans = s.orphans := rfl
@[simp] theorem setVctx_kvMarks : (setVctx s i x).kvMarks = s.kvMarks := rfl
@[simp] theorem setVctx_sec : (setVctx s i x).sec = s.sec := rfl
@[simp] theorem setVctx_keysLocked : (setVctx s i x).keysLocked = s.keysLocked := rfl
@[simp] theorem setVctx_seqs : (setVctx s i x).seqs = s.seqs := rfl
@[simp] theorem setVctx_seqPub : (setVctx s i x).seqPub = s.seqPub := rfl
@[simp] theorem setVctx_srv : (setVctx s i x).srv = s.srv := rfl
@[simp] theorem setVctx_cores : (setVctx s i x).cores = s.cores := rfl
end

/-! `setVcore` writes `cores` alone. -/
section
variable (s : State) (c : Nat) (x : VidCore)
@[simp] theorem setVcore_pending : (setVcore s c x).pending = s.pending := rfl
@[simp] theorem setVcore_clock : (setVcore s c x).clock = s.clock := rfl
@[simp] theorem setVcore_mtime : (setVcore s c x).mtime = s.mtime := rfl
@[simp] theorem setVcore_lastSample : (setVcore s c x).lastSample = s.lastSample := rfl
@[simp] theorem setVcore_free : (setVcore s c x).free = s.free := rfl
@[simp] theorem setVcore_nextId : (setVcore s c x).nextId = s.nextId := rfl
@[simp] theorem setVcore_out : (setVcore s c x).out = s.out := rfl
@[simp] theorem setVcore_regs : (setVcore s c x).regs = s.regs := rfl
@[simp] theorem setVcore_staged : (setVcore s c x).staged = s.staged := rfl
@[simp] theorem setVcore_latched : (setVcore s c x).latched = s.latched := rfl
@[simp] theorem setVcore_unlocked : (setVcore s c x).unlocked = s.unlocked := rfl
@[simp] theorem setVcore_lockSeen : (setVcore s c x).lockSeen = s.lockSeen := rfl
@[simp] theorem setVcore_irqHigh : (setVcore s c x).irqHigh = s.irqHigh := rfl
@[simp] theorem setVcore_mem : (setVcore s c x).mem = s.mem := rfl
@[simp] theorem setVcore_gwq : (setVcore s c x).gwq = s.gwq := rfl
@[simp] theorem setVcore_readGrants : (setVcore s c x).readGrants = s.readGrants := rfl
@[simp] theorem setVcore_held : (setVcore s c x).held = s.held := rfl
@[simp] theorem setVcore_poison : (setVcore s c x).poison = s.poison := rfl
@[simp] theorem setVcore_lineVer : (setVcore s c x).lineVer = s.lineVer := rfl
@[simp] theorem setVcore_retained : (setVcore s c x).retained = s.retained := rfl
@[simp] theorem setVcore_deferred : (setVcore s c x).deferred = s.deferred := rfl
@[simp] theorem setVcore_lentLast : (setVcore s c x).lentLast = s.lentLast := rfl
@[simp] theorem setVcore_bays : (setVcore s c x).bays = s.bays := rfl
@[simp] theorem setVcore_mesh : (setVcore s c x).mesh = s.mesh := rfl
@[simp] theorem setVcore_unitTokens : (setVcore s c x).unitTokens = s.unitTokens := rfl
@[simp] theorem setVcore_ramp : (setVcore s c x).ramp = s.ramp := rfl
@[simp] theorem setVcore_slots : (setVcore s c x).slots = s.slots := rfl
@[simp] theorem setVcore_raises : (setVcore s c x).raises = s.raises := rfl
@[simp] theorem setVcore_stepEpoch : (setVcore s c x).stepEpoch = s.stepEpoch := rfl
@[simp] theorem setVcore_stallFrom : (setVcore s c x).stallFrom = s.stallFrom := rfl
@[simp] theorem setVcore_cmds : (setVcore s c x).cmds = s.cmds := rfl
@[simp] theorem setVcore_sqs : (setVcore s c x).sqs = s.sqs := rfl
@[simp] theorem setVcore_eqs : (setVcore s c x).eqs = s.eqs := rfl
@[simp] theorem setVcore_ports : (setVcore s c x).ports = s.ports := rfl
@[simp] theorem setVcore_msixTab : (setVcore s c x).msixTab = s.msixTab := rfl
@[simp] theorem setVcore_pba : (setVcore s c x).pba = s.pba := rfl
@[simp] theorem setVcore_tenants : (setVcore s c x).tenants = s.tenants := rfl
@[simp] theorem setVcore_hosts : (setVcore s c x).hosts = s.hosts := rfl
@[simp] theorem setVcore_ptp : (setVcore s c x).ptp = s.ptp := rfl
@[simp] theorem setVcore_everClaimed : (setVcore s c x).everClaimed = s.everClaimed := rfl
@[simp] theorem setVcore_mgmtKey : (setVcore s c x).mgmtKey = s.mgmtKey := rfl
@[simp] theorem setVcore_claimKeys : (setVcore s c x).claimKeys = s.claimKeys := rfl
@[simp] theorem setVcore_wains : (setVcore s c x).wains = s.wains := rfl
@[simp] theorem setVcore_wiring : (setVcore s c x).wiring = s.wiring := rfl
@[simp] theorem setVcore_shadow : (setVcore s c x).shadow = s.shadow := rfl
@[simp] theorem setVcore_tallyWaits : (setVcore s c x).tallyWaits = s.tallyWaits := rfl
@[simp] theorem setVcore_certs : (setVcore s c x).certs = s.certs := rfl
@[simp] theorem setVcore_fencing : (setVcore s c x).fencing = s.fencing := rfl
@[simp] theorem setVcore_tallySince : (setVcore s c x).tallySince = s.tallySince := rfl
@[simp] theorem setVcore_tallyDown : (setVcore s c x).tallyDown = s.tallyDown := rfl
@[simp] theorem setVcore_tallyOut : (setVcore s c x).tallyOut = s.tallyOut := rfl
@[simp] theorem setVcore_joinWait : (setVcore s c x).joinWait = s.joinWait := rfl
@[simp] theorem setVcore_tray : (setVcore s c x).tray = s.tray := rfl
@[simp] theorem setVcore_faultLog : (setVcore s c x).faultLog = s.faultLog := rfl
@[simp] theorem setVcore_faultSeq : (setVcore s c x).faultSeq = s.faultSeq := rfl
@[simp] theorem setVcore_flash : (setVcore s c x).flash = s.flash := rfl
@[simp] theorem setVcore_power : (setVcore s c x).power = s.power := rfl
@[simp] theorem setVcore_kvBlocks : (setVcore s c x).kvBlocks = s.kvBlocks := rfl
@[simp] theorem setVcore_kvPoison : (setVcore s c x).kvPoison = s.kvPoison := rfl
@[simp] theorem setVcore_keySlots : (setVcore s c x).keySlots = s.keySlots := rfl
@[simp] theorem setVcore_nonces : (setVcore s c x).nonces = s.nonces := rfl
@[simp] theorem setVcore_fwDone : (setVcore s c x).fwDone = s.fwDone := rfl
@[simp] theorem setVcore_fwWait : (setVcore s c x).fwWait = s.fwWait := rfl
@[simp] theorem setVcore_fwAgain : (setVcore s c x).fwAgain = s.fwAgain := rfl
@[simp] theorem setVcore_lastTb : (setVcore s c x).lastTb = s.lastTb := rfl
@[simp] theorem setVcore_orphans : (setVcore s c x).orphans = s.orphans := rfl
@[simp] theorem setVcore_kvMarks : (setVcore s c x).kvMarks = s.kvMarks := rfl
@[simp] theorem setVcore_sec : (setVcore s c x).sec = s.sec := rfl
@[simp] theorem setVcore_keysLocked : (setVcore s c x).keysLocked = s.keysLocked := rfl
@[simp] theorem setVcore_seqs : (setVcore s c x).seqs = s.seqs := rfl
@[simp] theorem setVcore_seqPub : (setVcore s c x).seqPub = s.seqPub := rfl
@[simp] theorem setVcore_srv : (setVcore s c x).srv = s.srv := rfl
@[simp] theorem setVcore_video : (setVcore s c x).video = s.video := rfl
end

/-! `setWain` writes `wains` alone. -/
section
variable (s : State) (c : Nat) (x : Wain)
@[simp] theorem setWain_pending : (setWain s c x).pending = s.pending := rfl
@[simp] theorem setWain_clock : (setWain s c x).clock = s.clock := rfl
@[simp] theorem setWain_mtime : (setWain s c x).mtime = s.mtime := rfl
@[simp] theorem setWain_lastSample : (setWain s c x).lastSample = s.lastSample := rfl
@[simp] theorem setWain_free : (setWain s c x).free = s.free := rfl
@[simp] theorem setWain_nextId : (setWain s c x).nextId = s.nextId := rfl
@[simp] theorem setWain_out : (setWain s c x).out = s.out := rfl
@[simp] theorem setWain_regs : (setWain s c x).regs = s.regs := rfl
@[simp] theorem setWain_staged : (setWain s c x).staged = s.staged := rfl
@[simp] theorem setWain_latched : (setWain s c x).latched = s.latched := rfl
@[simp] theorem setWain_unlocked : (setWain s c x).unlocked = s.unlocked := rfl
@[simp] theorem setWain_lockSeen : (setWain s c x).lockSeen = s.lockSeen := rfl
@[simp] theorem setWain_irqHigh : (setWain s c x).irqHigh = s.irqHigh := rfl
@[simp] theorem setWain_mem : (setWain s c x).mem = s.mem := rfl
@[simp] theorem setWain_gwq : (setWain s c x).gwq = s.gwq := rfl
@[simp] theorem setWain_readGrants : (setWain s c x).readGrants = s.readGrants := rfl
@[simp] theorem setWain_held : (setWain s c x).held = s.held := rfl
@[simp] theorem setWain_poison : (setWain s c x).poison = s.poison := rfl
@[simp] theorem setWain_lineVer : (setWain s c x).lineVer = s.lineVer := rfl
@[simp] theorem setWain_retained : (setWain s c x).retained = s.retained := rfl
@[simp] theorem setWain_deferred : (setWain s c x).deferred = s.deferred := rfl
@[simp] theorem setWain_lentLast : (setWain s c x).lentLast = s.lentLast := rfl
@[simp] theorem setWain_bays : (setWain s c x).bays = s.bays := rfl
@[simp] theorem setWain_mesh : (setWain s c x).mesh = s.mesh := rfl
@[simp] theorem setWain_unitTokens : (setWain s c x).unitTokens = s.unitTokens := rfl
@[simp] theorem setWain_ramp : (setWain s c x).ramp = s.ramp := rfl
@[simp] theorem setWain_slots : (setWain s c x).slots = s.slots := rfl
@[simp] theorem setWain_raises : (setWain s c x).raises = s.raises := rfl
@[simp] theorem setWain_stepEpoch : (setWain s c x).stepEpoch = s.stepEpoch := rfl
@[simp] theorem setWain_stallFrom : (setWain s c x).stallFrom = s.stallFrom := rfl
@[simp] theorem setWain_cmds : (setWain s c x).cmds = s.cmds := rfl
@[simp] theorem setWain_sqs : (setWain s c x).sqs = s.sqs := rfl
@[simp] theorem setWain_eqs : (setWain s c x).eqs = s.eqs := rfl
@[simp] theorem setWain_ports : (setWain s c x).ports = s.ports := rfl
@[simp] theorem setWain_msixTab : (setWain s c x).msixTab = s.msixTab := rfl
@[simp] theorem setWain_pba : (setWain s c x).pba = s.pba := rfl
@[simp] theorem setWain_tenants : (setWain s c x).tenants = s.tenants := rfl
@[simp] theorem setWain_hosts : (setWain s c x).hosts = s.hosts := rfl
@[simp] theorem setWain_ptp : (setWain s c x).ptp = s.ptp := rfl
@[simp] theorem setWain_everClaimed : (setWain s c x).everClaimed = s.everClaimed := rfl
@[simp] theorem setWain_mgmtKey : (setWain s c x).mgmtKey = s.mgmtKey := rfl
@[simp] theorem setWain_claimKeys : (setWain s c x).claimKeys = s.claimKeys := rfl
@[simp] theorem setWain_wiring : (setWain s c x).wiring = s.wiring := rfl
@[simp] theorem setWain_shadow : (setWain s c x).shadow = s.shadow := rfl
@[simp] theorem setWain_tallyWaits : (setWain s c x).tallyWaits = s.tallyWaits := rfl
@[simp] theorem setWain_certs : (setWain s c x).certs = s.certs := rfl
@[simp] theorem setWain_fencing : (setWain s c x).fencing = s.fencing := rfl
@[simp] theorem setWain_tallySince : (setWain s c x).tallySince = s.tallySince := rfl
@[simp] theorem setWain_tallyDown : (setWain s c x).tallyDown = s.tallyDown := rfl
@[simp] theorem setWain_tallyOut : (setWain s c x).tallyOut = s.tallyOut := rfl
@[simp] theorem setWain_joinWait : (setWain s c x).joinWait = s.joinWait := rfl
@[simp] theorem setWain_tray : (setWain s c x).tray = s.tray := rfl
@[simp] theorem setWain_faultLog : (setWain s c x).faultLog = s.faultLog := rfl
@[simp] theorem setWain_faultSeq : (setWain s c x).faultSeq = s.faultSeq := rfl
@[simp] theorem setWain_flash : (setWain s c x).flash = s.flash := rfl
@[simp] theorem setWain_power : (setWain s c x).power = s.power := rfl
@[simp] theorem setWain_kvBlocks : (setWain s c x).kvBlocks = s.kvBlocks := rfl
@[simp] theorem setWain_kvPoison : (setWain s c x).kvPoison = s.kvPoison := rfl
@[simp] theorem setWain_keySlots : (setWain s c x).keySlots = s.keySlots := rfl
@[simp] theorem setWain_nonces : (setWain s c x).nonces = s.nonces := rfl
@[simp] theorem setWain_fwDone : (setWain s c x).fwDone = s.fwDone := rfl
@[simp] theorem setWain_fwWait : (setWain s c x).fwWait = s.fwWait := rfl
@[simp] theorem setWain_fwAgain : (setWain s c x).fwAgain = s.fwAgain := rfl
@[simp] theorem setWain_lastTb : (setWain s c x).lastTb = s.lastTb := rfl
@[simp] theorem setWain_orphans : (setWain s c x).orphans = s.orphans := rfl
@[simp] theorem setWain_kvMarks : (setWain s c x).kvMarks = s.kvMarks := rfl
@[simp] theorem setWain_sec : (setWain s c x).sec = s.sec := rfl
@[simp] theorem setWain_keysLocked : (setWain s c x).keysLocked = s.keysLocked := rfl
@[simp] theorem setWain_seqs : (setWain s c x).seqs = s.seqs := rfl
@[simp] theorem setWain_seqPub : (setWain s c x).seqPub = s.seqPub := rfl
@[simp] theorem setWain_srv : (setWain s c x).srv = s.srv := rfl
@[simp] theorem setWain_video : (setWain s c x).video = s.video := rfl
@[simp] theorem setWain_cores : (setWain s c x).cores = s.cores := rfl
end

/-! `setSlot` writes `slots` alone. -/
section
variable (s : State) (n : Nat) (x : Slot)
@[simp] theorem setSlot_pending : (setSlot s n x).pending = s.pending := rfl
@[simp] theorem setSlot_clock : (setSlot s n x).clock = s.clock := rfl
@[simp] theorem setSlot_mtime : (setSlot s n x).mtime = s.mtime := rfl
@[simp] theorem setSlot_lastSample : (setSlot s n x).lastSample = s.lastSample := rfl
@[simp] theorem setSlot_free : (setSlot s n x).free = s.free := rfl
@[simp] theorem setSlot_nextId : (setSlot s n x).nextId = s.nextId := rfl
@[simp] theorem setSlot_out : (setSlot s n x).out = s.out := rfl
@[simp] theorem setSlot_regs : (setSlot s n x).regs = s.regs := rfl
@[simp] theorem setSlot_staged : (setSlot s n x).staged = s.staged := rfl
@[simp] theorem setSlot_latched : (setSlot s n x).latched = s.latched := rfl
@[simp] theorem setSlot_unlocked : (setSlot s n x).unlocked = s.unlocked := rfl
@[simp] theorem setSlot_lockSeen : (setSlot s n x).lockSeen = s.lockSeen := rfl
@[simp] theorem setSlot_irqHigh : (setSlot s n x).irqHigh = s.irqHigh := rfl
@[simp] theorem setSlot_mem : (setSlot s n x).mem = s.mem := rfl
@[simp] theorem setSlot_gwq : (setSlot s n x).gwq = s.gwq := rfl
@[simp] theorem setSlot_readGrants : (setSlot s n x).readGrants = s.readGrants := rfl
@[simp] theorem setSlot_held : (setSlot s n x).held = s.held := rfl
@[simp] theorem setSlot_poison : (setSlot s n x).poison = s.poison := rfl
@[simp] theorem setSlot_lineVer : (setSlot s n x).lineVer = s.lineVer := rfl
@[simp] theorem setSlot_retained : (setSlot s n x).retained = s.retained := rfl
@[simp] theorem setSlot_deferred : (setSlot s n x).deferred = s.deferred := rfl
@[simp] theorem setSlot_lentLast : (setSlot s n x).lentLast = s.lentLast := rfl
@[simp] theorem setSlot_bays : (setSlot s n x).bays = s.bays := rfl
@[simp] theorem setSlot_mesh : (setSlot s n x).mesh = s.mesh := rfl
@[simp] theorem setSlot_unitTokens : (setSlot s n x).unitTokens = s.unitTokens := rfl
@[simp] theorem setSlot_ramp : (setSlot s n x).ramp = s.ramp := rfl
@[simp] theorem setSlot_raises : (setSlot s n x).raises = s.raises := rfl
@[simp] theorem setSlot_stepEpoch : (setSlot s n x).stepEpoch = s.stepEpoch := rfl
@[simp] theorem setSlot_stallFrom : (setSlot s n x).stallFrom = s.stallFrom := rfl
@[simp] theorem setSlot_cmds : (setSlot s n x).cmds = s.cmds := rfl
@[simp] theorem setSlot_sqs : (setSlot s n x).sqs = s.sqs := rfl
@[simp] theorem setSlot_eqs : (setSlot s n x).eqs = s.eqs := rfl
@[simp] theorem setSlot_ports : (setSlot s n x).ports = s.ports := rfl
@[simp] theorem setSlot_msixTab : (setSlot s n x).msixTab = s.msixTab := rfl
@[simp] theorem setSlot_pba : (setSlot s n x).pba = s.pba := rfl
@[simp] theorem setSlot_tenants : (setSlot s n x).tenants = s.tenants := rfl
@[simp] theorem setSlot_hosts : (setSlot s n x).hosts = s.hosts := rfl
@[simp] theorem setSlot_ptp : (setSlot s n x).ptp = s.ptp := rfl
@[simp] theorem setSlot_everClaimed : (setSlot s n x).everClaimed = s.everClaimed := rfl
@[simp] theorem setSlot_mgmtKey : (setSlot s n x).mgmtKey = s.mgmtKey := rfl
@[simp] theorem setSlot_claimKeys : (setSlot s n x).claimKeys = s.claimKeys := rfl
@[simp] theorem setSlot_wains : (setSlot s n x).wains = s.wains := rfl
@[simp] theorem setSlot_wiring : (setSlot s n x).wiring = s.wiring := rfl
@[simp] theorem setSlot_shadow : (setSlot s n x).shadow = s.shadow := rfl
@[simp] theorem setSlot_tallyWaits : (setSlot s n x).tallyWaits = s.tallyWaits := rfl
@[simp] theorem setSlot_certs : (setSlot s n x).certs = s.certs := rfl
@[simp] theorem setSlot_fencing : (setSlot s n x).fencing = s.fencing := rfl
@[simp] theorem setSlot_tallySince : (setSlot s n x).tallySince = s.tallySince := rfl
@[simp] theorem setSlot_tallyDown : (setSlot s n x).tallyDown = s.tallyDown := rfl
@[simp] theorem setSlot_tallyOut : (setSlot s n x).tallyOut = s.tallyOut := rfl
@[simp] theorem setSlot_joinWait : (setSlot s n x).joinWait = s.joinWait := rfl
@[simp] theorem setSlot_tray : (setSlot s n x).tray = s.tray := rfl
@[simp] theorem setSlot_faultLog : (setSlot s n x).faultLog = s.faultLog := rfl
@[simp] theorem setSlot_faultSeq : (setSlot s n x).faultSeq = s.faultSeq := rfl
@[simp] theorem setSlot_flash : (setSlot s n x).flash = s.flash := rfl
@[simp] theorem setSlot_power : (setSlot s n x).power = s.power := rfl
@[simp] theorem setSlot_kvBlocks : (setSlot s n x).kvBlocks = s.kvBlocks := rfl
@[simp] theorem setSlot_kvPoison : (setSlot s n x).kvPoison = s.kvPoison := rfl
@[simp] theorem setSlot_keySlots : (setSlot s n x).keySlots = s.keySlots := rfl
@[simp] theorem setSlot_nonces : (setSlot s n x).nonces = s.nonces := rfl
@[simp] theorem setSlot_fwDone : (setSlot s n x).fwDone = s.fwDone := rfl
@[simp] theorem setSlot_fwWait : (setSlot s n x).fwWait = s.fwWait := rfl
@[simp] theorem setSlot_fwAgain : (setSlot s n x).fwAgain = s.fwAgain := rfl
@[simp] theorem setSlot_lastTb : (setSlot s n x).lastTb = s.lastTb := rfl
@[simp] theorem setSlot_orphans : (setSlot s n x).orphans = s.orphans := rfl
@[simp] theorem setSlot_kvMarks : (setSlot s n x).kvMarks = s.kvMarks := rfl
@[simp] theorem setSlot_sec : (setSlot s n x).sec = s.sec := rfl
@[simp] theorem setSlot_keysLocked : (setSlot s n x).keysLocked = s.keysLocked := rfl
@[simp] theorem setSlot_seqs : (setSlot s n x).seqs = s.seqs := rfl
@[simp] theorem setSlot_seqPub : (setSlot s n x).seqPub = s.seqPub := rfl
@[simp] theorem setSlot_srv : (setSlot s n x).srv = s.srv := rfl
@[simp] theorem setSlot_video : (setSlot s n x).video = s.video := rfl
@[simp] theorem setSlot_cores : (setSlot s n x).cores = s.cores := rfl
end

/-! `setTenant` writes `tenants` alone. -/
section
variable (s : State) (f : Nat) (x : Tenant)
@[simp] theorem setTenant_pending : (setTenant s f x).pending = s.pending := rfl
@[simp] theorem setTenant_clock : (setTenant s f x).clock = s.clock := rfl
@[simp] theorem setTenant_mtime : (setTenant s f x).mtime = s.mtime := rfl
@[simp] theorem setTenant_lastSample : (setTenant s f x).lastSample = s.lastSample := rfl
@[simp] theorem setTenant_free : (setTenant s f x).free = s.free := rfl
@[simp] theorem setTenant_nextId : (setTenant s f x).nextId = s.nextId := rfl
@[simp] theorem setTenant_out : (setTenant s f x).out = s.out := rfl
@[simp] theorem setTenant_regs : (setTenant s f x).regs = s.regs := rfl
@[simp] theorem setTenant_staged : (setTenant s f x).staged = s.staged := rfl
@[simp] theorem setTenant_latched : (setTenant s f x).latched = s.latched := rfl
@[simp] theorem setTenant_unlocked : (setTenant s f x).unlocked = s.unlocked := rfl
@[simp] theorem setTenant_lockSeen : (setTenant s f x).lockSeen = s.lockSeen := rfl
@[simp] theorem setTenant_irqHigh : (setTenant s f x).irqHigh = s.irqHigh := rfl
@[simp] theorem setTenant_mem : (setTenant s f x).mem = s.mem := rfl
@[simp] theorem setTenant_gwq : (setTenant s f x).gwq = s.gwq := rfl
@[simp] theorem setTenant_readGrants : (setTenant s f x).readGrants = s.readGrants := rfl
@[simp] theorem setTenant_held : (setTenant s f x).held = s.held := rfl
@[simp] theorem setTenant_poison : (setTenant s f x).poison = s.poison := rfl
@[simp] theorem setTenant_lineVer : (setTenant s f x).lineVer = s.lineVer := rfl
@[simp] theorem setTenant_retained : (setTenant s f x).retained = s.retained := rfl
@[simp] theorem setTenant_deferred : (setTenant s f x).deferred = s.deferred := rfl
@[simp] theorem setTenant_lentLast : (setTenant s f x).lentLast = s.lentLast := rfl
@[simp] theorem setTenant_bays : (setTenant s f x).bays = s.bays := rfl
@[simp] theorem setTenant_mesh : (setTenant s f x).mesh = s.mesh := rfl
@[simp] theorem setTenant_unitTokens : (setTenant s f x).unitTokens = s.unitTokens := rfl
@[simp] theorem setTenant_ramp : (setTenant s f x).ramp = s.ramp := rfl
@[simp] theorem setTenant_slots : (setTenant s f x).slots = s.slots := rfl
@[simp] theorem setTenant_raises : (setTenant s f x).raises = s.raises := rfl
@[simp] theorem setTenant_stepEpoch : (setTenant s f x).stepEpoch = s.stepEpoch := rfl
@[simp] theorem setTenant_stallFrom : (setTenant s f x).stallFrom = s.stallFrom := rfl
@[simp] theorem setTenant_cmds : (setTenant s f x).cmds = s.cmds := rfl
@[simp] theorem setTenant_sqs : (setTenant s f x).sqs = s.sqs := rfl
@[simp] theorem setTenant_eqs : (setTenant s f x).eqs = s.eqs := rfl
@[simp] theorem setTenant_ports : (setTenant s f x).ports = s.ports := rfl
@[simp] theorem setTenant_msixTab : (setTenant s f x).msixTab = s.msixTab := rfl
@[simp] theorem setTenant_pba : (setTenant s f x).pba = s.pba := rfl
@[simp] theorem setTenant_hosts : (setTenant s f x).hosts = s.hosts := rfl
@[simp] theorem setTenant_ptp : (setTenant s f x).ptp = s.ptp := rfl
@[simp] theorem setTenant_everClaimed : (setTenant s f x).everClaimed = s.everClaimed := rfl
@[simp] theorem setTenant_mgmtKey : (setTenant s f x).mgmtKey = s.mgmtKey := rfl
@[simp] theorem setTenant_claimKeys : (setTenant s f x).claimKeys = s.claimKeys := rfl
@[simp] theorem setTenant_wains : (setTenant s f x).wains = s.wains := rfl
@[simp] theorem setTenant_wiring : (setTenant s f x).wiring = s.wiring := rfl
@[simp] theorem setTenant_shadow : (setTenant s f x).shadow = s.shadow := rfl
@[simp] theorem setTenant_tallyWaits : (setTenant s f x).tallyWaits = s.tallyWaits := rfl
@[simp] theorem setTenant_certs : (setTenant s f x).certs = s.certs := rfl
@[simp] theorem setTenant_fencing : (setTenant s f x).fencing = s.fencing := rfl
@[simp] theorem setTenant_tallySince : (setTenant s f x).tallySince = s.tallySince := rfl
@[simp] theorem setTenant_tallyDown : (setTenant s f x).tallyDown = s.tallyDown := rfl
@[simp] theorem setTenant_tallyOut : (setTenant s f x).tallyOut = s.tallyOut := rfl
@[simp] theorem setTenant_joinWait : (setTenant s f x).joinWait = s.joinWait := rfl
@[simp] theorem setTenant_tray : (setTenant s f x).tray = s.tray := rfl
@[simp] theorem setTenant_faultLog : (setTenant s f x).faultLog = s.faultLog := rfl
@[simp] theorem setTenant_faultSeq : (setTenant s f x).faultSeq = s.faultSeq := rfl
@[simp] theorem setTenant_flash : (setTenant s f x).flash = s.flash := rfl
@[simp] theorem setTenant_power : (setTenant s f x).power = s.power := rfl
@[simp] theorem setTenant_kvBlocks : (setTenant s f x).kvBlocks = s.kvBlocks := rfl
@[simp] theorem setTenant_kvPoison : (setTenant s f x).kvPoison = s.kvPoison := rfl
@[simp] theorem setTenant_keySlots : (setTenant s f x).keySlots = s.keySlots := rfl
@[simp] theorem setTenant_nonces : (setTenant s f x).nonces = s.nonces := rfl
@[simp] theorem setTenant_fwDone : (setTenant s f x).fwDone = s.fwDone := rfl
@[simp] theorem setTenant_fwWait : (setTenant s f x).fwWait = s.fwWait := rfl
@[simp] theorem setTenant_fwAgain : (setTenant s f x).fwAgain = s.fwAgain := rfl
@[simp] theorem setTenant_lastTb : (setTenant s f x).lastTb = s.lastTb := rfl
@[simp] theorem setTenant_orphans : (setTenant s f x).orphans = s.orphans := rfl
@[simp] theorem setTenant_kvMarks : (setTenant s f x).kvMarks = s.kvMarks := rfl
@[simp] theorem setTenant_sec : (setTenant s f x).sec = s.sec := rfl
@[simp] theorem setTenant_keysLocked : (setTenant s f x).keysLocked = s.keysLocked := rfl
@[simp] theorem setTenant_seqs : (setTenant s f x).seqs = s.seqs := rfl
@[simp] theorem setTenant_seqPub : (setTenant s f x).seqPub = s.seqPub := rfl
@[simp] theorem setTenant_srv : (setTenant s f x).srv = s.srv := rfl
@[simp] theorem setTenant_video : (setTenant s f x).video = s.video := rfl
@[simp] theorem setTenant_cores : (setTenant s f x).cores = s.cores := rfl
end

end Sys2Proof.Machine
end

