-- ==== Sys2Proof/Laws/Words.lean ====
section
/-! SUPPORT. What the shared entries of the bay words do: a head word that may issue issues and has its effect, is refused at issue,
or fails and puts the bay in ERROR; the ECC check of a word whose reads are clean; VEC destinations without block scales. -/

namespace Sys2Proof.Machine

theorem countWord_bay (s : State) (f ph b : Nat) : bay (countWord s f ph) b = bay s b := (rfl)

theorem issueHead_bayfield {β : Type} (g : Bay → β) (hg : ∀ x q p, g { x with queue := q, prefetch := p } = g x)
    (hg3 : ∀ (x : Bay) q ph is e, g { x with queue := q, phase := ph, issued := is, epoch := e } = g x)
    (hg4 : ∀ (x : Bay) n, g (callPresses x n) = g x) (hg5 : ∀ (x : Bay) j n, g (addPerf x j n) = g x)
    (hg6 : ∀ (x : Bay) c v, g (setTok x c v) = g x) (hg7 : ∀ (x : Bay) c v, g (setCred x c v) = g x)
    (s : State) (b : Nat) (q : QWord) : g (bay (issueHead s b q) b) = g (bay s b) := by
  have hc : ∀ x w, g (consume x w) = g x := by
    intro x w; unfold consume; rw [hg7]
    generalize headCond w ++ waitConds w = l
    induction l generalizing x with
    | nil => rfl
    | cons e l ih => rw [List.foldl_cons, ih]; split_ifs <;> simp [hg6]
  unfold issueHead
  dsimp only
  have hn : ∀ z, bay (noteOldest z) b = bay z b := fun _ => rfl
  rw [hn]
  unfold refill
  dsimp only
  rw [bay_setBay, if_pos rfl, hg, countWord_bay, bay_setBay, if_pos rfl, hg3, hg4, hg5, hc]

@[simp] theorem countWord_mem (s : State) (f ph : Nat) : (countWord s f ph).mem = s.mem := (rfl)
@[simp] theorem noteOldest_mem (s : State) : (noteOldest s).mem = s.mem := (rfl)
@[simp] theorem refill_mem (s : State) (b : Nat) : (refill s b).mem = s.mem := (rfl)
@[simp] theorem issueHead_mem (s : State) (b : Nat) (q : QWord) : (issueHead s b q).mem = s.mem := by
  unfold issueHead; dsimp only; rw [noteOldest_mem, refill_mem, countWord_mem, setBay_mem]
@[simp] theorem countWord_gwq (s : State) (f ph : Nat) : (countWord s f ph).gwq = s.gwq := (rfl)
@[simp] theorem noteOldest_gwq (s : State) : (noteOldest s).gwq = s.gwq := (rfl)
@[simp] theorem refill_gwq (s : State) (b : Nat) : (refill s b).gwq = s.gwq := (rfl)
@[simp] theorem issueHead_gwq (s : State) (b : Nat) (q : QWord) : (issueHead s b q).gwq = s.gwq := by
  unfold issueHead; dsimp only; rw [noteOldest_gwq, refill_gwq, countWord_gwq, setBay_gwq]
@[simp] theorem countWord_poison (s : State) (f ph : Nat) : (countWord s f ph).poison = s.poison := (rfl)
@[simp] theorem noteOldest_poison (s : State) : (noteOldest s).poison = s.poison := (rfl)
@[simp] theorem refill_poison (s : State) (b : Nat) : (refill s b).poison = s.poison := (rfl)
@[simp] theorem issueHead_poison (s : State) (b : Nat) (q : QWord) : (issueHead s b q).poison = s.poison := by
  unfold issueHead; dsimp only; rw [noteOldest_poison, refill_poison, countWord_poison, setBay_poison]
@[simp] theorem countWord_mesh (s : State) (f ph : Nat) : (countWord s f ph).mesh = s.mesh := (rfl)
@[simp] theorem noteOldest_mesh (s : State) : (noteOldest s).mesh = s.mesh := (rfl)
@[simp] theorem refill_mesh (s : State) (b : Nat) : (refill s b).mesh = s.mesh := (rfl)
@[simp] theorem issueHead_mesh (s : State) (b : Nat) (q : QWord) : (issueHead s b q).mesh = s.mesh := by
  unfold issueHead; dsimp only; rw [noteOldest_mesh, refill_mesh, countWord_mesh, setBay_mesh]
@[simp] theorem refill_regs (s : State) (b : Nat) : (refill s b).regs = s.regs := (rfl)
@[simp] theorem countWord_out (s : State) (f ph : Nat) : (countWord s f ph).out = s.out := (rfl)
@[simp] theorem noteOldest_out (s : State) : (noteOldest s).out = s.out := (rfl)
@[simp] theorem refill_out (s : State) (b : Nat) : (refill s b).out = s.out := (rfl)
@[simp] theorem issueHead_out (s : State) (b : Nat) (q : QWord) : (issueHead s b q).out = s.out := by
  unfold issueHead; dsimp only; rw [noteOldest_out, refill_out, countWord_out, setBay_out]
@[simp] theorem countWord_held (s : State) (f ph : Nat) : (countWord s f ph).held = s.held := (rfl)
@[simp] theorem noteOldest_held (s : State) : (noteOldest s).held = s.held := (rfl)
@[simp] theorem refill_held (s : State) (b : Nat) : (refill s b).held = s.held := (rfl)
@[simp] theorem issueHead_held (s : State) (b : Nat) (q : QWord) : (issueHead s b q).held = s.held := by
  unfold issueHead; dsimp only; rw [noteOldest_held, refill_held, countWord_held, setBay_held]
@[simp] theorem countWord_nextId (s : State) (f ph : Nat) : (countWord s f ph).nextId = s.nextId := (rfl)
@[simp] theorem noteOldest_nextId (s : State) : (noteOldest s).nextId = s.nextId := (rfl)
@[simp] theorem refill_nextId (s : State) (b : Nat) : (refill s b).nextId = s.nextId := (rfl)
@[simp] theorem issueHead_nextId (s : State) (b : Nat) (q : QWord) : (issueHead s b q).nextId = s.nextId := by
  unfold issueHead; dsimp only; rw [noteOldest_nextId, refill_nextId, countWord_nextId, setBay_nextId]
@[simp] theorem countWord_slots (s : State) (f ph : Nat) : (countWord s f ph).slots = s.slots := (rfl)
@[simp] theorem noteOldest_slots (s : State) : (noteOldest s).slots = s.slots := (rfl)
@[simp] theorem refill_slots (s : State) (b : Nat) : (refill s b).slots = s.slots := (rfl)
@[simp] theorem issueHead_slots (s : State) (b : Nat) (q : QWord) : (issueHead s b q).slots = s.slots := by
  unfold issueHead; dsimp only; rw [noteOldest_slots, refill_slots, countWord_slots, setBay_slots]
@[simp] theorem countWord_srv (s : State) (f ph : Nat) : (countWord s f ph).srv = s.srv := (rfl)
@[simp] theorem noteOldest_srv (s : State) : (noteOldest s).srv = s.srv := (rfl)
@[simp] theorem refill_srv (s : State) (b : Nat) : (refill s b).srv = s.srv := (rfl)
@[simp] theorem issueHead_srv (s : State) (b : Nat) (q : QWord) : (issueHead s b q).srv = s.srv := by
  unfold issueHead; dsimp only; rw [noteOldest_srv, refill_srv, countWord_srv, setBay_srv]
@[simp] theorem countWord_sec (s : State) (f ph : Nat) : (countWord s f ph).sec = s.sec := (rfl)
@[simp] theorem noteOldest_sec (s : State) : (noteOldest s).sec = s.sec := (rfl)
@[simp] theorem refill_sec (s : State) (b : Nat) : (refill s b).sec = s.sec := (rfl)
@[simp] theorem issueHead_sec (s : State) (b : Nat) (q : QWord) : (issueHead s b q).sec = s.sec := by
  unfold issueHead; dsimp only; rw [noteOldest_sec, refill_sec, countWord_sec, setBay_sec]
@[simp] theorem countWord_cmds (s : State) (f ph : Nat) : (countWord s f ph).cmds = s.cmds := (rfl)
@[simp] theorem noteOldest_cmds (s : State) : (noteOldest s).cmds = s.cmds := (rfl)
@[simp] theorem refill_cmds (s : State) (b : Nat) : (refill s b).cmds = s.cmds := (rfl)
@[simp] theorem issueHead_cmds (s : State) (b : Nat) (q : QWord) : (issueHead s b q).cmds = s.cmds := by
  unfold issueHead; dsimp only; rw [noteOldest_cmds, refill_cmds, countWord_cmds, setBay_cmds]

theorem issueHead_greadOf (s : State) (b : Nat) (q : QWord) (u a n : Nat) : greadOf (issueHead s b q) u a n = greadOf s u a n := by
  unfold greadOf gbyteOf gbyte
  rw [issueHead_mem, issueHead_gwq]

theorem noteOldest_bay (s : State) (b : Nat) : bay (noteOldest s) b = bay s b := (rfl)

theorem leaveRunning_bay (s : State) (b h : Nat) (st : BaySt) : (bay (leaveRunning s b st h) b).st = st ∧
    (bay (leaveRunning s b st h) b).hcode = h % 2 ^ 16 ∧ (bay (leaveRunning s b st h) b).epoch = none := by
  unfold leaveRunning
  dsimp only
  rw [noteOldest_bay, bay_setBay, if_pos rfl]
  exact ⟨rfl, rfl, rfl⟩

theorem issueHead_ue (s : State) (b : Nat) (q : QWord) : (bay (issueHead s b q) b).ue = (bay s b).ue :=
  issueHead_bayfield (·.ue) (fun _ _ _ => rfl) (fun _ _ _ _ _ => rfl) (fun _ _ => rfl) (fun _ _ _ => rfl) (fun _ _ _ => rfl) (fun _ _ _ => rfl) s b q

theorem runHead_issues {s : State} {b cls op : Nat} {q : QWord} (h : Issues s b q cls op) {sel : Nat → Bool}
    {pre : State → Nat → Nat → Nat} {eff : State → Nat → QWord → Except Nat State} {u : State} (hs : sel q.word.toNat = true)
    (hp : pre s b q.word.toNat = 0) (he : eff (issueHead s b q) b q = .ok u) :
    runHead s b sel pre eff = if (engineOf cls).isSome then boundIssued u b else u := by
  obtain ⟨h1, h2, h3, h4, h5, h6, h7⟩ := h
  unfold runHead
  dsimp only
  rw [if_neg (by simp [h1, h2])]
  cases hq : (bay s b).queue with
  | nil => rw [hq] at h3; simp at h3
  | cons q' l =>
    rw [hq] at h3; simp at h3; subst h3
    simp only [h4, hs, h7, hp, Option.isSome_none, Bool.not_true, Bool.or_self, Bool.false_eq_true, ne_eq, not_true_eq_false, if_false, he, h5]

theorem runHead_plain {s : State} {b cls op : Nat} {q : QWord} (h : Issues s b q cls op) {sel : Nat → Bool}
    {pre : State → Nat → Nat → Nat} {eff : State → Nat → QWord → Except Nat State} {u : State} (hn : (engineOf cls).isSome = false)
    (hs : sel q.word.toNat = true) (hp : pre s b q.word.toNat = 0) (he : eff (issueHead s b q) b q = .ok u) :
    runHead s b sel pre eff = u := by
  rw [runHead_issues h hs hp he, hn, if_neg (by simp)]

theorem runHead_engine {s : State} {b cls op : Nat} {q : QWord} (h : Issues s b q cls op) {sel : Nat → Bool}
    {pre : State → Nat → Nat → Nat} {eff : State → Nat → QWord → Except Nat State} {u : State} (hn : (engineOf cls).isSome = true)
    (hs : sel q.word.toNat = true) (hp : pre s b q.word.toNat = 0) (he : eff (issueHead s b q) b q = .ok u) :
    runHead s b sel pre eff = boundIssued u b := by
  rw [runHead_issues h hs hp he, hn, if_pos rfl]

theorem runHead_fails {s : State} {b cls op : Nat} {q : QWord} (h : Issues s b q cls op) {sel : Nat → Bool}
    {pre : State → Nat → Nat → Nat} {eff : State → Nat → QWord → Except Nat State} {c : Nat} (hs : sel q.word.toNat = true)
    (hp : pre s b q.word.toNat = 0) (he : eff (issueHead s b q) b q = .error c) :
    runHead s b sel pre eff = bayError (dropIssued (issueHead s b q) b) b c q.addr := by
  obtain ⟨h1, h2, h3, h4, h5, h6, h7⟩ := h
  unfold runHead
  dsimp only
  rw [if_neg (by simp [h1, h2])]
  cases hq : (bay s b).queue with
  | nil => rw [hq] at h3; simp at h3
  | cons q' l =>
    rw [hq] at h3; simp at h3; subst h3
    simp only [h4, hs, h7, hp, Option.isSome_none, Bool.not_true, Bool.or_self, Bool.false_eq_true, ne_eq, not_true_eq_false, if_false, he]

theorem runHead_refused {s : State} {b cls op : Nat} {q : QWord} (h : Issues s b q cls op) {sel : Nat → Bool}
    {pre : State → Nat → Nat → Nat} {eff : State → Nat → QWord → Except Nat State} (hs : sel q.word.toNat = true)
    (hp : pre s b q.word.toNat ≠ 0) :
    runHead s b sel pre eff = bayError s b (pre s b q.word.toNat) q.addr := by
  obtain ⟨h1, h2, h3, h4, h5, h6, h7⟩ := h
  unfold runHead
  dsimp only
  rw [if_neg (by simp [h1, h2])]
  cases hq : (bay s b).queue with
  | nil => rw [hq] at h3; simp at h3
  | cons q' l =>
    rw [hq] at h3; simp at h3; subst h3
    simp only [h4, hs, h7, hp, Option.isSome_none, Bool.not_true, Bool.or_self, Bool.false_eq_true, ne_eq, not_true_eq_false, if_false, not_false_eq_true, if_true]

theorem storeEcc_zero {s : State} {b : Nat} {rs : List Lines} (h : storeBad s b rs = false) : storeEcc s b 0 rs = s := by
  unfold storeBad at h
  unfold storeEcc
  split
  · rfl
  · dsimp only
    rw [h]; simp

theorem runReading_issues {s : State} {b cls op : Nat} {q : QWord} (h : Issues s b q cls op) (hr : ReadsClean s b q) (sel : Nat → Bool)
    (pre : State → Nat → Nat → Nat) (eff : State → Nat → QWord → Except Nat State) :
    runReading s b 0 sel pre eff = runHead s b sel pre eff := by
  have hq : ∃ l, (bay s b).queue = q :: l := by
    cases hq : (bay s b).queue with
    | nil => have := h.2.2.1; rw [hq] at this; simp at this
    | cons q' l => have := h.2.2.1; rw [hq] at this; simp at this; exact ⟨l, by rw [this]⟩
  obtain ⟨l, hl⟩ := hq
  unfold runReading
  dsimp only
  simp only [hl]
  unfold ReadsClean at hr
  rw [storeEcc_zero hr]
  simp only [ite_self]
  unfold runHead
  dsimp only
  simp only [hl]
  have : behindEcc (fun _ => (wordRanges s b (bay s b) q.word.toNat).1) eff (issueHead s b q) b q = eff (issueHead s b q) b q := by
    unfold behindEcc storeBad
    rw [issueHead_ue]
    unfold storeBad at hr
    rw [hr]; simp
  rw [this]

theorem fout_float {c : Nat} (h : c ≤ 4) : blockOf c = 0 ∧ (elemFloat c).isSome = true := by
  interval_cases c <;> decide

theorem vecWrite_plain {c : Nat} (h : c ≤ 4) (x : Bay) (line cvt st rl : Nat) (vs : List Machine.Num) :
    vecWrite x line c cvt st rl vs = (bwrite x line (packBits (elemBits c) (narrowCodes c cvt vs).1), false) := by
  obtain ⟨h1, h2⟩ := fout_float h
  unfold vecWrite
  rw [if_pos h1]
  obtain ⟨f, hf⟩ := Option.isSome_iff_exists.mp h2
  unfold narrowCodes
  rw [hf]

theorem isWord_of {s : State} {b : Nat} {q : QWord} {c o : Nat} (h : Issues s b q c o) : isWord c o q.word.toNat = true := by
  unfold isWord; simp [h.2.2.2.2.1, h.2.2.2.2.2.1]

theorem recordErr_bay (s : State) (p c f o d b : Nat) : bay (recordErr s p c f o d) b = bay s b := by
  have : (recordErr s p c f o d).bays = s.bays := congrArg Working.bays (recordErr_working s p c f o d)
  unfold bay; rw [this]

theorem issueHead_other (s : State) (b c : Nat) (q : QWord) (h : c ≠ b) : bay (issueHead s b q) c = bay s c := by
  unfold issueHead; dsimp only
  have hn : ∀ z, bay (noteOldest z) c = bay z c := fun _ => rfl
  rw [hn]; unfold refill; dsimp only
  rw [bay_setBay, if_neg (Ne.symm h), countWord_bay, bay_setBay, if_neg (Ne.symm h)]

end Sys2Proof.Machine
end

