-- ==== Sys2Proof/WellFormed.lean ====
section
/-! DEFINITION. What a command's operands must be to name something the hardware has: function, ring, bay, channel,
field, port, context and slot numbers in range, and whole records and lines. The counts are those of R21, R40, R64, R225,
R266, R303, R335, R432 and the table of 00_scope.md. -/

namespace Sys2Proof

/-- A register access comes through port A or B, from MF or one of eight tenants, inside a 64 MiB BAR0 (R291). -/
def Access.wf (a : Access) : Bool := decide (a.port < 2) && decide (a.func ≤ 8) && decide (a.off < 2 ^ 26)

/-- A source of commands: rings 0-15 of functions 0-8, one of two management links, or a mirrored function's ring
(R303, R329, R426). -/
def srcWf (src : Nat) : Bool :=
  decide (src < 144) || src == 0x100 || src == 0x101 || (decide (0x200 ≤ src) && decide (src < 0x200 + 144))

/-- A value written: 32 bits, or 64 for an 8-byte access (R41). -/
def valueWf (wide : Bool) (v : Nat) : Bool := decide (v < 2 ^ (if wide then 64 else 32))

/-- One of the 576 bays (00_scope.md). -/
def bayWf (b : Nat) : Bool := decide (b < 576)

/-- A unit of the mesh: a bay, or one of the service units' numbers. -/
def unitWf (u : Nat) : Bool := decide (u < 1724)

/-- The operands of a command name something the hardware has. -/
def Instr.wf : Instr → Bool
  | .registerWrite a wide v => a.wf && valueWf wide v
  | .unalignedAccess a => a.wf
  | .unmappedAccess a _ _ => a.wf
  | .latchedRead a _ _ => a.wf
  | .blkExpert a v => a.wf && valueWf false v
  | .sreset a v => a.wf && valueWf false v
  | .blkErrClear a v => a.wf && valueWf false v
  | .pageCommit a v => a.wf && valueWf false v
  | .pageDiscard a v => a.wf && valueWf false v
  | .granaryRound chan _ _ _ _ => decide (chan < 128)
  | .granaryWriteAck unit chan => unitWf unit && decide (chan < 128)
  | .granaryReadReturn unit addr ecc _ _ => unitWf unit && decide (addr < 2 ^ 40) && decide (ecc < 3)
  | .pllRelockDone f => decide (f < 8)
  | .tokenArrival src dst => unitWf src && unitWf dst
  | .creditArrival src dst => unitWf src && unitWf dst
  | .tallyAddArrival src => unitWf src
  | .ptpMessage link _ => decide (link < 2)
  | .ptpAnnounceTimeout link => decide (link < 2)
  | .txnOpen a => a.wf
  | .txnListCmd a v => a.wf && valueWf false v
  | .txnListLineReturn slot ok bs => decide (slot < 32) && (bs.length == 64 || !ok)
  | .txnListReadTimeout slot => decide (slot < 32)
  | .raise a v => a.wf && valueWf false v
  | .strike a v => a.wf && valueWf false v
  | .release a v => a.wf && valueWf false v
  | .bentTakeEffect slot => decide (slot < 32)
  | .retiredStorageFree => true
  | .retireStall => true
  | .programFetchReturn b => bayWf b
  | .refusedWordAtHead b => bayWf b
  | .wordComplete b e => bayWf b && decide (e < 5)
  | .haltComplete b => bayWf b
  | .load b => bayWf b
  | .loadZrc b => bayWf b
  | .store b ecc => bayWf b && decide (ecc < 3)
  | .storeZrc b ecc => bayWf b && decide (ecc < 3)
  | .press b ecc => bayWf b && decide (ecc < 3)
  | .winnow b ecc => bayWf b && decide (ecc < 3)
  | .cvt b ecc => bayWf b && decide (ecc < 3)
  | .add b ecc => bayWf b && decide (ecc < 3)
  | .sub b ecc => bayWf b && decide (ecc < 3)
  | .mul b ecc => bayWf b && decide (ecc < 3)
  | .fma b ecc => bayWf b && decide (ecc < 3)
  | .max b ecc => bayWf b && decide (ecc < 3)
  | .min b ecc => bayWf b && decide (ecc < 3)
  | .muls b ecc => bayWf b && decide (ecc < 3)
  | .adds b ecc => bayWf b && decide (ecc < 3)
  | .exp2 b ecc => bayWf b && decide (ecc < 3)
  | .log2 b ecc => bayWf b && decide (ecc < 3)
  | .recip b ecc => bayWf b && decide (ecc < 3)
  | .rsqrt b ecc => bayWf b && decide (ecc < 3)
  | .tanh b ecc => bayWf b && decide (ecc < 3)
  | .gelu b ecc => bayWf b && decide (ecc < 3)
  | .silu b ecc => bayWf b && decide (ecc < 3)
  | .relu b ecc => bayWf b && decide (ecc < 3)
  | .rsum b ecc => bayWf b && decide (ecc < 3)
  | .rmax b ecc => bayWf b && decide (ecc < 3)
  | .argmax b ecc => bayWf b && decide (ecc < 3)
  | .tree b ecc => bayWf b && decide (ecc < 3)
  | .sendToken b => bayWf b
  | .sendCredit b => bayWf b
  | .wait b => bayWf b
  | .tally b => bayWf b
  | .halt b => bayWf b
  | .convolution b _ => bayWf b
  | .depthwiseConvolution b _ => bayWf b
  | .maxPooling b _ => bayWf b
  | .averagePooling b _ => bayWf b
  | .scarfResume b _ => bayWf b
  | .prefill b _ => bayWf b
  | .decode b _ => bayWf b
  | .append b _ => bayWf b
  | .backward b _ => bayWf b
  | .combine b _ => bayWf b
  | .bayRunGo a v => a.wf && valueWf false v
  | .bayRunHalt a v => a.wf && valueWf false v
  | .bayRunClear a v => a.wf && valueWf false v
  | .bayTokenSet a v => a.wf && valueWf false v
  | .perfClr a v => a.wf && valueWf false v
  | .rampTick => true
  | .rebuild a v => a.wf && valueWf false v
  | .rebuildDone => true
  | .swapOutDone seq => decide (seq < 4096)
  | .swapInDone seq => decide (seq < 4096)
  | .admitSeq src => srcWf src
  | .fork src => srcWf src
  | .cancel src => srcWf src
  | .setMask src => srcWf src
  | .tokenArea src => srcWf src
  | .stepBoundary => true
  | .emptyBoundary => true
  | .heldBatchPost func => decide (func ≤ 8)
  | .pause a v => a.wf && valueWf false v
  | .pauseClear a v => a.wf && valueWf false v
  | .gleanerGroup _ _ rows => rows.all fun r => decide (r.seq < 4096)
  | .streamOpen src => srcWf src
  | .decSubmit src => srcWf src
  | .picRelease src => srcWf src
  | .encFrame src => srcWf src
  | .encRows src => srcWf src
  | .tapSet src => srcWf src
  | .streamFlush src => srcWf src
  | .streamClose src => srcWf src
  | .bsRelease src => srcWf src
  | .headerParseDone ctx => decide (ctx < 256)
  | .coreChoose core => decide (core < 6)
  | .unitDecoded core => decide (core < 6)
  | .sliceOut core => decide (core < 6)
  | .tapRow ctx tap => decide (ctx < 256) && decide (tap < 4)
  | .closed ctx => decide (ctx < 256)
  | .nop src => srcWf src
  | .funcEnable src => srcWf src
  | .funcDisableDrain src => srcWf src
  | .funcDisableKill src => srcWf src
  | .flr port func => decide (port < 2) && decide (func ≤ 8)
  | .funcDrainComplete func => decide (func ≤ 8)
  | .funcDrainTimeout func => decide (func ≤ 8)
  | .funcKillDone func => decide (func ≤ 8)
  | .scrubDone owner _ => decide (owner ≤ 11)
  | .sqDoorbell a v => a.wf && valueWf false v
  | .eqHeadDoorbell a v => a.wf && valueWf false v
  | .sqCfgWrite a v => a.wf && valueWf false v
  | .eqCfgWrite a v => a.wf && valueWf false v
  | .commandFetchReturn func ring bs => decide (func ≤ 8) && decide (ring < 16) && (bs.length == 64 || bs.isEmpty)
  | .cmdFetch func ring => decide (func ≤ 8) && decide (ring < 16)
  | .configRequest port _ _ => decide (port < 2)
  | .bar2Access port func rid off _ _ => decide (port < 2) && decide (func ≤ 8) && decide (rid < 2 ^ 16) && decide (off < 2 ^ 40)
  | .perst port => decide (port < 2)
  | .perstRelease port => decide (port < 2)
  | .linkDown port => decide (port < 2)
  | .dlUp port link => decide (port < 2) && decide (link < 2 ^ 17)
  | .identSend a v => a.wf && valueWf false v
  | .heartbeat link mac _ => decide (link < 2) && decide (mac < 2 ^ 48)
  | .hbHi a wide v => a.wf && valueWf wide v
  | .heartbeatTimer => true
  | .livenessTick => true
  | .request link mac _ => decide (link < 2) && decide (mac < 2 ^ 48)
  | .relearn a v => a.wf && valueWf false v
  | .mgmtLinkChange link _ _ => decide (link < 2)
  | .wainPost a wide v => a.wf && valueWf wide v
  | .abort a v => a.wf && valueWf false v
  | .resume a v => a.wf && valueWf false v
  | .abortDone c => decide (c < 32)
  | .descriptorFetchReturn c ok bs => decide (c < 32) && (bs.length == 64 || !ok)
  | .burstDone c _ _ _ => decide (c < 32)
  | .wainHostErr c _ => decide (c < 32)
  | .descriptorComplete c _ => decide (c < 32)
  | .wainCqHead a v => a.wf && valueWf false v
  | .fwWrite src => srcWf src
  | .fwWriteDone => true
  | .fwActivate src => srcWf src
  | .fwSvnCommit src => srcWf src
  | .setInstall src => srcWf src
  | .setRemove src => srcWf src
  | .mgmtKeyInstall src => srcWf src
  | .debugUnlock src => srcWf src
  | .bundleLoad src => srcWf src
  | .bundleLoaded => true
  | .bundleUnload src => srcWf src
  | .jobRun src => srcWf src
  | .getVersion port => decide (port < 2)
  | .getCapabilities port => decide (port < 2)
  | .negotiateAlgorithms port _ => decide (port < 2)
  | .getDigests port _ => decide (port < 2)
  | .getCertificate port _ slot _ _ => decide (port < 2) && decide (slot < 8)
  | .challenge port slot _ => decide (port < 2) && decide (slot < 8)
  | .getMeasurements port _ _ _ _ => decide (port < 2)
  | .keyExchange port slot _ _ => decide (port < 2) && decide (slot < 8)
  | .finish port _ _ _ _ => decide (port < 2)
  | .keyUpdate port _ _ => decide (port < 2)
  | .spdmHeartbeat port _ => decide (port < 2)
  | .endSession port _ => decide (port < 2)
  | .keyPut port _ slot _ _ => decide (port < 2) && decide (slot < 8)
  | .keyClear port _ slot => decide (port < 2) && decide (slot < 8)
  | .keyList port _ => decide (port < 2)
  | .pwrSetCap src => srcWf src
  | .pwrPool src => srcWf src
  | .fastLoop _ _ => true
  | .capMet => true
  | .powerSample _ _ _ _ => true
  | .sensorOk => true
  | .estimateWindow => true
  | .mismatchOn => true
  | .mismatchOff => true
  | .learnerPeriod _ _ _ _ => true
  | .brakeOn => true
  | .brakeClockDrop => true
  | .brakeOff => true
  | .droop f => decide (f < 8)
  | .poolRound => true
  | .poolRecordTimeout => true
  | .poolStale => true
  | .poolShareRise => true
  | .junctionSample _ => true
  | .thermalThrottleStep => true
  | .hbmTempSample _ => true
  | .thermalShutdown => true
  | .thermalRestart _ => true
  | .operatingTimeSave => true
  | .coolantSample _ _ _ _ => true
  | .flowLow => true
  | .leakSample _ _ => true
  | .leak => true
  | .thmLeakClr a v => a.wf && valueWf false v
  | .learnReset a v => a.wf && valueWf false v
  | .inputHigh _ => true
  | .inputHighTimeout => true
  | .inputFault _ => true
  | .inputReturn _ => true
  | .partSetup src => srcWf src
  | .partLeave src => srcWf src
  | .fenceCert src => srcWf src
  | .fenced => true
  | .shadowElder src _ => srcWf src
  | .shadowJoin src _ => srcWf src
  | .shadowEnd src => srcWf src
  | .shadowApply => true
  | .mirrorAckTimer => true
  | .shadowLost => true
  | .snapshot src => srcWf src
  | .globalReset src => srcWf src
  | .wiringPlan src => srcWf src
  | .tallyAdd a v => a.wf && valueWf false v
  | .tallyFire c => decide (c < 256)
  | .up port rid _ _ => decide (port < 2) && decide (rid < 2 ^ 16)
  | .down port rid _ _ => decide (port < 2) && decide (rid < 2 ^ 16)
  | .data port rid _ _ => decide (port < 2) && decide (rid < 2 ^ 16)
  | .mirrorAck port rid _ _ => decide (port < 2) && decide (rid < 2 ^ 16)
  | .tallyStall c => decide (c < 256)
  | .prsntEarlyMade _ => true
  | .prsntEarlyBreak => true
  | .quenchDone _ => true
  | .ejectReq _ => true
  | .leverOpen _ => true
  | .trayCfg src => srcWf src
  | .trayRemove src => srcWf src
  | .trayResume src => srcWf src
  | .drained => true
  | .drainTimeout => true
  | .ledLine line => decide (line < 2)
  | .ledRetry line => decide (line < 2)
  | .standbyPower => true
  | .standbyLoss => true
  | .reeveBootDone _ _ links _ => decide (links < 16)
  | .preheatDone => true
  | .preheatFail => true
  | .railsDone => true
  | .railFail => true
  | .bootDone _ => true
  | .bootTimeout _ => true
  | .bistDone bad => bad.all bayWf
  | .linksTimeout => true
  | .startRetry => true
  | .moduleResetWarm src => srcWf src
  | .moduleResetCold src => srcWf src
  | .resetStart => true
  | .dieWarmReset _ => true
  | .calSaveDone => true
  | .faultRead src => srcWf src
  | .faultAck src => srcWf src
  | .railRampDone f => decide (f < 8)
  | .droopRecovered f _ => decide (f < 8)
  | .fenceCertChecked => true
  | .msixTableWrite port func off v => decide (port < 2) && decide (func ≤ 8) && decide (off < 2 ^ 20) && valueWf false v

end Sys2Proof
end

