-- ==== Sys2Proof/Tests/Slice0.lean ====
section
/-! SUPPORT. Small tests: what each operand check refuses, hypotheses of the statements that concrete states meet, and
single commands whose results are worked out by hand from the spec. -/

section
set_option Elab.async false
open Sys2Proof Sys2Proof.Machine

/-! ### States to test on -/

/-- Registers set in a state. -/
def testRegs (s : State) (l : List (Nat × Nat)) : State := l.foldl (fun s e => wr s e.1 e.2) s

/-- A module in service with both ports up and the claim 0x101 held by the host of port A. -/
def testOn : State :=
  let s := testRegs State.reset [(K.sysState, 3), (K.claimCurLo, 0x101)]
  { s with tray := { s.tray with hs := .inService, rails := true }, claimKeys := [0x101, 0]
           ports := [{ up := true, perst := false }, { up := true, perst := false }] }

/-- Every waiting write of a state granted (R20). -/
def testGranted (s : State) : State := { s with gwq := s.gwq.map fun w => { w with granted := true } }

/-- Bytes from lengths and values, lowest byte first. -/
def testBytes (l : List (Nat × Nat)) : Bytes := l.flatMap fun e => toLE e.1 e.2

/-- A command record: the opcode, the claim 0x101 and a payload from byte 0x10. -/
def testCmd (src op : Nat) (l : List (Nat × Nat)) : Cmd :=
  { id := 1, src := src, body := (toLE 8 op ++ toLE 8 0x101 ++ testBytes l ++ List.replicate 48 0).take 64 }

/-- That record waiting to run in a state. -/
def testWaits (s : State) (src op : Nat) (l : List (Nat × Nat)) : State := { s with cmds := [testCmd src op l] }

/-- MF's record waiting in the module in service, and that state once the record has started. -/
def testMf (op : Nat) (l : List (Nat × Nat)) : State := testWaits testOn 0 op l
def testBegun (op : Nat) (l : List (Nat × Nat)) : State := markStarted (testMf op l) (testCmd 0 op l)

/-- MF's access to an offset of a page through port A, and its place. -/
def testAt (page off : Nat) : Access := ⟨0, 0, 0x1000 * page + off⟩
def testPlace (page off : Nat) : Place := ⟨page, off, 0x1000 * page + off⟩

/-- A work word from its fields' lowest bits and values. -/
def testWord (l : List (Nat × Nat)) : QWord :=
  { addr := 0, word := BitVec.ofNat 128 (l.map fun e => e.2 * 2 ^ e.1).sum, refused := none }

/-- Bay 3 running with a word at the head of its queue. -/
def testBay (l : List (Nat × Nat)) : State := setBay testOn 3 { st := .running, owner := 0, queue := [testWord l] }

/-- A composite descriptor for a 1 x 1 input and filter of FP32, and one for a one-row attention word (R153, R205). -/
def testConv : Bytes := testBytes [(4, 64), (4, 0), (4, 128), (4, 0), (4, 192), (22, 0), (2, 1), (2, 0), (2, 1), (2, 1), (2, 0), (4, 1),
  (2, 1), (2, 1), (2, 1), (2, 1), (1, 1), (1, 1), (1, 1), (1, 1), (1, 1), (1, 1), (20, 0), (2, 512), (2, 0x3FF), (2, 0x3FF), (32, 0)]
def testAtt : Bytes := testBytes [(4, 4), (124, 0)]

/-- Bay 3 at a composite word of a class and OP, its descriptor at granary address 64 and pool 0 enabled for MF. -/
def testComp (cls op : Nat) (d : Bytes) : State :=
  { testRegs (testBay [(0, cls), (4, op), (32, 1)]) [(K.kvGeo 0, 1), (K.kvCtrl 0, 0x10001)] with mem := msetMany memReset [] 64 d }
def testCompWord (cls op : Nat) : QWord := testWord [(0, cls), (4, op), (32, 1)]

/-- Whether starting a composite leaves one with rows to do. -/
def testStarts (r : Except Nat State) (total : Composite → Nat) : Bool :=
  match r with
  | .ok u => match (bay (boundIssued u 3) 3).comp with
    | some c => decide (c.next < total c)
    | none => false
  | .error _ => false

/-- A stream block of a decode stream: 64 x 64 pictures of 8 bits in four slots of the tensors from 0x10000 on (R267). -/
def testStream : Bytes := testBytes [(1, 0), (1, 0), (2, 64), (2, 64), (1, 8), (1, 4), (8, 0x10000), (8, 0x100000), (12, 0), (2, 0x3FF),
  (2, 0x3FF), (1, 0), (1, 1), (86, 0)]

/-- A picture, a context in a state with it in slot 0 and its unit parsed, and a core that runs it. -/
def testVidPic : VidPic :=
  { slot := 0, order := 0, pts := 0, deadline := 0, width := 64, height := 64, layout := 0, colour := 0, final := 64
    taps := [{ tap := 0, block := testBytes [(16, 0), (2, 0), (2, 0), (2, 64), (2, 64), (2, 8), (2, 8), (40, 0)] }] }
def testVid : VidCtx :=
  { st := 2, func := 0, block := testStream, slots := List.replicate 4 {}, size := (64, 64), pics := [testVidPic]
    units := [⟨0, true, 0, 0⟩], subs := [{ cmd := 1, addr := 0x20000, len := 100, pts := 0, deadline := 0, mark := false }] }
def testVidOn : State := setVcore (setVctx (testRegs testOn [(K.vidCoreEn, 0x3F)]) 5 testVid) 0 { ctx := some 5 }

/-- The state a command leaves (the state after reset where it does not answer one). -/
def testAfter (o : Host.Outcome State Fault Refusal) : State :=
  match o with
  | .next t => t
  | _ => State.reset

/-! ### Hypotheses of the statements that these states meet -/

/-- Reset meets the invariant, and the state of these tests does. -/
theorem test_meets_StepKeepsInvariant : Inv State.reset ∧ Inv testOn := by
  simp only [Machine.Inv]
  decide +kernel

theorem test_meets_FirstErrorIsKept :
    ((0x1020 : Nat) < 2 ^ 16 ∧ (15 : Nat) < 16 ∧ bit (rd testOn (K.blkErr pgSys)) 31 = false ∧ bit (rd (testRegs testOn [(K.blkErr pgSys, 2 ^ 31 + 2 ^ 16 + 5)]) (K.blkErr pgSys)) 31 = true) := by decide +kernel

theorem test_meets_GranaryFrame :
    (storesAtOnce (.load 3) = false ∧ storesAtOnce (.store 3 0) = false ∧ storesAtOnce (.granaryWriteAck 3 0) = true) := by decide +kernel

theorem test_meets_WorkingFrame :
    (leavesWork .capMet = true ∧ leavesWork (.load 3) = false) := by decide +kernel

theorem test_meets_FullLogOverwrites :
    ([⟨1, 1, false, [1]⟩, ⟨2, 5, true, [2]⟩] = [⟨1, 1, false, [1]⟩] ++ (⟨2, 5, true, [2]⟩ : FaultRec) :: [] ∧ (⟨2, 5, true, [2]⟩ : FaultRec) ∉ [(⟨1, 1, false, [1]⟩ : FaultRec)] ∧ keepRank ⟨2, 5, true, [2]⟩ < keepRank ⟨1, 1, false, [1]⟩) := by decide +kernel

theorem test_meets_StepRunsTheFrontCommand :
    (({ State.reset with pending := [.livenessTick, .capMet] } : State).pending = .livenessTick :: [.capMet]) ∧
    (State.reset.pending = []) := by decide +kernel

theorem test_meets_RegisterWriteByAccessType :
    (inTallyWindow (testAt pgSys 0x60) = false ∧ Reaches testOn (testAt pgSys 0x60) (testPlace pgSys 0x60) ∧ plainReg (testPlace pgSys 0x60) = true ∧ (findReg 1 0x60).isSome) ∧
    (Reaches testOn (testAt pgSys 0x18) (testPlace pgSys 0x18)) := by
  simp only [Reaches]
  decide +kernel

theorem test_meets_AccessErrorsRecorded :
    ((inTallyWindow (testAt pgSys 0x61) && serving testOn) = false) ∧
    ((inTallyWindow (testAt pgTally 0xC01) && serving testOn) = true) ∧
    ((testAt 0xF 0).func = 0 ∧ pageType ((testAt 0xF 0).off / 0x1000) = 0) := by decide +kernel

theorem test_meets_ReadReturnsAndLatches :
    (Reaches testOn (testAt pgSys 0x60) (testPlace pgSys 0x60) ∧ ¬((testPlace pgSys 0x60).page = pgTxn ∧ (testPlace pgSys 0x60).off = 0x400)) ∧
    ((wideValue testOn 0 (testPlace 0x40 0x60)).isSome ∧ Reaches testOn (testAt 0x40 0x60) (testPlace 0x40 0x60)) := by
  simp only [Reaches]
  decide +kernel

theorem test_meets_HeaderCommands :
    (Reaches testOn (testAt pgSys 0xC) (testPlace pgSys 0xC) ∧ mayUnlock testOn 0 = true) ∧
    (Reaches testOn (testAt pgSys 0x20) (testPlace pgSys 0x20) ∧ pageType pgSys ≠ 0x11) ∧
    (Reaches testOn (testAt (pgWain 0) 0x20) (testPlace (pgWain 0) 0x20) ∧ pageType (pgWain 0) = 0x11) ∧
    (Reaches testOn (testAt 0x40 0x10) (testPlace 0x40 0x10) ∧ acceptsSreset 0x40 = true) ∧
    (Reaches testOn (testAt pgSys 0x10) (testPlace pgSys 0x10) ∧ acceptsSreset pgSys = false) := by
  simp only [Reaches]
  decide +kernel

theorem test_meets_CommitMakesStagedValuesActive :
    (Reaches testOn (testAt 0x40 0x30) (testPlace 0x40 0x30) ∧ controlPage 0x40 = false ∧ commitCode testOn 0x40 (2 ^ 31) = 0) ∧
    (commitCode testOn 0x40 (2 ^ 31 + 5) ≠ 0) ∧
    (Reaches testOn (testAt pgTally 0x30) (testPlace pgTally 0x30) ∧ controlPage pgClaim = true ∧ claimCode testOn (claimKey testOn 0) = 0) ∧
    (claimCode testOn (claimKey testOn 1) ≠ 0) := by
  simp only [Reaches]
  decide +kernel

theorem test_meets_AcknowledgedWriteBecomesVisible :
    (∃ w, (gwrite testOn 3 64 [1, 2]).gwq.find? (fun w => w.unit == 3 && channelOf (64 * w.line) == channelOf 64) = some w ∧ (w.cells.map (·.1)).Nodup) := by decide +kernel

theorem test_meets_MeshArrivalsSaturate :
    (arriving { testOn with mesh := [⟨1, 3, 0, 2, 5, 0⟩] } 1 3 = some ⟨1, 3, 0, 2, 5, 0⟩ ∧ 3 < nBays) ∧
    (4095 < tok (bay (setBay testOn 3 { tokens := [(2, 4095)] }) 3) 2 + 1) ∧
    (arriving { testOn with mesh := [⟨1, 600, 0, 2, 5, 0⟩] } 1 600 = some ⟨1, 600, 0, 2, 5, 0⟩ ∧ ¬ 600 < nBays) ∧
    (arriving { testOn with mesh := [⟨1, 3, 1, 2, 5, 0⟩] } 1 3 = some ⟨1, 3, 1, 2, 5, 0⟩) ∧
    (∃ m, arriving { testOn with mesh := [⟨1, uTally, 2, 9, 5, 0⟩] } 1 uTally = some m ∧ m.kind = 2 ∧ ({ testOn with mesh := [⟨1, uTally, 2, 9, 5, 0⟩] } : State).mesh.find? (fun m => m.src == 1 && m.dst == uTally && m.kind == 2) = some m) := by decide +kernel

theorem test_meets_GranaryReadReturns :
    (0 < granEnd ∧ 575 < nBays ∧ nBays ≤ 576) := by decide +kernel

theorem test_meets_PtpDiscipline :
    (mgmtUp (testRegs testOn [(K.mgmtLink 1, 1), (K.mgmtPtp, 0x300)]) 1 = true ∧ ptpSource (testRegs testOn [(K.mgmtLink 1, 1), (K.mgmtPtp, 0x300)]) 1 = true ∧ testOn.everClaimed = false) ∧
    (ptpSource testOn 0 = false) := by decide +kernel

theorem test_meets_TxnListFetch :
    ((slot { testOn with slots := [(8, { st := .fetching, owner := 0, toFetch := 1 })] } 8).st = .fetching ∧ listReadable testOn { st := .fetching, owner := 0, toFetch := 1 } = true ∧ (slot { testOn with slots := [(8, { st := .fetching, owner := 0, toFetch := 1 })] } 8).fetchGran = false) ∧
    ((({} : Slot).fetchBuf ++ (sub (List.replicate 64 0) 0 64).drop 0).length < 96) ∧
    (recOk testOn 0 (List.replicate 96 0) = false) ∧
    (recOk testOn 0 (testBytes [(1, 2), (3, 0), (4, 1), (8, 0x40), (80, 0)]) = true) ∧
    (listReadable State.reset { fetchGran := false } = false) := by decide +kernel

theorem test_meets_BentTakesEffectOrChangesNothing :
    (firstArmed { testOn with slots := [(8, { st := .armed, owner := 0, claimAt := 0x101 })] } 8 = true) ∧
    (firstFail testOn { st := .armed, owner := 0, claimAt := 0x101 } = none ∧ wholeCode testOn { st := .armed, owner := 0, claimAt := 0x101 } = 0) ∧
    ((firstFail testOn { st := .armed, owner := 0, actions := [⟨2, false, 7, 1, 0x40, 0, 0, [1]⟩] }).isSome) := by decide +kernel

theorem test_meets_RetirementReturnsStorage :
    (∃ t, ({ testOn with stallFrom := some 0, clock := 10 ^ 12 } : State).stallFrom = some t ∧ t + usCycles (1000 * rf testOn K.txnRetireWarn 15 0) < 10 ^ 12) ∧
    (∃ t, ({ testOn with stallFrom := some 5 } : State).stallFrom = some t ∧ testOn.clock ≤ t + usCycles (1000 * rf testOn K.txnRetireWarn 15 0)) ∧
    (testOn.stallFrom = none) := by decide +kernel

theorem test_meets_VectorWordsCompute :
    (Issues (testBay [(0, 5), (32, 1)]) 3 (testWord [(0, 5), (32, 1)]) 5 0 ∧ ReadsClean (testBay [(0, 5), (32, 1)]) 3 (testWord [(0, 5), (32, 1)]) ∧ vFout (testWord [(0, 5), (32, 1)]).word.toNat ≤ 4 ∧ vFin (testWord [(0, 5), (32, 1)]).word.toNat ≠ 0xD ∧ vVop (testWord [(0, 5), (32, 1)]).word.toNat = 0x01) ∧
    (∀ op ∈ [0x02, 0x03, 0x04, 0x05, 0x06, 0x07, 0x08, 0x10, 0x11, 0x12, 0x13, 0x14, 0x15, 0x16, 0x17, 0x20, 0x21, 0x22, 0x23, 0x00], Issues (testBay [(0, 5), (32, op)]) 3 (testWord [(0, 5), (32, op)]) 5 0 ∧ vVop (testWord [(0, 5), (32, op)]).word.toNat = op) := by
  simp only [Issues, ReadsClean]
  decide +kernel

theorem test_meets_MoveWords :
    (Issues (testBay [(0, 1)]) 3 (testWord [(0, 1)]) 1 0 ∧ ((moveLines (testWord [(0, 1)]).word.toNat).all fun l => allocatable (64 * l) 64) = true ∧ (moveLines (testWord [(0, 1)]).word.toNat).any testOn.poison.contains = false) ∧
    (((moveLines (testWord [(0, 1), (32, 2 ^ 32 - 1)]).word.toNat).all fun l => allocatable (64 * l) 64) = false) ∧
    ((moveLines (testWord [(0, 1)]).word.toNat).any [0].contains = true) ∧
    (Issues (testBay [(0, 1), (4, 1)]) 3 (testWord [(0, 1), (4, 1)]) 1 1 ∧ ((zrcSlots (testWord [(0, 1), (4, 1)]).word.toNat).all fun a => allocatable a 64) = true ∧ (zrcSlots (testWord [(0, 1), (4, 1)]).word.toNat).any (fun a => poisonedIn testOn a 64) = false) ∧
    (Issues (testBay [(0, 2)]) 3 (testWord [(0, 2)]) 2 0 ∧ ReadsClean (testBay [(0, 2)]) 3 (testWord [(0, 2)])) ∧
    (Issues (testBay [(0, 2), (4, 1)]) 3 (testWord [(0, 2), (4, 1)]) 2 1 ∧ ReadsClean (testBay [(0, 2), (4, 1)]) 3 (testWord [(0, 2), (4, 1)])) := by
  simp only [Issues, ReadsClean]
  decide +kernel

theorem test_meets_ProductWords :
    (Issues (testBay [(0, 3)]) 3 (testWord [(0, 3)]) 3 0 ∧ ReadsClean (testBay [(0, 3)]) 3 (testWord [(0, 3)])) ∧
    (Issues (testBay [(0, 4)]) 3 (testWord [(0, 4)]) 4 0 ∧ ReadsClean (testBay [(0, 4)]) 3 (testWord [(0, 4)]) ∧ allocatable (64 * wnDesc (testWord [(0, 4)]).word.toNat) 64 = true) := by
  simp only [Issues, ReadsClean]
  decide +kernel

theorem test_meets_MeshAndControlWords :
    (Issues (testBay [(0, 6), (32, 1023)]) 3 (testWord [(0, 6), (32, 1023)]) 6 0 ∧ fld (testWord [(0, 6), (32, 1023)]).word.toNat 41 32 = 1023) ∧
    (Issues (testBay [(0, 6), (32, 5), (42, 7)]) 3 (testWord [(0, 6), (32, 5), (42, 7)]) 6 0 ∧ fld (testWord [(0, 6), (32, 5), (42, 7)]).word.toNat 41 32 ≠ 1023) ∧
    (Issues (testBay [(0, 6), (4, 1), (32, 5), (42, 7)]) 3 (testWord [(0, 6), (4, 1), (32, 5), (42, 7)]) 6 1) ∧
    (Issues (testBay [(0, 8)]) 3 (testWord [(0, 8)]) 8 0) ∧
    (Issues (testBay [(0, 7)]) 3 (testWord [(0, 7)]) 7 0) ∧
    (Issues (testBay [(0, 15), (48, 1)]) 3 (testWord [(0, 15), (48, 1)]) 15 0 ∧ bit (testWord [(0, 15), (48, 1)]).word.toNat 48 = true) := by
  simp only [Issues]
  decide +kernel

theorem test_meets_BayQueue :
    ((bay (testBay []) 3).st = .running ∧ (bay (testBay []) 3).prefetch.length + (fetchWords (testBay []) 3).length ≤ 512 ∧ (bay (testBay []) 3).fetch < granEnd) ∧
    ((bay (setBay testOn 3 { st := .running, queue := [⟨0, 0, some 5⟩] }) 3).queue = ⟨0, 0, some 5⟩ :: []) ∧
    (∃ i, (bay (setBay testOn 3 { st := .running, issued := [⟨.vec, 5, [], [], 0, [], 0, 0⟩] }) 3).issued.find? (fun i => i.eng == engineNo 3) = some i ∧ mayComplete testOn 3 {} i = true) ∧
    ((bay (setBay testOn 3 { st := .running, halting := true }) 3).comp = none ∧ (bay (setBay testOn 3 { st := .running, halting := true }) 3).issued = []) ∧
    ((bay (setBay testOn 3 { st := .running, halting := true, comp := some { cls := 10, op := 0, desc := 0, addr := 0, body := [] } }) 3).comp.isSome) := by decide +kernel

theorem test_meets_BayPageCommands :
    (Reaches testOn (testAt 0x100 0x10) (testPlace 0x100 0x10)) ∧
    (Reaches { testOn with unlocked := [(0x100, 0)] } (testAt 0x100 0x414) (testPlace 0x100 0x414) ∧ pageType 0x100 = 0x20 ∧ (bay testOn 0).off = false ∧ (bay testOn 0).st ≠ .running) ∧
    (Reaches { testOn with unlocked := [(0x100, 0)] } (testAt 0x100 0x418) (testPlace 0x100 0x418)) := by
  simp only [Reaches]
  decide +kernel

theorem test_meets_ScarfResumes :
    (∃ k, (bay (setBay testOn 3 { st := .running, comp := some { cls := 10, op := 0, desc := 0, addr := 0, body := [], waiting := true } }) 3).comp = some k ∧ k.waiting = true) := by decide +kernel

theorem test_meets_RampGrantsWithinAllowance :
    (({ testOn with ramp := { on := true } } : State).ramp.on = true ∧ (0 : Rat) ≤ testOn.ramp.aG ∧ 0 ≤ testOn.ramp.bG) ∧
    (testOn.ramp.on = false ∧ pressesIn testOn 1 = []) ∧
    (pressesIn (setBay testOn 3 { presses := [1, 0, 0, 0] }) 1 ≠ []) := by decide +kernel

theorem test_meets_CompositesRunRowByRow :
    (∀ op ∈ [0, 1, 2, 3], Issues (testComp 10 op testConv) 3 (testCompWord 10 op) 10 op ∧ (bay (testComp 10 op testConv) 3).comp = none ∧ convPre op (testComp 10 op testConv) 3 (testCompWord 10 op).word.toNat = 0 ∧ testStarts (convStart op (issueHead (testComp 10 op testConv) 3 (testCompWord 10 op)) 3 (testCompWord 10 op)) convWorks.total = true) ∧
    (∀ op ∈ [0, 1, 2, 3, 4], Issues (testComp 9 op testAtt) 3 (testCompWord 9 op) 9 op ∧ attPre op (testComp 9 op testAtt) 3 (testCompWord 9 op).word.toNat = 0 ∧ testStarts (attStart op (issueHead (testComp 9 op testAtt) 3 (testCompWord 9 op)) 3 (testCompWord 9 op)) (attWorks attendRow).total = true) ∧
    (convPre 0 (testComp 10 0 []) 3 (testCompWord 10 0).word.toNat ≠ 0 ∧ attPre 0 (testComp 9 0 (List.replicate 128 255)) 3 (testCompWord 9 0).word.toNat ≠ 0) ∧
    (∃ k, (bay (setBay testOn 3 { st := .running, comp := some { cls := 9, op := 0, desc := 1, addr := 0, body := testAtt, rows := [[]] } }) 3).comp = some k ∧ k.cls = 9 ∧ k.op = 0 ∧ k.waiting = false ∧ k.next < (attWorks attendRow).total k) := by
  simp only [Issues]
  decide +kernel

theorem test_meets_TxnPageCommands :
    (Reaches { testOn with unlocked := [(pgTxn, 0)] } (testAt pgTxn 0x400) (testPlace pgTxn 0x400) ∧ claimCode testOn (claimKey testOn 0) = 0 ∧ freeSlot testOn = some 8 ∧ slotsHeld testOn 0 < quota testOn 0) ∧
    (freeSlot { testOn with slots := (List.range 24).map fun i => (8 + i, { st := .opened }) } = none) ∧
    (Reaches { testOn with unlocked := [(pgTxn, 0)], slots := [(8, { st := .opened, owner := 0 })] } (testAt pgTxn 0x418) (testPlace pgTxn 0x418) ∧ (slot { testOn with slots := [(8, { st := .opened, owner := 0 })] } 8).owner = 0 ∧ rd (wr testOn (K.txnSel 0) 8) (K.txnSel 0) % 32 = 8) ∧
    (Reaches { testOn with unlocked := [(pgTxn, 0)] } (testAt pgTxn 0x41C) (testPlace pgTxn 0x41C)) ∧
    (listReadable testOn { st := .fetching, owner := 0 } = true) := by
  simp only [Reaches]
  decide +kernel

theorem test_meets_FunctionLifecycle :
    (Ready (testMf 0x80 [(1, 3)]) 0 0x80 (testCmd 0 0x80 [(1, 3)]) ∧ namedFunc (testCmd 0 0x80 [(1, 3)]) = some 3 ∧ funcState (testBegun 0x80 [(1, 3)]) 3 = 0 ∧ resourcesOk (applyResources (testBegun 0x80 [(1, 3)]) 3) 3 = true) ∧
    (funcState (testRegs testOn [(K.funcState 2, 2)]) 3 ≠ 0) ∧
    (Ready (testMf 0x81 [(1, 8)]) 0 0x81 (testCmd 0 0x81 [(1, 8)]) ∧ arg (testCmd 0 0x81 [(1, 8)]) 0x11 1 = 0 ∧ namedFunc (testCmd 0 0x81 [(1, 8)]) = some 8 ∧ funcState (testRegs testOn [(K.funcState 7, 2)]) 8 = 2) ∧
    (arg (testCmd 0 0x81 [(1, 1), (1, 1)]) 0x11 1 = 1 ∧ Ready (testMf 0x81 [(1, 1), (1, 1)]) 0 0x81 (testCmd 0 0x81 [(1, 1), (1, 1)]) ∧ funcState (testBegun 0x81 [(1, 1), (1, 1)]) 1 = 0) ∧
    (portUp testOn 1 = true ∧ funcState (relockFunc (dropCommands (disableRings (testRegs testOn [(K.funcState 0, 2)]) 1) 1 true) 1) 1 = 2) ∧
    (funcState (testRegs testOn [(K.funcState 0, 3)]) 1 = 3 ∧ Machine.drained (testRegs testOn [(K.funcState 0, 3)]) 1 = true) ∧
    (funcState (testRegs testOn [(K.funcState 0, 4)]) 1 = 4 ∧ stopped (testRegs testOn [(K.funcState 0, 4)]) 1 = true) := by
  simp only [Ready]
  decide +kernel

theorem test_meets_HeartbeatRequestsClaim :
    (Reaches testOn (testAt pgClaim 0x84) (testPlace pgClaim 0x84) ∧ Reaches testOn (testAt pgClaim 0xC4) (testPlace pgClaim 0xC4) ∧ Reaches testOn (testAt pgClaim 0x80) (testPlace pgClaim 0x80)) ∧
    (generation (2 ^ 16 + 1) ≠ 0 ∧ generation 1 = 0 ∧ idOk testOn 0 1 = true ∧ idOk (testRegs testOn [(K.claimHost 0, 0x102)]) 0 1 = false) ∧
    (mgmtUp (testRegs testOn [(K.mgmtLink 0, 1)]) 0 = true ∧ frameOk testOn 0 5 1 (testBytes [(1, 1), (1, 1), (6, 0), (8, 2 ^ 16 + 1), (24, 0)]) = true ∧ frameOk testOn 0 5 1 [] = false) ∧
    (claimA testOn = 0x101 ∧ settled { testOn with hosts := [{ liveSince := some 0 }, {}], clock := 10 ^ 12 } 0 = true ∧ settled testOn 0 = false) := by
  simp only [Reaches]
  decide +kernel

theorem test_meets_LivenessOfHosts :
    (testOn.tray.hs ≠ .unpowered ∧ State.reset.tray.hs = .unpowered) ∧
    (pathSilent testOn 0 0 = false ∧ pathSilent (testRegs testOn [(K.claimHost 0, 0x300)]) 0 0 = true ∧ pathSilent (testRegs testOn [(K.claimHost 0, 0x300)]) 0 1 = false) ∧
    ((pathLive (showSplit (wr64 (setPathLive (testRegs testOn [(K.claimHost 0, 0x300)]) 0 0 false) (reportKey 0 0) 0)) 0 0 || pathLive (showSplit (wr64 (setPathLive (testRegs testOn [(K.claimHost 0, 0x300)]) 0 0 false) (reportKey 0 0) 0)) 0 1) = false) := by decide +kernel

theorem test_meets_ManagementFrames :
    (mgmtUp (testRegs testOn [(K.mgmtLink 0, 1)]) 0 = true ∧ frameOk testOn 0 5 3 (testBytes [(1, 1), (1, 3), (2, 64), (4, 0), (96, 0)]) = true) ∧
    (requestCode testOn 0x100 (testCmd 0x100 0x90 [(2, 300)]).body = 0 ∧ requestCode testOn 0x100 (testCmd 0x100 0x40 []).body ≠ 0) ∧
    (Reaches testOn (testAt pgMgmt 0x48) (testPlace pgMgmt 0x48) ∧ claimCode testOn (claimKey testOn 0) = 0 ∧ claimCode testOn (claimKey testOn 1) ≠ 0) := by
  simp only [Reaches]
  decide +kernel

theorem test_meets_PartitionsAndFencing :
    (Ready (testMf 0xB8 [(1, 5), (1, 0), (1, 1)]) 0 0xB8 (testCmd 0 0xB8 [(1, 5), (1, 0), (1, 1)]) ∧ arg (testCmd 0 0xB8 [(1, 5), (1, 0), (1, 1)]) 0x12 1 ≤ 1) ∧
    (Ready (testMf 0xB0 [(8, 64)]) 0 0xB0 (testCmd 0 0xB0 [(8, 64)]) ∧ allocatable 64 0x350 = true ∧ partRecordOk (gread (testBegun 0xB0 [(8, 64)]) 64 0x350) = false ∧ fenceState (testBegun 0xB0 [(8, 64)]) = 0 ∧ partOf (testBegun 0xB0 [(8, 64)]) = 0) ∧
    (Ready (testMf 0xB1 []) 0 0xB1 (testCmd 0 0xB1 []) ∧ fenceState (testBegun 0xB1 []) = 0 ∧ (List.range 256).any (fun t => tMode (testBegun 0xB1 []) t == 2) = false ∧ [1, 2, 3].contains (shadowSt (testBegun 0xB1 [])) = false) ∧
    (Ready (testMf 0xB2 [(8, 64)]) 0 0xB2 (testCmd 0 0xB2 [(8, 64)]) ∧ allocatable (arg (testCmd 0 0xB2 [(8, 64)]) 0x10 8) 0x40 = true) ∧
    (certCode testOn [] ≠ 0 ∧ ({ testMf 0xB2 [] with certs := [⟨[], 1⟩] } : State).cmds.any (·.id == 1) = true) ∧
    (fenceState (testRegs testOn [(K.fenceState, 1)]) = 1 ∧ fencedDone (testRegs testOn [(K.fenceState, 1)]) = true) := by
  simp only [Ready]
  decide +kernel

theorem test_meets_HostMemoryWindow :
    (portUp testOn 0 = true ∧ serving testOn = true ∧ serving State.reset = false ∧ portUp { State.reset with ports := testOn.ports } 0 = true) ∧
    (fenceRefuses testOn 0 5 = false ∧ bar2Addr testOn 0 0 (2 ^ 38) 4 = none ∧ bar2Addr testOn 0 0 64 4 = some 64) ∧
    (poisonedIn testOn 64 4 = false ∧ poisonedIn { testOn with poison := [1] } 64 4 = true ∧ fenceRefuses (testRegs testOn [(K.fenceState, 2)]) 0 5 = true) := by decide +kernel

theorem test_meets_ShadowJoining :
    (Ready (testWaits (testRegs testOn [(K.fenceState, 2 ^ 16)]) 0 0xB3 [(1, 0)]) 0 0xB3 (testCmd 0 0xB3 [(1, 0)]) ∧ shadowOk (testRegs testOn [(K.fenceState, 2 ^ 16)]) 0 true true = true) ∧
    (Ready (testWaits (testRegs testOn [(K.fenceState, 2 ^ 16)]) 0 0xB4 [(16, 0), (8, 4096)]) 0 0xB4 (testCmd 0 0xB4 [(16, 0), (8, 4096)]) ∧ shadowOk (testRegs testOn [(K.fenceState, 2 ^ 16)]) 0 true false = true ∧ allocatable 4096 mirrorSize = true) ∧
    (Ready (testWaits (testRegs testOn [(K.shadowState, 1)]) 0 0xB5 []) 0 0xB5 (testCmd 0 0xB5 []) ∧ [1, 2, 3].contains (shadowSt (testRegs testOn [(K.shadowState, 1)])) = true ∧ testOn.shadow.func = 0 ∧ testOn.shadow.endCmd = none) ∧
    (shadowSt (testRegs testOn [(K.shadowState, 2)]) = 2 ∧ num (ringRead { testRegs testOn [(K.shadowState, 2)] with mem := msetMany memReset [] 0 [1] } 0 32) 0 1 = 1 ∧ testOn.joinWait = false) ∧
    (fenceState testOn = 0 ∧ ({ testOn with clock := 10 ^ 12 } : State).shadow.heard + usCycles 1000000 ≤ 10 ^ 12 ∧ testOn.clock < testOn.shadow.heard + usCycles 1000000) := by
  simp only [Ready]
  decide +kernel

theorem test_meets_TallyFires :
    (∃ pl, place testOn (testAt pgTally 0x6C) = some pl ∧ pl.page = pgTally ∧ pl.off = 0x6C ∧ expertLocked testOn pl 0 = false) ∧
    (mayFire (testRegs testOn [(K.tallyMode 7, 1), (K.tallyTarget 7, 3), (K.tallyCount 7, 3)]) 7 = true ∧ mayFire (testRegs testOn [(K.tallyMode 7, 1), (K.tallyTarget 7, 3), (K.tallyCount 7, 2)]) 7 = false ∧ serving testOn = true) ∧
    (tMode (testRegs testOn [(K.tallyMode 255, 2)]) 255 = 2 ∧ tRoot (testRegs testOn [(K.tallyMode 255, 2)]) 255 = false) ∧
    (rf (testRegs testOn [(K.tallyStallMs, 1)]) K.tallyStallMs 15 0 ≠ 0 ∧ (sinceOf { testOn with tallySince := [(7, (5, false))] } 7).1 ≠ 0 ∧ (sinceOf { testOn with tallySince := [(7, (5, false))] } 7).2 = false) := by decide +kernel

theorem test_meets_TallyMessages :
    (fenceRefuses (testRegs testOn [(K.fenceState, 2)]) 0 5 = true ∧ msgOk testOn [] = false ∧ portUp testOn 0 = true ∧ serving testOn = true) ∧
    (msgOk (testRegs testOn [(K.fenceState, 2 ^ 16), (K.tallyMode 7, 2)]) (testBytes [(1, 1), (1, 7), (6, 3), (2, 1), (54, 0)]) = true ∧ msgOk (testRegs testOn [(K.fenceState, 2 ^ 16), (K.tallyMode 7, 2)]) (testBytes [(1, 2), (1, 7), (6, 0), (2, 1), (54, 0)]) = true ∧ msgOk (testRegs testOn [(K.fenceState, 2 ^ 16), (K.tallyMode 7, 2)]) (testBytes [(1, 3), (1, 7), (6, 0), (2, 1), (54, 0)]) = true) ∧
    (msgOk (testRegs testOn [(K.fenceState, 2 ^ 16), (K.shadowState, 1)]) (testBytes [(1, 4), (7, 0), (2, 1), (54, 0)]) = true) ∧
    (fenceRefuses (testRegs testOn [(K.fenceState, 2 ^ 16), (K.fenceRid 0, 0x30005), (K.fenceRid 1, 0x80030005)]) 0 5 = false) ∧
    (Ready (testMf 0xB6 [(1, 7), (1, 1), (14, 0), (8, 9)]) 0 0xB6 (testCmd 0 0xB6 [(1, 7), (1, 1), (14, 0), (8, 9)]) ∧ rd64 (testBegun 0xB6 []) K.srvStepLo ≤ arg (testCmd 0 0xB6 [(1, 7), (1, 1), (14, 0), (8, 9)]) 0x20 8) ∧
    (Ready (testMf 0xB7 [(1, 7)]) 0 0xB7 (testCmd 0 0xB7 [(1, 7)])) := by
  simp only [Ready]
  decide +kernel

theorem test_meets_PowerPools :
    (Ready (testMf 0x91 [(4, 2000), (1, 1), (1, 2), (1, 7)]) 0 0x91 (testCmd 0 0x91 [(4, 2000), (1, 1), (1, 2), (1, 7)]) ∧ arg (testCmd 0 0x91 [(4, 2000), (1, 1), (1, 2), (1, 7)]) 0x10 4 = 2000 ∧ tOwner (testBegun 0x91 [(4, 2000), (1, 1), (1, 2), (1, 7)]) 7 = 0) ∧
    (inPool (testRegs testOn [(K.pwrState, 16)]) = true ∧ testOn.power.poolBoundary ≠ some (poolPeriod testOn) ∧ bit (rd (testRegs testOn [(K.pwrState, 16)]) K.pwrState) 5 = false) ∧
    (({} : Power).poolRecs.length < poolMembers testOn ∧ ({ poolRise := some (300, 5) } : Power).poolRise = some (300, 5)) := by
  simp only [Ready]
  decide +kernel

theorem test_meets_RingsAndDoorbells :
    (ringAccess testOn (testAt pgMsg 0x108) = some (0, 0x108) ∧ ringAccess testOn (testAt pgMsg 0x1F8) = some (0, 0x108 + 16 * 15) ∧ bit (rd testOn (K.sqCfg 0 15)) 16 = false ∧ fld (2 ^ 16 + 4) 3 0 = 4) ∧
    (bit (rd (testRegs testOn [(K.sqCfg 0 0, 2 ^ 16 + 4)]) (K.sqCfg 0 0)) 16 = true ∧ Nat.land (rd (testRegs testOn [(K.sqCfg 0 0, 2 ^ 16 + 4)]) (K.sqCfg 0 0)) 0xF0F ≠ Nat.land (2 ^ 16 + 5) 0xF0F) ∧
    (ringAccess testOn (testAt pgMsg 0x208) = some (0, 0x208) ∧ bit (rd testOn (K.eqCfg 0 0)) 24 = false ∧ bit (rd (testRegs testOn [(K.eqCfg 0 0, 2 ^ 24 + 6)]) (K.eqCfg 0 0)) 24 = true) ∧
    (doorbellAt testOn (testAt pgMsg 0x300) 0x300 0x1000 = some (0, 0x300) ∧ doorbellAt testOn (testAt pgMsg 0x33C) 0x300 0x1000 = some (15, 0x33C) ∧ doorbellCode testOn 0 = 0 ∧ sqEnabled (testRegs testOn [(K.sqCfg 0 0, 2 ^ 16 + 4)]) 0 0 = true ∧ 15 < sqSize (testRegs testOn [(K.sqCfg 0 0, 2 ^ 16 + 4)]) 0 0 ∧ sqSize (testRegs testOn [(K.sqCfg 0 0, 2 ^ 16 + 4)]) 0 0 ≤ 16) ∧
    (sqEnabled testOn 0 0 = false ∧ doorbellCode (testRegs testOn [(K.fenceState, 2)]) 0 ≠ 0) ∧
    (doorbellAt testOn (testAt pgMsg 0x340) 0x340 0x2000 = some (0, 0x340) ∧ eqEnabled (testRegs testOn [(K.eqCfg 0 0, 2 ^ 24 + 6)]) 0 0 = true ∧ 63 < eqSize (testRegs testOn [(K.eqCfg 0 0, 2 ^ 24 + 6)]) 0 0) := by decide +kernel

theorem test_meets_CommandRecordsAreFetched :
    (mayFetch { testRegs testOn [(K.sqCfg 0 0, 2 ^ 16 + 4), (K.eqCfg 0 0, 2 ^ 24 + 6)] with sqs := [(0, { tail := 1 })] } 0 0 = true ∧ choosePort testOn 0 = some 0 ∧ mayFetch testOn 0 0 = false) ∧
    (fetchCode 0 (testCmd 0 0x90 [(2, 300)]).body = 0 ∧ fetchCode 0 (testCmd 0 0xFF []).body ≠ 0) ∧
    (Ready (testMf 0x00 []) 0 0x00 (testCmd 0 0x00 [])) := by
  simp only [Ready]
  decide +kernel

theorem test_meets_LinksAndVectors :
    ((port testOn 0).up = true ∧ (port { testOn with clock := 10 ^ 12 } 0).since + usCycles 80000 ≤ 10 ^ 12 ∧ testOn.clock < (port testOn 0).since + usCycles 80000) ∧
    ((port State.reset 0).up = false ∧ (port State.reset 0).narrow = false) ∧
    (Reaches testOn (testAt (pgPort 1) 0x44) (testPlace (pgPort 1) 0x44) ∧ portUp (storeReg testOn (testPlace (pgPort 1) 0x44).key 1) 1 = true) ∧
    (msixMasked (testRegs testOn []) 0 0 3 = true ∧ msixMasked { testOn with msixTab := [(msixKey 0 0 0x3C, 0)], ports := testOn.ports } 0 0 3 = msixMasked { testOn with msixTab := [(msixKey 0 0 0x3C, 0)] } 0 0 3) := by
  simp only [Reaches]
  decide +kernel

theorem test_meets_StartUpStages :
    (({ State.reset with tray := { hs := .standby } } : State).tray.booted = false ∧ State.reset.tray.hs = .unpowered) ∧
    (∀ n ∈ [1, 2, 3, 4, 5], inStage { State.reset with tray := { hs := .starting, stage := n } } n = true) ∧
    (booting { State.reset with tray := { hs := .starting, stage := 3 } } = true ∧ booting testOn = false ∧ inStage testOn 4 = false) ∧
    (36 < (((List.range 37).filter (decide <| · < nBays)).dedup).length ∧ ((([] : List Nat).filter (decide <| · < nBays)).dedup).length ≤ 36 ∧ fieldList.any (fun f => decide (8 < ((List.range 9).filter (fieldOf · == f)).length)) = true) ∧
    (linksBegun (testRegs State.reset [(K.sysState, 2)]) = true ∧ portUp State.reset 0 = false ∧ portUp (linkUp (testRegs State.reset [(K.sysState, 2)]) 0 0x1004) 0 = true ∧ portUp (linkUp (testRegs State.reset [(K.sysState, 2)]) 0 0x0404) 0 = false) ∧
    (({ hs := .fault, faults := 1, faultFrom := some 0 } : Tray).faultFrom = some 0 ∧ usCycles 10000000 ≤ 10 ^ 12) := by decide +kernel

theorem test_meets_ModuleResets :
    (Ready (testMf 0x9C [(1, 0)]) 0 0x9C (testCmd 0 0x9C [(1, 0)]) ∧ arg (testCmd 0 0x9C [(1, 0)]) 0x10 1 = 0) ∧
    (Ready (testMf 0x9C [(1, 1)]) 0 0x9C (testCmd 0 0x9C [(1, 1)]) ∧ arg (testCmd 0 0x9C [(1, 1)]) 0x10 1 = 1) ∧
    (Ready (testMf 0x9C [(1, 2)]) 0 0x9C (testCmd 0 0x9C [(1, 2)]) ∧ 1 < arg (testCmd 0 0x9C [(1, 2)]) 0x10 1) ∧
    (({ testOn.tray with reset := some (1, 0), warm := some 2 } : Tray).reset = some (1, 0) ∧ usCycles 10000 ≤ 10 ^ 12 ∧ testOn.flash.calSaving = false ∧ testOn.tray.rails = true ∧ testOn.tray.hs = .inService) ∧
    (thermalCause testOn = none ∧ (thermalCause { testOn with power := { testOn.power with hotTwice := true, fields := [{ hot := 2 }] } }).isSome = true ∧ [1120, -5].all (fun x : Int => decide (x ≤ 1120)) = true) ∧
    (testOn.power.opFrom + usCycles 10000000 ≤ 10 ^ 12 ∧ testOn.clock < testOn.power.opFrom + usCycles 10000000) := by
  simp only [Ready]
  decide +kernel

theorem test_meets_TrayHotSwap :
    (testOn.tray.hs = .inService ∧ trayDrained testOn = true ∧ trayDrained (testMf 0x98 []) = false) ∧
    (Ready (testMf 0x98 [(2, 1)]) 0 0x98 (testCmd 0 0x98 [(2, 1)]) ∧ Ready (testMf 0x98 [(2, 600)]) 0 0x98 (testCmd 0 0x98 [(2, 600)]) ∧ Ready (testMf 0x98 [(2, 601)]) 0 0x98 (testCmd 0 0x98 [(2, 601)])) ∧
    (Ready (testMf 0x99 []) 0 0x99 (testCmd 0 0x99 []) ∧ (testBegun 0x99 []).tray.hs = .inService) ∧
    (Ready (testWaits { testOn with tray := { hs := .draining } } 0 0x9A []) 0 0x9A (testCmd 0 0x9A [])) ∧
    (({ hs := .drained, wasClosed := true } : Tray).openFrom + usCycles 2000000 ≤ 10 ^ 12 ∧ ({ hs := .standby, booted := true } : Tray).lastUnclean = none ∧ ({ hs := .draining } : Tray).drainBy ≤ 0) := by
  simp only [Ready]
  decide +kernel

theorem test_meets_InputMonitorAndLeds :
    (seated testOn = true ∧ testOn.tray.rails = true ∧ testOn.tray.hs ≠ .unpowered ∧ testOn.tray.drivers.getD 1 none = none) ∧
    (({ inputFaultDue := true, hs := .standby } : Tray).inputFaultDue = true ∧ usCycles 1000000 ≤ 10 ^ 12 ∧ ({ drivers := [some 5, none] } : Tray).drivers.getD 0 none = some 5) := by decide +kernel

theorem test_meets_FaultLogCommands :
    (Ready (testMf 0x9D [(4, 7), (4, 1)]) 0 0x9D (testCmd 0 0x9D [(4, 7), (4, 1)]) ∧ arg (testCmd 0 0x9D [(4, 7), (4, 1)]) 0x14 4 % 16 ≠ 0) ∧
    (Ready (testMf 0x9D [(4, 7)]) 0 0x9D (testCmd 0 0x9D [(4, 7)]) ∧ namedRecord (testBegun 0x9D [(4, 7)]) 7 = none) ∧
    (namedRecord { testOn with faultLog := [⟨7, 1, false, [1, 2]⟩] } 7 = some ⟨7, 1, false, [1, 2]⟩ ∧ namedRecord { testOn with faultLog := [⟨7, 1, false, [1, 2]⟩] } 0xFFFFFFFF = some ⟨7, 1, false, [1, 2]⟩) ∧
    (Ready (testMf 0x9E [(4, 7)]) 0 0x9E (testCmd 0 0x9E [(4, 7)])) := by
  simp only [Ready]
  decide +kernel

theorem test_meets_PowerControlLoops :
    (Ready (testMf 0x90 [(2, 300)]) 0 0x90 (testCmd 0 0x90 [(2, 300)]) ∧ rf (testBegun 0x90 [(2, 300)]) K.pwrBounds 9 0 ≤ 300 ∧ 300 ≤ rf (testBegun 0x90 [(2, 300)]) K.pwrBounds 25 16 ∧ 900 < 901 ∧ rf testOn K.pwrBounds 25 16 ≤ 900) ∧
    (testOn.power.brake ≠ 1 ∧ testOn.power.ti < controlled { testOn with power := { testOn.power with est := 9001 } } ∧ controlled testOn + 0 ≤ testOn.power.ti) ∧
    (capLag (testRegs testOn [(K.pwrState, 2)]) = true ∧ capLag testOn = false) ∧
    (implausible testOn 2999 1000 300 false = true ∧ implausible (noteCode testOn 1) 4800 1000 480 false = false ∧ sensorFault testOn = false) ∧
    (sensorFault (testRegs testOn [(K.pwrState, 8)]) = true ∧ mismatch testOn = false ∧ mismatch (testRegs testOn [(K.pwrState, 4)]) = true) ∧
    (3 * Max.max 100 80 < 20 * (Max.max 100 80 - Min.min 100 80) ∧ 20 * (Max.max 100 85 - Min.min 100 85) ≤ 3 * Max.max 100 85) ∧
    (Reaches { testOn with unlocked := [(pgPwr, 0)] } (testAt pgPwr (K.pwrLearnCtrl % 0x1000)) (testPlace pgPwr (K.pwrLearnCtrl % 0x1000)) ∧ (testPlace pgPwr (K.pwrLearnCtrl % 0x1000)).key = K.pwrLearnCtrl) := by
  simp only [Ready, Reaches]
  decide +kernel

theorem test_meets_ClocksDroopAndBrake :
    ((fctl { testOn with power := { testOn.power with fields := [{ phase := 2 }] } } 0).phase = 2 ∧ (fctl testOn 7).phase ≠ 2 ∧ (fctl { testOn with power := { testOn.power with fields := [{ droop := true }] } } 0).droop = true) ∧
    (braking testOn = false ∧ braking (testRegs testOn [(K.pwrState, 1)]) = true ∧ testOn.power.brake ≠ 3 ∧ testOn.power.brakeFrom + 1950 ≤ 1950 ∧ testOn.clock < testOn.power.brakeFrom + 1950) := by decide +kernel

theorem test_meets_ThermalSampling :
    ((fctl { testOn with power := { testOn.power with fields := [{ jceil := some 40, coolMs := 9 }] } } 0).jceil = some 40 ∧ 1600 ≤ sgn 16 (rf (testRegs testOn [(K.thmTj 0, 1600)]) (K.thmTj 0) 15 0) ∧ sgn 16 (rf (testRegs testOn [(K.thmTj 0, 1552)]) (K.thmTj 0) 15 0) ≤ 1552 ∧ (fctl testOn 0).jceil = none) ∧
    (bit (rd testOn K.thmLeak) 1 = false ∧ bit (rd testOn K.thmLeak) 2 = false ∧ usCycles 1000000 ≤ 10 ^ 12 ∧ testOn.power.flowPosted = false) ∧
    (Reaches testOn (testAt pgThm (K.thmLeakClr % 0x1000)) (testPlace pgThm (K.thmLeakClr % 0x1000)) ∧ (testPlace pgThm (K.thmLeakClr % 0x1000)).key = K.thmLeakClr ∧ bit (rd testOn K.thmLeak) 0 = false) := by
  simp only [Reaches]
  decide +kernel

theorem test_meets_WainChannels :
    (Reaches testOn (testAt (pgWain 31) 0x4C) (testPlace (pgWain 31) 0x4C) ∧ Reaches testOn (testAt (pgWain 0) 0x48) (testPlace (pgWain 0) 0x48) ∧ Reaches testOn (testAt (pgWain 0) 0x50) (testPlace (pgWain 0) 0x50) ∧ Reaches testOn (testAt (pgWain 0) 0x70) (testPlace (pgWain 0) 0x70) ∧ fenceState testOn = 0 ∧ fenceState (testRegs testOn [(K.fenceState, 2)]) ≠ 0) ∧
    (wainSt (testRegs testOn [(K.wainState 0, 2)]) 0 = 2 ∧ wainSt (testRegs testOn [(K.wainState 0, 3)]) 0 = 3 ∧ 64 ≤ (List.replicate 64 ({ addr := 0, gran := false } : Chain)).length) ∧
    ((wain { testRegs testOn [(K.wainState 0, 1)] with wains := [(0, { next := some { addr := 64, gran := false } })] } 0).next = some { addr := 64, gran := false } ∧ wainSt (testRegs testOn [(K.wainState 0, 1)]) 0 = 1) ∧
    (descCode testOn 0 (testBytes [(64, 0)]) false ≠ 0 ∧ (wain testOn 0).next = none ∧ (wain testOn 0).desc = none) ∧
    (∃ d, (wain { testOn with wains := [(0, { desc := some { addr := 64, gran := false, body := testBytes [(64, 0)], port := 0, firmware := false } })] } 0).desc = some d ∧ d.waitCq = false ∧ allMoved d = true ∧ writing testOn (uWain 0) = false ∧ dDurable d.body = false) ∧
    (∃ d, (some ({ addr := 64, gran := false, body := testBytes [(8, 0), (8, 0), (8, 8192), (40, 0)], port := 0, firmware := false } : RunDesc)) = some d ∧ d.bursts.contains 0 = false ∧ dIndexed d.body = false ∧ dCrypt d.body = false) := by
  simp only [Reaches]
  decide +kernel

theorem test_meets_FirmwareAndDeviceKeys :
    (Ready (testMf 0xA0 [(8, 4096), (8, 64)]) 0 0xA0 (testCmd 0 0xA0 [(8, 4096), (8, 64)]) ∧ (testBegun 0xA0 [(8, 4096), (8, 64)]).sec.fwWrite = none ∧ allocatable 4096 64 = true ∧ (testBegun 0xA0 [(8, 4096), (8, 64)]).tray.image ≠ inactive (testBegun 0xA0 [(8, 4096), (8, 64)])) ∧
    (({ testOn.sec with fwWrite := some (1, 4096, 64) } : Security).fwWrite ≠ none ∧ fuses testOn ≤ 0 ∧ poisonedIn testOn 4096 64 = false) ∧
    (Ready (testMf 0xA1 []) 0 0xA1 (testCmd 0 0xA1 []) ∧ bit (rd (testBegun 0xA1 []) K.secState) (3 + inactive (testBegun 0xA1 [])) = true ∧ Ready (testWaits (testRegs testOn [(K.secState, 0)]) 0 0xA1 []) 0 0xA1 (testCmd 0 0xA1 []) ∧ bit (rd (testRegs testOn [(K.secState, 0)]) K.secState) (3 + inactive (testRegs testOn [(K.secState, 0)])) = false) ∧
    (Ready (testMf 0xA2 []) 0 0xA2 (testCmd 0 0xA2 []) ∧ bit (rd (testBegun 0xA2 []) K.secState) 2 = false ∧ Max.max (fuses testOn) (svnOf testOn testOn.tray.image) ≤ svnOf testOn (1 - testOn.tray.image)) := by
  simp only [Ready]
  decide +kernel

theorem test_meets_FirmwareAndDeviceKeys_sets :
    (Ready (testMf 0xA3 [(8, 64)]) 0 0xA3 (testCmd 0 0xA3 [(8, 64)]) ∧ Ready (testMf 0xA5 [(8, 64)]) 0 0xA5 (testCmd 0 0xA5 [(8, 64)]) ∧ allocatable 64 192 = true ∧ setStore testOn 7 = some 0) ∧
    (Ready (testMf 0xA4 [(8, 7)]) 0 0xA4 (testCmd 0 0xA4 [(8, 7)]) ∧ ((List.range 16).find? fun n => (([some (7, [])] : List (Option (Nat × Bytes))).getD n none).map (·.1) == some 7) = some 0) ∧
    (Ready (testMf 0xA6 [(8, 64)]) 0 0xA6 (testCmd 0 0xA6 [(8, 64)]) ∧ tokenOk (testRegs (testBegun 0xA6 [(8, 64)]) [(K.sysSerialLo, 5)]) (gread testOn 64 137) = false) := by
  simp only [Ready]
  decide +kernel

theorem test_meets_BundlesAndJobs :
    (Ready (testMf 0x20 [(1, 3), (7, 0), (8, 0x10000), (8, 1024), (8, 0x20000)]) 0 0x20 (testCmd 0 0x20 [(1, 3), (7, 0), (8, 0x10000), (8, 1024), (8, 0x20000)]) ∧ loadTurn (testMf 0x20 [(1, 3), (7, 0), (8, 0x10000), (8, 1024), (8, 0x20000)]) 0 = true ∧ loadTurn testOn 0 = false ∧ allocatable 0x10000 512 = true ∧ cmdFunc (testCmd 0 0x20 []) = 0) ∧
    (∃ j : LoadJob, (some (⟨1, 0, 3, 0x10000, 0x20000, [], none⟩ : LoadJob)) = some j ∧ (testMf 0x20 []).cmds.any (·.id == j.cmd) = true ∧ poisonedIn testOn j.src (imageLen j.header) = false) ∧
    (Ready (testMf 0x21 [(1, 3)]) 0 0x21 (testCmd 0 0x21 [(1, 3)]) ∧ bundleBusy (testBegun 0x21 [(1, 3)]) (testCmd 0 0x21 [(1, 3)]) 0 3 = false ∧ (bundle? { testOn with sec := { testOn.sec with bundles := [(3, ⟨0x20000, 64, [], ⟨0, 0, 0, 0, 0, false, 0, [⟨[(4, 64)], 0, []⟩], [], []⟩⟩)] } } 0 3).isSome = true ∧ bundleBusy { testBegun 0x21 [(1, 3)] with seqs := [(0, { st := 1, func := 0, bundle := 3 })] } (testCmd 0 0x21 [(1, 3)]) 0 3 = true) ∧
    (Ready (testMf 0x22 [(1, 3)]) 0 0x22 (testCmd 0 0x22 [(1, 3)]) ∧ ownsRange (testBegun 0x22 [(1, 3)]) 0 0 0 = true ∧ ((bundle? testOn 0 3).bind fun b => b.info.entries[0]?) = none) ∧
    ((bay (setBay testOn 4 { owner := 0 }) 4).owner = 0 ∧ (bay (setBay testOn 4 { owner := 0 }) 4).st ≠ .running) ∧
    (({ testOn with orphans := [(64, 64)] } : State).orphans = (64, 64) :: [] ∧ (tenant { testOn with tenants := [(8, { scrub := [(64, 64)] })] } 8).scrub ≠ []) := by
  simp only [Ready]
  decide +kernel

theorem test_meets_SpdmMailbox :
    (mailbox testOn 0 = true ∧ mailbox testOn 1 = true ∧ spdmStage testOn 0 = 0) ∧
    (3 ≤ spdmStage { testOn with sec := { testOn.sec with spdm := [3, 0] } } 0) ∧
    (∃ x, session? { testOn with sec := { testOn.sec with spdm := [3, 0], sessions := [{ id := 9, port := 0, established := true, wantsMutual := true, func := some 2 }] } } 0 9 = some x ∧ x.established = true ∧ x.func = some 2) ∧
    (funcState (testRegs testOn [(K.funcState 1, 2)]) 2 ≠ 0 ∧ ((List.replicate 4 ({ id := 9, port := 0, established := true, wantsMutual := true } : Session)).filter (·.port == 0)).length = 4) := by decide +kernel

theorem test_meets_SequenceCommands :
    (Ready (testMf 0x40 [(8, 64), (4, 7), (1, 3)]) 0 0x40 (testCmd 0 0x40 [(8, 64), (4, 7), (1, 3)]) ∧ freeEntry (testBegun 0x40 [(8, 64), (4, 7), (1, 3)]) = some 0 ∧ arg (testCmd 0 0x40 [(8, 64), (4, 7), (1, 3)]) 0x1C 1 = 3 ∧ requestOk (testBegun 0x40 [(8, 64), (4, 7), (1, 3)]) 0 64 ⟨0, 0, 0, 0, 0, false, 0, [], [], []⟩ = false) ∧
    (Ready (testMf 0x41 [(8, 64), (4, 7), (4, 0), (4, 5)]) 0 0x41 (testCmd 0 0x41 [(8, 64), (4, 7), (4, 0), (4, 5)]) ∧ (named { testOn with seqs := [(0, { st := 3, func := 0 })] } 0 (handleOf 0 { st := 3, func := 0 })).isSome = true) ∧
    (Ready (testMf 0x42 [(4, 0)]) 0 0x42 (testCmd 0 0x42 [(4, 0)]) ∧ Ready (testMf 0x43 [(4, 0)]) 0 0x43 (testCmd 0 0x43 [(4, 0)]) ∧ named (testBegun 0x42 [(4, 0)]) 0 9 = none) ∧
    (seqLives { st := 6 } = true ∧ seqLives { st := 7 } = false ∧ seqWorks { st := 4 } = true ∧ reqMasked { req := List.replicate 96 255 } = true) ∧
    (Ready (testMf 0x44 [(8, 0x10000), (1, 16), (1, 0)]) 0 0x44 (testCmd 0 0x44 [(8, 0x10000), (1, 16), (1, 0)]) ∧ seqHeld (testBegun 0x44 [(8, 0x10000), (1, 16), (1, 0)]) 0 = false ∧ seqHeld { testOn with seqs := [(0, { st := 1, func := 0 })] } 0 = true) ∧
    (Reaches testOn (testAt pgSrv 0x10) (testPlace pgSrv 0x10)) := by
  simp only [Ready, Reaches]
  decide +kernel

theorem test_meets_StepsAndSwap :
    (mayBound testOn = true ∧ mayBound State.reset = false ∧ stepEnded { testOn with srv := { running := true } } = true ∧ stepDue { testOn with seqs := [(0, { st := 2 })] } = true ∧ emptyDue { testOn with seqs := [(0, { st := 1 })] } = true) ∧
    (stepEnded testOn = false ∧ stepDue testOn = false) ∧
    ((area { testOn with srv := { areas := [(2, { addr := 0, size := 65536, ring := 0, held := [⟨1, 0, 1, []⟩] })] } } 2).held = ⟨1, 0, 1, []⟩ :: [] ∧ batchFits { testOn with srv := { areas := [(2, { addr := 0, size := 65536, ring := 0, held := [⟨1, 0, 1, []⟩] })] } } 2 ⟨1, 0, 1, []⟩ = true) ∧
    (5 ≤ mget (fun _ => 0) ({ testOn with unitTokens := [(15, 5)] } : State).unitTokens 15) ∧
    ((seqOf { testOn with seqs := [(4095, { st := 6, swap := 1 })] } 4095).swap = 1 ∧ bit (swapCfg testOn 0) 11 = false) ∧
    ((seqOf { testOn with seqs := [(0, { st := 6, swap := 3 })] } 0).swap = 3 ∧ (seqOf { testOn with seqs := [(0, { st := 6, swap := 3 })] } 0).st = 6) ∧
    (∃ pl, place { testOn with unlocked := [(pgKvm, 0)] } (testAt pgKvm 0x44) = some pl ∧ pl.page = pgKvm ∧ pl.off = 0x44 ∧ rf testOn K.kvmState 1 0 = 0 ∧ rf (testRegs testOn [(K.kvmState, 1)]) K.kvmState 1 0 = 1) := by decide +kernel

theorem test_meets_StreamCommands :
    (Ready (testMf 0x60 [(8, 64)]) 0 0x60 (testCmd 0 0x60 [(8, 64)]) ∧ ownsRange (testBegun 0x60 [(8, 64)]) 0 64 128 = true ∧ streamOk testOn 0 testStream = true ∧ streamOk testOn 0 (List.replicate 128 0) = false ∧ ((List.range 256).find? fun i => (vctx testOn i).st == 0) = some 0) ∧
    (∀ op ∈ [0x61, 0x62, 0x63, 0x64, 0x65, 0x66, 0x67, 0x68], Ready (testMf op [(1, 5)]) 0 op (testCmd 0 op [(1, 5)])) ∧
    (Ready (testWaits testVidOn 0 0x61 [(1, 5), (3, 0), (4, 64), (8, 0x20000)]) 0 0x61 (testCmd 0 0x61 [(1, 5), (3, 0), (4, 64), (8, 0x20000)]) ∧ (vctx testVidOn 5).func = 0 ∧ vidEncode testVid = false ∧ ownsRange testVidOn 0 0x20000 64 = true) ∧
    ((slotOf { testVid with slots := [{ posted := true }] } 0).posted = true ∧ vNpic testVid = 4 ∧ vidEncode { testVid with block := [4] } = true ∧ (vctx testVidOn 0).st = 0) := by
  simp only [Ready]
  decide +kernel

theorem test_meets_VideoCores :
    (2 ≤ (vctx testVidOn 5).st ∧ (vctx testVidOn 5).subs.any (!·.parsed) = true ∧ vCodec testVid ≠ 3 ∧ fitsIn (64, 64) (vMax testVid) = true ∧ fitsIn (65, 64) (vMax testVid) = false ∧ fitsIn (64, 64) (codecMax (vCodec testVid)) = true ∧ openPic { testVid with pics := [] } = none) ∧
    ((vcore testVidOn 1).ctx = none ∧ coreOn testVidOn 1 = true ∧ coreOn (testRegs testOn [(K.vidCoreEn, 0)]) 1 = false ∧ chooseWork (setVctx testVidOn 5 { testVid with onCore := none }) 1 = some 5) ∧
    ((vcore testVidOn 0).ctx = some 5 ∧ testVid.units.head? = some ⟨0, true, 0, 0⟩ ∧ (headPic testVid).isSome = true) ∧
    (encNext { testVid with block := [4], subs := [{ cmd := 1, addr := 0, len := 64, pts := 0, deadline := 0, mark := true, ready := 1, taken := 1 }] } = some 0 ∧ ringRoom { testVid with block := [4] } < 5) ∧
    ((tapWork testVid 0).isSome = true ∧ poisonedIn testVidOn 0x10000 64 = false ∧ enginesBusy testVidOn < 8) ∧
    (closable testVidOn 5 { testVid with st := 6 } = true ∧ closable testVidOn 5 testVid = false) := by decide +kernel

/-! ### Hypotheses of further clauses -/

/-- A link narrower than x8 at port A; MF's page TXN unlocked with slot 8 in a state selected; bay 3 at a composite. -/
def testNarrow : State := { testOn with ports := [{ perst := false, narrow := true }, { perst := false }] }
def testSlot (st : SlotState) (mode : Nat) : State :=
  { testRegs testOn [(K.txnSel 0, 8), (K.tallyOwner 7, 0)] with unlocked := [(pgTxn, 0)], slots := [(8, { st := st, owner := 0, mode := mode, tally := 7 })] }
def testRows (cls op : Nat) (body : Bytes) (waiting : Bool) : State :=
  setBay testOn 3 { st := .running, comp := some { cls := cls, op := op, desc := 1, addr := 0, body := body, waiting := waiting } }

theorem test_meets_AcknowledgedWriteBecomesVisible_grants :
    (∃ w, (gwrite testOn 3 64 [1, 2]).gwq.find? (fun w => w.unit == 3 && channelOf (64 * w.line) == channelOf 64) = some w ∧ w.granted = false) ∧
    (∃ w, (testGranted (gwrite testOn 3 64 [1, 2])).gwq.find? (fun w => w.unit == 3 && channelOf (64 * w.line) == channelOf 64) = some w ∧ w.granted = true) := by decide +kernel

theorem test_meets_GranaryReadReturns_grants :
    (64 < granReserved ∧ granReserved ≤ granEnd - 64 ∧ testOn.tray.rails = true ∧ mget (fun _ => 0) testOn.readGrants (readGrantOf 3 64 false) = 0) ∧
    (∀ e ∈ [(3, 64, true), (3, 64, false), (nBays, 64, false), (3, granEnd - 64, false)],
      mget (fun _ => 0) ({ testOn with readGrants := [(readGrantOf e.1 e.2.1 e.2.2, 1)] } : State).readGrants (readGrantOf e.1 e.2.1 e.2.2) ≠ 0) := by decide +kernel

theorem test_meets_unoccupied_and_narrow :
    (unoccupied (testAt 0xF 0) = true ∧ unoccupied (testAt pgSys 0x60) = false ∧ noAnswer testOn (testAt 0xF 0) = false ∧ inTallyWindow (testAt 0xF 0) = false) ∧
    (noAnswer testNarrow (testAt pgSys 0x60) = true ∧ (testNarrow.ports.headD {}).up = false ∧ (port testNarrow 0).narrow = true) := by decide +kernel

theorem test_meets_RegisterWriteByAccessType_offsets :
    (Reaches testOn (testAt pgSys 0x3F0) (testPlace pgSys 0x3F0) ∧ plainReg (testPlace pgSys 0x3F0) = true ∧ findReg (pageType ((testPlace pgSys 0x3F0).key / 0x1000)) ((testPlace pgSys 0x3F0).key % 0x1000) = none) ∧
    (∀ d, findReg 1 0x60 = some d → d.rw ≠ 0) ∧
    (Reaches testOn (testAt pgSys 0x60) (testPlace pgSys 0x60) ∧ Reaches (testAfter (exec (.registerWrite (testAt pgSys 0x60) false 5) testOn)) (testAt pgSys 0x64) (testPlace pgSys 0x64)) := by
  simp only [Reaches]
  decide +kernel

theorem test_meets_ReadReturnsAndLatches_wide :
    (Reaches (readAt testOn (testAt 0x40 0x60) (testPlace 0x40 0x60)).1 (testAt 0x40 0x64) (testPlace 0x40 0x64)) ∧
    (wideValue testOn 0 (testPlace pgSys 0x60) = none) := by
  simp only [Reaches]
  decide +kernel

theorem test_meets_HostMemoryWindow_refusals :
    ((port testNarrow 0).narrow = true ∧ portUp testNarrow 0 = false) ∧
    (vfHere testOn 0 1 = false ∧ bar2Size testOn 0 0 < 2 ^ 60 ∧ 64 + 4 ≤ bar2Size testOn 0 0 ∧ 2 ^ 37 + 4 ≤ bar2Size testOn 0 0 ∧ vfHere testOn 0 0 = true) ∧
    (vfHere { testOn with ports := [{ up := true, numVfs := 8 }, {}] } 0 8 = true ∧
      bar2Addr { testOn with ports := [{ up := true, numVfs := 8 }, {}] } 0 8 0 4 = none) := by decide +kernel

theorem test_meets_LinksAndVectors_vectors :
    (∀ t : State, t = { ({ testOn with pba := [(0, 0, 3)] } : State) with msixTab := mset msixReset testOn.msixTab (msixKey 0 0 60) (BitVec.ofNat 32 0) } →
      msixMasked t 0 0 3 = false ∧ (port t 0).msixMask.contains 0 = false ∧ t.pba.contains (0, 0, 3) = true) ∧
    ((port (storeReg testNarrow (testPlace (pgPort 0) 0x44).key 1) 0).narrow = true ∧ Reaches testOn (testAt (pgPort 0) 0x44) (testPlace (pgPort 0) 0x44)) := by
  simp only [Reaches]
  refine ⟨fun t h => ?_, ?_⟩
  · subst h; decide +kernel
  · decide +kernel

theorem test_meets_TxnPageCommands_slots :
    (∀ st ∈ [SlotState.opened, .fetching, .armed, .raised, .struck], ∀ off ∈ [0x418, 0x41C], Reaches (testSlot st 0) (testAt pgTxn off) (testPlace pgTxn off) ∧
      8 = rd (testSlot st 0) (K.txnSel 0) % 32 ∧ (slot (testSlot st 0) 8).st = st ∧ (slot (testSlot st 0) 8).owner = 0 ∧ (slot (testSlot st 0) 8).raisePend = false) ∧
    (∀ mode ∈ [0, 1, 2], (slot (testSlot .opened mode) 8).mode = mode ∧ rf (testSlot .opened mode) (K.tallyOwner 7) 3 0 = (slot (testSlot .opened mode) 8).owner) ∧
    (listReadable (testSlot .opened 0) { slot (testSlot .opened 0) 8 with st := .fetching, toFetch := 1 } = true) ∧
    (¬ slotsHeld { testSlot .opened 0 with slots := (List.range 24).map fun i => (8 + i, { st := .opened }) } 0 < quota testOn 0 ∨
      freeSlot { testSlot .opened 0 with slots := (List.range 24).map fun i => (8 + i, { st := .opened }) } = none) := by
  simp only [Reaches]
  decide +kernel

theorem test_meets_TxnListFetch_records :
    (∀ st : State, st = { testOn with slots := [(8, { st := .fetching, owner := 0, toFetch := 1, fetchBuf := List.replicate 32 0 })] } →
      (slot st 8).st = .fetching ∧ 96 ≤ ((slot st 8).fetchBuf ++ (sub [] 0 64).drop ((slot st 8).fetchAddr % 64)).length ∧ (slot st 8).actions.length < 256) ∧
    (listReadable testNarrow (slot testOn 8) = false) := by
  refine ⟨fun st h => ?_, ?_⟩
  · subst h; decide +kernel
  · decide +kernel

theorem test_meets_BentTakesEffectOrChangesNothing_whole :
    firstArmed { testOn with slots := [(8, { st := .armed, owner := 0, claimAt := 0x999 })] } 8 = true ∧
      firstFail { testOn with slots := [(8, { st := .armed, owner := 0, claimAt := 0x999 })] } { st := .armed, owner := 0, claimAt := 0x999 } = none ∧
      wholeCode { testOn with slots := [(8, { st := .armed, owner := 0, claimAt := 0x999 })] } { st := .armed, owner := 0, claimAt := 0x999 } = eTxnClaimLost ∧
      eTxnClaimLost ≠ 0 := by decide +kernel

theorem test_meets_BayPageCommands_states :
    (haltedOnErr testOn (bayPage 0) = false ∧ (bay (setBay testOn 0 { off := true }) 0).off = true ∧ (bay (setBay testOn 0 { st := .running }) 0).st = .running ∧
      (bay (setBay testOn 0 { st := .running }) 0).off = false) ∧
    (∀ off ∈ [0x10, 0x414, 0x418], ∀ y ∈ [({ off := true } : Bay), { st := .running }, {}],
      Reaches { setBay testOn 0 y with unlocked := [(0x100, 0)] } (testAt 0x100 off) (testPlace 0x100 off)) := by
  simp only [Reaches]
  decide +kernel

theorem test_meets_CompositesRunRowByRow_waiting :
    ∀ e ∈ [(10, 0), (10, 1), (10, 2), (10, 3), (9, 0), (9, 1), (9, 2), (9, 3), (9, 4)], ∃ k, (bay (testRows e.1 e.2 [] true) 3).comp = some k ∧ k.cls = e.1 ∧ k.op = e.2 ∧
      k.waiting = true ∧ (bay (testRows e.1 e.2 [] true) 3).halting = false := by decide +kernel

theorem test_meets_PartitionsAndFencing_poison :
    (poisonedIn { testBegun 0xB0 [(8, 64)] with poison := [1] } 64 0x350 = true ∧ Ready { testMf 0xB0 [(8, 64)] with poison := [1] } 0 0xB0 (testCmd 0 0xB0 [(8, 64)])) ∧
    (poisonedIn { testBegun 0xB2 [(8, 64)] with poison := [1] } 64 0x40 = true ∧ Ready { testMf 0xB2 [(8, 64)] with poison := [1] } 0 0xB2 (testCmd 0 0xB2 [(8, 64)])) ∧
    (Ready (testWaits (testRegs testOn [(K.fenceState, 1)]) 0 0xB1 []) 0 0xB1 (testCmd 0 0xB1 []) ∧ testOn.fencing = none ∧
      fencedDone (setBay testOn 3 { st := .running }) = false) := by
  simp only [Ready]
  decide +kernel

theorem test_meets_PowerPools_rounds :
    (∀ l ∈ [[(4, 2000), (1, 1), (1, 1), (1, 7)], [(4, 2000), (1, 0), (1, 65), (1, 7)], [(4, 2000), (1, 2), (1, 2), (1, 7)], [(4, 499), (1, 1), (1, 2), (1, 7)]],
      Ready (testMf 0x91 l) 0 0x91 (testCmd 0 0x91 l) ∧ (arg (testCmd 0 0x91 l) 0x15 1 < 2 ∨ 64 < arg (testCmd 0 0x91 l) 0x15 1 ∨
        arg (testCmd 0 0x91 l) 0x15 1 ≤ arg (testCmd 0 0x91 l) 0x14 1 ∨ arg (testCmd 0 0x91 l) 0x10 4 < 250 * arg (testCmd 0 0x91 l) 0x15 1)) ∧
    (∀ s : State, s = { testRegs testOn [(K.pwrState, 16), (K.pwrPool, 2 ^ 24)] with mtime := BitVec.ofNat 96 (2 ^ 32 * 12000000), power := { poolBoundary := some 1, poolMissed := 3, poolDone := false } } →
      inPool s = true ∧ s.power.poolBoundary = some 1 ∧ s.power.poolDone = false ∧ s.power.poolRecs.length < poolMembers s ∧ 10000000 * 1 + 2000000 ≤ mtimeNs s ∧
        3 ≤ s.power.poolMissed ∧ bit (rd s K.pwrState) 5 = false) := by
  simp only [Ready]
  refine ⟨?_, fun s h => ?_⟩
  · decide +kernel
  · subst h; decide +kernel

/-- A command record without a claim or payload. -/
def testBare (n op : Nat) : Cmd := { id := n, src := 0, body := toLE 2 op ++ List.replicate 62 0 }

theorem test_meets_CommandRecordsAreFetched_order :
    (({ testOn with cmds := [testBare 1 0x40] } : State).cmds.find? (fun c => c.src == 0 && (fetchCode 0 c.body != 0 || cmdOp c == 0)) = none) ∧
    (({ testOn with cmds := [testBare 1 0xFF] } : State).cmds.find? (fun c => c.src == 0 && (fetchCode 0 c.body != 0 || cmdOp c == 0)) = some (testBare 1 0xFF) ∧
      fetchCode 0 (testBare 1 0xFF).body ≠ 0) ∧
    (({ testOn with cmds := [testBare 1 0x40, testBare 2 0x100] } : State).cmds.find? (fun c => c.src == 0 && (fetchCode 0 c.body != 0 || cmdOp c == 0)) = some (testBare 2 0x100) ∧
      fetchCode 0 (testBare 2 0x100).body = 0 ∧ fenceHeld { testOn with cmds := [testBare 1 0x40, testBare 2 0x100] } (testBare 2 0x100) = true ∧
      fenceHeld { testOn with cmds := [testBare 2 0x100] } (testBare 2 0x100) = false) := by decide +kernel

theorem test_meets_ClocksDroopAndBrake_phases :
    (fieldDrained testOn 0 = true ∧ fieldDrained (setBay testOn 3 { issued := [⟨.vec, 5, [], [], 0, [], 0, 0⟩] }) 0 = false) ∧
    (∀ n ∈ [1, 2, 3], (fctl { testOn with power := { testOn.power with fields := [{ phase := n, target := 32, volt := 700 }] } } 0).phase = n) ∧
    (∀ s : State, s = { testOn with power := { testOn.power with fields := [{ phase := 1, target := 32, volt := 700 }] } } →
      fcur (showClock s 0 (fcur s 0) (fctl s 0).volt false) 0 ≠ (fctl s 0).target) := by
  refine ⟨?_, ?_, fun s h => ?_⟩
  · decide +kernel
  · decide +kernel
  · subst h; decide +kernel

/-- A plain descriptor of 8,192 bytes from granary address 0x10000 to 0x20000, and a DURABLE one of 64 bytes from there to host memory. -/
def testDesc : Bytes := testBytes [(8, 0), (8, 0x10000), (8, 0x20000), (4, 8192), (4, 2 ^ 8 + 2 ^ 9), (32, 0)]
def testDurable : Bytes := testBytes [(8, 0), (8, 0x10000), (8, 0x20000), (4, 64), (4, 2 ^ 8 + 2 ^ 3), (32, 0)]

theorem test_meets_WainChannels_descriptors :
    (descCode testOn 0 testDesc false = 0 ∧ units testDesc = 2 ∧ dIndexed testDesc = false ∧ dCrypt testDesc = false) ∧
    (rangeCode testOn 0 granReserved 64 false ≠ 0 ∧ rangeCode testOn 0 64 64 false = 0 ∧ poisonedIn { testOn with poison := [1] } 64 64 = true) ∧
    (dDurable testDurable = true ∧ dDstGrn testDurable = false ∧ allMoved { addr := 0, gran := false, body := testDurable, port := 0, firmware := false, bursts := [0] } = true ∧
      allMoved { addr := 0, gran := false, body := testDesc, port := 0, firmware := false, bursts := [1] } = false) ∧
    (∀ s : State, s = { testRegs testOn [(K.wainState 0, 3)] with wains := [(0, { abortCode := eWainAborted, desc := some { addr := 0, gran := false, body := testDesc, port := 0, firmware := false } })] } →
      wainSt s 0 = 3 ∧ writing s (uWain 0) = false ∧ (wain s 0).newOwner = none ∧ (wain s 0).resetAfter = false ∧ ∃ d, (wain s 0).desc = some d ∧ d.waitCq = false ∧ d.firmware = false) ∧
    (∀ s : State, s = { testRegs testOn [(K.wainState 0, 1)] with wains := [(0, { next := some { addr := 64, gran := true } })] } →
      ∃ ch, (wain s 0).next = some ch ∧ wainSt s 0 = 1 ∧ (wain s 0).desc = none ∧ ch.firmware = false ∧ ch.gran = true) := by
  refine ⟨?_, ?_, ?_, fun s h => ?_, fun s h => ?_⟩
  · decide +kernel
  · decide +kernel
  · decide +kernel
  · subst h; decide +kernel
  · subst h; decide +kernel

theorem test_meets_SpdmMailbox_sessions :
    (∀ x leaf sig, x.wantsMutual = false → finishOk x leaf sig (Config.hmac384 (expand x.req 48 "finished" []) (Config.sha384 (x.transcript ++ sig))) = true) ∧
    (∃ x, session? { testOn with sec := { testOn.sec with spdm := [3, 0], sessions := [{ id := 9, port := 0 }] } } 0 9 = some x ∧ x.established = false ∧ x.wantsMutual = false) ∧
    (testOn.sec.sessions.length < 8 ∧ (testOn.sec.sessions.filter (·.port == 0)).length < 4) := by
  refine ⟨fun x leaf sig h => ?_, ?_, ?_⟩
  · simp [finishOk, h]
  · decide +kernel
  · decide +kernel

/-- A step boundary whose copies run: one copy of two descriptors. -/
def testMid : Mid := { tb := 0, step := 0, ents := [], bents := [], drops := [], chosen := [], due := [], jobs := [(5, 2, 0)] }

theorem test_meets_StepsAndSwap_copies :
    (({ testOn with srv := { mid := some testMid } } : State).srv.mid = some testMid ∧ (testMid.jobs.all fun j => jobOver testOn j.1 j.2.1) = false ∧
      (testMid.jobs.all fun j => jobOver { testOn with fwDone := [(5, 0), (5, 0)] } j.1 j.2.1) = true ∧ testOn.srv.mid = none) ∧
    ((testOn.tallyWaits.any fun w => w.kind == 0 && w.phase == 1) = false) ∧
    (∀ n ∈ [1, 3], swapOver { testOn with fwDone := [(5, 0)] } { st := 6, swap := n, swapJob := some (5, 1) } n = true ∧
      swapOver testOn { st := 6, swap := n, swapJob := some (5, 1) } n = false) ∧
    ((swapCodes { testOn with fwDone := [(5, 0)] } { swapJob := some (5, 1) }).all (· == 0) = true ∧
      (swapCodes { testOn with fwDone := [(5, 7)] } { swapJob := some (5, 1) }).all (· == 0) = false ∧ bit (swapCfg testOn 0) 12 = false) ∧
    (haltedOnErr testOn pgGln = false ∧ haltedOnErr (testRegs testOn [(K.blkCtrl pgGln, 2), (K.blkErr pgGln, 2 ^ 31)]) pgGln = true ∧
      haltedOnErr (testRegs testOn [(K.blkCtrl pgKvm, 2), (K.blkErr pgKvm, 2 ^ 31)]) pgKvm = true) ∧
    (({ testOn with srv := { running := true } } : State).srv.running = true ∧ rf (testRegs testOn [(K.kvmState, 1)]) K.kvmState 1 0 = 1 ∧ testOn.srv.running = false) := by decide +kernel

/-- An encode stream with a frame whose rows are all ready. -/
def testEncBlock : Bytes := testBytes [(1, 4), (1, 0), (2, 64), (2, 64), (1, 8), (1, 4), (8, 0x10000), (8, 0x100000), (8, 0x200000), (4, 0x100000), (4, 0), (2, 0x3FF),
  (2, 0x3FF), (86, 1)]
def testEnc : VidCtx :=
  { st := 2, func := 0, block := testEncBlock, slots := List.replicate 4 {}, size := (64, 64), onCore := some 4
    subs := [{ cmd := 1, addr := 0x20000, len := 64, pts := 0, deadline := 0, mark := true, ready := 64 }] }

theorem test_meets_VideoCores_streams :
    (haltedOnErr testVidOn pgVid = false ∧ (parsing testVid).isSome = true ∧ parsing { testVid with subs := [] } = none) ∧
    (chooseWork { testVidOn with video := [] } 1 = none ∧ (vcore testVidOn 1).ctx = none) ∧
    (openPic testVid = some testVidPic ∧ bit testVidPic.flags 3 = false ∧ slotFree { testVid with pics := [] } 0 = true) ∧
    (∃ j, encNext testEnc = some j ∧ (testEnc.subs[j]?).isSome = true ∧ vidEncode testEnc = true) := by decide +kernel

theorem test_meets_VideoCores_taps :
    (∃ e, tapWork testVid 0 = some e ∧ e.2.begun = false ∧ cropClamped e.2.block e.1 = false ∧ tapNeeds e.2.block e.1 e.2.row < e.1.final) ∧
    (∃ e, tapWork { testVid with pics := [{ testVidPic with final := 0 }] } 0 = some e ∧ e.1.final ≤ tapNeeds e.2.block e.1 e.2.row) := by decide +kernel

/-- The same convolution over two rows, and over a row that a neighbour owns to the north (R174). -/
def testConvTwo : Bytes := ((testConv.set 0x3A 2).set 0x52 1).set 0x56 1
def testConvHalo : Bytes := ((testConv.set 0x54 1).set 0x5C 5).set 0x5D 0

/-- The composite that a word starts. -/
def testComposite (op : Nat) (d : Bytes) : Option Composite :=
  match convStart op (issueHead (testComp 10 op d) 3 (testCompWord 10 op)) 3 (testCompWord 10 op) with
  | .ok u => (bay (boundIssued u 3) 3).comp
  | .error _ => none

theorem test_meets_CompositesRunRowByRow_rows :
    ((testComposite 2 testConvTwo).map fun k => decide (k.next < convWorks.total k) && !(convWorks.wait testOn 3 k).2.waiting && match convWorks.row (setBay testOn 3 { st := .running, comp := some k }) 3 k with
      | .ok u => decide (u.2.next < convWorks.total u.2)
      | .error _ => false) = some true ∧
    ((testComposite 2 testConv).map fun k => match convWorks.row (setBay testOn 3 { st := .running, comp := some k }) 3 k with
      | .ok u => decide (convWorks.total u.2 ≤ u.2.next ∧ (bay u.1 3).halting = false)
      | .error _ => false) = some true := by decide +kernel

theorem test_meets_CompositesRunRowByRow_failing :
    ∀ op ∈ [0, 1, 2, 3, 4], ∃ c, (attWorks attendRow).row (testRows 9 op testAtt false) 3
      { cls := 9, op := op, desc := 1, addr := 0, body := testAtt, rows := [[]] } = .error c := by
  have g (r : Except Nat (State × Composite)) : (match r with | .ok _ => false | .error _ => true) = true → ∃ c, r = .error c := by
    cases r <;> simp
  intro op ho
  apply g
  revert op
  decide +kernel

theorem test_meets_ScarfResumes_tokens :
    (∀ k : Composite, k = { cls := 10, op := 0, desc := 0, addr := 0, body := testConvHalo, waiting := true } →
      ((convDesc k.op k.body).needs k.took ((convDesc k.op k.body).toFetch k)).head? = some 0 ∧
        tok (bay (setBay testOn 3 { st := .running, comp := some k }) 3) (convDesc k.op k.body).wn = 0 ∧
        0 < tok (bay (setBay testOn 3 { st := .running, comp := some k, tokens := [((convDesc k.op k.body).wn, 1)] }) 3) (convDesc k.op k.body).wn ∧
        (convWorks.wait (setBay testOn 3 { st := .running, comp := some k }) 3 k).2.waiting = true) := by
  intro k h
  subst h
  decide +kernel

theorem test_meets_ShadowJoining_records :
    (∀ s : State, s = { testRegs testOn [(K.shadowState, 2)] with mem := msetMany memReset [] 0 ([1] ++ List.replicate 3 0 ++ toLE 4 64) } →
      shadowSt s = 2 ∧ s.joinWait = false ∧ num (ringRead s (s.shadow.consumed % mirrorSize) 32) 0 1 = 1 ∧
        s.shadow.lastRec ≤ num (ringRead s (s.shadow.consumed % mirrorSize) 32) 0x10 8 ∧ num (ringRead s (s.shadow.consumed % mirrorSize) 32) 4 4 + 32 ≤ mirrorSize) := by
  intro s h
  subst h
  decide +kernel
theorem test_meets_WainChannels_failed :
    (∀ s : State, s = { testRegs testOn [(K.wainState 0, 1), (K.wainCqCfg 0, 0x101), (K.wainCqTail 0, 1)] with
        gwq := [{ id := 0, unit := uWain 0, line := 1, cells := [(64, 1)] }]
        wains := [(0, { desc := some { addr := 64, gran := true, body := testDesc, port := 0, firmware := false, failed := some (ePoison, 0) } })] } →
      writing s (uWain 0) = true ∧ cqFull s 0 = true ∧ wainSt s 0 = 1 ∧ writing testOn (uWain 0) = false ∧ cqFull testOn 0 = false ∧
        ∃ d, (wain s 0).desc = some d ∧ d.waitCq = false ∧ d.failed = some (ePoison, 0) ∧ d.funnel = [] ∧ d.firmware = false) := by
  rintro _ rfl; exact ⟨by decide, by decide, by decide, by decide, by decide, _, rfl, rfl, rfl, rfl, rfl⟩

/-- R342: of two bursts that meet within a line, the first leaves its part of that line for the second, whose write is whole; the
lines at the two ends of the destination run carry only the run's bytes. -/
theorem test_funnel_whole_line :
    (let f := funnelStep [] (60, 132) 60 (List.replicate 6 1)
     f.1 = 60 ∧ f.2.1.length = 4 ∧ f.2.2 = [(64, 1), (65, 1)] ∧
     (funnelStep f.2.2 (60, 132) 66 (List.replicate 66 2)).1 = 64 ∧
     (funnelStep f.2.2 (60, 132) 66 (List.replicate 66 2)).2 = ([1, 1] ++ List.replicate 66 2, [])) := by decide

theorem test_meets_WainChannels_queue :
    ∀ s : State, s = { testRegs testOn [(K.wainState 0, 1)] with wains := [(0, { desc := some { addr := 64, gran := true, body := testDesc, port := 0, firmware := false, waitCq := true } })] } →
      (∃ d, (wain (storeReg s (testPlace (pgWain 0) 0x70).key 0) 0).desc = some d ∧ d.waitCq = true) ∧ wainSt (storeReg s (testPlace (pgWain 0) 0x70).key 0) 0 = 1 := by
  intro s h
  subst h
  decide +kernel

/-! ### Single commands (results worked out from the rules named) -/

/-- R57: SYS_SCRATCH keeps what is written. -/
theorem test_scratch_keeps : rd (testAfter (exec (.registerWrite (testAt pgSys 0x60) false 0x12345678) testOn)) 0x60 = 0x12345678 := by
  decide +kernel

/-- R42: an unmapped offset counts once. -/
theorem test_unmapped_counts : rd (testAfter (exec (.unmappedAccess (testAt 0xF 0) false false) testOn)) K.sysUnmapped = 1 := by decide +kernel

/-- R41: an unaligned access records REG_ALIGN with VALID and a count of one. -/
theorem test_unaligned_records : fld (rd (testAfter (exec (.unalignedAccess (testAt pgSys 0x61)) testOn)) (K.blkErr pgSys)) 31 16 = 0x8001 := by
  decide +kernel

/-- R126: a credit add saturates at 4,095. -/
theorem test_credit_saturates :
    cred (bay (testAfter (exec (.creditArrival 1 3) { setBay testOn 3 { credits := [(2, 4090)] } with mesh := [⟨1, 3, 1, 2, 6, 0⟩] })) 3) 2 = 4095 := by
  decide +kernel

/-- R141: 1.0 + 2.0 = 3.0 in FP32, from lines 0 and 1 to line 2. -/
theorem test_add_computes :
    bread (bay (testAfter (exec (.add 3 0) (setBay testOn 3
      { bwrite (bwrite ({ st := .running, owner := 0, queue := [testWord [(0, 5), (32, 1), (53, 1), (66, 2)]] } : Bay) 0 (toLE 4 0x3F800000)) 1 (toLE 4 0x40000000)
        with st := .running }))) 3) 2 4 = toLE 4 0x40400000 := by decide +kernel

/-- R141: RELU of -1.0 is +0, over its own operand's line. -/
theorem test_relu_clamps :
    bread (bay (testAfter (exec (.relu 3 0) (setBay testOn 3
      (bwrite ({ st := .running, owner := 0, queue := [testWord [(0, 5), (32, 0x17)]] } : Bay) 0 (toLE 4 0xBF800000))))) 3) 0 4 = toLE 4 0 := by decide +kernel

/-- R26: a queued write is not visible before its acknowledgement and, once granted, is after it. -/
theorem test_write_becomes_visible :
    gbyte (gwrite testOn 3 65 [0xAB]) 65 = 0 ∧
      gbyte (testAfter (exec (.granaryWriteAck 3 (channelOf 65)) (testGranted (gwrite testOn 3 65 [0xAB])))) 65 = 0xAB := by decide +kernel

/-- R82: TXN_OPEN allocates slot 8, the lowest host slot. -/
theorem test_open_takes_lowest_slot :
    (slot (testAfter (exec (.txnOpen (testAt pgTxn 0x400)) { testOn with unlocked := [(pgTxn, 0)] })) 8).st = .opened := by decide +kernel

/-- R132: a HALT word with code 0x12 halts the bay with that code. -/
theorem test_halt_code :
    (bay (testAfter (exec (.halt 3) (testBay [(0, 15), (32, 0x12)]))) 3).st = .halted ∧
      (bay (testAfter (exec (.halt 3) (testBay [(0, 15), (32, 0x12)]))) 3).hcode = 0x12 := by decide +kernel

/-- R382: PWR_SET_CAP of 300 W sets PWR_CAP. -/
theorem test_set_cap : rf (testAfter (exec (.pwrSetCap 0) (testMf 0x90 [(2, 300)]))) K.pwrCap 9 0 = 300 := by decide +kernel

/-- R401: 2,001 W shared by two members gives the first one the watt that does not divide. -/
theorem test_pool_share : rf (testAfter (exec (.pwrPool 0) (testMf 0x91 [(4, 2001), (1, 0), (1, 2), (1, 7)]))) K.pwrShare 9 0 = 1001 % 1024 := by
  decide +kernel

/-- R461: standby power leaves UNPOWERED for STANDBY. -/
theorem test_standby_power : (testAfter (exec .standbyPower State.reset)).tray.hs = .standby := by decide +kernel

/-- R432: TALLY_ADD of 5 counts 5 in the selected counter. -/
theorem test_tally_add :
    rd (testAfter (exec (.tallyAdd (testAt pgTally 0x6C) 5) (testRegs testOn [(K.tallyMode 0, 1), (K.tallyTarget 0, 9)]))) (K.tallyCount 0) = 5 := by
  decide +kernel

/-- The queue is first in, first out: a step runs its front and leaves the rest. -/
theorem test_step_takes_front :
    (match step { State.reset with pending := [.standbyPower, .livenessTick] } with
      | .next t => decide (t.pending = [.livenessTick] ∧ t.tray.hs = .standby)
      | _ => false) = true := by decide +kernel

/-! ### Operand checks: each refuses an ill-formed operand and admits one at its bound -/

theorem test_wf_access : (Instr.txnOpen ⟨2, 0, 0⟩).wf = false ∧ (Instr.txnOpen ⟨1, 9, 0⟩).wf = false ∧ (Instr.txnOpen ⟨1, 8, 2 ^ 26⟩).wf = false ∧
    (Instr.txnOpen ⟨1, 8, 2 ^ 26 - 4⟩).wf = true := by decide
theorem test_wf_value : (Instr.raise ⟨0, 0, 0⟩ (2 ^ 32)).wf = false ∧ (Instr.registerWrite ⟨0, 0, 0⟩ true (2 ^ 64)).wf = false ∧
    (Instr.registerWrite ⟨0, 0, 0⟩ true (2 ^ 64 - 1)).wf = true := by decide
theorem test_wf_source : (Instr.nop 144).wf = false ∧ (Instr.nop 0x102).wf = false ∧ (Instr.nop 143).wf = true ∧ (Instr.nop 0x101).wf = true := by decide
theorem test_wf_bay : (Instr.load 576).wf = false ∧ (Instr.load 575).wf = true ∧ (Instr.bistDone [3, 576]).wf = false := by decide
theorem test_wf_ecc : (Instr.add 0 3).wf = false ∧ (Instr.add 0 2).wf = true := by decide
theorem test_wf_engine : (Instr.wordComplete 0 5).wf = false ∧ (Instr.wordComplete 0 4).wf = true := by decide
theorem test_wf_round : (Instr.granaryRound 128 [true] [] [] []).wf = false ∧ (Instr.granaryRound 127 [] [] [] []).wf = true := by
  decide
theorem test_wf_port : (Instr.perst 2).wf = false ∧ (Instr.perst 1).wf = true ∧ (Instr.mgmtLinkChange 2 true true).wf = false := by decide
theorem test_wf_function : (Instr.flr 0 9).wf = false ∧ (Instr.flr 0 8).wf = true := by decide
theorem test_wf_ring : (Instr.cmdFetch 0 16).wf = false ∧ (Instr.cmdFetch 0 15).wf = true := by decide
theorem test_wf_record : (Instr.commandFetchReturn 0 0 [1]).wf = false ∧ (Instr.commandFetchReturn 0 0 []).wf = true ∧
    (Instr.txnListLineReturn 8 true []).wf = false ∧ (Instr.descriptorFetchReturn 0 true []).wf = false := by decide
theorem test_wf_slot : (Instr.bentTakeEffect 32).wf = false ∧ (Instr.bentTakeEffect 31).wf = true ∧ (Instr.keyClear 0 1 8).wf = false := by decide
theorem test_wf_unit : (Instr.tokenArrival 1724 0).wf = false ∧ (Instr.tokenArrival 0 1724).wf = false ∧ (Instr.tokenArrival 0 1723).wf = true := by decide
theorem test_wf_address : (Instr.granaryReadReturn 0 (2 ^ 40) 0 0 false).wf = false ∧ (Instr.granaryReadReturn 0 0 3 0 false).wf = false := by decide
theorem test_wf_field : (Instr.droop 8).wf = false ∧ (Instr.droop 7).wf = true := by decide
theorem test_wf_channel : (Instr.abortDone 32).wf = false ∧ (Instr.abortDone 31).wf = true ∧ (Instr.tallyFire 256).wf = false ∧ (Instr.tallyFire 255).wf = true := by
  decide
theorem test_wf_video : (Instr.closed 256).wf = false ∧ (Instr.coreChoose 6).wf = false ∧ (Instr.tapRow 0 4).wf = false ∧ (Instr.tapRow 255 3).wf = true := by decide
theorem test_wf_sequence : (Instr.swapOutDone 4096).wf = false ∧ (Instr.swapOutDone 4095).wf = true ∧
    (Instr.gleanerGroup 0 0 [⟨4096, []⟩]).wf = false := by decide
theorem test_wf_line : (Instr.ledLine 2).wf = false ∧ (Instr.ledLine 1).wf = true := by decide
theorem test_wf_frame : (Instr.heartbeat 0 (2 ^ 48) []).wf = false ∧ (Instr.heartbeat 0 (2 ^ 48 - 1) []).wf = true := by decide
theorem test_wf_requester : (Instr.up 0 (2 ^ 16) 0 []).wf = false ∧ (Instr.up 0 (2 ^ 16 - 1) 0 []).wf = true := by decide
theorem test_wf_owner : (Instr.scrubDone 12 0).wf = false ∧ (Instr.scrubDone 11 0).wf = true := by decide

end
end

/-! PROOF. The granary's canonical form and frame: one lemma over the commands for each, from the per-command lemmas of
Sys2Proof/Laws/ (R16, R26). -/

namespace Sys2Proof.Machine

/-! ### Canonical form -/

/-- Every command keeps the granary's canonical form: each arm of the dispatch by that command's own `_inv` lemma. -/
theorem exec_inv (c : Instr) {s : State} (hs : Inv s) : Kept (exec c s) := by
  cases c <;> simp [exec, hs]

/-- Settles O3: the front command keeps the form by `exec_inv`, an idle cycle by the laws of its two parts. -/
theorem stepKeepsInvariant : Obligations.StepKeepsInvariant := by
  intro s t hs h
  unfold step at h
  split at h
  · cases h
    exact snapshotsOut_inv (oneCycle_inv hs)
  · next c rest _ =>
    have hrest : Inv { s with pending := rest } := hs
    exact exec_inv c hrest t h

/-! ### Extensionality -/

section
variable {α : Type} {d : Nat → α}

theorem mget_of_mem {m : Map α} (hm : m.Pairwise (fun a b => a.1 < b.1)) {e : Nat × α} (he : e ∈ m) :
    mget d m e.1 = e.2 := by
  induction m with
  | nil => cases he
  | cons x m ih =>
    obtain ⟨hx, hm⟩ := List.pairwise_cons.1 hm
    rcases List.mem_cons.1 he with rfl | he
    · simp [mget]
    · rw [mget, if_neg (hx e he).ne, ih hm he]

theorem mem_of_mget_ne {m : Map α} {k : Nat} (h : mget d m k ≠ d k) : (k, mget d m k) ∈ m := by
  induction m with
  | nil => exact absurd rfl h
  | cons x m ih =>
    obtain ⟨j, v⟩ := x
    rw [mget] at h ⊢
    split at h
    · next hj => simp [hj]
    · next hj => simpa [hj] using .inr (ih h)

/-- In canonical form a map lists exactly the keys that read other than the default. -/
theorem mem_iff_mget [DecidableEq α] {m : Map α} (hm : mwf d m = true) (e : Nat × α) :
    e ∈ m ↔ mget d m e.1 = e.2 ∧ e.2 ≠ d e.1 := by
  obtain ⟨hne, hlt⟩ := (mwf_iff m).1 hm
  constructor
  · exact fun he => ⟨mget_of_mem hlt he, hne e he⟩
  · rintro ⟨hget, hdef⟩
    simpa [hget] using mem_of_mget_ne (hget ▸ hdef : mget d m e.1 ≠ d e.1)

/-- Canonical maps that read alike are equal: rising lists with the same entries. -/
theorem map_ext [DecidableEq α] {m n : Map α} (hm : mwf d m = true) (hn : mwf d n = true)
    (h : ∀ k, mget d m k = mget d n k) : m = n := by
  have hmem : ∀ e, e ∈ m ↔ e ∈ n := fun e => by rw [mem_iff_mget hm, mem_iff_mget hn, h]
  have rising : ∀ {l : Map α}, mwf d l = true → l.Pairwise (fun a b => a.1 < b.1) := fun hl => ((mwf_iff _).1 hl).2
  have nodup : ∀ {l : Map α}, mwf d l = true → l.Nodup :=
    fun hl => (rising hl).imp fun hab heq => hab.ne (congrArg Prod.fst heq)
  refine ((List.perm_ext_iff_of_nodup (nodup hm) (nodup hn)).2 hmem).eq_of_pairwise ?_ (rising hm) (rising hn)
  exact fun a b _ _ hab hba => absurd hab hba.asymm
end

/-- Settles O4: the granary is a canonical map, and `gbyte` reads it. -/
theorem granaryIsExtensional : Obligations.GranaryIsExtensional :=
  fun _ _ hs ht h => map_ext hs ht h

/-! ### Frame -/

/-- A command that stores nothing at once leaves the granary as it was: each by its own law, the listed ones do store. -/
theorem exec_granary {c : Instr} (hc : storesAtOnce c = false) {s t : State} (h : exec c s = .next t) :
    granary t = granary s := by
  cases c with
  | registerWrite a wide v => exact execRegisterWrite_granary a wide v s t h
  | unalignedAccess a => exact execUnalignedAccess_granary a s t h
  | unmappedAccess a read wide => exact execUnmappedAccess_granary a read wide s t h
  | latchedRead a wide bar4 => exact execLatchedRead_granary a wide bar4 s t h
  | blkExpert a v => exact execBlkExpert_granary a v s t h
  | sreset a v => exact execSreset_granary a v s t h
  | blkErrClear a v => exact execBlkErrClear_granary a v s t h
  | pageCommit a v => exact execPageCommit_granary a v s t h
  | pageDiscard a v => exact execPageDiscard_granary a v s t h
  | granaryRound chan q0 q1 q2 q3 => exact execGranaryRound_granary chan q0 q1 q2 q3 s t h
  | granaryReadReturn unit addr ecc lat weights => exact execGranaryReadReturn_granary unit addr ecc lat weights s t h
  | pllRelockDone f => exact execPllRelockDone_granary f s t h
  | tokenArrival src dst => exact execTokenArrival_granary src dst s t h
  | creditArrival src dst => exact execCreditArrival_granary src dst s t h
  | tallyAddArrival src => exact execTallyAddArrival_granary src s t h
  | ptpMessage link m => exact execPtpMessage_granary link m s t h
  | ptpAnnounceTimeout link => exact execPtpAnnounceTimeout_granary link s t h
  | txnOpen a => exact execTxnOpen_granary a s t h
  | txnListCmd a v => exact execTxnListCmd_granary a v s t h
  | txnListLineReturn slot ok data => exact execTxnListLineReturn_granary slot ok data s t h
  | txnListReadTimeout slot => exact execTxnListReadTimeout_granary slot s t h
  | raise a v => exact execRaise_granary a v s t h
  | strike a v => exact execStrike_granary a v s t h
  | release a v => exact execRelease_granary a v s t h
  | retireStall => exact execRetireStall_granary s t h
  | programFetchReturn b => exact execProgramFetchReturn_granary b s t h
  | refusedWordAtHead b => exact execRefusedWordAtHead_granary b s t h
  | wordComplete b e => exact execWordComplete_granary b e s t h
  | haltComplete b => exact execHaltComplete_granary b s t h
  | load b => exact execLoad_granary b s t h
  | loadZrc b => exact execLoadZrc_granary b s t h
  | store b ecc => exact execStore_granary b ecc s t h
  | storeZrc b ecc => exact execStoreZrc_granary b ecc s t h
  | press b ecc => exact execPress_granary b ecc s t h
  | winnow b ecc => exact execWinnow_granary b ecc s t h
  | cvt b ecc => exact execCvt_granary b ecc s t h
  | add b ecc => exact execAdd_granary b ecc s t h
  | sub b ecc => exact execSub_granary b ecc s t h
  | mul b ecc => exact execMul_granary b ecc s t h
  | fma b ecc => exact execFma_granary b ecc s t h
  | max b ecc => exact execMax_granary b ecc s t h
  | min b ecc => exact execMin_granary b ecc s t h
  | muls b ecc => exact execMuls_granary b ecc s t h
  | adds b ecc => exact execAdds_granary b ecc s t h
  | exp2 b ecc => exact execExp2_granary b ecc s t h
  | log2 b ecc => exact execLog2_granary b ecc s t h
  | recip b ecc => exact execRecip_granary b ecc s t h
  | rsqrt b ecc => exact execRsqrt_granary b ecc s t h
  | tanh b ecc => exact execTanh_granary b ecc s t h
  | gelu b ecc => exact execGelu_granary b ecc s t h
  | silu b ecc => exact execSilu_granary b ecc s t h
  | relu b ecc => exact execRelu_granary b ecc s t h
  | rsum b ecc => exact execRsum_granary b ecc s t h
  | rmax b ecc => exact execRmax_granary b ecc s t h
  | argmax b ecc => exact execArgmax_granary b ecc s t h
  | tree b ecc => exact execTree_granary b ecc s t h
  | sendToken b => exact execSendToken_granary b s t h
  | sendCredit b => exact execSendCredit_granary b s t h
  | wait b => exact execWait_granary b s t h
  | tally b => exact execTally_granary b s t h
  | halt b => exact execHalt_granary b s t h
  | convolution b n => exact execConvolution_granary b n s t h
  | depthwiseConvolution b n => exact execDepthwiseConvolution_granary b n s t h
  | maxPooling b n => exact execMaxPooling_granary b n s t h
  | averagePooling b n => exact execAveragePooling_granary b n s t h
  | scarfResume b n => exact execScarfResume_granary b n s t h
  | prefill b n => exact execPrefill_granary b n s t h
  | decode b n => exact execDecode_granary b n s t h
  | append b n => exact execAppend_granary b n s t h
  | backward b n => exact execBackward_granary b n s t h
  | combine b n => exact execCombine_granary b n s t h
  | bayRunGo a v => exact execBayRunGo_granary a v s t h
  | bayRunHalt a v => exact execBayRunHalt_granary a v s t h
  | bayRunClear a v => exact execBayRunClear_granary a v s t h
  | bayTokenSet a v => exact execBayTokenSet_granary a v s t h
  | perfClr a v => exact execPerfClr_granary a v s t h
  | rampTick => exact execRampTick_granary s t h
  | rebuild a v => exact execRebuild_granary a v s t h
  | swapOutDone seq => exact execSwapOutDone_granary seq s t h
  | swapInDone seq => exact execSwapInDone_granary seq s t h
  | admitSeq src => exact execAdmitSeq_granary src s t h
  | fork src => exact execFork_granary src s t h
  | cancel src => exact execCancel_granary src s t h
  | setMask src => exact execSetMask_granary src s t h
  | tokenArea src => exact execTokenArea_granary src s t h
  | heldBatchPost func => exact execHeldBatchPost_granary func s t h
  | pause a v => exact execPause_granary a v s t h
  | pauseClear a v => exact execPauseClear_granary a v s t h
  | gleanerGroup ctr target rows => exact execGleanerGroup_granary ctr target rows s t h
  | streamOpen src => exact execStreamOpen_granary src s t h
  | tapSet src => exact execTapSet_granary src s t h
  | streamClose src => exact execStreamClose_granary src s t h
  | closed ctx => exact execClosed_granary ctx s t h
  | nop src => exact execNop_granary src s t h
  | funcEnable src => exact execFuncEnable_granary src s t h
  | funcDisableDrain src => exact execFuncDisableDrain_granary src s t h
  | funcDisableKill src => exact execFuncDisableKill_granary src s t h
  | flr port func => exact execFlr_granary port func s t h
  | funcDrainComplete func => exact execFuncDrainComplete_granary func s t h
  | funcDrainTimeout func => exact execFuncDrainTimeout_granary func s t h
  | funcKillDone func => exact execFuncKillDone_granary func s t h
  | sqDoorbell a v => exact execSqDoorbell_granary a v s t h
  | eqHeadDoorbell a v => exact execEqHeadDoorbell_granary a v s t h
  | sqCfgWrite a v => exact execSqCfgWrite_granary a v s t h
  | eqCfgWrite a v => exact execEqCfgWrite_granary a v s t h
  | commandFetchReturn func ring data => exact execCommandFetchReturn_granary func ring data s t h
  | cmdFetch func ring => exact execCmdFetch_granary func ring s t h
  | configRequest port field v => exact execConfigRequest_granary port field v s t h
  | bar2Access port func rid off wr data => exact execBar2Access_granary port func rid off wr data s t h
  | perst port => exact execPerst_granary port s t h
  | perstRelease port => exact execPerstRelease_granary port s t h
  | linkDown port => exact execLinkDown_granary port s t h
  | identSend a v => exact execIdentSend_granary a v s t h
  | heartbeat link mac frame => exact execHeartbeat_granary link mac frame s t h
  | hbHi a wide v => exact execHbHi_granary a wide v s t h
  | heartbeatTimer => exact execHeartbeatTimer_granary s t h
  | livenessTick => exact execLivenessTick_granary s t h
  | request link mac frame => exact execRequest_granary link mac frame s t h
  | relearn a v => exact execRelearn_granary a v s t h
  | mgmtLinkChange link up pol => exact execMgmtLinkChange_granary link up pol s t h
  | wainPost a wide v => exact execWainPost_granary a wide v s t h
  | abort a v => exact execAbort_granary a v s t h
  | resume a v => exact execResume_granary a v s t h
  | abortDone c => exact execAbortDone_granary c s t h
  | descriptorFetchReturn c ok data => exact execDescriptorFetchReturn_granary c ok data s t h
  | burstDone c k idx data => exact execBurstDone_granary c k idx data s t h
  | wainHostErr c k => exact execWainHostErr_granary c k s t h
  | descriptorComplete c readOk => exact execDescriptorComplete_granary c readOk s t h
  | wainCqHead a v => exact execWainCqHead_granary a v s t h
  | fwWrite src => exact execFwWrite_granary src s t h
  | fwWriteDone => exact execFwWriteDone_granary s t h
  | fwActivate src => exact execFwActivate_granary src s t h
  | fwSvnCommit src => exact execFwSvnCommit_granary src s t h
  | setInstall src => exact execSetInstall_granary src s t h
  | setRemove src => exact execSetRemove_granary src s t h
  | mgmtKeyInstall src => exact execMgmtKeyInstall_granary src s t h
  | debugUnlock src => exact execDebugUnlock_granary src s t h
  | bundleLoad src => exact execBundleLoad_granary src s t h
  | bundleUnload src => exact execBundleUnload_granary src s t h
  | getVersion port => exact execGetVersion_granary port s t h
  | getCapabilities port => exact execGetCapabilities_granary port s t h
  | negotiateAlgorithms port offered => exact execNegotiateAlgorithms_granary port offered s t h
  | getDigests port sess => exact execGetDigests_granary port sess s t h
  | getCertificate port sess slot off len => exact execGetCertificate_granary port sess slot off len s t h
  | challenge port slot nonce => exact execChallenge_granary port slot nonce s t h
  | getMeasurements port sess index signed nonce => exact execGetMeasurements_granary port sess index signed nonce s t h
  | keyExchange port slot wantsMutual share => exact execKeyExchange_granary port slot wantsMutual share s t h
  | finish port sess leaf sig mac => exact execFinish_granary port sess leaf sig mac s t h
  | keyUpdate port sess op => exact execKeyUpdate_granary port sess op s t h
  | spdmHeartbeat port sess => exact execSpdmHeartbeat_granary port sess s t h
  | endSession port sess => exact execEndSession_granary port sess s t h
  | keyPut port sess slot usage key => exact execKeyPut_granary port sess slot usage key s t h
  | keyClear port sess slot => exact execKeyClear_granary port sess slot s t h
  | keyList port sess => exact execKeyList_granary port sess s t h
  | pwrSetCap src => exact execPwrSetCap_granary src s t h
  | pwrPool src => exact execPwrPool_granary src s t h
  | fastLoop raw add => exact execFastLoop_granary raw add s t h
  | capMet => exact execCapMet_granary s t h
  | powerSample vin ma code atEnd => exact execPowerSample_granary vin ma code atEnd s t h
  | sensorOk => exact execSensorOk_granary s t h
  | estimateWindow => exact execEstimateWindow_granary s t h
  | mismatchOn => exact execMismatchOn_granary s t h
  | mismatchOff => exact execMismatchOff_granary s t h
  | learnerPeriod pfix dg dv fields => exact execLearnerPeriod_granary pfix dg dv fields s t h
  | brakeOn => exact execBrakeOn_granary s t h
  | brakeClockDrop => exact execBrakeClockDrop_granary s t h
  | brakeOff => exact execBrakeOff_granary s t h
  | droop f => exact execDroop_granary f s t h
  | poolRound => exact execPoolRound_granary s t h
  | poolRecordTimeout => exact execPoolRecordTimeout_granary s t h
  | poolStale => exact execPoolStale_granary s t h
  | poolShareRise => exact execPoolShareRise_granary s t h
  | junctionSample raw => exact execJunctionSample_granary raw s t h
  | thermalThrottleStep => exact execThermalThrottleStep_granary s t h
  | hbmTempSample raw => exact execHbmTempSample_granary raw s t h
  | operatingTimeSave => exact execOperatingTimeSave_granary s t h
  | coolantSample tin tout finn fout => exact execCoolantSample_granary tin tout finn fout s t h
  | flowLow => exact execFlowLow_granary s t h
  | leakSample wet lead => exact execLeakSample_granary wet lead s t h
  | leak => exact execLeak_granary s t h
  | thmLeakClr a v => exact execThmLeakClr_granary a v s t h
  | learnReset a v => exact execLearnReset_granary a v s t h
  | inputHigh mv => exact execInputHigh_granary mv s t h
  | partSetup src => exact execPartSetup_granary src s t h
  | partLeave src => exact execPartLeave_granary src s t h
  | fenceCert src => exact execFenceCert_granary src s t h
  | fenced => exact execFenced_granary s t h
  | shadowElder src peer => exact execShadowElder_granary src peer s t h
  | shadowJoin src peerOk => exact execShadowJoin_granary src peerOk s t h
  | shadowEnd src => exact execShadowEnd_granary src s t h
  | mirrorAckTimer => exact execMirrorAckTimer_granary s t h
  | shadowLost => exact execShadowLost_granary s t h
  | snapshot src => exact execSnapshot_granary src s t h
  | globalReset src => exact execGlobalReset_granary src s t h
  | wiringPlan src => exact execWiringPlan_granary src s t h
  | tallyAdd a v => exact execTallyAdd_granary a v s t h
  | up port rid off data => exact execUp_granary port rid off data s t h
  | down port rid off data => exact execDown_granary port rid off data s t h
  | data port rid off data => exact execData_granary port rid off data s t h
  | mirrorAck port rid off data => exact execMirrorAck_granary port rid off data s t h
  | tallyStall c => exact execTallyStall_granary c s t h
  | prsntEarlyMade cold => exact execPrsntEarlyMade_granary cold s t h
  | leverOpen cold => exact execLeverOpen_granary cold s t h
  | trayCfg src => exact execTrayCfg_granary src s t h
  | trayRemove src => exact execTrayRemove_granary src s t h
  | trayResume src => exact execTrayResume_granary src s t h
  | ledLine line => exact execLedLine_granary line s t h
  | ledRetry line => exact execLedRetry_granary line s t h
  | standbyPower => exact execStandbyPower_granary s t h
  | preheatDone => exact execPreheatDone_granary s t h
  | moduleResetWarm src => exact execModuleResetWarm_granary src s t h
  | moduleResetCold src => exact execModuleResetCold_granary src s t h
  | calSaveDone => exact execCalSaveDone_granary s t h
  | faultRead src => exact execFaultRead_granary src s t h
  | faultAck src => exact execFaultAck_granary src s t h
  | railRampDone f => exact execRailRampDone_granary f s t h
  | droopRecovered f cycles => exact execDroopRecovered_granary f cycles s t h
  | fenceCertChecked => exact execFenceCertChecked_granary s t h
  | msixTableWrite port func off v => exact execMsixTableWrite_granary port func off v s t h
  | _ => cases hc

/-- The bytes are read from the granary alone. -/
theorem gbyte_of_granary {s t : State} (h : granary t = granary s) (a : Nat) : gbyte t a = gbyte s a :=
  congrArg (mget memReset · a) h

/-- Settles O5, by `exec_granary`. -/
theorem granaryFrame : Obligations.GranaryFrame :=
  fun _ _ _ hc h a => gbyte_of_granary (exec_granary hc h) a

end Sys2Proof.Machine

/-! PROOF. An acknowledged granary write becomes visible whole (R20, R26, R123, R426). -/

namespace Sys2Proof.Machine

section
variable {α : Type} [DecidableEq α] {d : Nat → α}

/-- A run of writes leaves a key that none of them names. -/
theorem mget_foldl_mset_ne {cells : Map α} {k : Nat} (h : k ∉ cells.map (·.1)) (m : Map α) :
    mget d (cells.foldl (fun m c => mset d m c.1 c.2) m) k = mget d m k := by
  induction cells generalizing m with
  | nil => rfl
  | cons e cells ih =>
    obtain ⟨hne, htail⟩ : k ≠ e.1 ∧ k ∉ cells.map (·.1) := by simpa using h
    rw [List.foldl_cons, ih htail, mget_set, if_neg hne.symm]

/-- A run of writes of different keys leaves each key the value written there. -/
theorem mget_foldl_mset_mem {cells : Map α} (hnd : (cells.map (·.1)).Nodup) {c : Nat × α} (hc : c ∈ cells) (m : Map α) :
    mget d (cells.foldl (fun m c => mset d m c.1 c.2) m) c.1 = c.2 := by
  induction cells generalizing m with
  | nil => cases hc
  | cons e cells ih =>
    obtain ⟨hfresh, htail⟩ := List.nodup_cons.1 hnd
    rw [List.foldl_cons]
    rcases List.mem_cons.1 hc with rfl | hc
    · rw [mget_foldl_mset_ne hfresh, mget_set, if_pos rfl]
    · exact ih htail hc _
end

/-! ### The steps of an acknowledgement -/

@[simp] theorem releaseHeld_granary (s : State) : granary (releaseHeld s) = granary s := rfl

/-- Mirroring only sends a record to the shadow. -/
theorem mirrorWrite_working (s : State) (w : GWrite) : working (mirrorWrite s w) = working s := by
  unfold mirrorWrite
  split
  · rfl
  · split_ifs
    · exact mirror_working ..
    · rfl

@[simp] theorem mirrorWrite_granary (s : State) (w : GWrite) : granary (mirrorWrite s w) = granary s :=
  congrArg Working.mem (mirrorWrite_working s w)

@[simp] theorem applyWrite_granary (s : State) (w : GWrite) :
    granary (applyWrite s w) = w.cells.foldl (fun m c => mset memReset m c.1 c.2) s.mem := by
  unfold applyWrite; split <;> rfl

@[simp] theorem applyWrite_gwq (s : State) (w : GWrite) : (applyWrite s w).gwq = s.gwq := by
  unfold applyWrite; split <;> rfl

@[simp] theorem applyWrite_bays (s : State) (w : GWrite) : (applyWrite s w).bays = s.bays := by
  unfold applyWrite; split <;> rfl

@[simp] theorem applyWrite_regs (s : State) (w : GWrite) : (applyWrite s w).regs = s.regs := by
  unfold applyWrite; split <;> rfl

/-- What is read once a write is acknowledged, mirrored and what waited for it released. -/
theorem gbyte_acknowledged (s : State) (w : GWrite) (a : Nat) :
    gbyte (releaseHeld (mirrorWrite (applyWrite s w) w)) a
      = mget memReset (w.cells.foldl (fun m c => mset memReset m c.1 c.2) s.mem) a :=
  congrArg (mget memReset · a) ((releaseHeld_granary _).trans ((mirrorWrite_granary _ w).trans (applyWrite_granary s w)))

/-- Settles O13: the oldest write of the unit on the channel is the one that `writeAck` takes, if it was granted. -/
theorem acknowledgedWriteBecomesVisible : Obligations.AcknowledgedWriteBecomesVisible := by
  intro s unit chan w hw
  have hack : exec (.granaryWriteAck unit chan) s = .next (if w.granted then releaseHeld (mirrorWrite (applyWrite
      { s with gwq := dropFirst (fun w => w.unit == unit && channelOf (64 * w.line) == chan) s.gwq } w) w) else s) := by
    show Host.Outcome.next (writeAck s unit chan) = _
    unfold writeAck
    dsimp only
    rw [hw]
  refine ⟨fun hg => by rw [hack, hg]; rfl, fun hg => ⟨_, by rw [hack, if_pos hg], ?_, ?_, ?_, ?_, ?_⟩⟩
  · intro a ha
    rw [gbyte_acknowledged, mget_foldl_mset_ne ha]
    rfl
  · intro hnd c hc
    rw [gbyte_acknowledged, mget_foldl_mset_mem hnd hc]
  · rw [applyWrite_gwq]
  · rw [applyWrite_bays]
  · rw [applyWrite_regs]

end Sys2Proof.Machine

/-! PROOF. Tokens, credits and tally adds arrive from the mesh (R15, R124, R126, R496). -/

namespace Sys2Proof.Machine

/-! ### What an arrival does to the bays -/

/-- Adding to a token counter changes that counter of that bay, up to 4,095. -/
theorem addToken_bay (s : State) (b c n j : Nat) :
    bay (addToken s b c n) j = if b = j then setTok (bay s b) c (min (tok (bay s b) c + n) 4095) else bay s j := by
  unfold addToken
  dsimp only
  split
  · rw [recordErr_bay, bay_setBay]
  · rw [bay_setBay]

/-- Adding to a credit pool changes that pool of that bay, up to 4,095. -/
theorem addCredit_bay (s : State) (b c n j : Nat) :
    bay (addCredit s b c n) j = if b = j then setCred (bay s b) c (min (cred (bay s b) c + n) 4095) else bay s j := by
  unfold addCredit
  dsimp only
  split
  · rw [recordErr_bay, bay_setBay]
  · rw [bay_setBay]

/-- An add past 4,095 ends by recording BAY_TOKEN_OVF. -/
theorem addToken_overflow {s : State} {b c n : Nat} (h : 4095 < tok (bay s b) c + n) :
    ∃ u, addToken s b c n = recordErr u (bayPage b) eBayTokenOvf internalFunc 0 := by
  unfold addToken
  exact ⟨_, if_pos h⟩

/-- An add past 4,095 ends by recording BAY_CREDIT_OVF. -/
theorem addCredit_overflow {s : State} {b c n : Nat} (h : 4095 < cred (bay s b) c + n) :
    ∃ u, addCredit s b c n = recordErr u (bayPage b) eBayCreditOvf internalFunc 0 := by
  unfold addCredit
  exact ⟨_, if_pos h⟩

@[simp] theorem takeMsg_bay (s : State) (src dst b : Nat) : bay (takeMsg s src dst) b = bay s b := rfl

/-! ### What arrives -/

section
variable {s : State} {src dst : Nat} {m : MeshMsg}

theorem execTokenArrival_bay (hm : arriving s src dst = some m) (hk : m.kind = 0) (hd : dst < nBays) :
    exec (.tokenArrival src dst) s = .next (addToken (takeMsg s src dst) dst m.ctr m.amount) := by
  show Host.Outcome.next (tokenArrives s src dst) = _
  simp [tokenArrives, hm, hk, hd]

theorem execTokenArrival_unit (hm : arriving s src dst = some m) (hk : m.kind = 0) (hd : ¬dst < nBays) :
    exec (.tokenArrival src dst) s = .next (addUnitToken (takeMsg s src dst) (dst - uGleaner) m.ctr m.amount) := by
  show Host.Outcome.next (tokenArrives s src dst) = _
  simp [tokenArrives, hm, hk, hd]

theorem execCreditArrival_bay (hm : arriving s src dst = some m) (hk : m.kind = 1) (hd : dst < nBays) :
    exec (.creditArrival src dst) s = .next (addCredit (takeMsg s src dst) dst m.ctr m.amount) := by
  show Host.Outcome.next (creditArrives s src dst) = _
  simp [creditArrives, hm, hk, hd]

theorem execTallyAddArrival_owner (hm : arriving s src uTally = some m) (hk : m.kind = 2) :
    exec (.tallyAddArrival src) s = .next (addTally (takeMsg s src uTally) m.ctr (bay s src).owner m.amount 0) := by
  show Host.Outcome.next (tallyAddArrives src s) = _
  simp [tallyAddArrives, hm, hk]

end

/-- Settles O14: each arrival by its equation, then what `addToken` and `addCredit` leave in the bays. -/
theorem meshArrivalsSaturate : Obligations.MeshArrivalsSaturate := by
  intro s src dst m hm
  refine ⟨fun hk hd => ⟨_, execTokenArrival_bay hm hk hd, ?_, ?_, ?_, ?_⟩, fun hk hd hov => ?_,
    fun hk hd => execTokenArrival_unit hm hk hd,
    fun hk hd => ⟨_, execCreditArrival_bay hm hk hd, ?_, ?_, ?_, ?_⟩, fun hk hd hov => ?_,
    fun hk hd => ?_⟩
  · simp [addToken_bay]
  · intro c hc
    simp [addToken_bay, hc.symm]
  · intro b hb
    simp [addToken_bay, hb.symm]
  · exact (addToken_granary ..).trans (takeMsg_granary ..)
  · obtain ⟨u, hu⟩ := addToken_overflow (s := takeMsg s src dst) hov
    exact ⟨u, hu ▸ execTokenArrival_bay hm hk hd⟩
  · simp [addCredit_bay]
  · intro c hc
    simp [addCredit_bay, hc.symm]
  · intro b hb
    simp [addCredit_bay, hb.symm]
  · exact (addCredit_granary ..).trans (takeMsg_granary ..)
  · obtain ⟨u, hu⟩ := addCredit_overflow (s := takeMsg s src dst) hov
    exact ⟨u, hu ▸ execCreditArrival_bay hm hk hd⟩
  · subst hd
    exact execTallyAddArrival_owner hm hk

end Sys2Proof.Machine

/-! PROOF. LOAD and STORE move lines between the granary and the bay store (R26, R121, R122, R172, R487). -/

namespace Sys2Proof.Machine

/-! ### What the moves do at issue -/

section
variable {s : State} {b : Nat} {q : QWord}

theorem loadEff_ok (ha : ((moveLines q.word.toNat).all fun l => allocatable (64 * l) 64) = true)
    (hp : (moveLines q.word.toNat).any s.poison.contains = false) :
    loadEff s b q = .ok (setBay s b (bwrite (bay s b) (mvBline q.word.toNat)
      ((moveLines q.word.toNat).flatMap fun l => greadOf s b (64 * l) 64))) := by
  unfold loadEff
  simp only [ha, hp, Bool.not_true, Bool.false_eq_true, if_false]

theorem loadEff_range (ha : ((moveLines q.word.toNat).all fun l => allocatable (64 * l) 64) = false) :
    loadEff s b q = .error eMemRange := by
  unfold loadEff
  simp only [ha, Bool.not_false, if_true]

theorem loadEff_poison (ha : ((moveLines q.word.toNat).all fun l => allocatable (64 * l) 64) = true)
    (hp : (moveLines q.word.toNat).any s.poison.contains = true) : loadEff s b q = .error ePoison := by
  unfold loadEff
  simp only [ha, hp, Bool.not_true, Bool.false_eq_true, if_false, if_true]

theorem loadZrcEff_ok {rows : List Bytes} (ha : ((zrcSlots q.word.toNat).all fun a => allocatable a 64) = true)
    (hp : ((zrcSlots q.word.toNat).any fun a => poisonedIn s a 64) = false)
    (hr : (zrcSlots q.word.toNat).mapM (m := Except Nat) (fun a => zrcRead s b a (zrcPitch q.word.toNat)
      (64 * mvRowlines q.word.toNat / zrcSize q.word.toNat) (zrcSize q.word.toNat)) = .ok rows) :
    loadZrcEff s b q = .ok (setBay s b (bwrite (bay s b) (mvBline q.word.toNat) rows.flatten)) := by
  unfold loadZrcEff
  simp only [ha, hp, hr, Bool.not_true, Bool.false_eq_true, if_false]

theorem storeEff_ok (ha : ((moveLines q.word.toNat).all fun l => allocatable (64 * l) 64) = true) :
    storeEff s b q = .ok (noteOut (((List.range (moveLines q.word.toNat).length).zip (moveLines q.word.toNat)).foldl
      (fun s e => foldLine (gwrite s b (64 * e.2) (bline (bay s b) (mvBline q.word.toNat + e.1))) (bay s b).owner e.2
        (bline (bay s b) (mvBline q.word.toNat + e.1))) s) b false) := by
  unfold storeEff
  simp only [ha, Bool.not_true, Bool.false_eq_true, if_false]

theorem storeZrcEff_ok {rows : List Bytes} (hr : rows = (List.range (mvRows q.word.toNat)).map fun r =>
      zrcEncode (elemsOf (zrcSize q.word.toNat) (bread (bay s b) (mvBline q.word.toNat + r * mvRowlines q.word.toNat)
        (64 * mvRowlines q.word.toNat))))
    (ha : (((zrcSlots q.word.toNat).zip rows).all fun p => allocatable p.1 p.2.length) = true) :
    storeZrcEff s b q
      = .ok (noteOut (((zrcSlots q.word.toNat).zip rows).foldl (fun s p => gwrite s b p.1 p.2) s) b false) := by
  unfold storeZrcEff
  simp only [← hr, ha, Bool.not_true, Bool.false_eq_true, if_false]

/-- The issue of a word does not poison or clear a line. -/
theorem issueHead_poisonedIn (s : State) (b : Nat) (q : QWord) (a n : Nat) :
    poisonedIn (issueHead s b q) a n = poisonedIn s a n := by
  unfold poisonedIn; rw [issueHead_poison]

/-! ### Commands whose word may issue -/

/-- A move word that issues takes effect in the state it issued in, and its writes are bounded. -/
theorem runHead_move {cls op : Nat} {eff : State → Nat → QWord → Except Nat State} {u : State} (h : Issues s b q cls op)
    (hcls : cls = 1 ∨ cls = 2) (he : eff (issueHead s b q) b q = .ok u) :
    runHead s b (isWord cls op) noPre eff = boundIssued u b :=
  runHead_engine h (by rcases hcls with rfl | rfl <;> rfl) (isWord_of h) rfl he

/-- A move word whose effect is refused leaves its engine, and the bay is in ERROR. -/
theorem runHead_move_fails {cls op code : Nat} {eff : State → Nat → QWord → Except Nat State} (h : Issues s b q cls op)
    (he : eff (issueHead s b q) b q = .error code) :
    runHead s b (isWord cls op) noPre eff = bayError (dropIssued (issueHead s b q) b) b code q.addr :=
  runHead_fails h (isWord_of h) rfl he

theorem runReading_move {op : Nat} {eff : State → Nat → QWord → Except Nat State} {u : State} (h : Issues s b q 2 op)
    (hr : ReadsClean s b q) (he : eff (issueHead s b q) b q = .ok u) :
    runReading s b 0 (isWord 2 op) noPre eff = boundIssued u b :=
  (runReading_issues h hr _ _ _).trans (runHead_move h (.inr rfl) he)

end

/-- Settles O22: each word's effect at issue by its case, run through the head of the queue. -/
theorem moveWords : Obligations.MoveWords := by
  intro s b q
  refine ⟨fun h ha hp => ?_, fun h ha => ?_, fun h ha hp => ?_, fun rows h ha hp hr => ?_, fun h hr ha => ?_,
    fun h hr rows hrows ha => ?_⟩
  · have he := loadEff_ok (s := issueHead s b q) (b := b) ha (by rwa [issueHead_poison])
    simp only [issueHead_greadOf] at he
    exact congrArg Host.Outcome.next (runHead_move h (.inl rfl) he)
  · exact congrArg Host.Outcome.next (runHead_move_fails h (loadEff_range ha))
  · exact congrArg Host.Outcome.next (runHead_move_fails h (loadEff_poison ha (by rwa [issueHead_poison])))
  · have he := loadZrcEff_ok (s := issueHead s b q) (b := b) ha (by simpa only [issueHead_poisonedIn] using hp) hr
    exact congrArg Host.Outcome.next (runHead_move h (.inl rfl) he)
  · have hrun : execStore b 0 s = .next _ := congrArg Host.Outcome.next (runReading_move h hr (storeEff_ok ha))
    exact ⟨_, hrun, execStore_granary b 0 s _ hrun, rfl⟩
  · have hrun : execStoreZrc b 0 s = .next _ :=
      congrArg Host.Outcome.next (runReading_move h hr (storeZrcEff_ok hrows ha))
    exact ⟨_, hrun, execStoreZrc_granary b 0 s _ hrun, rfl⟩

end Sys2Proof.Machine

/-! PROOF. Field clock changes, droop and brake (R34, R392, R396, R398). -/

namespace Sys2Proof.Machine

/-! ### Relock and rail ramp of a field -/

section
variable {s : State} {f : Nat}

/-- The state in which a relocked field's clock, count and lock are shown (R34). -/
def relocked (s : State) (f : Nat) : State :=
  let u := showClock s f (fctl s f).target (vcur s f) false
  setBit (wf u (K.fieldRelocks f) 15 0 (rf u (K.fieldRelocks f) 15 0 + 1)) K.clkLock f true

theorem execPllRelockDone_drained (hf : f < 8) (hp : (fctl s f).phase = 2) (hd : fieldDrained s f = true) :
    exec (.pllRelockDone f) s = if (fctl s f).volt < vcur (relocked s f) f
      then .next (setFctl (relocked s f) f { fctl s f with phase := 3, moved := true })
      else .next (startChange (setFctl (relocked s f) f { fctl s f with phase := 0, moved := true }) f) := by
  show execPllRelockDone f s = _
  unfold execPllRelockDone
  simp only [hp, hf, hd, decide_true, Bool.and_self, if_true]
  rfl

theorem execPllRelockDone_not_yet (h : (fctl s f).phase ≠ 2 ∨ fieldDrained s f = false) :
    exec (.pllRelockDone f) s = .next s := by
  show execPllRelockDone f s = _
  unfold execPllRelockDone
  exact if_neg (by rcases h with h | h <;> simp [h])

/-- A ramp that ends a change lets the field begin its next one. -/
theorem execRailRampDone_after (hf : f < 8) (hp : (fctl s f).phase = 3) :
    exec (.railRampDone f) s
      = .next (startChange (setFctl (showClock s f (fcur s f) (fctl s f).volt false) f { fctl s f with phase := 0 }) f) := by
  show execRailRampDone f s = _
  unfold execRailRampDone
  simp [hf, hp]

/-- A ramp before a raise goes on with the relock. -/
theorem execRailRampDone_before (hf : f < 8) (hp : (fctl s f).phase = 1)
    (hc : fcur (showClock s f (fcur s f) (fctl s f).volt false) f ≠ (fctl s f).target) :
    exec (.railRampDone f) s = .next (startRelock (showClock s f (fcur s f) (fctl s f).volt false) f) := by
  show execRailRampDone f s = _
  unfold execRailRampDone
  simp [hf, hp, hc]

/-! ### Droop -/

theorem execDroop_field (hf : f < 8) : exec (.droop f) s = .next (setFctl s f { fctl s f with droop := true }) :=
  if_pos hf

theorem execDroopRecovered_drooped (cycles : Nat) (hf : f < 8) (hd : (fctl s f).droop = true) :
    exec (.droopRecovered f cycles) s
      = .next (satIncr (setFctl s f { fctl s f with droop := false }) (K.fieldStretch f) cycles) :=
  if_pos (by simp [hf, hd])

theorem execDroopRecovered_none (cycles : Nat) (hd : (fctl s f).droop = false) :
    exec (.droopRecovered f cycles) s = .next s :=
  if_neg (by simp [hd])

end

/-! ### Brake -/

section
variable {s : State}

/-- The state in which a brake is in force, before the target follows (R398). -/
def brakeBegun (s : State) : State :=
  let u := satIncr (setBit s K.pwrState 0 true) K.pwrBrakes 1
  { u with power := { u.power with brake := 1, brakeFrom := u.clock } }

/-- The state in which the brake has ended, before the target follows. -/
def brakeEnded (s : State) : State :=
  let u := setBit s K.pwrState 0 false
  { u with power := { u.power with brake := 0, videoDuty := false } }

theorem brakeBegun_braking (s : State) : braking (brakeBegun s) = true := by
  show bit (rd (satIncr (setBit s K.pwrState 0 true) K.pwrBrakes 1) K.pwrState) 0 = true
  rw [rd_satIncr_ne _ _ _ _ (by decide), bit_setBit _ _ _ _ (by decide)]

theorem brakeEnded_braking (s : State) : braking (brakeEnded s) = false :=
  bit_setBit s K.pwrState 0 false (by decide)

theorem execBrakeOn_begins (h : braking s = false) :
    exec .brakeOn s = .next (judgeLag (postThermal (raiseIrq (setInner (retarget (brakeBegun s)) 1620) pgPwr 17) 5 15 0
      (measW (setInner (retarget (brakeBegun s)) 1620)))) := by
  show execBrakeOn s = _
  unfold execBrakeOn
  rw [if_neg (by simp [h])]
  rfl

theorem execBrakeOn_in_force (h : braking s = true) : exec .brakeOn s = .next s := if_pos h

theorem execBrakeClockDrop_due (h : braking s = true) (h3 : s.power.brake ≠ 3) (ht : s.power.brakeFrom + 1950 ≤ s.clock) :
    exec .brakeClockDrop s = .next
      (fieldList.foldl (fun s f => setClock s f 16) { s with power := { s.power with brake := 3, videoDuty := true } }) :=
  if_pos (by simp [h, h3, ht])

theorem execBrakeClockDrop_early (ht : s.clock < s.power.brakeFrom + 1950) : exec .brakeClockDrop s = .next s :=
  if_neg (by simp [ht])

theorem execBrakeOff_ends (h : braking s = true) :
    exec .brakeOff s
      = .next (judgeLag (postThermal (retarget (brakeEnded s)) 6 15 0 (measW (retarget (brakeEnded s))))) := by
  show execBrakeOff s = _
  unfold execBrakeOff
  rw [if_pos h]
  rfl

theorem execBrakeOff_none (h : braking s = false) : exec .brakeOff s = .next s := if_neg (by simp [h])

end

/-- Settles O49, each clause by the equation of its command in that case. -/
theorem clocksDroopAndBrake : Obligations.ClocksDroopAndBrake := by
  intro s f cycles
  refine ⟨fun hf hp hd => ⟨relocked s f, rfl, fun hv => ?_, fun hv => ?_⟩, execPllRelockDone_not_yet, execRailRampDone_after,
    execRailRampDone_before, execDroop_field, execDroopRecovered_drooped cycles, execDroopRecovered_none cycles,
    fun h => ⟨brakeBegun s, _, execBrakeOn_begins h, rfl, brakeBegun_braking s, rfl, rfl⟩, execBrakeOn_in_force,
    execBrakeClockDrop_due, execBrakeClockDrop_early,
    fun h => ⟨brakeEnded s, execBrakeOff_ends h, brakeEnded_braking s, rfl, rfl⟩, execBrakeOff_none⟩
  · rw [execPllRelockDone_drained hf hp hd, if_pos hv]
  · rw [execPllRelockDone_drained hf hp hd, if_neg hv.not_gt]

end Sys2Proof.Machine

/-! PROOF. Reads of registers and of what no page occupies (R24, R41, R42, R49, R292). -/

namespace Sys2Proof.Machine

/-! ### An access that reaches a register -/

section
variable {s : State} {a : Access} {pl : Place}

theorem exists_page_of_reaches (h : Reaches s a pl) : ∃ p, accessPage s a = some p := by
  have hpl := h.1
  unfold place at hpl
  split at hpl
  · cases hpl
  · next p hp => exact ⟨p, hp⟩

/-- Where a register is reached, the port and function answer. -/
theorem noAnswer_of_reaches (h : Reaches s a pl) : noAnswer s a = false := by
  obtain ⟨p, hp⟩ := exists_page_of_reaches h
  unfold accessPage at hp
  unfold noAnswer
  split_ifs at hp <;> simp_all

/-- Where a register is reached, a page occupies the offset. -/
theorem unoccupied_of_reaches (h : Reaches s a pl) : unoccupied a = false := by
  obtain ⟨p, hp⟩ := exists_page_of_reaches h
  unfold accessPage at hp
  unfold unoccupied
  split_ifs at hp <;> simp_all

/-- A read of a register that is no TXN_OPEN is a plain read. -/
theorem readWord_reaches (h : Reaches s a pl) (ht : ¬(pl.page = pgTxn ∧ pl.off = 0x400)) :
    readWord s a = readAt s a pl := by
  obtain ⟨hpl, hlock⟩ := h
  unfold readWord
  rw [hpl]
  dsimp only
  rw [hlock, if_neg (by simp), if_neg (by simpa using ht)]

end

/-! ### A plain read -/

section
variable (s : State) (a : Access) (pl : Place)

theorem readAt_value : (readAt s a pl).2 = readReg s a.func pl := rfl

theorem readAt_regs : (readAt s a pl).1.regs = s.regs := by
  unfold readAt; dsimp only; split <;> rfl

theorem readAt_out : (readAt s a pl).1.out = s.out := by
  unfold readAt; dsimp only; split <;> rfl

theorem readAt_keeps_working : working (readAt s a pl).1 = working s := by
  unfold readAt; dsimp only; split <;> rfl

variable {s a pl}

/-- The low word of a 64-bit value latches the high word. -/
theorem readAt_latches {w : Nat} (hw : wideValue s a.func pl = some w) :
    (mget (fun _ => 0) (readAt s a pl).1.latched (latchKey a.func { pl with key := pl.key + 4 })).toNat
      = w / 2 ^ 32 % 2 ^ 32 := by
  unfold readAt
  simp [hw]

/-- Any other word latches nothing. -/
theorem readAt_no_latch (hw : wideValue s a.func pl = none) : (readAt s a pl).1.latched = s.latched := by
  unfold readAt
  simp [hw]

end

/-! ### Answers -/

theorem toLE_zero (n : Nat) : toLE n 0 = List.replicate n 0 := by
  induction n with
  | zero => rfl
  | succ n ih => rw [toLE, Nat.zero_div, ih, List.replicate_succ]; rfl

section
variable {s : State} {a : Access} {pl : Place}

theorem execLatchedRead_word (h : Reaches s a pl) (ht : ¬(pl.page = pgTxn ∧ pl.off = 0x400)) :
    exec (.latchedRead a false false) s = .next (answer (readAt s a pl).1 a false (readReg s a.func pl)) := by
  show execLatchedRead a false false s = _
  unfold execLatchedRead
  simp only [noAnswer_of_reaches h, unoccupied_of_reaches h, answerRead, readWord_reaches h ht, readAt_value,
    Bool.false_eq_true, if_false, Nat.mul_zero, Nat.add_zero]

theorem execLatchedRead_wide {pl' : Place} (h : Reaches s a pl) (ht : ¬(pl.page = pgTxn ∧ pl.off = 0x400))
    (h' : Reaches (readAt s a pl).1 { a with off := a.off + 4 } pl') (ht' : ¬(pl'.page = pgTxn ∧ pl'.off = 0x400)) :
    exec (.latchedRead a true false) s =
      .next (answer (readAt (readAt s a pl).1 { a with off := a.off + 4 } pl').1 a true
        (readReg s a.func pl + 2 ^ 32 * readReg (readAt s a pl).1 a.func pl')) := by
  show execLatchedRead a true false s = _
  unfold execLatchedRead
  simp only [noAnswer_of_reaches h, unoccupied_of_reaches h, answerRead, readWord_reaches h ht, readWord_reaches h' ht',
    readAt_value, Bool.false_eq_true, if_false, if_true]

theorem execLatchedRead_unoccupied (wide : Bool) (hn : noAnswer s a = false) (hu : unoccupied a = true) :
    exec (.latchedRead a wide false) s = .next (answer (satIncr s K.sysUnmapped 1) a wide 0) := by
  show execLatchedRead a wide false s = _
  unfold execLatchedRead
  simp only [hn, hu, Bool.false_eq_true, if_false, if_true]

theorem execLatchedRead_noAnswer (wide bar4 : Bool) (hn : noAnswer s a = true) :
    exec (.latchedRead a wide bar4) s = .next (emit s (.unsupported a.port a.func a.off)) := by
  show execLatchedRead a wide bar4 s = _
  unfold execLatchedRead
  rw [if_pos hn]

end

/-- Settles O9: a read that reaches a register is `readAt`, once or for each of its two words. -/
theorem readReturnsAndLatches : Obligations.ReadReturnsAndLatches := by
  intro s a pl h ht
  refine ⟨⟨_, execLatchedRead_word h ht, ?_, fun w hw => readAt_latches hw, readAt_no_latch, readAt_regs s a pl,
    readAt_keeps_working s a pl⟩, ?_, ?_, fun a' wide bar4 hn => execLatchedRead_noAnswer wide bar4 hn⟩
  · show (readAt s a pl).1.out ++ _ = _
    rw [readAt_out]
    rfl
  · rintro a' pl' rfl h' ht'
    refine ⟨_, execLatchedRead_wide h ht h' ht', (readAt_regs _ _ pl').trans (readAt_regs s a pl),
      (readAt_keeps_working _ _ pl').trans (readAt_keeps_working s a pl), ?_⟩
    show (readAt (readAt s a pl).1 _ pl').1.out ++ _ = _
    rw [readAt_out, readAt_out]
    rfl
  · intro a' wide hn hu
    refine ⟨_, execLatchedRead_unoccupied wide hn hu, rd_satIncr s K.sysUnmapped 1, ?_⟩
    rw [← toLE_zero]
    rfl

end Sys2Proof.Machine

/-! PROOF. A granted granary read returns clean, corrected or poisoned (R20, R150, R486, R487). -/

namespace Sys2Proof.Machine

/-- What a performance counter reads as after a count in some counter. -/
@[simp] theorem perfOf_addPerf (x : Bay) (j n k : Nat) :
    perfOf (addPerf x j n) k = if j = k then (perfOf x j + n) % 2 ^ 64 else perfOf x k := by
  simp [perfOf, addPerf]

/-! ### Poison -/

section
variable (s : State) (line : Nat)

/-- The line joins the poisoned ones once. -/
theorem poisonLine_poison :
    (poisonLine s line).poison = if line ∈ s.poison then s.poison else s.poison ++ [line] := by
  simp [poisonLine, apply_ite State.poison]

theorem mem_poison_poisonLine : line ∈ (poisonLine s line).poison := by
  rw [poisonLine_poison]; split <;> simp_all

theorem poison_subset_poisonLine {l : Nat} (hl : l ∈ s.poison) : l ∈ (poisonLine s line).poison := by
  rw [poisonLine_poison]; split <;> simp [hl]

/-- The uncorrectable error is counted in its stack's page. -/
theorem rd_poisonLine : rd (poisonLine s line) (K.grnEccUe (channelOf (64 * line) / 32))
    = min (rd s (K.grnEccUe (channelOf (64 * line) / 32)) + 1) 0xFFFFFFFF := by
  generalize hk : channelOf (64 * line) / 32 = k
  have hlo : K.grnPoisonLastLo k ≠ K.grnEccUe k := by simp only [K.grnPoisonLastLo, K.grnEccUe]; omega
  have hhi : K.grnPoisonLastHi k ≠ K.grnEccUe k := by simp only [K.grnPoisonLastHi, K.grnEccUe]; omega
  have hrd : rd (wr (wr (satIncr s (K.grnEccUe k) 1) (K.grnPoisonLastLo k) (64 * line % 2 ^ 32)) (K.grnPoisonLastHi k)
      (64 * line / 2 ^ 32)) (K.grnEccUe k) = min (rd s (K.grnEccUe k) + 1) 0xFFFFFFFF := by
    rw [rd_wr, if_neg hhi, rd_wr, if_neg hlo, rd_satIncr]
  unfold poisonLine
  rw [hk]
  dsimp only
  generalize wr (wr (satIncr s (K.grnEccUe k) 1) _ _) _ _ = t at hrd ⊢
  split <;> exact hrd

/-- The channel of a line is that of each of its addresses. -/
theorem channelOf_line (addr : Nat) : channelOf (64 * (addr / 64)) = channelOf addr := by
  unfold channelOf
  have : 64 * (addr / 64) / 512 = addr / 512 := by omega
  rw [this]

end

/-! ### The parts of a read return -/

/-- One read grant is used. -/
def takeGrant (s : State) (unit addr : Nat) (weights : Bool) : State :=
  let g := readGrantOf unit addr weights
  { s with readGrants := mset (fun _ => 0) s.readGrants g (mget (fun _ => 0) s.readGrants g - 1) }

/-- What the line's ECC showed is recorded (R486). -/
def noteEcc (s : State) (addr ecc : Nat) : State :=
  if ecc = 1 then satIncr s (K.grnEccCe (channelOf addr / 32)) 1 else if ecc = 2 then poisonLine s (addr / 64) else s

/-- A bay counts the latency of its read (R150). -/
def noteLatency (s : State) (unit lat : Nat) : State :=
  if unit < nBays then setBay s unit (addPerf (addPerf (bay s unit) 12 lat) 13 1) else s

section
variable (s : State) (unit lat : Nat)

@[simp] theorem noteLatency_poison : (noteLatency s unit lat).poison = s.poison := by
  unfold noteLatency; split <;> rfl

@[simp] theorem noteLatency_rd (k : Nat) : rd (noteLatency s unit lat) k = rd s k := by
  unfold noteLatency; split <;> rfl

@[simp] theorem noteLatency_granary : granary (noteLatency s unit lat) = granary s := by
  unfold noteLatency; split <;> rfl

end

section
variable {s : State} {unit addr : Nat} {weights : Bool}

theorem readReturn_granted (ecc lat : Nat) (ha : addr < granEnd)
    (hn : mget (fun _ => 0) s.readGrants (readGrantOf unit addr weights) ≠ 0) :
    readReturn s unit addr ecc lat weights = noteLatency (noteEcc (takeGrant s unit addr weights) addr ecc) unit lat := by
  unfold readReturn
  dsimp only
  rw [if_neg (by simp [hn, ha])]
  rfl

/-- Without a grant nothing changes. -/
theorem execGranaryReadReturn_no_grant (ecc lat : Nat)
    (hn : mget (fun _ => 0) s.readGrants (readGrantOf unit addr weights) = 0) :
    exec (.granaryReadReturn unit addr ecc lat weights) s = .next s := by
  show Host.Outcome.next (readReturned s unit addr ecc lat weights) = _
  unfold readReturned readReturn
  simp [hn]

/-- Outside the reserved range no read is the firmware's. -/
theorem execGranaryReadReturn_allocatable (ecc lat : Nat) (ha : addr < granReserved)
    (hn : mget (fun _ => 0) s.readGrants (readGrantOf unit addr weights) ≠ 0) :
    exec (.granaryReadReturn unit addr ecc lat weights) s
      = .next (noteLatency (noteEcc (takeGrant s unit addr weights) addr ecc) unit lat) := by
  show Host.Outcome.next (readReturned s unit addr ecc lat weights) = _
  have hend : addr < granEnd := ha.trans (by decide)
  unfold readReturned
  rw [readReturn_granted ecc lat hend hn]
  simp [ha]

/-- A poisoned line of the reserved range is a memory fault of the firmware. -/
theorem execGranaryReadReturn_reserved (lat : Nat) (hend : addr < granEnd) (ha : granReserved ≤ addr)
    (hr : s.tray.rails = true) (hn : mget (fun _ => 0) s.readGrants (readGrantOf unit addr weights) ≠ 0) :
    exec (.granaryReadReturn unit addr 2 lat weights) s
      = .next (memoryFault (noteLatency (poisonLine (takeGrant s unit addr weights) (addr / 64)) unit lat) ePoison
          (addr / 64 * 64)) := by
  show Host.Outcome.next (readReturned s unit addr 2 lat weights) = _
  unfold readReturned
  rw [readReturn_granted 2 lat hend hn]
  simp [noteEcc, mem_poison_poisonLine, hend, ha, hr, hn]

end

/-- Settles O15: a granted read is the grant taken, the ECC noted and the latency counted. -/
theorem granaryReadReturns : Obligations.GranaryReadReturns := by
  intro s unit addr ecc lat weights hend g n took
  refine ⟨execGranaryReadReturn_no_grant ecc lat,
    fun hn ha hu => ⟨_, execGranaryReadReturn_allocatable 0 lat ha hn, ?_⟩,
    fun hn ha hu => ?_, fun hn ha hu => ?_,
    fun hn ha => ⟨_, execGranaryReadReturn_allocatable 2 lat ha hn, ?_, ?_, ?_, ?_⟩,
    fun hn ha hr => ⟨_, execGranaryReadReturn_reserved lat hend ha hr hn, ?_, ?_, ?_⟩⟩
  · have hclean : noteLatency (noteEcc took addr 0) unit lat
        = setBay took unit (addPerf (addPerf (bay s unit) 12 lat) 13 1) := if_pos hu
    rw [show takeGrant s unit addr weights = took from rfl, hclean]
    refine ⟨by simp, by simp, fun b hb => ?_, rfl, rfl, rfl⟩
    rw [bay_setBay, if_neg hb.symm]
    rfl
  · rw [execGranaryReadReturn_allocatable 0 lat ha hn]
    exact congrArg Host.Outcome.next (if_neg hu.not_gt)
  · rw [execGranaryReadReturn_allocatable 1 lat ha hn]
    exact congrArg Host.Outcome.next (if_neg hu.not_gt)
  · rw [noteLatency_poison]
    exact mem_poison_poisonLine ..
  · intro l hl
    rw [noteLatency_poison]
    exact poison_subset_poisonLine _ _ hl
  · rw [noteLatency_rd, ← channelOf_line]
    exact rd_poisonLine ..
  · exact (noteLatency_granary ..).trans (poisonLine_granary ..)
  · rw [noteLatency_poison]
    exact mem_poison_poisonLine ..
  · intro l hl
    rw [noteLatency_poison]
    exact poison_subset_poisonLine _ _ hl
  · exact (noteLatency_granary ..).trans (poisonLine_granary ..)

end Sys2Proof.Machine

/-! PROOF. PTP messages discipline MTIME (R36, R331). -/

namespace Sys2Proof.Machine

/-! ### The servo -/

@[simp] theorem draw_rd (s : State) (k : Nat) : rd (draw s).2 k = rd s k := rfl
@[simp] theorem draw_mtime (s : State) : (draw s).2.mtime = s.mtime := rfl

/-- The servo leaves every register but the increment's two and CLK_PTP. -/
theorem servo_rd_ne {s : State} {k : Nat} (hf : K.clkMtimeIncF ≠ k) (hi : K.clkMtimeIncI ≠ k) (hp : K.clkPtp ≠ k) :
    rd (servo s) k = rd s k := by
  unfold servo
  simp [rd_setBit_ne _ _ _ _ _ hp, hf, hi]

theorem servo_mtime (s : State) : (servo s).mtime = s.mtime := by
  simp [servo]

/-- The increment stays within its span of the nominal. -/
theorem servo_increment (s : State) : ∃ inc, incNominal - incSpan ≤ inc ∧ inc ≤ incNominal + incSpan ∧
    rd (servo s) K.clkMtimeIncF = inc % 2 ^ 32 ∧ rd (servo s) K.clkMtimeIncI = inc / 2 ^ 32 % 2 ^ 32 := by
  refine ⟨incNominal - incSpan + (draw s).1 % (2 * incSpan + 1), by omega, ?_, ?_, ?_⟩
  · have : (draw s).1 % (2 * incSpan + 1) < 2 * incSpan + 1 := Nat.mod_lt _ (by decide)
    have : incSpan ≤ incNominal := by decide
    omega
  · unfold servo
    dsimp only
    rw [rd_setBit_ne _ _ _ _ _ (by decide), rd_wr, if_neg (by decide), rd_wr, if_pos rfl, Nat.mod_mod]
  · unfold servo
    dsimp only
    rw [rd_setBit_ne _ _ _ _ _ (by decide), rd_wr, if_pos rfl]

/-! ### What a message of the domain does -/

section
variable {s : State} {k : Nat}

theorem execPtpMessage_announce (hk : k < 2) (hup : mgmtUp s k = true) (p1 cc ac va p2 id st : Nat) :
    exec (.ptpMessage k (.announce p1 cc ac va p2 id st (rf s K.mgmtPtp 7 0))) s
      = .next (choosePtp { s with ptp := s.ptp.set k (some ⟨p1, cc, ac, va, p2, id, st⟩) }) := by
  show Host.Outcome.next (ptpMessage k _ s) = _
  simp [ptpMessage, hup, show ¬1 < k by omega]

theorem execPtpMessage_offset (hk : k < 2) (hup : mgmtUp s k = true) (hsrc : ptpSource s k = true) (ns : Int) :
    exec (.ptpMessage k (.offset ns (rf s K.mgmtPtp 7 0))) s = .next (servo (wr s K.mgmtPtpOfs (sat32 ns))) := by
  show Host.Outcome.next (ptpMessage k _ s) = _
  simp [ptpMessage, hup, hsrc, show ¬1 < k by omega]

theorem execPtpMessage_first_time (hk : k < 2) (hup : mgmtUp s k = true) (hsrc : ptpSource s k = true)
    (hc : s.everClaimed = false) (ns : Nat) :
    exec (.ptpMessage k (.time ns (rf s K.mgmtPtp 7 0))) s
      = .next (setBit { s with mtime := BitVec.ofNat 96 (2 ^ 32 * ns), lastSample := 0 } K.clkPtp 1 true) := by
  show Host.Outcome.next (ptpMessage k _ s) = _
  simp [ptpMessage, hup, hsrc, hc, show ¬1 < k by omega]

theorem execPtpMessage_time_after_claim (hc : s.everClaimed = true) (ns : Nat) :
    exec (.ptpMessage k (.time ns (rf s K.mgmtPtp 7 0))) s = .next s := by
  show Host.Outcome.next (ptpMessage k _ s) = _
  simp [ptpMessage, hc]

theorem execPtpAnnounceTimeout_source (hsrc : ptpSource s k = true) :
    exec (.ptpAnnounceTimeout k) s = .next (choosePtp { s with ptp := s.ptp.set k none }) :=
  congrArg Host.Outcome.next (if_pos hsrc)

theorem execPtpAnnounceTimeout_other (hsrc : ptpSource s k = false) : exec (.ptpAnnounceTimeout k) s = .next s :=
  congrArg Host.Outcome.next (if_neg (by simp [hsrc]))

end

/-- Settles O16: each message by its equation, then what the servo and the step of MTIME write. -/
theorem ptpDiscipline : Obligations.PtpDiscipline := by
  intro s k hk
  refine ⟨fun p1 cc ac va p2 id st hup => execPtpMessage_announce hk hup p1 cc ac va p2 id st,
    fun ns hup hsrc => ⟨_, execPtpMessage_offset hk hup hsrc ns, ?_, servo_mtime _, servo_increment _⟩,
    fun ns hup hsrc hc => ⟨_, execPtpMessage_first_time hk hup hsrc hc ns, rfl, bit_setBit _ _ _ _ (by decide), ?_⟩,
    fun ns hc => execPtpMessage_time_after_claim hc ns, execPtpAnnounceTimeout_source, execPtpAnnounceTimeout_other⟩
  · rw [servo_rd_ne (by decide) (by decide) (by decide), rd_wr, if_pos rfl]
  · rw [setBit_granary]
    rfl

end Sys2Proof.Machine

/-! PROOF. One arbitration round of a granary channel (R19, R20, R21, R24, R404). -/

namespace Sys2Proof.Machine

/-! ### 64-bit counters -/

/-- A 64-bit value that was written is read back. -/
theorem rd64_wr64 (s : State) (k : Nat) {v : Nat} (hv : v < 2 ^ 64) : rd64 (wr64 s k v) k = v := by
  unfold rd64 wr64
  rw [rd_wr, if_neg (by omega), rd_wr, if_pos rfl, rd_wr, if_pos rfl]
  omega

/-- A 64-bit write leaves a 64-bit value whose words are others. -/
theorem rd64_wr64_ne (s : State) {k j : Nat} (v : Nat) (h : k ≠ j) (hlo : k ≠ j + 4) (hhi : k + 4 ≠ j) :
    rd64 (wr64 s k v) j = rd64 s j := by
  unfold rd64 wr64
  rw [rd_wr, if_neg hhi, rd_wr, if_neg h, rd_wr, if_neg (by omega), rd_wr, if_neg hlo]

theorem rd64_satIncr_ne (s : State) {k j : Nat} (n : Nat) (hlo : k ≠ j) (hhi : k ≠ j + 4) :
    rd64 (satIncr s k n) j = rd64 s j := by
  unfold rd64
  rw [rd_satIncr_ne _ _ _ _ hlo, rd_satIncr_ne _ _ _ _ hhi]

/-! ### The grants of one class -/

/-- A queued write, marked as granted when its request is among the granted ones. -/
def markGranted (l : List (Option Nat)) (w : GWrite) : GWrite := if some w.id ∈ l then { w with granted := true } else w

theorem markGranted_append (l m : List (Option Nat)) (w : GWrite) :
    markGranted m (markGranted l w) = markGranted (l ++ m) w := by
  unfold markGranted
  by_cases hl : some w.id ∈ l <;> by_cases hm : some w.id ∈ m <;> simp [hl, hm]

/-- The requests without an identity are the reads. -/
theorem length_sub_filterMap (l : List (Option Nat)) : l.length - (l.filterMap id).length = l.countP Option.isNone := by
  have hreads : l.countP (fun o => decide ¬(id o).isSome = true) = l.countP Option.isNone :=
    List.countP_congr fun o _ => by cases o <;> simp
  rw [List.length_filterMap_eq_countP, List.length_eq_countP_add_countP (fun o => (id o).isSome), hreads, Nat.add_sub_cancel_left]

/-- One class's part of a round: its first g requests are granted and counted, and a round that leaves some waiting
counts as a stall. -/
def classRound (chan c : Nat) (l : List (Option Nat)) (g : Nat) (s : State) : State :=
  let s := grantFirst s chan c (l.take g)
  let s := wr64 s (K.grnGrantLo (chan / 32) c) ((rd64 s (K.grnGrantLo (chan / 32) c) + g) % 2 ^ 64)
  if g < l.length then satIncr s (K.grnStall (chan / 32) c) 1 else s

section
variable (chan c : Nat) (l : List (Option Nat)) (g : Nat) (s : State)

theorem classRound_gwq : (classRound chan c l g s).gwq = s.gwq.map (markGranted (l.take g)) := by
  have hfirst : (grantFirst s chan c (l.take g)).gwq = s.gwq.map (markGranted (l.take g)) := by
    simp [grantFirst, markGranted]
  simp [classRound, apply_ite State.gwq, hfirst]

theorem classRound_readGrants : (classRound chan c l g s).readGrants = mset (fun _ => 0) s.readGrants (4 * chan + c)
    (mget (fun _ => 0) s.readGrants (4 * chan + c) + (l.take g).countP Option.isNone) := by
  rw [← length_sub_filterMap]
  simp [classRound, apply_ite State.readGrants, grantFirst]

theorem classRound_working : working (classRound chan c l g s) = working s := by
  have hfirst : working (grantFirst s chan c (l.take g)) = working s := rfl
  simp [classRound, hfirst]

theorem classRound_out : (classRound chan c l g s).out = s.out := by
  have hfirst : (grantFirst s chan c (l.take g)).out = s.out := rfl
  simp [classRound, apply_ite State.out, hfirst]

variable {chan c s}

/-- A stall counts in no counter of grants. -/
theorem rd64_stall {k j : Nat} (hj : j < 4) (n : Nat) :
    rd64 (satIncr s (K.grnStall k c) n) (K.grnGrantLo k j) = rd64 s (K.grnGrantLo k j) := by
  apply rd64_satIncr_ne <;> simp only [K.grnStall, K.grnGrantLo] <;> omega

/-- The class's grants are added to its counter, and the other classes' counters stay. -/
theorem classRound_grants {j : Nat} (hj : j < 4) : rd64 (classRound chan c l g s) (K.grnGrantLo (chan / 32) j)
    = if c = j then (rd64 s (K.grnGrantLo (chan / 32) j) + g) % 2 ^ 64 else rd64 s (K.grnGrantLo (chan / 32) j) := by
  have hfirst : rd64 (grantFirst s chan c (l.take g)) = rd64 s := rfl
  simp only [classRound, apply_ite (rd64 · (K.grnGrantLo (chan / 32) j)), rd64_stall hj, hfirst, ite_self]
  split
  · next h =>
    subst h
    exact rd64_wr64 _ _ (Nat.mod_lt _ (by decide))
  · next h =>
    have hne : ∀ v, rd64 (wr64 (grantFirst s chan c (l.take g)) (K.grnGrantLo (chan / 32) c) v) (K.grnGrantLo (chan / 32) j)
        = rd64 (grantFirst s chan c (l.take g)) (K.grnGrantLo (chan / 32) j) := by
      intro v
      apply rd64_wr64_ne <;> simp only [K.grnGrantLo] <;> omega
    rw [hne, hfirst]

end

/-! ### The classes one after another -/

/-- A quantity of each class that only the class's own step changes is changed once. -/
theorem foldl_own {β : Type} {f : State → Nat → State} {v : State → Nat → β} {upd : Nat → β → β}
    (hown : ∀ s c, c < 4 → v (f s c) c = upd c (v s c)) (hother : ∀ s c j, j < 4 → c ≠ j → v (f s c) j = v s j)
    {cs : List Nat} (hnd : cs.Nodup) {j : Nat} (hj : j < 4) (s : State) :
    v (cs.foldl f s) j = if j ∈ cs then upd j (v s j) else v s j := by
  induction cs generalizing s with
  | nil => rfl
  | cons c cs ih =>
    obtain ⟨hfresh, hnd⟩ := List.nodup_cons.1 hnd
    rw [List.foldl_cons, ih hnd]
    by_cases hc : c = j
    · subst hc
      simp [hfresh, hown s c hj]
    · simp [hother s c j hj hc, Ne.symm hc]

section
variable (chan : Nat) (reqs : Nat → List (Option Nat)) (grants : Nat → Nat)

/-- The parts of some classes, in order. -/
def classRounds (cs : List Nat) (s : State) : State := cs.foldl (fun s c => classRound chan c (reqs c) (grants c) s) s

variable (cs : List Nat) (s : State)

theorem classRounds_gwq : (classRounds chan reqs grants cs s).gwq
    = s.gwq.map (markGranted (cs.flatMap fun c => (reqs c).take (grants c))) := by
  induction cs generalizing s with
  | nil => exact (List.map_id _).symm
  | cons c cs ih =>
    refine (ih _).trans ?_
    rw [classRound_gwq, List.map_map, List.flatMap_cons]
    exact List.map_congr_left fun w _ => markGranted_append ..

theorem classRounds_working : working (classRounds chan reqs grants cs s) = working s :=
  foldl_working fun _ _ => classRound_working ..

theorem classRounds_out : (classRounds chan reqs grants cs s).out = s.out := by
  induction cs generalizing s with
  | nil => rfl
  | cons c cs ih => exact (ih _).trans (classRound_out ..)

variable {cs}

theorem classRounds_grants (hnd : cs.Nodup) {c : Nat} (hc : c < 4) :
    rd64 (classRounds chan reqs grants cs s) (K.grnGrantLo (chan / 32) c) = if c ∈ cs then
      (rd64 s (K.grnGrantLo (chan / 32) c) + grants c) % 2 ^ 64 else rd64 s (K.grnGrantLo (chan / 32) c) :=
  foldl_own (v := fun s c => rd64 s (K.grnGrantLo (chan / 32) c)) (upd := fun c n => (n + grants c) % 2 ^ 64)
    (fun _ _ hc => (classRound_grants _ _ hc).trans (if_pos rfl))
    (fun _ _ _ hj h => (classRound_grants _ _ hj).trans (if_neg h)) hnd hc s

theorem classRounds_readGrants (hnd : cs.Nodup) {c : Nat} (hc : c < 4) :
    mget (fun _ => 0) (classRounds chan reqs grants cs s).readGrants (4 * chan + c) = if c ∈ cs then
      mget (fun _ => 0) s.readGrants (4 * chan + c) + ((reqs c).take (grants c)).countP Option.isNone
      else mget (fun _ => 0) s.readGrants (4 * chan + c) :=
  foldl_own (v := fun s c => mget (fun _ => 0) s.readGrants (4 * chan + c))
    (upd := fun c n => n + ((reqs c).take (grants c)).countP Option.isNone)
    (fun _ _ _ => by rw [classRound_readGrants, mget_set, if_pos rfl])
    (fun _ _ _ _ h => by rw [classRound_readGrants, mget_set, if_neg (by omega)]) hnd hc s

end

/-! ### A whole round -/

/-- The requests of each class, in order of arrival. -/
def roundRequests (s : State) (chan : Nat) (q0 q1 q2 q3 : List Bool) (c : Nat) : List (Option Nat) :=
  requestOrder ([q0, q1, q2, q3].getD c []) (waitingWrites s chan c)

/-- The grants of each class, own and lent. -/
def classGrants (s : State) (chan : Nat) (reqs : Nat → List (Option Nat)) (c : Nat) : Nat :=
  (roundGrants s chan [(reqs 0).length, (reqs 1).length, (reqs 2).length, (reqs 3).length]).2.getD c 0

/-- A round is the four classes' parts, after the rotation of lent grants is noted. -/
theorem granaryRound_eq (s : State) (chan : Nat) (q0 q1 q2 q3 : List Bool) : ∃ last,
    granaryRound s chan [q0, q1, q2, q3] = classRounds chan (roundRequests s chan q0 q1 q2 q3)
      (classGrants s chan (roundRequests s chan q0 q1 q2 q3)) [0, 1, 2, 3] { s with lentLast := last } :=
  ⟨_, rfl⟩

/-- A class is granted at least its own share (R20, R21). -/
theorem ownShare_le_classGrants (s : State) (chan : Nat) (reqs : Nat → List (Option Nat)) {c : Nat} (hc : c < 4) :
    min (reqs c).length (fld (rd s (K.grnWeight (chan / 32))) (8 * c + 7) (8 * c) * grantLimit s (chan / 32) / 100)
      ≤ classGrants s chan reqs c := by
  have hlen : [(reqs 0).length, (reqs 1).length, (reqs 2).length, (reqs 3).length].getD c 0 = (reqs c).length := by
    interval_cases c <;> rfl
  unfold classGrants roundGrants
  simp [List.getD_eq_getElem?_getD, hc, ownGrants] at hlen ⊢
  omega

/-- Settles O12: a round is the four classes' parts. -/
theorem granaryArbitration : Obligations.GranaryArbitration := by
  intro s chan q0 q1 q2 q3 reqs grants
  obtain ⟨last, hround⟩ := granaryRound_eq s chan q0 q1 q2 q3
  refine ⟨_, congrArg Host.Outcome.next hround, fun c hc => ?_, fun c hc => ownShare_le_classGrants s chan reqs hc, ?_,
    fun c hc => ?_, classRounds_working .., classRounds_out ..⟩
  · rw [classRounds_grants _ _ _ _ (by decide) hc, if_pos (by simp; omega)]
    rfl
  · exact classRounds_gwq ..
  · rw [classRounds_readGrants _ _ _ _ (by decide) hc, if_pos (by simp; omega)]
    rfl

end Sys2Proof.Machine

/-! PROOF. Service commands leave the working units alone (R49, R303, R382, R403, R453). -/

namespace Sys2Proof.Machine

/-- A service command leaves the working units as they were: each by its own law, the others are not in the list. -/
theorem exec_working {c : Instr} (hc : leavesWork c = true) {s t : State} (h : exec c s = .next t) :
    working t = working s := by
  cases c with
  | unalignedAccess a => exact execUnalignedAccess_working a s t h
  | unmappedAccess a read wide => exact execUnmappedAccess_working a read wide s t h
  | blkExpert a v => exact execBlkExpert_working a v s t h
  | pageDiscard a v => exact execPageDiscard_working a v s t h
  | granaryRound chan q0 q1 q2 q3 => exact execGranaryRound_working chan q0 q1 q2 q3 s t h
  | pllRelockDone f => exact execPllRelockDone_working f s t h
  | ptpAnnounceTimeout link => exact execPtpAnnounceTimeout_working link s t h
  | retireStall => exact execRetireStall_working s t h
  | rebuild a v => exact execRebuild_working a v s t h
  | tokenArea src => exact execTokenArea_working src s t h
  | heldBatchPost func => exact execHeldBatchPost_working func s t h
  | pause a v => exact execPause_working a v s t h
  | pauseClear a v => exact execPauseClear_working a v s t h
  | nop src => exact execNop_working src s t h
  | sqDoorbell a v => exact execSqDoorbell_working a v s t h
  | eqHeadDoorbell a v => exact execEqHeadDoorbell_working a v s t h
  | sqCfgWrite a v => exact execSqCfgWrite_working a v s t h
  | eqCfgWrite a v => exact execEqCfgWrite_working a v s t h
  | commandFetchReturn func ring data => exact execCommandFetchReturn_working func ring data s t h
  | cmdFetch func ring => exact execCmdFetch_working func ring s t h
  | bar2Access port func rid off wr data => exact execBar2Access_working port func rid off wr data s t h
  | identSend a v => exact execIdentSend_working a v s t h
  | heartbeatTimer => exact execHeartbeatTimer_working s t h
  | livenessTick => exact execLivenessTick_working s t h
  | request link mac frame => exact execRequest_working link mac frame s t h
  | relearn a v => exact execRelearn_working a v s t h
  | mgmtLinkChange link up pol => exact execMgmtLinkChange_working link up pol s t h
  | fwWrite src => exact execFwWrite_working src s t h
  | fwWriteDone => exact execFwWriteDone_working s t h
  | fwActivate src => exact execFwActivate_working src s t h
  | fwSvnCommit src => exact execFwSvnCommit_working src s t h
  | setInstall src => exact execSetInstall_working src s t h
  | setRemove src => exact execSetRemove_working src s t h
  | mgmtKeyInstall src => exact execMgmtKeyInstall_working src s t h
  | bundleLoad src => exact execBundleLoad_working src s t h
  | bundleUnload src => exact execBundleUnload_working src s t h
  | getVersion port => exact execGetVersion_working port s t h
  | getCapabilities port => exact execGetCapabilities_working port s t h
  | negotiateAlgorithms port offered => exact execNegotiateAlgorithms_working port offered s t h
  | getDigests port sess => exact execGetDigests_working port sess s t h
  | getCertificate port sess slot off len => exact execGetCertificate_working port sess slot off len s t h
  | finish port sess leaf sig mac => exact execFinish_working port sess leaf sig mac s t h
  | keyUpdate port sess op => exact execKeyUpdate_working port sess op s t h
  | spdmHeartbeat port sess => exact execSpdmHeartbeat_working port sess s t h
  | endSession port sess => exact execEndSession_working port sess s t h
  | keyList port sess => exact execKeyList_working port sess s t h
  | pwrSetCap src => exact execPwrSetCap_working src s t h
  | pwrPool src => exact execPwrPool_working src s t h
  | fastLoop raw add => exact execFastLoop_working raw add s t h
  | capMet => exact execCapMet_working s t h
  | powerSample vin ma code atEnd => exact execPowerSample_working vin ma code atEnd s t h
  | sensorOk => exact execSensorOk_working s t h
  | estimateWindow => exact execEstimateWindow_working s t h
  | mismatchOn => exact execMismatchOn_working s t h
  | mismatchOff => exact execMismatchOff_working s t h
  | learnerPeriod pfix dg dv fields => exact execLearnerPeriod_working pfix dg dv fields s t h
  | brakeOn => exact execBrakeOn_working s t h
  | brakeClockDrop => exact execBrakeClockDrop_working s t h
  | brakeOff => exact execBrakeOff_working s t h
  | droop f => exact execDroop_working f s t h
  | poolRound => exact execPoolRound_working s t h
  | poolRecordTimeout => exact execPoolRecordTimeout_working s t h
  | poolStale => exact execPoolStale_working s t h
  | poolShareRise => exact execPoolShareRise_working s t h
  | junctionSample raw => exact execJunctionSample_working raw s t h
  | thermalThrottleStep => exact execThermalThrottleStep_working s t h
  | hbmTempSample raw => exact execHbmTempSample_working raw s t h
  | operatingTimeSave => exact execOperatingTimeSave_working s t h
  | coolantSample tin tout finn fout => exact execCoolantSample_working tin tout finn fout s t h
  | flowLow => exact execFlowLow_working s t h
  | leakSample wet lead => exact execLeakSample_working wet lead s t h
  | leak => exact execLeak_working s t h
  | thmLeakClr a v => exact execThmLeakClr_working a v s t h
  | learnReset a v => exact execLearnReset_working a v s t h
  | inputHigh mv => exact execInputHigh_working mv s t h
  | partSetup src => exact execPartSetup_working src s t h
  | partLeave src => exact execPartLeave_working src s t h
  | fenceCert src => exact execFenceCert_working src s t h
  | fenced => exact execFenced_working s t h
  | shadowElder src peer => exact execShadowElder_working src peer s t h
  | shadowJoin src peerOk => exact execShadowJoin_working src peerOk s t h
  | shadowEnd src => exact execShadowEnd_working src s t h
  | mirrorAckTimer => exact execMirrorAckTimer_working s t h
  | shadowLost => exact execShadowLost_working s t h
  | snapshot src => exact execSnapshot_working src s t h
  | globalReset src => exact execGlobalReset_working src s t h
  | wiringPlan src => exact execWiringPlan_working src s t h
  | tallyAdd a v => exact execTallyAdd_working a v s t h
  | up port rid off data => exact execUp_working port rid off data s t h
  | down port rid off data => exact execDown_working port rid off data s t h
  | data port rid off data => exact execData_working port rid off data s t h
  | mirrorAck port rid off data => exact execMirrorAck_working port rid off data s t h
  | tallyStall c => exact execTallyStall_working c s t h
  | prsntEarlyMade cold => exact execPrsntEarlyMade_working cold s t h
  | leverOpen cold => exact execLeverOpen_working cold s t h
  | trayCfg src => exact execTrayCfg_working src s t h
  | trayRemove src => exact execTrayRemove_working src s t h
  | trayResume src => exact execTrayResume_working src s t h
  | ledLine line => exact execLedLine_working line s t h
  | ledRetry line => exact execLedRetry_working line s t h
  | preheatDone => exact execPreheatDone_working s t h
  | moduleResetWarm src => exact execModuleResetWarm_working src s t h
  | moduleResetCold src => exact execModuleResetCold_working src s t h
  | calSaveDone => exact execCalSaveDone_working s t h
  | faultRead src => exact execFaultRead_working src s t h
  | faultAck src => exact execFaultAck_working src s t h
  | railRampDone f => exact execRailRampDone_working f s t h
  | droopRecovered f cycles => exact execDroopRecovered_working f cycles s t h
  | msixTableWrite port func off v => exact execMsixTableWrite_working port func off v s t h
  | _ => cases hc

/-- Settles O6, by `exec_working`. -/
theorem workingFrame : Obligations.WorkingFrame :=
  fun _ _ _ hc h => exec_working hc h

end Sys2Proof.Machine

/-! PROOF. The common header's places have no staged bits and reset to 0, and what reset leaves (R43, R45, R46, R64, R128,
R149, R461). -/

namespace Sys2Proof.Machine

/-! ### Places of the common header -/

/-- No register of the common header is staged, and each resets to 0 (R43). -/
theorem findReg_header {ty off : Nat} (h : off < 0x40) {d : RegDef} (hd : findReg ty off = some d) :
    d.rws = 0 ∧ d.reset = 0 := by
  rw [findReg, if_pos h] at hd
  have hmem : d ∈ regsHeader := List.mem_of_find?_eq_some hd
  simp only [regsHeader, List.mem_cons, List.not_mem_nil, or_false] at hmem
  rcases hmem with rfl | rfl | rfl <;> exact ⟨rfl, rfl⟩

theorem regReset_header {k : Nat} (h : k % 0x1000 < 0x40) : regReset k = 0 := by
  unfold regReset
  split
  · next d hd => rw [(findReg_header h hd).2]; rfl
  · rfl

theorem isStagedKey_header {k : Nat} (page : Nat) (h : k % 0x1000 < 0x40) : isStagedKey page k = false := by
  unfold isStagedKey
  split
  · next d hd => simp [(findReg_header h hd).1]
  · simp

/-- Settles O2: every part of the state is empty right after reset, and BLK_ERR is a header register. -/
theorem resetState : Obligations.ResetState :=
  ⟨rfl, rfl, fun _ => rfl, fun _ => rfl,
    fun p => congrArg BitVec.toNat (regReset_header (k := K.blkErr p) (by simp only [K.blkErr]; omega)),
    fun _ _ => rfl, rfl, rfl, rfl, fun _ => ⟨rfl, rfl, rfl⟩, fun _ => rfl⟩

end Sys2Proof.Machine

/-! PROOF. Expert unlock, error clear and soft reset (R43, R44, R45, R46, R47, R476). -/

namespace Sys2Proof.Machine

section
variable {s : State} {a : Access} {pl : Place} {v : Nat}

/-! ### BLK_EXPERT -/

/-- A page unlocked for a function (R46). -/
def unlock (s : State) (page func : Nat) : State :=
  if isUnlocked s page func then s else { s with unlocked := s.unlocked ++ [(page, func)] }

/-- A page locked again for a function (R48). -/
def relock (s : State) (page func : Nat) : State := { s with unlocked := s.unlocked.filter (· != (page, func)) }

theorem isUnlocked_unlock (page func : Nat) : isUnlocked (unlock s page func) page func = true := by
  unfold unlock
  split
  · assumption
  · simp [isUnlocked]

theorem unlock_regs (page func : Nat) : (unlock s page func).regs = s.regs := by
  unfold unlock; split <;> rfl

theorem unlock_working (page func : Nat) : working (unlock s page func) = working s := by
  unfold unlock; split <;> rfl

theorem isUnlocked_relock (page func : Nat) : isUnlocked (relock s page func) page func = false := by
  simp [relock, isUnlocked]

theorem execBlkExpert_unlocks (h : Reaches s a pl) (ho : pl.off = 0xC) (hv : v % 2 ^ 16 = 0x4C51)
    (hm : mayUnlock s a.func = true) : exec (.blkExpert a v) s = .next (unlock s pl.page a.func) := by
  show execBlkExpert a v s = _
  rw [execBlkExpert, atPlace_reaches h, if_neg (by simp [ho]), if_pos hv, if_neg (by simp [hm])]
  rfl

theorem execBlkExpert_denied (h : Reaches s a pl) (ho : pl.off = 0xC) (hv : v % 2 ^ 16 = 0x4C51)
    (hm : mayUnlock s a.func = false) :
    exec (.blkExpert a v) s = .next (recordErr s pl.page eExpertDenied a.func 0xC) := by
  show execBlkExpert a v s = _
  rw [execBlkExpert, atPlace_reaches h, if_neg (by simp [ho]), if_pos hv, if_pos (by simp [hm])]

theorem execBlkExpert_relocks (h : Reaches s a pl) (ho : pl.off = 0xC) (hv : v % 2 ^ 16 ≠ 0x4C51) :
    exec (.blkExpert a v) s = .next (relock s pl.page a.func) := by
  show execBlkExpert a v s = _
  rw [execBlkExpert, atPlace_reaches h, if_neg (by simp [ho]), if_neg hv]
  rfl

/-! ### BLK_ERR -/

theorem execBlkErrClear_plain (h : Reaches s a pl) (ho : pl.off = 0x20) (hv : bit v 31 = true)
    (ht : pageType pl.page ≠ 0x11) : exec (.blkErrClear a v) s = .next (clearErr s pl.page) := by
  show execBlkErrClear a v s = _
  rw [execBlkErrClear, atPlace_reaches h, if_pos (by simp [ho, hv])]
  dsimp only
  rw [if_neg ht]

theorem execBlkErrClear_wain (h : Reaches s a pl) (ho : pl.off = 0x20) (hv : bit v 31 = true)
    (ht : pageType pl.page = 0x11) :
    exec (.blkErrClear a v) s = .next (startChain (clearErr s pl.page) (wainOf pl.page)) := by
  show execBlkErrClear a v s = _
  rw [execBlkErrClear, atPlace_reaches h, if_pos (by simp [ho, hv])]
  dsimp only
  rw [if_pos ht]

/-- Clearing an error writes BLK_ERR and BLK_ERR_INFO alone. -/
theorem rd_clearErr (page k : Nat) : rd (clearErr s page) k =
    if k = K.blkErr page ∨ k = K.blkErrInfo page then 0 else rd s k := by
  show rd (wr (wr s (K.blkErr page) 0) (K.blkErrInfo page) 0) k = _
  rw [rd_wr, rd_wr]
  by_cases he : k = K.blkErr page <;> by_cases hi : k = K.blkErrInfo page <;> simp [he, hi, eq_comm]

/-! ### BLK_CTRL.SRESET -/

theorem execSreset_accepted (h : Reaches s a pl) (ho : pl.off = 0x10) (hv : bit v 0 = true)
    (hp : acceptsSreset pl.page = true) : exec (.sreset a v) s = .next (softReset s pl.page) := by
  show execSreset a v s = _
  rw [execSreset, atPlace_reaches h, if_neg (by simp [ho, hv]), if_pos hp]

theorem execSreset_refused (h : Reaches s a pl) (ho : pl.off = 0x10) (hv : bit v 0 = true)
    (hp : acceptsSreset pl.page = false) :
    exec (.sreset a v) s = .next (recordErr s pl.page eSresetRefused a.func 0x10) := by
  show execSreset a v s = _
  rw [execSreset, atPlace_reaches h, if_neg (by simp [ho, hv]), if_neg (by simp [hp])]

end

/-! ### A soft reset of a stack, attention, gleaner or video page -/

/-- Dropping entries by key leaves what is kept and the default elsewhere. -/
theorem mget_filter_key {α : Type} {d : Nat → α} (p : Nat → Bool) (m : Map α) (k : Nat) :
    mget d (m.filter fun e => p e.1) k = if p k then mget d m k else d k := by
  induction m with
  | nil => simp [mget]
  | cons e m ih =>
    obtain ⟨j, w⟩ := e
    by_cases hj : j = k
    · subst hj
      by_cases hp : p j <;> simp [mget, hp, ih]
    · by_cases hp : p j <;> simp [mget, hp, hj, ih]

/-- Whether a page reset keeps a register place: that of another page, BLK_IRQ_EN and the version (R45). -/
def keptAtReset (page k : Nat) : Bool := homePage (k / 0x1000) != page || k == K.blkIrqEn page || k == K.blkPagever page

theorem rd_resetPage (s : State) (page k : Nat) :
    rd (resetPage s page) k = if keptAtReset page k then rd s k else (regReset k).toNat := by
  show (mget regReset (s.regs.filter fun e => keptAtReset page e.1) k).toNat = _
  rw [mget_filter_key, apply_ite BitVec.toNat]
  rfl

theorem homePage_header {page : Nat} (h : page < 0x1000) {off : Nat} (ho : off < 0x1000) :
    homePage ((0x1000 * page + off) / 0x1000) = page := by
  unfold homePage
  rw [if_neg (by omega)]
  omega

@[simp] theorem rd_markClash (s : State) (page k : Nat) : rd (markClash s page) k = rd s k := rfl
@[simp] theorem isUnlocked_markClash (s : State) (page p f : Nat) : isUnlocked (markClash s page) p f = isUnlocked s p f := rfl
@[simp] theorem isUnlocked_bumpVer (s : State) (page p f : Nat) : isUnlocked (bumpVer s page) p f = isUnlocked s p f := rfl

theorem isUnlocked_relockPage (s : State) (page f : Nat) : isUnlocked (relockPage s page) page f = false := by
  simp [relockPage, isUnlocked]

/-- The pages whose soft reset ends no work of a channel, bay or core: stacks, attention, gleaner and video. -/
def plainReset (page : Nat) : Prop := page ∈ [0x40, 0x41, 0x42, 0x43, 0x51, 0x52, 0x60]

/-- A plain page with every register but the kept ones reset and relocked for every function (R45, R476). -/
def cleanPage (s : State) (page : Nat) : State :=
  let s := resetPage (wf s K.sysResetCause 3 0 1) page
  relockPage { s with irqHigh := s.irqHigh.filter (· != page), lockSeen := s.lockSeen.filter (· != page) } page

theorem rd_cleanPage (s : State) (page k : Nat) : rd (cleanPage s page) k =
    if keptAtReset page k then rd (wf s K.sysResetCause 3 0 1) k else (regReset k).toNat := rd_resetPage ..

/-- Such a reset cleans the page, steps its version and, beside that, only sets a stack's count of retired granules or empties
the gleaner's counters. -/
theorem softReset_plain (s : State) {page : Nat} (h : plainReset page) : ∃ t,
    softReset s page = markClash (bumpVer t page) page ∧ t.unlocked = (cleanPage s page).unlocked ∧
      ∀ k, k ≠ K.grnRetired (page - 0x40) → rd t k = rd (cleanPage s page) k := by
  have hty : pageType page = 0x12 ∨ pageType page = 0x14 ∨ pageType page = 0x15 ∨ pageType page = 0x18 := by
    simp only [plainReset, List.mem_cons, List.not_mem_nil, or_false] at h
    rcases h with rfl | rfl | rfl | rfl | rfl | rfl | rfl <;> decide
  unfold softReset
  rcases hty with ht | ht | ht | ht
  · refine ⟨wr (cleanPage s page) (K.grnRetired (page - 0x40)) _, by simp [ht, cleanPage]; rfl, rfl, fun k hk => ?_⟩
    rw [rd_wr, if_neg hk.symm]
  · exact ⟨cleanPage s page, by simp [ht, cleanPage], rfl, fun _ _ => rfl⟩
  · exact ⟨{ cleanPage s page with unitTokens := (cleanPage s page).unitTokens.filter fun e => decide (16 ≤ e.1) },
      by simp [ht, cleanPage], rfl, fun _ _ => rfl⟩
  · exact ⟨cleanPage s page, by simp [ht, cleanPage], rfl, fun _ _ => rfl⟩

section
variable (s : State) {page : Nat}

theorem plainReset_bounds (h : plainReset page) : 0x40 ≤ page ∧ page ≤ 0x60 := by
  simp only [plainReset, List.mem_cons, List.not_mem_nil, or_false] at h
  omega

theorem acceptsSreset_plain (h : plainReset page) : acceptsSreset page = true := by
  simp only [plainReset, List.mem_cons, List.not_mem_nil, or_false] at h
  rcases h with rfl | rfl | rfl | rfl | rfl | rfl | rfl <;> decide

/-- Every header place but BLK_IRQ_EN and the version reads 0 on a clean page. -/
theorem rd_cleanPage_header (h : page < 0x1000) {off : Nat} (ho : off < 0x40) (he : off ≠ 0x1C) (hv : off ≠ 0x2C) :
    rd (cleanPage s page) (0x1000 * page + off) = 0 := by
  have hk : keptAtReset page (0x1000 * page + off) = false := by
    simp [keptAtReset, homePage_header h (show off < 0x1000 by omega), he, hv]
  rw [rd_cleanPage, if_neg (by simp [hk]), regReset_header (by omega)]
  rfl

theorem rd_cleanPage_pagever : rd (cleanPage s page) (K.blkPagever page) = rd s (K.blkPagever page) := by
  rw [rd_cleanPage, if_pos (by simp [keptAtReset]), rd_wf_ne _ _ _ _ _ _ (by simp only [K.sysResetCause, K.blkPagever]; omega)]

/-- RESET_CAUSE lies in the SYS page, so a reset of another page leaves the cause just written. -/
theorem rf_cleanPage_cause (h : 0 < page) : rf (cleanPage s page) K.sysResetCause 3 0 = 1 := by
  have hk : keptAtReset page K.sysResetCause = true := by
    have hhome : homePage (K.sysResetCause / 0x1000) = 0 := by decide
    simp [keptAtReset, hhome, h.ne]
  rw [rf, rd_cleanPage, if_pos hk]
  exact rf_wf s K.sysResetCause 3 0 1 (by omega) (by omega)

/-- What a plain soft reset leaves in the header and in RESET_CAUSE. -/
theorem softReset_plain_header (h : plainReset page) :
    rd (softReset s page) (K.blkErr page) = 0 ∧
      rd (softReset s page) (K.blkPagever page) = (rd s (K.blkPagever page) + 1) % 2 ^ 16 ∧
      rf (softReset s page) K.sysResetCause 3 0 = 1 ∧ ∀ f, isUnlocked (softReset s page) page f = false := by
  obtain ⟨hlo, hhi⟩ := plainReset_bounds h
  obtain ⟨t, ht, hu, hr⟩ := softReset_plain s h
  have hver : rd t (K.blkPagever page) = rd s (K.blkPagever page) := by
    rw [hr _ (by simp only [K.blkPagever, K.grnRetired]; omega), rd_cleanPage_pagever]
  have hbump : ∀ k, k ≠ K.blkPagever page → rd (bumpVer t page) k = rd t k := fun k hk => by
    rw [bumpVer, rd_wr, if_neg hk.symm]
  rw [ht]
  refine ⟨?_, ?_, ?_, fun f => ?_⟩
  · rw [rd_markClash, hbump _ (by simp only [K.blkErr, K.blkPagever]; omega),
      hr _ (by simp only [K.blkErr, K.grnRetired]; omega), rd_cleanPage_header s (by omega) (by omega) (by omega) (by omega)]
  · rw [rd_markClash, bumpVer, rd_wr, if_pos rfl, hver, Nat.mod_eq_of_lt (by omega)]
  · rw [rf, rd_markClash, hbump _ (by simp only [K.sysResetCause, K.blkPagever]; omega),
      hr _ (by simp only [K.sysResetCause, K.grnRetired]; omega)]
    exact rf_cleanPage_cause s (by omega)
  · rw [isUnlocked_markClash, isUnlocked_bumpVer, isUnlocked, hu]
    exact isUnlocked_relockPage _ page f

end

/-- Settles O10: each header command is one branch of its write; a plain soft reset by `softReset_plain_header`. -/
theorem headerCommands : Obligations.HeaderCommands := by
  intro s a pl v h
  refine ⟨fun ho hv hm => ⟨_, execBlkExpert_unlocks h ho hv hm, isUnlocked_unlock .., unlock_regs .., unlock_working ..⟩,
    execBlkExpert_denied h,
    fun ho hv => ⟨_, execBlkExpert_relocks h ho hv, isUnlocked_relock .., rfl, rfl⟩,
    fun ho hv ht => ⟨_, execBlkErrClear_plain h ho hv ht, ?_, ?_, fun k he hi => ?_, ?_⟩,
    execBlkErrClear_wain h, execSreset_accepted h, fun ho hv hp => ?_, execSreset_refused h⟩
  · rw [rd_clearErr, if_pos (.inl rfl)]
  · rw [rd_clearErr, if_pos (.inr rfl)]
  · rw [rd_clearErr, if_neg (by tauto)]
  · simp [clearErr]
  · obtain ⟨herr, hver, hcause, hlock⟩ := softReset_plain_header s hp
    exact ⟨_, execSreset_accepted h ho hv (acceptsSreset_plain hp), herr, hver, hcause, hlock, softReset_granary s pl.page⟩

end Sys2Proof.Machine

/-! PROOF. Page commit and discard (R50, R51, R52, R326). -/

namespace Sys2Proof.Machine

/-! ### All staged values of a page at once -/

/-- What each key of a list alone changes, and changes from its own value, is changed once by a run over the list. -/
theorem foldl_own_key {β : Type} {f : State → Nat → State} {v : State → Nat → β} {upd : Nat → β → β}
    (hown : ∀ s k, v (f s k) k = upd k (v s k)) (hother : ∀ s j k, j ≠ k → v (f s j) k = v s k)
    {l : List Nat} (hnd : l.Nodup) (s : State) (k : Nat) :
    v (l.foldl f s) k = if k ∈ l then upd k (v s k) else v s k := by
  induction l generalizing s with
  | nil => rfl
  | cons j l ih =>
    obtain ⟨hfresh, hnd⟩ := List.nodup_cons.1 hnd
    rw [List.foldl_cons, ih hnd]
    by_cases hj : j = k
    · subst hj
      simp [hfresh, hown]
    · simp [hother s j k hj, Ne.symm hj]

/-- The active and the staged value of a place. -/
def regPair (s : State) (k : Nat) : Nat × Nat := (rd s k, rdStaged s k)

theorem stagedKeys_nodup (s : State) (page : Nat) : (stagedKeys s page).Nodup := List.nodup_dedup _

section
variable (s : State) (page k : Nat)

/-- Making a page's staged values active writes the active value of each staged key alone. -/
theorem regPair_applyStaged : regPair (applyStaged s page) k =
    if k ∈ stagedKeys s page then (merge (rd s k) (rdStaged s k) (rwsMask k) % 2 ^ 32, rdStaged s k) else regPair s k := by
  refine foldl_own_key (v := regPair) (upd := fun k x => (merge x.1 x.2 (rwsMask k) % 2 ^ 32, x.2)) (fun s k => ?_)
    (fun s j k hj => ?_) (stagedKeys_nodup s page) s k
  · simp [regPair]
  · simp [regPair, hj]

/-- Discarding a page's staged values writes the staged value of each staged key alone. -/
theorem regPair_discardStaged : regPair (discardStaged s page) k =
    if k ∈ stagedKeys s page then (rd s k, merge (rdStaged s k) (rd s k) (rwsMask k) % 2 ^ 32) else regPair s k := by
  refine foldl_own_key (v := regPair) (upd := fun k x => (x.1, merge x.2 x.1 (rwsMask k) % 2 ^ 32)) (fun s k => ?_)
    (fun s j k hj => ?_) (stagedKeys_nodup s page) s k
  · simp [regPair]
  · simp [regPair, hj]

theorem applyStaged_staged : (applyStaged s page).staged = s.staged := by
  unfold applyStaged
  exact List.foldlRecOn (motive := fun t : State => t.staged = s.staged) _ _ rfl fun _ h _ _ => h

theorem discardStaged_regs : (discardStaged s page).regs = s.regs := by
  unfold discardStaged
  exact List.foldlRecOn (motive := fun t : State => t.regs = s.regs) _ _ rfl fun _ h _ _ => h

/-- The version has no staged bits. -/
theorem blkPagever_not_staged (p : Nat) : K.blkPagever p ∉ stagedKeys s page := by
  have hkey : isStagedKey page (K.blkPagever p) = false := isStagedKey_header page (by simp only [K.blkPagever]; omega)
  simp [stagedKeys, hkey]

/-! ### Commit -/

/-- The state a good commit leaves before the block's own rules: the staged values active and the version stepped. -/
def committed : State := markClash (bumpVer (applyStaged s page) page) page

theorem rd_committed (hk : k ≠ K.blkPagever page) : rd (committed s page) k = rd (applyStaged s page) k := by
  rw [committed, rd_markClash, bumpVer, rd_wr, if_neg hk.symm]

theorem rd_committed_staged (hk : k ∈ stagedKeys s page) :
    rd (committed s page) k = merge (rd s k) (rdStaged s k) (rwsMask k) % 2 ^ 32 := by
  have hpair := regPair_applyStaged s page k
  rw [if_pos hk] at hpair
  rw [rd_committed s page k fun he => blkPagever_not_staged s page page (he ▸ hk)]
  exact congrArg Prod.fst hpair

theorem rd_applyStaged_other (hk : k ∉ stagedKeys s page) : rd (applyStaged s page) k = rd s k := by
  have hpair := regPair_applyStaged s page k
  rw [if_neg hk] at hpair
  exact congrArg Prod.fst hpair

theorem rd_committed_pagever :
    rd (committed s page) (K.blkPagever page) = (rd s (K.blkPagever page) + 1) % 2 ^ 16 := by
  rw [committed, rd_markClash, bumpVer, rd_wr, if_pos rfl, rd_applyStaged_other s page _ (blkPagever_not_staged s page page),
    Nat.mod_eq_of_lt (by omega)]

theorem committed_granary : granary (committed s page) = granary s := by simp [committed]

end

section
variable {s : State} {a : Access} {pl : Place} {v : Nat}

theorem execPageCommit_go (h : Reaches s a pl) (ho : pl.off = 0x30) (hgo : bit v 31 = true) (hd : bit v 30 = false) :
    exec (.pageCommit a v) s = .next (commit s pl.page a v) := by
  show execPageCommit a v s = _
  rw [execPageCommit, atPlace_reaches h, if_pos (by simp [ho, hgo, hd])]

theorem commit_without_claim {page : Nat} (hp : controlPage page = true) (hc : claimCode s (claimKey s a.port) ≠ 0) :
    commit s page a v = raiseIrq (recordErr (refuseAct s (claimKey s a.port) (claimCode s (claimKey s a.port)) 0) page
      (claimCode s (claimKey s a.port)) a.func 0x30) page 1 := by
  simp [commit, hp, hc]

theorem commit_with_claim {page : Nat} (hc : controlPage page = true → claimCode s (claimKey s a.port) = 0) :
    commit s page a v = if commitCode s page v ≠ 0 then raiseIrq (recordErr s page (commitCode s page v) a.func 0x30) page 1
      else raiseIrq (afterApply s (committed s page) page) page 1 := by
  have hclaim : (if controlPage page then claimCode s (claimKey s a.port) else 0) = 0 := by
    split_ifs with hp
    · exact hc hp
    · rfl
  unfold commit
  dsimp only
  rw [hclaim, if_neg (by simp)]
  rfl

theorem execPageDiscard_discards (h : Reaches s a pl) (ho : pl.off = 0x30) (hd : bit v 30 = true) :
    exec (.pageDiscard a v) s = .next (raiseIrq (discardStaged s pl.page) pl.page 1) := by
  show execPageDiscard a v s = _
  rw [execPageDiscard, atPlace_reaches h, if_pos (by simp [ho, hd])]

end

/-- Settles O11: a good commit by `rd_committed` and its siblings, the failures and the discard by their branches. -/
theorem commitMakesStagedValuesActive : Obligations.CommitMakesStagedValuesActive := by
  intro s a pl v h ho
  refine ⟨fun hgo hd hc hcode => ⟨committed s pl.page, ?_, rd_committed_staged s pl.page, fun k hk hv => ?_,
      rd_committed_pagever s pl.page, applyStaged_staged s pl.page, committed_granary s pl.page⟩,
    fun hgo hd hc hcode => ?_, fun hgo hd hp hc => ?_,
    fun hd => ⟨_, execPageDiscard_discards h ho hd, fun k hk => ?_, fun k hk => ?_, discardStaged_regs s pl.page,
      discardStaged_granary s pl.page⟩⟩
  · rw [execPageCommit_go h ho hgo hd, commit_with_claim hc, if_neg (by simp [hcode])]
  · rw [rd_committed s pl.page k hv, rd_applyStaged_other s pl.page k hk]
  · rw [execPageCommit_go h ho hgo hd, commit_with_claim hc, if_pos hcode]
  · rw [execPageCommit_go h ho hgo hd, commit_without_claim hp hc]
  · have hpair := regPair_discardStaged s pl.page k
    rw [if_pos hk] at hpair
    exact congrArg Prod.snd hpair
  · have hpair := regPair_discardStaged s pl.page k
    rw [if_neg hk] at hpair
    exact congrArg Prod.snd hpair

end Sys2Proof.Machine

/-! PROOF. A register write acts by access type (R41, R42, R43, R49, R298). -/

namespace Sys2Proof.Machine

/-! ### A plain store -/

section
variable (c : Prop) [Decidable c] (s t : State) (k : Nat)

@[simp] theorem rd_ite : rd (if c then s else t) k = if c then rd s k else rd t k := apply_ite (rd · k) ..
@[simp] theorem rdStaged_ite : rdStaged (if c then s else t) k = if c then rdStaged s k else rdStaged t k :=
  apply_ite (rdStaged · k) ..

end

section
variable {s : State} {k : Nat} (v : Nat)

theorem storeReg_none (hn : findReg (pageType (k / 0x1000)) (k % 0x1000) = none) : storeReg s k v = s := by
  rw [storeReg, hn]

variable {d : RegDef} (hd : findReg (pageType (k / 0x1000)) (k % 0x1000) = some d)
include hd

/-- RWS fields merge into the staged value. -/
theorem rdStaged_storeReg : rdStaged (storeReg s k v) k =
    if d.rws = 0 then rdStaged s k else merge (rdStaged s k) v d.rws % 2 ^ 32 := by
  rw [storeReg, hd]
  simp

/-- RW fields merge into the active value, W1C bits written 1 clear, and a count written 1 becomes 0. -/
theorem rd_storeReg : rd (storeReg s k v) k = if d.cnt = true ∧ v % 2 = 1 then 0 else
    let x := if d.rw = 0 then rd s k else merge (rd s k) v d.rw % 2 ^ 32
    if d.w1c = 0 then x else x - Nat.land x (Nat.land v d.w1c) := by
  have hsub : ∀ {x : Nat} (m : Nat), x < 4294967296 → (x - m) % 4294967296 = x - m :=
    fun m hx => Nat.mod_eq_of_lt (by omega)
  rw [storeReg, hd]
  by_cases h : d.rw = 0
  · simp [h, hsub _ (rd_lt s k)]
  · simp [h, hsub _ (Nat.mod_lt _ (Nat.two_pow_pos 32))]

/-- No other place changes. -/
theorem storeReg_other {j : Nat} (hj : j ≠ k) :
    rd (storeReg s k v) j = rd s j ∧ rdStaged (storeReg s k v) j = rdStaged s j := by
  rw [storeReg, hd]
  simp [hj.symm]

theorem storeReg_out : (storeReg s k v).out = s.out := by
  rw [storeReg, hd]
  simp [apply_ite State.out]

end

/-! ### A word that reaches a register -/

section
variable {s : State} {a : Access} {pl : Place}

theorem off_of_reaches (h : Reaches s a pl) : pl.off = a.off % 0x1000 := by
  have hpl := h.1
  unfold place at hpl
  split at hpl
  · cases hpl
  · split at hpl <;> cases hpl
    rfl

theorem accessPage_of_reaches (h : Reaches s a pl) : accessPage s a = some pl.page := by
  have hpl := h.1
  unfold place at hpl
  split at hpl
  · cases hpl
  · next p hp => split at hpl <;> cases hpl; exact hp

/-- MF reaches a page at the page's own offset. -/
theorem page_of_reaches_mf (h : Reaches s a pl) (hf : a.func = 0) : a.off / 0x1000 = pl.page := by
  have hp := accessPage_of_reaches h
  unfold accessPage at hp
  rw [if_pos hf] at hp
  split_ifs at hp
  exact Option.some.inj hp

/-- A tenant reaches registers in its header page and in its aperture only. -/
theorem off_of_reaches_tenant (h : Reaches s a pl) (hf : a.func ≠ 0) : a.off < 0x1000 ∨ 0x8000 ≤ a.off := by
  have hp := accessPage_of_reaches h
  unfold accessPage at hp
  rw [if_neg hf] at hp
  split_ifs at hp <;> simp_all

/-- Where a register is reached that is none of MF's doorbells, no doorbell lies. -/
theorem doorbellAt_of_reaches (h : Reaches s a pl) {mf tenant : Nat} (hlo : 0x1000 ≤ tenant) (hhi : tenant < 0x7000)
    (hmf : ¬(pl.page = pgMsg ∧ mf ≤ pl.off ∧ pl.off < mf + 0x40)) : doorbellAt s a mf tenant = none := by
  have hoff := off_of_reaches h
  unfold doorbellAt
  split
  · rfl
  by_cases hf : a.func = 0
  · have hpage : a.off / 0x1000 = pl.page := page_of_reaches_mf h hf
    have hout : ¬(a.off / 0x1000 = pgMsg ∧ mf ≤ a.off % 0x1000 ∧ a.off % 0x1000 < mf + 0x40) := by rwa [hpage, ← hoff]
    rw [if_pos hf]
    exact if_neg (by simp only [Bool.and_eq_true, decide_eq_true_eq]; tauto)
  · have hlocal := off_of_reaches_tenant h hf
    have hout : ¬(tenant ≤ a.off ∧ a.off < tenant + 0x1000) := by omega
    rw [if_neg hf]
    exact if_neg (by simp only [Bool.and_eq_true, decide_eq_true_eq]; tauto)

/-- A word written to a register that is no doorbell and has no command of its own is stored there. -/
theorem writeWord_reaches (h : Reaches s a pl) (hd : ¬(pl.page = pgMsg ∧ 0x300 ≤ pl.off ∧ pl.off < 0x380))
    (ho : ownRow (pageType pl.page) pl.off = false) (v : Nat) : writeWord s a v = writeReg s a pl v := by
  have hsq : doorbellAt s a 0x300 0x1000 = none := doorbellAt_of_reaches h (by omega) (by omega) (by omega)
  have heq : doorbellAt s a 0x340 0x2000 = none := doorbellAt_of_reaches h (by omega) (by omega) (by omega)
  obtain ⟨hpl, hlock⟩ := h
  unfold writeWord
  rw [hsq, heq, hpl]
  simp [hlock, ho]

/-! ### Which store a write is -/

theorem ownRow_irq (ty : Nat) {off : Nat} (h : off = 0x18 ∨ off = 0x1C) : ownRow ty off = false := by
  rcases h with rfl | rfl <;> simp [ownRow]

/-- Writes of BLK_IRQ_RAW and BLK_IRQ_EN are followed by the interrupt update (R298). -/
theorem writeReg_irq (h : pl.off = 0x18 ∨ pl.off = 0x1C) (v : Nat) :
    writeReg s a pl v = irqUpdate (storeReg s pl.key v) pl.page := by
  unfold writeReg
  rw [if_pos (by simpa using h)]

/-- What a plain place is not, in the order in which a write asks. -/
theorem plainReg_iff : plainReg pl = true ↔
    ownRow (pageType pl.page) pl.off = false ∧ pl.off ≠ 0x18 ∧ pl.off ≠ 0x1C ∧
    ¬(pageType pl.page = 0xA ∧ 0x404 ≤ pl.off ∧ pl.off < 0x44C) ∧ ¬(pageType pl.page = 0x7 ∧ pl.off = 0x48) ∧
    pageType pl.page ≠ 0x11 ∧
    ¬((pageType pl.page = 0x8 ∨ pageType pl.page = 0x30) ∧ 0x100 ≤ pl.off ∧ pl.off < 0x380) ∧
    ¬(pageType pl.page = 0x9 ∧ pl.off ∈ [0x58, 0x5C, 0x80, 0xC0]) ∧ ¬(pageType pl.page = 0x20 ∧ pl.off = 0x88) := by
  simp [plainReg, and_assoc, or_assoc, imp_iff_not_or]

/-- A plain place is no doorbell. -/
theorem plainReg_no_doorbell (h : plainReg pl = true) : ¬(pl.page = pgMsg ∧ 0x300 ≤ pl.off ∧ pl.off < 0x380) := by
  obtain ⟨-, -, -, -, -, -, hring, -, -⟩ := plainReg_iff.1 h
  rintro ⟨hp, hlo, hhi⟩
  exact hring ⟨.inl (by rw [hp]; decide), by omega, hhi⟩

theorem writeReg_plain (h : plainReg pl = true) (v : Nat) : writeReg s a pl v = storeReg s pl.key v := by
  obtain ⟨-, hraw, hen, hslot, hwin, hwain, hring, hclaim, hecc⟩ := plainReg_iff.1 h
  simp only [List.mem_cons, List.not_mem_nil, or_false] at hclaim
  unfold writeReg
  dsimp only
  rw [if_neg (by simp [hraw, hen]), if_neg, if_neg, if_neg hwain, if_neg, if_neg, if_neg, if_neg]
  all_goals
    simp only [Bool.and_eq_true, Bool.or_eq_true, decide_eq_true_eq, List.contains_eq_mem, List.mem_cons,
      List.not_mem_nil, or_false]
    omega

/-! ### The command -/

section
variable {v : Nat}

theorem execRegisterWrite_word (ht : inTallyWindow a = false) (h : Reaches s a pl) (hv : v < 2 ^ 32) :
    exec (.registerWrite a false v) s = .next (writeWord s a v) := by
  show execRegisterWrite a false v s = _
  unfold execRegisterWrite registerWrite
  simp only [noAnswer_of_reaches h, ht, unoccupied_of_reaches h, Nat.mod_eq_of_lt hv, Bool.false_eq_true, if_false]

theorem execRegisterWrite_wide {w : Nat} (ht : inTallyWindow a = false) (h : Reaches s a pl) (hv : v < 2 ^ 32)
    (hw : w < 2 ^ 32) :
    exec (.registerWrite a true (v + 2 ^ 32 * w)) s = .next (writeWord (writeWord s a v) { a with off := a.off + 4 } w) := by
  have hlo : (v + 2 ^ 32 * w) % 2 ^ 32 = v := by omega
  have hhi : (v + 2 ^ 32 * w) / 2 ^ 32 % 2 ^ 32 = w := by omega
  show execRegisterWrite a true _ s = _
  unfold execRegisterWrite registerWrite
  simp only [noAnswer_of_reaches h, ht, unoccupied_of_reaches h, hlo, hhi, Bool.false_eq_true, if_false, if_true]

theorem execRegisterWrite_unoccupied (hn : noAnswer s a = false) (ht : inTallyWindow a = false) (hu : unoccupied a = true) :
    exec (.registerWrite a false v) s = .next (satIncr s K.sysUnmapped 1) := by
  show execRegisterWrite a false v s = _
  unfold execRegisterWrite registerWrite
  simp only [hn, ht, hu, Bool.false_eq_true, if_false, if_true]

end

theorem execRegisterWrite_plain {v : Nat} (ht : inTallyWindow a = false) (h : Reaches s a pl) (hv : v < 2 ^ 32)
    (hp : plainReg pl = true) : exec (.registerWrite a false v) s = .next (storeReg s pl.key v) := by
  obtain ⟨ho, -⟩ := plainReg_iff.1 hp
  rw [execRegisterWrite_word ht h hv, writeWord_reaches h (plainReg_no_doorbell hp) ho, writeReg_plain hp]

theorem execRegisterWrite_irq {v : Nat} (ht : inTallyWindow a = false) (h : Reaches s a pl) (hv : v < 2 ^ 32)
    (hi : pl.off = 0x18 ∨ pl.off = 0x1C) :
    exec (.registerWrite a false v) s = .next (irqUpdate (storeReg s pl.key v) pl.page) := by
  rw [execRegisterWrite_word ht h hv, writeWord_reaches h (by omega) (ownRow_irq _ hi), writeReg_irq hi]

end

/-- Settles O7: a word that reaches a register is `writeReg` there, for a plain register `storeReg`. -/
theorem registerWriteByAccessType : Obligations.RegisterWriteByAccessType := by
  intro s a pl v ht h hv
  refine ⟨fun d hp hd => ⟨_, execRegisterWrite_plain ht h hv hp, rdStaged_storeReg v hd, rd_storeReg v hd,
      fun k hk => storeReg_other v hd hk, storeReg_working .., storeReg_out v hd⟩,
    fun hp hn => ?_, fun hi => execRegisterWrite_irq ht h hv hi, ?_,
    fun a' hu hn ht' => execRegisterWrite_unoccupied hn ht' hu⟩
  · rw [execRegisterWrite_plain ht h hv hp, storeReg_none v hn]
  · rintro a' w u pl' rfl ht' hw hx h'
    rw [execRegisterWrite_word ht h hv] at hx
    cases hx
    rw [execRegisterWrite_wide ht h hv hw, execRegisterWrite_word ht' h' hw]

end Sys2Proof.Machine

/-! PROOF. Accesses that are not aligned or reach no page (R41, R42, R292, R435). -/

namespace Sys2Proof.Machine

section
variable {s : State} {a : Access}

/-! ### Where nothing answers -/

theorem execUnalignedAccess_noAnswer (hn : noAnswer s a = true) :
    exec (.unalignedAccess a) s = .next (emit s (.unsupported a.port a.func a.off)) := by
  show execUnalignedAccess a s = _
  rw [execUnalignedAccess, if_pos hn]

theorem execUnmappedAccess_noAnswer (read wide : Bool) (hn : noAnswer s a = true) : exec (.unmappedAccess a read wide) s =
    .next (if read then emit s (.unsupported a.port a.func a.off) else s) := by
  show execUnmappedAccess a read wide s = _
  rw [execUnmappedAccess, if_pos hn]

/-! ### Where the function and port answer -/

theorem execUnalignedAccess_register (hn : noAnswer s a = false) (ht : (inTallyWindow a && serving s) = false) :
    exec (.unalignedAccess a) s =
      .next (emit (recordErr s pgSys eRegAlign a.func a.off) (.completerAbort a.port a.func a.off)) := by
  show execUnalignedAccess a s = _
  rw [execUnalignedAccess, if_neg (by simp [hn]), if_neg (by simp [ht])]

theorem execUnalignedAccess_tally (hn : noAnswer s a = false) (ht : (inTallyWindow a && serving s) = true) :
    exec (.unalignedAccess a) s = .next (tallyBad s a.func (a.off % 0x1000)) := by
  show execUnalignedAccess a s = _
  rw [execUnalignedAccess, if_neg (by simp [hn]), if_pos ht]

theorem execUnmappedAccess_occupied (read wide : Bool) (hn : noAnswer s a = false) (hu : unoccupied a = false) :
    exec (.unmappedAccess a read wide) s = .next s := by
  show execUnmappedAccess a read wide s = _
  rw [execUnmappedAccess, if_neg (by simp [hn]), if_pos (by simp [hu])]

theorem execUnmappedAccess_unoccupied (read wide : Bool) (hn : noAnswer s a = false) (hu : unoccupied a = true) :
    exec (.unmappedAccess a read wide) s =
      .next (if read then answer (satIncr s K.sysUnmapped 1) a wide 0 else satIncr s K.sysUnmapped 1) := by
  show execUnmappedAccess a read wide s = _
  rw [execUnmappedAccess, if_neg (by simp [hn]), if_neg (by simp [hu])]

end

/-! ### What a counted access leaves -/

@[simp] theorem answer_rd (s : State) (a : Access) (wide : Bool) (v k : Nat) : rd (answer s a wide v) k = rd s k := rfl

theorem answer_zero_out (s : State) (a : Access) (wide : Bool) : (answer s a wide 0).out =
    s.out ++ [.readData a.port a.func a.off (List.replicate (if wide then 8 else 4) 0)] := by
  rw [← toLE_zero]; rfl

/-- Settles O8: each access is one branch of its command; a counted one writes SYS_UNMAPPED alone. -/
theorem accessErrorsRecorded : Obligations.AccessErrorsRecorded := by
  intro s a read wide
  refine ⟨execUnalignedAccess_register, execUnalignedAccess_tally, fun hn hu => ?_, execUnmappedAccess_occupied read wide,
    fun hn => ⟨execUnalignedAccess_noAnswer hn, execUnmappedAccess_noAnswer true wide hn,
      execUnmappedAccess_noAnswer false wide hn⟩⟩
  refine ⟨_, execUnmappedAccess_unoccupied read wide hn hu, ?_⟩
  have hcount : rd (satIncr s K.sysUnmapped 1) K.sysUnmapped = min (rd s K.sysUnmapped + 1) 0xFFFFFFFF := rd_satIncr ..
  have hother : ∀ k, k ≠ K.sysUnmapped → rd (satIncr s K.sysUnmapped 1) k = rd s k :=
    fun k hk => rd_satIncr_ne _ _ _ _ hk.symm
  cases read with
  | true => exact ⟨hcount, hother, by simp [answer], answer_zero_out _ a wide⟩
  | false => exact ⟨hcount, hother, satIncr_working .., (List.append_nil _).symm⟩

end Sys2Proof.Machine

/-! PROOF. A page keeps its first error and counts them all (R44): what interrupts and messages write lies outside every
page's common header. -/

namespace Sys2Proof.Machine

/-! ### Messages leave the common headers -/

theorem rd_foldl {α : Type} {k : Nat} {g : State → α → State} (hg : ∀ s x, rd (g s x) k = rd s k)
    (l : List α) (s : State) :
    rd (l.foldl g s) k = rd s k := by
  induction l generalizing s with
  | nil => rfl
  | cons x l ih => exact (ih _).trans (hg s x)

@[simp] theorem emit_rd (s : State) (o : Output) (k : Nat) : rd (emit s o) k = rd s k := rfl
@[simp] theorem setEqr_rd (s : State) (f n : Nat) (x : EvRing) (k : Nat) : rd (setEqr s f n x) k = rd s k := rfl

@[simp] theorem sendMsix_rd (s : State) (p f vec k : Nat) : rd (sendMsix s p f vec) k = rd s k := by
  unfold sendMsix
  split_ifs <;> rfl

theorem asyncRing_lt (s : State) (f : Nat) : asyncRing s f < 16 := fld_lt _ 3 0

section
variable {k : Nat} (hk : k % 0x1000 < 0x40) {n : Nat} (hn : n < 16) (s : State) (f : Nat)
include hk

theorem hostWrite_header (p addr : Nat) (bs : Bytes) : rd (hostWrite s p f addr bs) k = rd s k := by
  have hlo : K.portTxLo p ≠ k := by simp only [K.portTxLo]; omega
  have hhi : K.portTxLo p + 4 ≠ k := by simp only [K.portTxLo]; omega
  unfold hostWrite countTx wr64
  refine (rd_foldl (fun s e => emit_rd s _ k) _ _).trans ?_
  rw [rd_wr, if_neg hhi, rd_wr, if_neg hlo]

include hn

theorem writeMsg_header (p : Nat) (m : Msg) : rd (writeMsg s f n p m) k = rd s k := by
  have htail : K.eqTail f n ≠ k := by simp only [K.eqTail]; omega
  unfold writeMsg
  dsimp only
  split <;> simp [hostWrite_header hk, htail]

theorem loseMsg_header : rd (loseMsg s f n) k = rd s k := by
  have hlost : K.eqLost f n ≠ k := by simp only [K.eqLost]; omega
  exact rd_satIncr_ne _ _ _ _ hlost

theorem flushOverflow_header : rd (flushOverflow s f n) k = rd s k := by
  unfold flushOverflow
  split
  · rfl
  · split
    · rfl
    · simp [writeMsg_header hk hn]

theorem flushWaiting_header (c : Nat) : rd (flushWaiting c s f n) k = rd s k := by
  induction c generalizing s with
  | zero => rfl
  | succ c ih =>
    unfold flushWaiting
    split
    · split
      · simp [ih, writeMsg_header hk hn]
      · rfl
    · rfl

omit hn in
theorem flushResend_header : rd (flushResend s f n) k = rd s k := by
  unfold flushResend
  dsimp only
  split
  · rfl
  · split
    · rfl
    · split <;> simp [rd_foldl (fun s (e : Nat × Bytes) => hostWrite_header hk s f _ e.1 e.2)]

theorem flushRing_header : rd (flushRing s f n) k = rd s k := by
  unfold flushRing
  rw [flushWaiting_header hk hn, flushOverflow_header hk hn, flushResend_header hk]

theorem post_header (held : Bool) (m : Msg) : rd (post s f n held m) k = rd s k := by
  have hlost : K.eqLost f n ≠ k := by simp only [K.eqLost]; omega
  unfold post
  dsimp only
  split
  · exact rd_satIncr_ne _ _ _ _ hlost
  · split <;> split_ifs <;> simp [writeMsg_header hk hn, loseMsg_header hk hn, flushRing_header hk hn]

end

section
variable {k : Nat} (hk : k % 0x1000 < 0x40) (s : State)
include hk

theorem postAsync_header (r type func flags : Nat) (payload : Bytes) :
    rd (postAsync s r type func flags payload) k = rd s k := post_header hk (asyncRing_lt s r) s r _ _

theorem postBlockIrq_header (page : Nat) : rd (postBlockIrq s page) k = rd s k := by
  unfold postBlockIrq
  split
  · exact postAsync_header hk ..
  · refine (rd_foldl (fun s t => ?_) _ _).trans (postAsync_header hk ..)
    split
    · exact postAsync_header hk ..
    · rfl

theorem irqUpdate_header (page : Nat) : rd (irqUpdate s page) k = rd s k := by
  unfold irqUpdate
  dsimp only
  split_ifs
  · rfl
  · exact postBlockIrq_header hk _ page
  · rfl

/-- Of the common headers a raised interrupt writes BLK_IRQ_RAW of its page alone. -/
theorem raiseIrq_header {page i : Nat} (h : K.blkIrqRaw page ≠ k) : rd (raiseIrq s page i) k = rd s k := by
  rw [raiseIrq, irqUpdate_header hk, rd_setBit_ne _ _ _ _ _ h]

end

/-! ### One error -/

section
variable (s : State) (page code func off detail : Nat)

/-- The first error sets CODE, COUNT 1 and VALID. -/
theorem recordErr_first (h : bit (rd s (K.blkErr page)) 31 = false) (hc : code < 2 ^ 16) :
    rd (recordErr s page code func off detail) (K.blkErr page) = 2 ^ 31 + 2 ^ 16 + code := by
  have hheader : K.blkErr page % 0x1000 < 0x40 := by simp only [K.blkErr]; omega
  have hraw : K.blkIrqRaw page ≠ K.blkErr page := by simp only [K.blkIrqRaw, K.blkErr]; omega
  have hinfo : K.blkErrInfo page ≠ K.blkErr page := by simp only [K.blkErrInfo, K.blkErr]; omega
  unfold recordErr
  dsimp only
  rw [h, if_neg (by simp), raiseIrq_header hheader _ hraw, rd_wr, if_neg hinfo, rd_wr, if_pos rfl,
    Nat.mod_eq_of_lt (by omega)]

/-- The first error sets BLK_ERR_INFO. -/
theorem recordErr_first_info (h : bit (rd s (K.blkErr page)) 31 = false) (hf : func < 16) (hd : detail < 2 ^ 16) :
    rd (recordErr s page code func off detail) (K.blkErrInfo page) = func + 16 * (off % 0x1000) + 2 ^ 16 * detail := by
  have hheader : K.blkErrInfo page % 0x1000 < 0x40 := by simp only [K.blkErrInfo]; omega
  have hraw : K.blkIrqRaw page ≠ K.blkErrInfo page := by simp only [K.blkIrqRaw, K.blkErrInfo]; omega
  unfold recordErr
  dsimp only
  rw [h, if_neg (by simp), raiseIrq_header hheader _ hraw, rd_wr, if_pos rfl, Nat.mod_eq_of_lt (by omega)]

/-- A later error only counts. -/
theorem recordErr_later (h : bit (rd s (K.blkErr page)) 31 = true) :
    recordErr s page code func off detail = wf s (K.blkErr page) 29 16 (min (fld (rd s (K.blkErr page)) 29 16 + 1) 0x3FFF) := by
  unfold recordErr
  rw [if_pos h]
  rfl

end

/-! ### One error after another -/

/-- BLK_ERR after n more errors on a valid one. -/
def counted (v n : Nat) : Nat := putFld v 29 16 (min (fld v 29 16 + n) 0x3FFF)

section
variable (v n : Nat)

@[simp] theorem counted_zero : counted v 0 = v := by
  simp only [counted, putFld, fld, Nat.shiftRight_eq_div_pow]; omega

@[simp] theorem counted_counted (m : Nat) : counted (counted v m) n = counted v (m + n) := by
  simp only [counted, putFld, fld, Nat.shiftRight_eq_div_pow]; omega

theorem fld_code_counted : fld (counted v n) 15 0 = fld v 15 0 := by
  simp only [counted, putFld, fld, Nat.shiftRight_eq_div_pow]; omega

theorem fld_count_counted : fld (counted v n) 29 16 = min (fld v 29 16 + n) 0x3FFF := by
  rw [counted, fld_putFld _ _ _ _ (by omega)]
  exact Nat.mod_eq_of_lt (by omega)

theorem bit_valid_counted : bit (counted v n) 31 = bit v 31 := by
  simp only [bit_fld, counted, putFld, fld, Nat.shiftRight_eq_div_pow]
  congr 2; omega

theorem counted_first {code : Nat} (h : code < 2 ^ 16) :
    counted (2 ^ 31 + 2 ^ 16 + code) n = 2 ^ 31 + 2 ^ 16 * min (n + 1) 0x3FFF + code := by
  simp only [counted, putFld, fld, Nat.shiftRight_eq_div_pow]; omega

theorem bit_valid_first {code : Nat} (h : code < 2 ^ 16) : bit (2 ^ 31 + 2 ^ 16 + code) 31 = true := by
  simp only [bit_fld, fld, Nat.shiftRight_eq_div_pow, decide_eq_true_eq]; omega

end

/-- From a valid BLK_ERR any number of errors only count. -/
theorem recordAll_later (page : Nat) (es : List Err) {s : State} (h : bit (rd s (K.blkErr page)) 31 = true) :
    rd (recordAll s page es) (K.blkErr page) = counted (rd s (K.blkErr page)) es.length ∧
      rd (recordAll s page es) (K.blkErrInfo page) = rd s (K.blkErrInfo page) := by
  induction es generalizing s with
  | nil => exact ⟨(counted_zero _).symm, rfl⟩
  | cons e es ih =>
    have herr : rd (recordErr s page e.code e.func e.off e.detail) (K.blkErr page) = counted (rd s (K.blkErr page)) 1 := by
      rw [recordErr_later _ _ _ _ _ _ h, rd_wf _ _ _ _ _ _ (by omega) (by omega), if_pos rfl]
      rfl
    have hinfo : rd (recordErr s page e.code e.func e.off e.detail) (K.blkErrInfo page) = rd s (K.blkErrInfo page) := by
      rw [recordErr_later _ _ _ _ _ _ h, rd_wf_ne _ _ _ _ _ _ (by simp only [K.blkErr, K.blkErrInfo]; omega)]
    obtain ⟨ihErr, ihInfo⟩ := ih (s := recordErr s page e.code e.func e.off e.detail) (by rw [herr, bit_valid_counted, h])
    rw [herr, counted_counted, Nat.add_comm] at ihErr
    exact ⟨ihErr, ihInfo.trans hinfo⟩

/-- Settles O59: the first error by `recordErr_first`, those that follow by `recordAll_later`. -/
theorem firstErrorIsKept : Obligations.FirstErrorIsKept := by
  intro s page e es hc hf hd
  constructor
  · intro h
    have herr := recordErr_first s page e.code e.func e.off e.detail h hc
    obtain ⟨hall, hinfo⟩ := recordAll_later page es (by rw [herr, bit_valid_first hc])
    rw [herr, counted_first _ hc] at hall
    exact ⟨hall, hinfo.trans (recordErr_first_info s page e.code e.func e.off e.detail h hf hd)⟩
  · intro h
    obtain ⟨hall, hinfo⟩ := recordAll_later page (e :: es) h
    refine ⟨?_, hinfo, ?_⟩
    · rw [hall, fld_code_counted]
    · rw [hall, fld_count_counted, List.length_cons, Nat.add_assoc]

end Sys2Proof.Machine

/-! PROOF. Writes of a BAY page that start, halt and clear a bay and set its counters (R43, R126, R132, R148, R150, R151). -/

namespace Sys2Proof.Machine

section
variable {s : State} {a : Access} {b off : Nat}

/-- A write of a bay's register runs its effect on that bay, whose page is that of the write. -/
theorem atBay_on (h : OnBay s a b off) (f : State → Nat → State) : atBay s a off f = f s b := by
  obtain ⟨pl, hr, ht, ho, hb⟩ := h
  unfold atBay
  rw [atPlace_reaches hr]
  rw [if_pos (by simp [ht, ho]), hb]

variable {v : Nat}

/-! ### BAY_RUN -/

theorem execBayRunGo_go (h : OnBay s a b 0x414) (hgo : bit v 0 = true) (hhalt : bit v 1 = false)
    (hclear : bit v 2 = false ∨ (bay s b).st = .running) : exec (.bayRunGo a v) s = .next (goBay s b a.func) := by
  show execBayRunGo a v s = _
  rw [execBayRunGo, atBay_on h, if_neg (by simp [hgo, hhalt])]
  dsimp only
  rw [if_neg (by rcases hclear with hc | hc <;> simp [hc])]

theorem goBay_disabled (hoff : (bay s b).off = true) (func : Nat) :
    goBay s b func = recordErr s (bayPage b) eBayDisabled func 0x414 := by
  rw [goBay, if_pos hoff]

theorem goBay_busy (hoff : (bay s b).off = false) (hrun : (bay s b).st = .running) (func : Nat) :
    goBay s b func = recordErr s (bayPage b) eBayBusy func 0x414 := by
  rw [goBay, if_neg (by simp [hoff]), if_pos hrun]

theorem goBay_starts (hoff : (bay s b).off = false) (hrun : (bay s b).st ≠ .running)
    (hh : haltedOnErr s (bayPage b) = false) (func : Nat) : goBay s b func = startProgram s b := by
  rw [goBay, if_neg (by simp [hoff]), if_neg hrun, if_neg (by simp [hh])]

theorem execBayRunHalt_running (h : OnBay s a b 0x414) (hhalt : bit v 1 = true) (hrun : (bay s b).st = .running) :
    exec (.bayRunHalt a v) s = .next (setBay s b { bay s b with halting := true }) := by
  show execBayRunHalt a v s = _
  rw [execBayRunHalt, atBay_on h, if_pos hhalt, haltBay, if_pos hrun]

theorem execBayRunClear_stopped (h : OnBay s a b 0x414) (hclear : bit v 2 = true) (hhalt : bit v 1 = false)
    (hgo : bit v 0 = false) (hrun : (bay s b).st ≠ .running) :
    exec (.bayRunClear a v) s = .next (setBay s b (clearWritten (bay s b))) := by
  show execBayRunClear a v s = _
  rw [execBayRunClear, atBay_on h, if_pos (by simp [hclear, hhalt, hgo, hrun])]

/-! ### Counters -/

theorem execBayTokenSet_sets (h : OnBay s a b 0x418) (hgo : bit v 31 = true) :
    exec (.bayTokenSet a v) s = .next (setBay s b (setTok (bay s b) (fld v 3 0) (fld v 27 16))) := by
  show execBayTokenSet a v s = _
  rw [execBayTokenSet, atBay_on h, if_pos hgo]

theorem execPerfClr_clears (h : OnBay s a b 0x10) (hclr : bit v 16 = true) :
    exec (.perfClr a v) s = .next (setBay s b { bay s b with perf := [] }) := by
  show execPerfClr a v s = _
  rw [execPerfClr, atBay_on h, if_pos hclr]

end

/-! ### A program's start -/

section
variable (s : State) (b : Nat)

/-- The bay at a program's start: its credit pools loaded, its queue empty, the fetch at BAY_PROG (R126, R128, R132). -/
def startedBay : Bay :=
  { setCred (setCred (setCred (setCred (bay s b) 0 (rf s (K.bayCreditInitA b) 11 0)) 1 (rf s (K.bayCreditInitA b) 27 16))
      2 (rf s (K.bayCreditInitB b) 11 0)) 3 (rf s (K.bayCreditInitB b) 27 16) with
    st := .running, halting := false, queue := [], prefetch := [], outs := none
    fetch := 16 * (rd s (K.bayProgLo b) / 16) + 2 ^ 32 * rf s (K.bayProgHi b) 5 0 }

theorem startProgram_eq : startProgram s b = setBay s b (startedBay s b) := rfl

/-- The pools hold what BAY_CREDIT_INIT loads. -/
theorem startedBay_credits :
    cred (startedBay s b) 0 = rf s (K.bayCreditInitA b) 11 0 ∧
      cred (startedBay s b) 1 = rf s (K.bayCreditInitA b) 27 16 ∧
      cred (startedBay s b) 2 = rf s (K.bayCreditInitB b) 11 0 ∧
      cred (startedBay s b) 3 = rf s (K.bayCreditInitB b) 27 16 := by
  simp [startedBay, cred, setCred]

theorem startedBay_fetch :
    (startedBay s b).fetch = 16 * (rd s (K.bayProgLo b) / 16) + 2 ^ 32 * rf s (K.bayProgHi b) 5 0 := rfl

theorem startedBay_store : (startedBay s b).store = (bay s b).store := by simp only [startedBay, setCred]

theorem startedBay_tokens : (startedBay s b).tokens = (bay s b).tokens := by simp only [startedBay, setCred]

end

theorem bay_setBay_ne (s : State) {b c : Nat} (x : Bay) (h : c ≠ b) : bay (setBay s b x) c = bay s c := by
  rw [bay_setBay, if_neg h.symm]

/-- Settles O26: each write is one effect on its own bay. -/
theorem bayPageCommands : Obligations.BayPageCommands := by
  intro s a b v
  refine ⟨fun hb hgo hhalt hclear hoff hrun hh => ?_, fun hb hgo hhalt hclear hoff => ?_, fun hb hgo hhalt hoff hrun => ?_,
    execBayRunHalt_running, execBayRunClear_stopped, fun hb hgo => ?_, execPerfClr_clears⟩
  · obtain ⟨h0, h1, h2, h3⟩ := startedBay_credits s b
    refine ⟨setBay s b (startedBay s b), ?_, ?_⟩
    · rw [execBayRunGo_go hb hgo hhalt (.inl hclear), goBay_starts hoff hrun hh, startProgram_eq]
    · rw [bay_setBay, if_pos rfl]
      exact ⟨rfl, rfl, startedBay_fetch s b, h0, h1, h2, h3, startedBay_store s b,
        startedBay_tokens s b, fun c hc => bay_setBay_ne s _ hc, rfl, rfl⟩
  · rw [execBayRunGo_go hb hgo hhalt (.inl hclear), goBay_disabled hoff]
  · rw [execBayRunGo_go hb hgo hhalt (.inr hrun), goBay_busy hoff hrun]
  · refine ⟨_, execBayTokenSet_sets hb hgo, ?_, fun c hc => ?_, fun c hc => bay_setBay_ne s _ hc, rfl, rfl⟩
    · simp
    · simp [hc.symm]

end Sys2Proof.Machine

/-! PROOF. The slots of the transaction unit, and the commands of the TXN page that act on them (R64, R68, R71, R79, R82,
R326). -/

namespace Sys2Proof.Machine

/-! ### Slots -/

@[simp] theorem slot_setSlot (s : State) (n m : Nat) (x : Slot) : slot (setSlot s n x) m = if n = m then x else slot s m :=
  mget_set _ _ n m x

theorem slot_setSlot_same (s : State) (n : Nat) (x : Slot) : slot (setSlot s n x) n = x := by
  rw [slot_setSlot, if_pos rfl]

theorem slot_setSlot_ne (s : State) {n m : Nat} (x : Slot) (h : m ≠ n) : slot (setSlot s n x) m = slot s m := by
  rw [slot_setSlot, if_neg h.symm]

/-- The slots are working units. -/
theorem slot_of_working {s t : State} (h : working s = working t) (n : Nat) : slot s n = slot t n :=
  congrArg (fun w : Working => mget (fun _ => ({} : Slot)) w.slots n) h

/-! ### A strike -/

@[simp] theorem txnDone_working (s : State) (n : Nat) : working (txnDone s n) = working s := by
  unfold txnDone
  dsimp only
  split_ifs <;> simp

section
variable (s : State) (n code index : Nat)

/-- What a slot holds once it is struck. -/
def struckSlot : Slot :=
  { slot s n with st := .struck, code := code, index := index, doneAt := now s, raisePend := false, toFetch := 0 }

/-- Of the working units, a strike changes its own slot alone. -/
theorem strikeSlot_working : working (strikeSlot s n code index) = working (setSlot s n (struckSlot s n code index)) :=
  txnDone_working _ n

theorem slot_strikeSlot_same : slot (strikeSlot s n code index) n = struckSlot s n code index :=
  (slot_of_working (strikeSlot_working s n code index) n).trans (slot_setSlot_same ..)

theorem slot_strikeSlot_ne {m : Nat} (h : m ≠ n) : slot (strikeSlot s n code index) m = slot s m :=
  (slot_of_working (strikeSlot_working s n code index) m).trans (slot_setSlot_ne s _ h)

@[simp] theorem strikeSlot_st : (slot (strikeSlot s n code index) n).st = .struck :=
  congrArg Slot.st (slot_strikeSlot_same ..)

@[simp] theorem strikeSlot_code : (slot (strikeSlot s n code index) n).code = code :=
  congrArg Slot.code (slot_strikeSlot_same ..)

@[simp] theorem strikeSlot_index : (slot (strikeSlot s n code index) n).index = index :=
  congrArg Slot.index (slot_strikeSlot_same ..)

end

/-! ### Reading TXN_OPEN -/

/-- Selecting a slot and answering the read change no slot. -/
theorem slot_answerWord_wr (s : State) (a : Access) (k v word m : Nat) : slot (answerWord a (wr s k v, word)) m = slot s m := rfl

section
variable {s : State} {a : Access} {pl : Place} {n : Nat}

theorem execTxnOpen_reaches (h : Reaches s a pl) (hp : pl.page = pgTxn) (ho : pl.off = 0x400) :
    exec (.txnOpen a) s = .next (answerWord a (txnOpen s a)) := by
  obtain ⟨hpl, hlock⟩ := h
  show execTxnOpen a s = _
  unfold execTxnOpen
  rw [hpl]
  dsimp only
  rw [if_neg (by simp [hp, ho]), hlock, if_neg (by simp)]

/-- The slot TXN_OPEN finds is one of the 24 host slots. -/
theorem freeSlot_lt (h : freeSlot s = some n) : n < 32 := by
  obtain ⟨i, hi, rfl⟩ := List.mem_map.1 (List.mem_of_find?_eq_some h)
  have := List.mem_range.1 hi
  omega

/-- With the claim, a free slot and the quota, the lowest free slot is the reader's and selected. -/
theorem txnOpen_allocates (hc : a.func = 0 → claimCode s (claimKey s a.port) = 0) (hf : freeSlot s = some n)
    (hq : slotsHeld s a.func < quota s a.func) :
    txnOpen s a = (wr (setSlot s n { owner := a.func, st := .opened, claimAt := claimA s }) (K.txnSel a.func) n, n + 2 ^ 31) := by
  unfold txnOpen
  dsimp only
  rw [if_neg (by simpa using hc), hf]
  dsimp only
  rw [if_pos hq]

theorem txnOpen_refuses (hc : a.func = 0 → claimCode s (claimKey s a.port) = 0)
    (h : freeSlot s = none ∨ ¬ slotsHeld s a.func < quota s a.func) : txnOpen s a = (s, 0) := by
  unfold txnOpen
  dsimp only
  rw [if_neg (by simpa using hc)]
  split
  · next n hf =>
    rw [if_neg (h.resolve_left (by simp [hf]))]
  · rfl

end

/-! ### Commands on the function's own slot -/

section
variable {s : State} {a : Access} {n off v : Nat} {x : Slot}

/-- A write of a register of the own slot reaches its page, and acts on that slot. -/
theorem onSlot_own (h : OwnSlot s a off n x) : ∃ pl, Reaches s a pl ∧ pl.page = pgTxn ∧ pl.off = off ∧
    ∀ f, onSlot s a pl f = f s n x := by
  obtain ⟨⟨pl, hr, hp, ho⟩, rfl, rfl, hst, hown⟩ := h
  refine ⟨pl, hr, hp, ho, fun f => ?_⟩
  unfold onSlot
  dsimp only
  rw [if_neg (by simp [hst, hown])]

theorem txnAction_own (h : OwnSlot s a 0x41C n x) {op : Nat} (hop : fld v 1 0 = op) (f : State → Nat → Slot → State) :
    txnAction a v op s f = f s n x := by
  obtain ⟨pl, hr, hp, ho, hon⟩ := onSlot_own h
  rw [txnAction, atPlace_reaches hr, if_pos (by simp [hp, ho, hop]), hon]

/-- The slot that fetches the list TXN_LIST_CMD names. -/
def fetchingSlot (x : Slot) (a : Access) (v : Nat) : Slot :=
  { x with
    st := .fetching, toFetch := fld v 8 0, fetchAddr := x.listLo + 2 ^ 32 * (x.listHi % 2 ^ 31)
    fetchGran := bit x.listHi 31, fetchBuf := [], fetchPort := a.port }

theorem execTxnListCmd_starts (h : OwnSlot s a 0x418 n x) (hgo : bit v 31 = true) (hcount : fld v 8 0 ≠ 0)
    (hst : x.st = .opened) (hread : listReadable s (fetchingSlot x a v) = true) :
    exec (.txnListCmd a v) s = .next (setSlot s n (fetchingSlot x a v)) := by
  obtain ⟨pl, hr, hp, ho, hon⟩ := onSlot_own h
  show execTxnListCmd a v s = _
  rw [execTxnListCmd, atPlace_reaches hr, if_pos (by simp [hp, ho]), hon, if_neg (by simp [hgo, hcount]), if_neg (by simp [hst])]
  exact congrArg Host.Outcome.next (if_pos hread)

theorem execRaise_arms (h : OwnSlot s a 0x41C n x) (hop : fld v 1 0 = 1) (hst : x.st = .opened)
    (hmode : x.mode = 0 ∨ x.mode = 1 ∨ x.mode = 2 ∧ rf s (K.tallyOwner x.tally) 3 0 = x.owner) :
    exec (.raise a v) s =
      .next (setSlot { s with raises := s.raises + 1 } n { x with st := .armed, armSeq := s.raises, raisePend := false }) := by
  have hslot : slot s n = x := h.2.2.1.symm
  have hok : ¬(x.mode = 3 || tallyForeign s x) := by
    rcases hmode with hm | hm | ⟨hm, ht⟩
    · simp [tallyForeign, hm]
    · simp [tallyForeign, hm]
    · simp [tallyForeign, hm, ht]
  show execRaise a v s = _
  rw [execRaise, txnAction_own h hop, if_pos hst, raiseSlot, hslot, if_neg hok]
  rfl

theorem execRaise_pends (h : OwnSlot s a 0x41C n x) (hop : fld v 1 0 = 1) (hst : x.st = .fetching)
    (hpend : x.raisePend = false) :
    exec (.raise a v) s = .next (setSlot { s with raises := s.raises + 1 } n { x with raisePend := true, armSeq := s.raises }) := by
  show execRaise a v s = _
  rw [execRaise, txnAction_own h hop, if_neg (by simp [hst]), if_pos (by simp [hst, hpend])]

theorem execStrike_strikes (h : OwnSlot s a 0x41C n x) (hop : fld v 1 0 = 2)
    (hst : x.st = .opened ∨ x.st = .fetching ∨ x.st = .armed) : exec (.strike a v) s = .next (strikeSlot s n 0 0) := by
  show execStrike a v s = _
  rw [execStrike, txnAction_own h hop, if_pos (by simpa [strikable, or_assoc] using hst)]

theorem execRelease_frees (h : OwnSlot s a 0x41C n x) (hop : fld v 1 0 = 3) (hst : x.st = .raised ∨ x.st = .struck) :
    exec (.release a v) s = .next (setSlot s n {}) := by
  show execRelease a v s = _
  rw [execRelease, txnAction_own h hop, if_pos (by simpa using hst)]

theorem execRelease_refuses (h : OwnSlot s a 0x41C n x) (hop : fld v 1 0 = 3)
    (hst : x.st = .opened ∨ x.st = .fetching ∨ x.st = .armed) :
    exec (.release a v) s = .next (recordErr s pgTxn eTxnState a.func 0x41C) := by
  have hno : ¬(x.st = .raised || x.st = .struck) := by rcases hst with h | h | h <;> simp [h]
  show execRelease a v s = _
  rw [execRelease, txnAction_own h hop, if_neg hno, txnState]

end

/-- Settles O17: a register of the own slot acts on that slot, and each command is one change of it. -/
theorem txnPageCommands : Obligations.TxnPageCommands := by
  intro s a
  refine ⟨fun pl n h hp ho hc hf hq => ?_, fun pl h hp ho hc hno => ?_, fun n x v h hgo hcount hst hread => ?_,
    fun n x v => execRaise_arms, fun n x v => execRaise_pends, fun n x v h hop hst => ?_,
    fun n x v => execRelease_frees, fun n x v => execRelease_refuses⟩
  · have hn : n < 2 ^ 32 := Nat.lt_of_lt_of_le (freeSlot_lt hf) (by decide)
    have hexec := execTxnOpen_reaches h hp ho
    rw [txnOpen_allocates hc hf hq] at hexec
    refine ⟨_, hexec, ?_, fun m hm => ?_, ?_, ?_, ?_⟩
    · rw [slot_answerWord_wr, slot_setSlot_same]
    · rw [slot_answerWord_wr, slot_setSlot_ne s _ hm]
    · rw [answerWord, emit_rd, rd_wr, if_pos rfl, Nat.mod_eq_of_lt hn]
    · rw [answerWord, emit, wr_out, setSlot_out]
    · rw [answerWord, emit_granary, wr_granary, setSlot_granary]
  · rw [execTxnOpen_reaches h hp ho, txnOpen_refuses hc hno]
  · exact execTxnListCmd_starts h hgo hcount hst hread
  · exact ⟨_, execStrike_strikes h hop hst, strikeSlot_st .., strikeSlot_code ..,
      fun m hm => slot_strikeSlot_ne s n 0 0 hm, strikeSlot_granary ..⟩

end Sys2Proof.Machine

/-! PROOF. The fetch of a staging list: lines join records, records are checked and appended (R66, R68, R79). -/

namespace Sys2Proof.Machine

/-! ### Records -/

section
variable {s : State} {n : Nat} (k : Nat)

/-- Once no record is left to fetch, the fetch ends. -/
theorem takeRecords_done (h : (slot s n).toFetch = 0) : takeRecords (k + 1) s n = fetchEnds s n := by
  rw [takeRecords, if_pos h]

/-- A record not yet whole waits for the next line. -/
theorem takeRecords_waits (h : (slot s n).toFetch ≠ 0) (hlen : (slot s n).fetchBuf.length < 96) :
    takeRecords (k + 1) s n = s := by
  rw [takeRecords, if_neg h, if_pos hlen]

theorem takeRecords_invalid (h : (slot s n).toFetch ≠ 0) (hlen : 96 ≤ (slot s n).fetchBuf.length)
    (hroom : (slot s n).actions.length < 256) (hbad : recOk s (slot s n).owner ((slot s n).fetchBuf.take 96) = false) :
    takeRecords (k + 1) s n = strikeSlot s n eTxnInvalid (slot s n).actions.length := by
  rw [takeRecords, if_neg h, if_neg (by omega)]
  dsimp only
  rw [if_neg (by omega), if_pos (by simp [hbad])]

/-- The slot once the record at the head of its buffer is appended. -/
def recordTaken (s : State) (x : Slot) : Slot :=
  { x with
    actions := x.actions ++ [recAction s x.owner (x.fetchBuf.take 96)], toFetch := x.toFetch - 1, fetchBuf := x.fetchBuf.drop 96 }

theorem takeRecords_appends (h : (slot s n).toFetch ≠ 0) (hlen : 96 ≤ (slot s n).fetchBuf.length)
    (hroom : (slot s n).actions.length < 256) (hok : recOk s (slot s n).owner ((slot s n).fetchBuf.take 96) = true) :
    takeRecords (k + 1) s n = takeRecords k (setSlot s n (recordTaken s (slot s n))) n := by
  rw [takeRecords, if_neg h, if_neg (by omega)]
  dsimp only
  rw [if_neg (by omega), if_neg (by simp [hok])]
  rfl

theorem fetchEnds_opens (h : (slot s n).raisePend = false) :
    fetchEnds s n = setSlot s n { slot s n with st := .opened } := by
  rw [fetchEnds, if_neg (by simp [h])]

/-- The last record of a fetch, valid, opens the slot. -/
theorem takeRecords_opens (h : (slot s n).toFetch = 1) (hlen : 96 ≤ (slot s n).fetchBuf.length)
    (hroom : (slot s n).actions.length < 256) (hok : recOk s (slot s n).owner ((slot s n).fetchBuf.take 96) = true)
    (hpend : (slot s n).raisePend = false) :
    slot (takeRecords (k + 2) s n) n = { recordTaken s (slot s n) with st := .opened } := by
  have htaken : slot (setSlot s n (recordTaken s (slot s n))) n = recordTaken s (slot s n) := slot_setSlot_same ..
  have hleft : (slot (setSlot s n (recordTaken s (slot s n))) n).toFetch = 0 := by
    rw [htaken, recordTaken, h]
  have hcalm : (slot (setSlot s n (recordTaken s (slot s n))) n).raisePend = false := by
    rw [htaken]
    exact hpend
  rw [takeRecords_appends _ (by omega) hlen hroom hok, takeRecords_done _ hleft, fetchEnds_opens hcalm, slot_setSlot_same, htaken]

end

/-! ### Lines -/

section
variable {s : State} {n : Nat}

/-- The slot once a line of its list in host memory joined its buffer. -/
def lineTaken (x : Slot) (data : Bytes) : Slot :=
  { x with
    fetchBuf := x.fetchBuf ++ (sub data 0 64).drop (x.fetchAddr % 64), fetchAddr := 64 * (x.fetchAddr / 64) + 64 }

/-- The state once the payload of a host line is counted at the port that took it. -/
def lineCounted (s : State) (x : Slot) : State :=
  match choosePort s x.fetchPort with
  | some p => countRx s p 64
  | none => s

@[simp] theorem lineCounted_granary (s : State) (x : Slot) : granary (lineCounted s x) = granary s := by
  unfold lineCounted
  split <;> simp

/-- A good line of a list in host memory is counted and joined; the records now whole are then taken. -/
theorem listReturn_host (h : (slot s n).st = .fetching) (hgran : (slot s n).fetchGran = false)
    (hread : listReadable s (slot s n) = true) (data : Bytes) : listReturn n true data s =
      takeRecords 3 (setSlot (lineCounted s (slot s n)) n (lineTaken (slot s n) data)) n := by
  unfold listReturn
  dsimp only
  have hhost : ¬(slot s n).fetchGran = true := by simp [hgran]
  rw [if_neg (by simp [h]), if_neg (by simp [hread, hgran])]
  simp only [if_neg hhost]
  rfl

/-- A line of a host list that cannot be read, or comes back in error, strikes the bent. -/
theorem listReturn_fails (h : (slot s n).st = .fetching) (hgran : (slot s n).fetchGran = false) {ok : Bool}
    (hbad : ok = false ∨ listReadable s (slot s n) = false) (data : Bytes) :
    listReturn n ok data s = strikeSlot s n eTxnInvalid (failIndex (slot s n)) := by
  unfold listReturn
  dsimp only
  rw [if_neg (by simp [h]), if_pos (by rcases hbad with hb | hb <;> simp [hb, hgran])]

theorem execTxnListReadTimeout_strikes (h : (slot s n).st = .fetching) (hgran : (slot s n).fetchGran = false) :
    exec (.txnListReadTimeout n) s = .next (strikeSlot s n eTxnInvalid (failIndex (slot s n))) := by
  show execTxnListReadTimeout n s = _
  unfold execTxnListReadTimeout
  dsimp only
  rw [if_pos (by simp [h, hgran])]

end

/-- Settles O18: the returned line is joined, then `takeRecords` takes the record at the head of the buffer. -/
theorem txnListFetch : Obligations.TxnListFetch := by
  intro s n ok data hst
  refine ⟨?_, fun hgran hbad => ?_, fun hgran => ?_⟩
  · rintro x s1 hs1 hx hread hgran rfl hleft
    obtain rfl : s1 = lineCounted s (slot s n) := hs1
    obtain rfl : x = lineTaken (slot s n) data := hx
    have hexec : exec (.txnListLineReturn n true data) s = .next (takeRecords 3 _ n) :=
      congrArg Host.Outcome.next (listReturn_host hst hgran hread data)
    -- From here on only the slot's content and the granary of the state with the line joined matter.
    generalize lineTaken (slot s n) data = x at hleft hexec ⊢
    have hx : slot (setSlot (lineCounted s (slot s n)) n x) n = x := slot_setSlot_same ..
    have hmem : granary (setSlot (lineCounted s (slot s n)) n x) = granary s := by simp
    generalize setSlot (lineCounted s (slot s n)) n x = t at hexec hx hmem ⊢
    subst hx
    refine ⟨fun hlen => ?_, fun hlen hroom hbad => ⟨_, hexec, ?_⟩, fun hlen hroom hok hlast hpend => ⟨_, hexec, ?_⟩⟩
    · rw [hexec, takeRecords_waits 2 hleft hlen]
    · rw [takeRecords_invalid 2 hleft hlen hroom hbad]
      exact ⟨strikeSlot_st .., strikeSlot_code .., strikeSlot_index .., (strikeSlot_granary ..).trans hmem⟩
    · rw [takeRecords_opens 1 hlast hlen hroom hok hpend]
      exact ⟨rfl, rfl, (takeRecords_granary ..).trans hmem⟩
  · exact ⟨_, congrArg Host.Outcome.next (listReturn_fails hst hgran hbad data), strikeSlot_st .., strikeSlot_code ..,
      strikeSlot_index .., strikeSlot_granary ..⟩
  · exact ⟨_, execTxnListReadTimeout_strikes hst hgran, strikeSlot_st .., strikeSlot_code .., strikeSlot_index ..,
      strikeSlot_granary ..⟩

end Sys2Proof.Machine

/-! PROOF. A bent takes effect whole or not at all (R65, R70, R71, R72, R73). -/

namespace Sys2Proof.Machine

/-! ### The outcomes of an armed bent -/

/-- The state of a bent's effect with its slot RAISED, before the raise is counted, announced and its chains posted. -/
def raisedState (s : State) (n : Nat) : State :=
  setSlot (applyBent s (slot s n)) n { slot (applyBent s (slot s n)) n with
    st := .raised, code := 0, epochAt := rd (applyBent s (slot s n)) K.txnEpoch, doneAt := now (applyBent s (slot s n)) }

section
variable {s : State} {n : Nat}

theorem execBentTakeEffect_first (h : firstArmed s n = true) : exec (.bentTakeEffect n) s = .next (takeEffect s n) := by
  show execBentTakeEffect n s = _
  rw [execBentTakeEffect, if_pos h]

/-- A failing record strikes the bent with its index and code. -/
theorem takeEffect_record_fails {i c : Nat} (h : firstFail s (slot s n) = some (i, c)) :
    takeEffect s n = strikeSlot s n c i := by
  unfold takeEffect
  dsimp only
  rw [h]

/-- A cause that concerns the whole bent strikes it at INDEX 0; a full epoch span also raises RETIRE_STALL (R78). -/
theorem takeEffect_whole_fails (h : firstFail s (slot s n) = none) (hc : wholeCode s (slot s n) ≠ 0) :
    takeEffect s n =
      if wholeCode s (slot s n) = eTxnCapacity && spanFull (strikeSlot s n (wholeCode s (slot s n)) 0) then
        raiseIrq (strikeSlot s n (wholeCode s (slot s n)) 0) pgTxn 17
      else strikeSlot s n (wholeCode s (slot s n)) 0 := by
  unfold takeEffect
  dsimp only
  rw [h]
  dsimp only
  rw [if_pos hc]

theorem takeEffect_raises (h : firstFail s (slot s n) = none) (hc : wholeCode s (slot s n) = 0) :
    takeEffect s n = postBentChains (txnDone (showRetain (incr (raisedState s n) K.txnRaised 1)) n) (slot s n) := by
  unfold takeEffect
  dsimp only
  rw [h]
  dsimp only
  rw [if_neg (by simp [hc])]
  rfl

end

/-! ### What a strike leaves -/

/-- A strike marks its slot STRUCK with its code and index, and leaves every target, version and retained line, the bays, the
wains and the other slots (R73). -/
theorem strikeSlot_changes_slot_only (s : State) (n code index : Nat) (u : State) (hu : u = strikeSlot s n code index) :
    (slot u n).st = .struck ∧ (slot u n).code = code ∧ (slot u n).index = index ∧ (∀ m, m ≠ n → slot u m = slot s m) ∧
      granary u = granary s ∧ u.lineVer = s.lineVer ∧ u.retained = s.retained ∧ u.bays = s.bays ∧ u.wains = s.wains := by
  subst hu
  have hw := strikeSlot_working s n code index
  exact ⟨strikeSlot_st .., strikeSlot_code .., strikeSlot_index .., fun m hm => slot_strikeSlot_ne s n code index hm,
    strikeSlot_granary .., congrArg Working.lineVer hw, congrArg Working.retained hw, congrArg Working.bays hw,
    congrArg Working.wains hw⟩

/-- Settles O19: the first failing record, then the whole-bent code, decide between `applyBent` and `strikeSlot`. -/
theorem bentTakesEffectOrChangesNothing : Obligations.BentTakesEffectOrChangesNothing := by
  intro s n h
  have hexec := execBentTakeEffect_first h
  refine ⟨fun hf hc => ?_, fun i c hf => ?_, ?_⟩
  · rw [takeEffect_raises hf hc] at hexec
    exact ⟨raisedState s n, hexec, rfl⟩
  · rw [takeEffect_record_fails hf] at hexec
    exact ⟨_, hexec, strikeSlot_changes_slot_only s n c i _ rfl⟩
  · rintro c hf rfl hc
    rw [takeEffect_whole_fails hf hc] at hexec
    exact ⟨_, hexec, strikeSlot_changes_slot_only s n _ 0 _ rfl⟩

end Sys2Proof.Machine

/-! PROOF. Storage and retained lines return at their retirement epoch (R76, R77, R78). -/

namespace Sys2Proof.Machine

section
variable (s : State)

/-! ### Retirement -/

/-- The state without the deferred storage and retained lines whose epoch TXN_OLDEST has reached. -/
def retired : State :=
  { s with
    deferred := s.deferred.filter fun d => !atOrAfter (oldest s) d.epoch
    retained := s.retained.filter fun r => !atOrAfter (oldest s) r.epoch }

/-- The pages to return: those whose epoch is reached and that no table names (R78, R186). -/
def retiredPages : List (Nat × Nat × Nat) :=
  ((s.deferred.filter fun d => atOrAfter (oldest s) d.epoch).filter (stillDropped (retired s))).map fun d => (d.a, d.b, d.c)

theorem execRetiredStorageFree_retires :
    exec .retiredStorageFree s =
      .next (showRetain (pagesReturn (fwRetry (retired (noteOldest s))) (retiredPages (noteOldest s)))) := rfl

variable {s}

/-- Storage stays deferred exactly while TXN_OLDEST is before its epoch. -/
theorem mem_retired_deferred {d : Deferred} :
    d ∈ (retired s).deferred ↔ d ∈ s.deferred ∧ atOrAfter (oldest s) d.epoch = false := by
  simp [retired]

theorem mem_retired_retained {r : Retained} :
    r ∈ (retired s).retained ↔ r ∈ s.retained ∧ atOrAfter (oldest s) r.epoch = false := by
  simp [retired]

theorem mem_retiredPages {e : Nat × Nat × Nat} :
    e ∈ retiredPages s ↔ ∃ d ∈ s.deferred, atOrAfter (oldest s) d.epoch = true ∧
      gnum (retired s) ((geoOf (retired s) d.a).rcAddr d.b) 4 = 0 ∧ e = (d.a, d.b, d.c) := by
  rw [retiredPages, List.mem_map]
  refine exists_congr fun d => ?_
  rw [List.mem_filter, List.mem_filter, stillDropped, beq_iff_eq, and_assoc, and_assoc, eq_comm (b := e)]

theorem rd_noteOldest_oldest : rd (noteOldest s) K.txnOldest = oldest s % 2 ^ 32 :=
  (rd_wr s K.txnOldest (oldest s) K.txnOldest).trans (if_pos rfl)

/-! ### The stall -/

/-- The check of each millisecond: RETIRE_STALL once the stall is longer than TXN_RETIRE_WARN. -/
theorem execRetireStall_running {t : Nat} (h : s.stallFrom = some t) :
    exec .retireStall s =
      .next (if t + usCycles (1000 * rf s K.txnRetireWarn 15 0) < s.clock then raiseIrq s pgTxn 17 else s) := by
  show execRetireStall s = _
  rw [execRetireStall, h]

theorem execRetireStall_none (h : s.stallFrom = none) : exec .retireStall s = .next s := by
  show execRetireStall s = _
  rw [execRetireStall, h]

end

/-- Settles O20: what TXN_OLDEST has reached leaves `deferred` and `retained`, and of the pages those still dropped return. -/
theorem retirementReturnsStorage : Obligations.RetirementReturnsStorage := by
  intro s
  refine ⟨⟨retired (noteOldest s), retiredPages (noteOldest s), execRetiredStorageFree_retires s, rd_noteOldest_oldest,
      fun d hd => ?_, fun e => mem_retiredPages, fun d => mem_retired_deferred.1, fun r => mem_retired_retained, rfl, rfl⟩,
    fun t ht hlong => ?_, fun t ht hshort => ?_, execRetireStall_none⟩
  · rcases Bool.eq_false_or_eq_true (atOrAfter (oldest (noteOldest s)) d.epoch) with hreached | hbefore
    · exact .inl hreached
    · exact .inr (mem_retired_deferred.2 ⟨hd, hbefore⟩)
  · rw [execRetireStall_running ht, if_pos hlong]
  · rw [execRetireStall_running ht, if_neg (by omega)]

end Sys2Proof.Machine

/-! PROOF. VEC words compute their operation (R93, R94, R106, R140, R141, R142, R143, R497). -/

namespace Sys2Proof.Machine

/-! ### The values of each VOP -/

section
variable {x : Bay} {w vop : Nat}

theorem vecValues_binary (hv : vVop w = vop) (hop : vop ∈ [1, 2, 3, 5, 6]) :
    vecValues x w = each2 (binaryFn vop) (vecA x w) (vecB x w) := by
  simp only [List.mem_cons, List.not_mem_nil, or_false] at hop
  rw [vecValues, hv]
  dsimp only
  rw [if_neg (by omega), if_neg (by omega), if_neg (by omega), if_neg (by simp; omega), if_neg (by omega),
    if_neg (by omega), if_neg (by omega)]
  rfl

theorem vecValues_fma (hv : vVop w = 0x04) : vecValues x w =
    ((vecA x w).zip ((vecB x w).zip (vecD x w))).map fun t => r32 (nadd (nmul t.1 t.2.1) t.2.2) := by
  rw [vecValues, hv]; rfl

theorem vecValues_scalar (hv : vVop w = vop) (hop : vop = 7 ∨ vop = 8) :
    vecValues x w = (vecA x w).map fun a => binaryFn vop a (vecS x w) := by
  rw [vecValues, hv]
  dsimp only
  rw [if_neg (by omega), if_neg (by omega), if_neg (by omega), if_pos (by simpa using hop), if_neg (by omega)]
  rfl

theorem vecValues_unary (hv : vVop w = vop) (hlo : 0x10 ≤ vop) (hhi : vop < 0x20) :
    vecValues x w = (vecA x w).map (unaryFn vop) := by
  rw [vecValues, hv]
  dsimp only
  rw [if_neg (by omega), if_neg (by omega), if_neg (by omega), if_neg (by simp; omega), if_pos hlo, if_neg (by omega)]
  rfl

theorem vecValues_rsum (hv : vVop w = 0x20) :
    vecValues x w = (chunksOf (vRowlen w) (vCount w) (vecA x w)).map sumLeaves := by
  rw [vecValues, hv]; rfl

theorem vecValues_rmax (hv : vVop w = 0x21) :
    vecValues x w = (chunksOf (vRowlen w) (vCount w) (vecA x w)).map rowMax := by
  rw [vecValues, hv]; rfl

theorem vecValues_tree (hv : vVop w = 0x23) :
    vecValues x w = (List.range (vCount w)).map fun i => dec32 (treeSum ((List.range (vRowlen w)).map fun p =>
      num (bread x (vLine w 0 + p * linesOf (4 * vCount w)) (4 * vCount w)) (4 * i) 4)) := by
  rw [vecValues, hv]; rfl

end

/-! ### What a VEC word stores -/

/-- Bytes put in the bay from the line of D on, the vector unit's cycles counted (R150). -/
def vecPut (s : State) (b : Nat) (q : QWord) (bs : Bytes) : State :=
  setBay s b (addPerf (bwrite (bay s b) (vLine q.word.toNat 2) bs) 8 (cdiv (vCount q.word.toNat) 64))

theorem vecStored_eq (s : State) (b : Nat) (q : QWord) (bs : Bytes) :
    vecStored s b q bs = boundIssued (vecPut (issueHead s b q) b q bs) b := rfl

section
variable {s : State} {b : Nat} {q : QWord}

/-- Only a block-scaled ternary input can hold a byte above 242 (R91). -/
theorem vecBadTrits_of_fin {w : Nat} (hin : vFin w ≠ 0xD) (x : Bay) : vecBadTrits x w = false := by
  simp [vecBadTrits, hin]

theorem vecEff_values (hout : vFout q.word.toNat ≤ 4) (hin : vFin q.word.toNat ≠ 0xD) (hcvt : vVop q.word.toNat ≠ 0)
    (hargmax : vVop q.word.toNat ≠ 0x22) :
    vecEff s b q = .ok (vecPut s b q (vecBytes q.word.toNat (vecValues (bay s b) q.word.toNat))) := by
  rw [vecEff]
  dsimp only
  rw [if_neg hcvt, if_neg hargmax, vecWrite_plain hout, vecBadTrits_of_fin hin]
  rfl

theorem vecEff_cvt (hout : vFout q.word.toNat ≤ 4) (hin : vFin q.word.toNat ≠ 0xD) (hv : vVop q.word.toNat = 0) :
    vecEff s b q = .ok (vecPut s b q (vecBytes q.word.toNat
      (cvtUnscale (bay s b) q.word.toNat (cvtWiden (bay s b) q.word.toNat)))) := by
  rw [vecEff]
  dsimp only
  rw [if_pos hv, vecWrite_plain hout, vecBadTrits_of_fin hin]
  rfl

theorem vecEff_argmax (hin : vFin q.word.toNat ≠ 0xD) (hv : vVop q.word.toNat = 0x22) :
    vecEff s b q = .ok (vecPut s b q
      (((chunksOf (vRowlen q.word.toNat) (vCount q.word.toNat) (vecA (bay s b) q.word.toNat)).map argmaxRow).flatMap
        fun p => toLE 4 p.1 ++ toLE 4 (encNum fp32 p.2))) := by
  rw [vecEff]
  dsimp only
  have hcvt : vVop q.word.toNat ≠ 0 := by omega
  rw [if_neg hcvt, if_pos hv, vecBadTrits_of_fin hin]
  rfl

/-! ### The command of a VOP -/

/-- The command of the head word's own VOP issues it, and its effect then bounds its writes. -/
theorem runVec_issues {vop : Nat} {bs : Bytes} (h : Issues s b q 5 0) (hr : ReadsClean s b q)
    (hv : vVop q.word.toNat = vop) (he : vecEff (issueHead s b q) b q = .ok (vecPut (issueHead s b q) b q bs)) :
    runVec s b vop 0 = vecStored s b q bs := by
  have hsel : isVec vop q.word.toNat = true := by simp [isVec, isWord_of h, hv]
  rw [vecStored_eq, runVec, runReading_issues h hr]
  exact runHead_engine h rfl hsel rfl he

end

/-! ### The commands of each kind of VOP -/

section
variable {s : State} {b : Nat} {q : QWord} {i : Instr} {vop : Nat}
variable (h : Issues s b q 5 0) (hr : ReadsClean s b q) (hout : vFout q.word.toNat ≤ 4) (hin : vFin q.word.toNat ≠ 0xD)
include h hr hout hin

/-- A command that runs a VOP other than CVT and ARGMAX stores the codes of that VOP's values. -/
theorem exec_vec_values {vs : List Num} (hop : vop ≠ 0 ∧ vop ≠ 0x22) (hrun : exec i s = .next (runVec s b vop 0))
    (hv : vVop q.word.toNat = vop) (hvals : vecValues (bay (issueHead s b q) b) q.word.toNat = vs) :
    exec i s = .next (vecStored s b q (vecBytes q.word.toNat vs)) := by
  subst hv hvals
  rw [hrun, runVec_issues h hr rfl (vecEff_values hout hin hop.1 hop.2)]

theorem exec_vec_binary (hop : vop ∈ [1, 2, 3, 5, 6]) (hrun : exec i s = .next (runVec s b vop 0))
    (hv : vVop q.word.toNat = vop) : exec i s = .next (vecStored s b q (vecBytes q.word.toNat
      (each2 (binaryFn vop) (vecA (bay (issueHead s b q) b) q.word.toNat) (vecB (bay (issueHead s b q) b) q.word.toNat)))) :=
  exec_vec_values h hr hout hin ⟨ne_of_mem_of_not_mem hop (by decide), ne_of_mem_of_not_mem hop (by decide)⟩ hrun hv
    (vecValues_binary hv hop)

theorem exec_vec_scalar (hop : vop = 7 ∨ vop = 8) (hrun : exec i s = .next (runVec s b vop 0))
    (hv : vVop q.word.toNat = vop) : exec i s = .next (vecStored s b q (vecBytes q.word.toNat
      ((vecA (bay (issueHead s b q) b) q.word.toNat).map fun a =>
        binaryFn vop a (vecS (bay (issueHead s b q) b) q.word.toNat)))) :=
  exec_vec_values h hr hout hin (by omega) hrun hv (vecValues_scalar hv hop)

theorem exec_vec_unary (hop : 0x10 ≤ vop ∧ vop < 0x20) (hrun : exec i s = .next (runVec s b vop 0))
    (hv : vVop q.word.toNat = vop) : exec i s = .next (vecStored s b q (vecBytes q.word.toNat
      ((vecA (bay (issueHead s b q) b) q.word.toNat).map (unaryFn vop)))) :=
  exec_vec_values h hr hout hin (by omega) hrun hv (vecValues_unary hv hop.1 hop.2)

end

/-- Settles O21: the values of each VOP by its kind, and one effect that stores them. -/
theorem vectorWordsCompute : Obligations.VectorWordsCompute := by
  intro s b q h hr hout hin
  refine ⟨?values, fun hv => ?argmax, fun hv => ?cvt⟩
  case argmax => exact congrArg Host.Outcome.next (runVec_issues h hr hv (vecEff_argmax hin hv))
  case cvt => exact congrArg Host.Outcome.next (runVec_issues h hr hv (vecEff_cvt hout hin hv))
  case values =>
    have binary {i vop} := @exec_vec_binary s b q i vop h hr hout hin
    have scalar {i vop} := @exec_vec_scalar s b q i vop h hr hout hin
    have unary {i vop} := @exec_vec_unary s b q i vop h hr hout hin
    have values {i vop vs} := @exec_vec_values s b q i vop h hr hout hin vs
    simp only [List.forall_mem_cons]
    exact ⟨binary (vop := 1) (by decide) rfl, binary (vop := 2) (by decide) rfl, binary (vop := 3) (by decide) rfl,
      fun hv => values (by decide) rfl hv (vecValues_fma hv),
      binary (vop := 5) (by decide) rfl, binary (vop := 6) (by decide) rfl,
      scalar (vop := 7) (by decide) rfl, scalar (vop := 8) (by decide) rfl,
      unary (vop := 0x10) (by decide) rfl, unary (vop := 0x11) (by decide) rfl, unary (vop := 0x12) (by decide) rfl,
      unary (vop := 0x13) (by decide) rfl, unary (vop := 0x14) (by decide) rfl, unary (vop := 0x15) (by decide) rfl,
      unary (vop := 0x16) (by decide) rfl, unary (vop := 0x17) (by decide) rfl,
      fun hv => values (by decide) rfl hv (vecValues_rsum hv), fun hv => values (by decide) rfl hv (vecValues_rmax hv),
      fun hv => values (by decide) rfl hv (vecValues_tree hv), List.forall_mem_nil _⟩

end Sys2Proof.Machine

/-! PROOF. PRESS and WINNOW form products (R121, R134, R135, R136, R137). -/

namespace Sys2Proof.Machine

/-! ### A reading word at the head of the queue -/

section
variable {s : State} {b cls op : Nat} {q : QWord} {pre : State → Nat → Nat → Nat}
  {eff : State → Nat → QWord → Except Nat State} (h : Issues s b q cls op) (hr : ReadsClean s b q)
include h hr

/-- A word of an engine whose descriptor is acceptable and whose reads are clean issues and takes effect. -/
theorem runReading_ok {u : State} (hcls : (engineOf cls).isSome = true) (hp : pre s b q.word.toNat = 0)
    (he : eff (issueHead s b q) b q = .ok u) : runReading s b 0 (isWord cls op) pre eff = boundIssued u b :=
  (runReading_issues h hr _ _ _).trans (runHead_engine h hcls (isWord_of h) hp he)

/-- A word whose descriptor is refused puts the bay in ERROR with the refusal's code (R133). -/
theorem runReading_refused (hp : pre s b q.word.toNat ≠ 0) :
    runReading s b 0 (isWord cls op) pre eff = bayError s b (pre s b q.word.toNat) q.addr :=
  (runReading_issues h hr _ _ _).trans (runHead_refused h (isWord_of h) hp)

end

/-! ### What a product leaves in its bay -/

theorem bwrite_acc (x : Bay) (l : Nat) (bs : Bytes) : (bwrite x l bs).acc = x.acc :=
  List.foldlRecOn (motive := fun y : Bay => y.acc = x.acc) _ _ rfl fun _ hy _ _ => hy

theorem writePlane_acc (x : Bay) (line cols : Nat) (vals : List Nat) : (writePlane x line cols vals).acc = x.acc :=
  List.foldlRecOn (motive := fun y : Bay => y.acc = x.acc) _ _ rfl fun _ hy _ _ => (bwrite_acc _ _ _).trans hy

/-- An END empties the accumulator, whatever it writes (R136). -/
theorem pressEnd_acc (x : Bay) (a : PressAcc) (out : Nat) (pw px : List Nat) : (pressEnd x a out pw px).acc = none := by
  unfold pressEnd
  dsimp only
  split_ifs
  · exact List.foldlRecOn (motive := fun y : Bay => y.acc = none) _ _ rfl fun _ hy _ _ => (writePlane_acc _ _ _ _).trans hy
  · exact writePlane_acc _ _ _ _
  · rfl

/-- The end of a product word: its bay as the word leaves it, the chunks that lost bits counted, a free number of cycles in
a counter, and an LQT byte above 242 recorded (R91, R104, R150). -/
def productDone (s : State) (b : Nat) (y : Bay) (cs : List (List (Nat × Bool))) (j owner : Nat) (bad : Bool) : State :=
  let t := freePerf (countTrunc (setBay s b y) b cs) b j
  if bad then recordErr t (bayPage b) eArithLqtByte owner 0 else t

section
variable (s : State) (b : Nat) (y : Bay) (cs : List (List (Nat × Bool))) (j owner : Nat) (bad : Bool)

theorem productDone_bay_eq (c : Nat) :
    bay (productDone s b y cs j owner bad) c = bay (freePerf (countTrunc (setBay s b y) b cs) b j) c := by
  unfold productDone
  cases bad with
  | false => rfl
  | true => exact recordErr_bay _ _ _ _ _ _ c

theorem freePerf_bay (c : Nat) :
    bay (freePerf s b j) c = if b = c then addPerf (bay s b) j (Config.freeValue s.free) else bay s c :=
  bay_setBay _ b c _

theorem countTrunc_bay (c : Nat) : bay (countTrunc s b cs) c =
    if b = c then addPerf (bay s b) 14 ((cs.map fun l => (l.filter (·.2)).length).sum) else bay s c :=
  bay_setBay _ b c _

/-- Of its own bay a product word's end changes only counters. -/
theorem productDone_acc_store : (bay (productDone s b y cs j owner bad) b).acc = y.acc ∧
    (bay (productDone s b y cs j owner bad) b).store = y.store := by
  rw [productDone_bay_eq, freePerf_bay, if_pos rfl, countTrunc_bay, if_pos rfl, bay_setBay, if_pos rfl]
  exact ⟨rfl, rfl⟩

theorem productDone_other {c : Nat} (h : c ≠ b) : bay (productDone s b y cs j owner bad) c = bay s c := by
  rw [productDone_bay_eq, freePerf_bay, if_neg h.symm, countTrunc_bay, if_neg h.symm, bay_setBay_ne s y h]

end

/-! ### PRESS -/

/-- The accumulator and store of a bay after a PRESS word whose chunk values are cs: with END the output written and the
accumulator empty, without it the accumulation open (R135, R136). -/
def pressedBay (x : Bay) (w : Nat) (cs : List (List Nat)) : Bay :=
  let d := pressDescs x w
  if prEnd w then
    pressEnd x (pressAcc x w d cs) (prOut w) (postScales (bread x) d.1 0 (prM w)) (postScales (bread x) d.2 0 (prN w))
  else { x with acc := some (pressAcc x w d cs) }

/-- The chunks of a PRESS word's product, with whether each lost bits. -/
def pressChunks (x : Bay) (w : Nat) : List (List (Nat × Bool)) :=
  let d := pressDescs x w
  matChunks d.1.fmt d.2.fmt (operandRows (bread x) d.1 0 (prM w) (prK w)) (operandRows (bread x) d.2 0 (prN w) (prK w))

theorem pressEff_eq (s : State) (b : Nat) (q : QWord) : ∃ n bad, pressEff s b q = .ok (productDone s b
    (addPerf (pressedBay (bay s b) q.word.toNat ((pressChunks (bay s b) q.word.toNat).map fun l => l.map (·.1))) 2 n)
      (pressChunks (bay s b) q.word.toNat) 3 (bay s b).owner bad) := ⟨_, _, rfl⟩

section
variable {s : State} {b : Nat} {q : QWord}

theorem pressedBay_open {x : Bay} {w : Nat} {cs : List (List Nat)} (h : prEnd w = false) :
    pressedBay x w cs = { x with acc := some (pressAcc x w (pressDescs x w) cs) } := by
  rw [pressedBay, if_neg (by simp [h])]

theorem pressedBay_end {x : Bay} {w : Nat} {cs : List (List Nat)} (h : prEnd w = true) :
    pressedBay x w cs = pressEnd x (pressAcc x w (pressDescs x w) cs) (prOut w)
      (postScales (bread x) (pressDescs x w).1 0 (prM w)) (postScales (bread x) (pressDescs x w).2 0 (prN w)) := by
  rw [pressedBay, if_pos h]

/-- A PRESS word's effect leaves the granary and the other bays, and its own bay's accumulator and store as `pressedBay` has
them. -/
theorem pressEff_spec {x : Bay} {cs : List (List Nat)} (hx : x = bay s b)
    (hcs : cs = (pressChunks x q.word.toNat).map fun l => l.map (·.1)) :
    ∃ u, pressEff s b q = .ok u ∧ granary u = granary s ∧ (∀ c, c ≠ b → bay u c = bay s c) ∧
      (bay u b).acc = (pressedBay x q.word.toNat cs).acc ∧ (bay u b).store = (pressedBay x q.word.toNat cs).store := by
  subst hx hcs
  obtain ⟨n, bad, he⟩ := pressEff_eq s b q
  obtain ⟨hacc, hstore⟩ := productDone_acc_store s b (addPerf (pressedBay (bay s b) q.word.toNat
    ((pressChunks (bay s b) q.word.toNat).map fun l => l.map (·.1))) 2 n) (pressChunks (bay s b) q.word.toNat) 3
    (bay s b).owner bad
  exact ⟨_, he, pressEff_granary s b q _ he, fun c hc => productDone_other s b _ _ 3 _ bad hc, hacc, hstore⟩

/-! ### WINNOW -/

/-- A WINNOW word whose reads are allocatable and clean takes effect on its own bay alone. -/
theorem winnowEff_spec (hdesc : allocatable (64 * wnDesc q.word.toNat) 64 = true)
    (hall : ((winnowReads (winnowDesc s b q.word.toNat) (wnRow0 q.word.toNat) (wnRows q.word.toNat)).all
      fun r => allocatable r.1 r.2) = true)
    (hclean : poisonedIn s (64 * wnDesc q.word.toNat) 64 = false)
    (hpoison : ((winnowReads (winnowDesc s b q.word.toNat) (wnRow0 q.word.toNat) (wnRows q.word.toNat)).any
      fun r => poisonedIn s r.1 r.2) = false) :
    ∃ u, winnowEff s b q = .ok u ∧ granary u = granary s ∧ ∀ c, c ≠ b → bay u c = bay s c := by
  have he : ∃ y cs owner bad, winnowEff s b q = .ok (productDone s b y cs 7 owner bad) := by
    unfold winnowEff
    dsimp only
    rw [if_neg (by simp [hdesc]), if_neg (by simp only [hall]; decide), if_neg (by simp only [hclean, hpoison]; decide)]
    exact ⟨_, _, _, _, rfl⟩
  obtain ⟨y, cs, owner, bad, he⟩ := he
  exact ⟨_, he, winnowEff_granary s b q _ he, fun c hc => productDone_other s b y cs 7 owner bad hc⟩

end

/-- Settles O23: what each product word's effect leaves, run through the head of the queue. -/
theorem productWords : Obligations.ProductWords := by
  intro s b q
  refine ⟨fun h hr hp x d cs hx hd hcs => ?_, fun h hr hp => ?_, fun h hr hp ha d hd hall hclean hpoison => ?_,
    fun h hr hp => ?_⟩
  · subst hd
    obtain ⟨u, he, hgran, hother, hacc, hstore⟩ := pressEff_spec (q := q) hx hcs
    refine ⟨u, congrArg Host.Outcome.next (runReading_ok h hr rfl hp he), hgran.trans (issueHead_granary s b q),
      fun c hc => (hother c hc).trans (issueHead_other s b c q hc), fun hopen => ?_, fun hend => ?_⟩
    · rw [hacc, hstore, pressedBay_open hopen]
      exact ⟨rfl, rfl⟩
    · rw [hacc, hstore, pressedBay_end hend]
      exact ⟨pressEnd_acc _ _ _ _ _, rfl⟩
  · exact congrArg Host.Outcome.next (runReading_refused h hr hp)
  · subst hd
    simp only [← issueHead_poisonedIn s b q] at hclean hpoison
    obtain ⟨u, he, hgran, hother⟩ := winnowEff_spec ha hall hclean hpoison
    exact ⟨u, he, congrArg Host.Outcome.next (runReading_ok h hr rfl hp he), hgran.trans (issueHead_granary s b q),
      fun c hc => (hother c hc).trans (issueHead_other s b c q hc)⟩
  · exact congrArg Host.Outcome.next (runReading_refused h hr hp)

end Sys2Proof.Machine

/-! PROOF. SEND, WAIT, TALLY and HALT words (R123, R125, R126, R127, R132). -/

namespace Sys2Proof.Machine

/-! ### What issuing a word takes from the counters -/

/-- Tokens that conditions consume from a counter. -/
def consumed (cs : List (Nat × Nat × Bool)) (c : Nat) : Nat := ((cs.filter fun d => d.1 == c && d.2.2).map (·.2.1)).sum

/-- One condition takes its threshold from its counter, if it consumes (R125). -/
def spendToken (x : Bay) (d : Nat × Nat × Bool) : Bay := if d.2.2 then setTok x d.1 (tok x d.1 - d.2.1) else x

theorem consume_eq (x : Bay) (w : Nat) :
    consume x w = setCred ((headCond w ++ waitConds w).foldl spendToken x) (fld w 26 25)
      (cred ((headCond w ++ waitConds w).foldl spendToken x) (fld w 26 25) - fld w 30 27) := rfl

theorem spendToken_tok (x : Bay) (d : Nat × Nat × Bool) (c : Nat) :
    tok (spendToken x d) c = tok x c - if d.1 == c && d.2.2 then d.2.1 else 0 := by
  obtain ⟨ctr, n, takes⟩ := d
  cases takes with
  | false => simp [spendToken]
  | true =>
    by_cases hc : ctr = c
    · subst hc; simp [spendToken]
    · simp [spendToken, hc]

theorem consumed_cons (d : Nat × Nat × Bool) (cs : List (Nat × Nat × Bool)) (c : Nat) :
    consumed (d :: cs) c = (if d.1 == c && d.2.2 then d.2.1 else 0) + consumed cs c := by
  unfold consumed
  rw [List.filter_cons]
  split_ifs <;> simp

/-- Conditions take from a counter the sum of what they consume from it. -/
theorem spendTokens_tok (cs : List (Nat × Nat × Bool)) (x : Bay) (c : Nat) :
    tok (cs.foldl spendToken x) c = tok x c - consumed cs c := by
  induction cs generalizing x with
  | nil => rfl
  | cons d cs ih => rw [List.foldl_cons, ih, spendToken_tok, consumed_cons, Nat.sub_sub]

theorem spendTokens_cred (cs : List (Nat × Nat × Bool)) (x : Bay) (p : Nat) : cred (cs.foldl spendToken x) p = cred x p :=
  List.foldlRecOn cs spendToken (motive := fun y => cred y p = cred x p) rfl
    fun y hy d _ => by unfold spendToken; split_ifs <;> exact hy

theorem consume_tok (x : Bay) (w c : Nat) : tok (consume x w) c = tok x c - consumed (headCond w ++ waitConds w) c :=
  spendTokens_tok (headCond w ++ waitConds w) x c

theorem consume_cred (x : Bay) (w p : Nat) :
    cred (consume x w) p = cred x p - if p = fld w 26 25 then fld w 30 27 else 0 := by
  rw [consume_eq, cred_setCred, spendTokens_cred, spendTokens_cred]
  by_cases hp : p = fld w 26 25
  · rw [if_pos hp.symm, if_pos hp, hp]
  · rw [if_neg (Ne.symm hp), if_neg hp, Nat.sub_zero]

/-- Neither the refill of the queue nor the entry of the issued word touches the counters that the word took from. -/
theorem issueHead_tokens_credits (s : State) (b : Nat) (q : QWord) :
    (bay (issueHead s b q) b).tokens = (consume (bay s b) q.word.toNat).tokens ∧
      (bay (issueHead s b q) b).credits = (consume (bay s b) q.word.toNat).credits := by
  unfold issueHead refill
  dsimp only
  rw [noteOldest_bay, bay_setBay, if_pos rfl, countWord_bay, bay_setBay, if_pos rfl]
  exact ⟨rfl, rfl⟩

theorem issueHead_tok (s : State) (b : Nat) (q : QWord) (c : Nat) : tok (bay (issueHead s b q) b) c =
    tok (bay s b) c - consumed (headCond q.word.toNat ++ waitConds q.word.toNat) c := by
  rw [tok, (issueHead_tokens_credits s b q).1]
  exact consume_tok (bay s b) q.word.toNat c

theorem issueHead_cred (s : State) (b : Nat) (q : QWord) (p : Nat) : cred (bay (issueHead s b q) b) p =
    cred (bay s b) p - if p = fld q.word.toNat 26 25 then fld q.word.toNat 30 27 else 0 := by
  rw [cred, (issueHead_tokens_credits s b q).2]
  exact consume_cred (bay s b) q.word.toNat p

/-! ### SEND -/

/-- The message a SEND word sends to a destination: a token or a credit (R123). -/
def sendMsg (b w dst : Nat) : MeshMsg :=
  { src := b, dst := dst, kind := wOp w, ctr := if wOp w = 1 then fld w 53 52 else fld w 55 52, amount := fld w 63 56 }

theorem sendMsg_token {b w dst : Nat} (h : wOp w = 0) :
    sendMsg b w dst = { src := b, dst := dst, kind := 0, ctr := fld w 55 52, amount := fld w 63 56 } := by
  simp [sendMsg, h]

theorem sendMsg_credit {b w dst : Nat} (h : wOp w = 1) :
    sendMsg b w dst = { src := b, dst := dst, kind := 1, ctr := fld w 53 52, amount := fld w 63 56 } := by
  simp [sendMsg, h]

/-- Messages sent one after another join the mesh's queue in their order. -/
theorem foldl_send {α : Type} (f : α → MeshMsg) (l : List α) (s : State) :
    l.foldl (fun s i => send s (f i)) s = { s with mesh := s.mesh ++ l.map f } := by
  induction l generalizing s with
  | nil => simp
  | cons i l ih => rw [List.foldl_cons, ih, List.map_cons]; simp [send]

section
variable {s : State} {b : Nat} {q : QWord}

theorem sendEff_unit (h : fld q.word.toNat 41 32 = 1023) :
    sendEff s b q = .ok (send s (sendMsg b q.word.toNat (uGleaner + fld q.word.toNat 67 64))) := by
  unfold sendEff
  exact if_pos h

theorem sendEff_bays (h : fld q.word.toNat 41 32 ≠ 1023) :
    sendEff s b q = .ok { s with
      mesh := s.mesh ++ (List.range (fld q.word.toNat 51 42 + 1 - fld q.word.toNat 41 32)).map fun i =>
        sendMsg b q.word.toNat (fld q.word.toNat 41 32 + i) } := by
  unfold sendEff
  exact (if_neg h).trans (congrArg Except.ok (foldl_send _ _ s))

/-- A control word's effect is all that its issue brings: no engine holds it. -/
theorem runHead_control {cls op : Nat} {eff : State → Nat → QWord → Except Nat State} {u : State} (h : Issues s b q cls op)
    (hcls : (engineOf cls).isSome = false) (he : eff (issueHead s b q) b q = .ok u) :
    runHead s b (isWord cls op) noPre eff = u :=
  runHead_plain h hcls (isWord_of h) rfl he

/-- A SEND to bays queues one message for each and changes nothing else but what its issue does. -/
theorem runHead_send_bays {op : Nat} (h : Issues s b q 6 op) (hd : fld q.word.toNat 41 32 ≠ 1023) {f : Nat → MeshMsg}
    (hf : ∀ i, sendMsg b q.word.toNat (fld q.word.toNat 41 32 + i) = f i) :
    ∃ u, runHead s b (isWord 6 op) noPre sendEff = u ∧ u.bays = (issueHead s b q).bays ∧ granary u = granary s ∧
      u.mesh = s.mesh ++ (List.range (fld q.word.toNat 51 42 + 1 - fld q.word.toNat 41 32)).map f := by
  refine ⟨_, runHead_control h rfl (sendEff_bays hd), rfl, issueHead_mem s b q, ?_⟩
  rw [issueHead_mesh, funext hf]

/-! ### HALT -/

theorem haltEff_eq : haltEff s b q = .ok (if bit q.word.toNat 48 = true
    then raiseIrq (jobsCheck (leaveRunning s b .halted (fld q.word.toNat 47 32))) (bayPage b) 16
    else jobsCheck (leaveRunning s b .halted (fld q.word.toNat 47 32))) := by
  unfold haltEff bayHalted
  rfl

end

theorem wOp_of_issues {s : State} {b : Nat} {q : QWord} {cls op : Nat} (h : Issues s b q cls op) : wOp q.word.toNat = op := by
  obtain ⟨-, -, -, -, -, hop, -⟩ := h
  exact hop

/-- Settles O24: each word's effect at issue, and what the issue itself takes from the counters. -/
theorem meshAndControlWords : Obligations.MeshAndControlWords := by
  intro s b q
  refine ⟨fun h hd => ?_, fun h hd => ?_, fun h hd => ?_, fun h => ?_, fun h => ?_, fun cls op _ => ?_, fun h => ?_⟩
  · rw [← sendMsg_token (wOp_of_issues h)]
    exact congrArg Host.Outcome.next (runHead_control h rfl (sendEff_unit hd))
  · obtain ⟨u, hrun, hu⟩ := runHead_send_bays h hd fun i => sendMsg_token (wOp_of_issues h)
    exact ⟨u, congrArg Host.Outcome.next hrun, hu⟩
  · obtain ⟨u, hrun, hu⟩ := runHead_send_bays h hd fun i => sendMsg_credit (wOp_of_issues h)
    exact ⟨u, congrArg Host.Outcome.next hrun, hu⟩
  · exact congrArg Host.Outcome.next (runHead_control (eff := tallyEff) h rfl rfl)
  · exact congrArg Host.Outcome.next (runHead_control (eff := fun s _ _ => .ok s) h rfl rfl)
  · exact ⟨issueHead_tok s b q, issueHead_cred s b q⟩
  · obtain ⟨hst, hcode, hepoch⟩ := leaveRunning_bay (issueHead s b q) b (fld q.word.toNat 47 32) .halted
    have hrun : exec (.halt b) s = .next _ := congrArg Host.Outcome.next (runHead_control h rfl haltEff_eq)
    refine ⟨_, hst, hcode.trans (Nat.mod_eq_of_lt (fld_lt _ 47 32)), hepoch, fun hirq => ?_, fun hirq => ?_⟩
    · exact hrun.trans (congrArg Host.Outcome.next (if_neg (by simp [hirq])))
    · exact hrun.trans (congrArg Host.Outcome.next (if_pos hirq))

end Sys2Proof.Machine

/-! PROOF. A bay fetches, refuses, completes and halts (R121, R128, R131, R132). -/

namespace Sys2Proof.Machine

section
variable {s : State} {b : Nat}

theorem programFetch_joins (hrun : (bay s b).st = .running)
    (hroom : (bay s b).prefetch.length + (fetchWords s b).length ≤ 512) (hend : (bay s b).fetch < granEnd) :
    programFetch s b = refill (setBay s b { bay s b with
      prefetch := (bay s b).prefetch ++ fetchWords s b, fetch := 64 * ((bay s b).fetch / 64) + 64 }) b := by
  unfold programFetch
  dsimp only
  rw [if_neg (by simp [hrun, hroom, hend])]

theorem refusedHead_errs {q : QWord} {l : List QWord} {c : Nat} (hrun : (bay s b).st = .running)
    (hissue : (bay s b).halting = false) (hq : (bay s b).queue = q :: l) (hc : q.refused = some c) :
    refusedHead s b = bayError s b c q.addr := by
  unfold refusedHead
  simp [hrun, hissue, hq, hc]

/-- A bay whose oldest word of an engine has completed: the word is off the issued list, presses without a further request
ask for their release, and the epoch is that of the oldest word left (R76, R131, R144). -/
def completedBay (x : Bay) (e : Engine) : Bay :=
  let y := freePresses { x with issued := dropFirst (fun i => i.eng == e) x.issued }
  { y with epoch := if y.st = .running then plainEpoch y else none }

theorem wordComplete_completes {e : Engine} {i : Issued} (hi : (bay s b).issued.find? (fun i => i.eng == e) = some i)
    (hm : mayComplete s b (bay s b) i = true) : wordComplete s b e = noteOldest (setBay s b (completedBay (bay s b) e)) := by
  unfold wordComplete
  simp only [hi, hm]
  rfl

theorem haltComplete_halts (hhalt : (bay s b).halting = true) (hcomp : (bay s b).comp = none)
    (hrun : (bay s b).st = .running) (hissued : (bay s b).issued = []) :
    haltComplete s b = jobsCheck (leaveRunning s b .halted 0) := by
  unfold haltComplete
  simp [hhalt, hcomp, hrun, hissued, bayHalted]

theorem haltComplete_stops {c : Composite} (hhalt : (bay s b).halting = true) (hcomp : (bay s b).comp = some c) :
    haltComplete s b = haltComposite s b c := by
  unfold haltComplete
  simp [hhalt, hcomp]

end

/-- Settles O25: one equation per command of the queue. -/
theorem bayQueue : Obligations.BayQueue := by
  intro s b
  refine ⟨fun hrun hroom hend => ?_, fun q l c hrun hissue hq hc => ?_, fun e i hi hm => ?_,
    fun hrun hhalt hcomp hissued => ?_, fun c hhalt hcomp => ?_⟩
  · exact congrArg Host.Outcome.next (programFetch_joins hrun hroom hend)
  · exact congrArg Host.Outcome.next (refusedHead_errs hrun hissue hq hc)
  · refine ⟨_, congrArg Host.Outcome.next (wordComplete_completes hi hm), ?_⟩
    simp only [noteOldest_bay, bay_setBay, if_true]
    exact ⟨rfl, rfl, fun c hc => if_neg hc.symm, rfl⟩
  · obtain ⟨hst, hcode, hepoch⟩ := leaveRunning_bay s b 0 .halted
    exact ⟨leaveRunning s b .halted 0, congrArg Host.Outcome.next (haltComplete_halts hhalt hcomp hrun hissued),
      hst, hcode, hepoch, leaveRunning_granary s b .halted 0⟩
  · exact congrArg Host.Outcome.next (haltComplete_stops hhalt hcomp)

end Sys2Proof.Machine

/-! PROOF. CONV and ATTN words run row by row (R133, R156, R162, R168, R169, R174, R207, R208, R211, R213, R214). -/

namespace Sys2Proof.Machine

/-! ### Counting a row -/

/-- A row's cycles are counted in the bay's performance counters alone (R150). -/
theorem countRow_bay (s : State) (b : Nat) :
    (bay (countRow s b) b).comp = (bay s b).comp ∧ (bay (countRow s b) b).halting = (bay s b).halting := by
  have count (t : State) (j : Nat) : (bay (freePerf t b j) b).comp = (bay t b).comp ∧
      (bay (freePerf t b j) b).halting = (bay t b).halting := by
    rw [freePerf_bay, if_pos rfl]
    exact ⟨rfl, rfl⟩
  unfold countRow
  dsimp only
  split_ifs <;> simp only [count, and_self]

/-! ### Rows of a composite -/

section
variable {k : Works} {b : Nat} {s : State}

theorem runRows_none (h : (bay s b).comp = none) : runRows k b 0 s = s := by
  rw [runRows, h]

theorem runRows_unfinished {c : Composite} (h : (bay s b).comp = some c) (hn : c.next < k.total c) :
    runRows k b 0 s = s := by
  rw [runRows, h]
  exact if_neg (by simp [Nat.not_le.mpr hn])

theorem runRows_finishes {c : Composite} (h : (bay s b).comp = some c) (hn : k.total c ≤ c.next)
    (hh : (bay s b).halting = false) : runRows k b 0 s = k.finish s b c := by
  rw [runRows, h]
  exact if_pos (by simp [hn, hh])

/-- The state in which a composite's next row runs: what its wait left, with the composite as the wait left it. -/
def rowReady (t : State) (b : Nat) (w : Composite) : State := setBay t b { bay t b with comp := some w }

/-- What follows a wait: nothing while the composite waits, else its row, with up to n further ones or the row's failure. -/
def afterWait (k : Works) (b n : Nat) (w : Composite) (v : State) : State :=
  if w.waiting then v
  else match k.row v b w with
    | .ok (u, d) => runRows k b n (countRow (setBay u b { bay u b with comp := some d }) b)
    | .error code => failComposite v b w code

theorem runRows_row {c w : Composite} {t : State} {n : Nat} (h : (bay s b).comp = some c) (hh : (bay s b).halting = false)
    (hw : c.waiting = false) (hn : c.next < k.total c) (ht : (t, w) = k.wait s b c) :
    runRows k b (n + 1) s = afterWait k b n w (rowReady t b w) := by
  rw [runRows, h]
  dsimp only
  rw [if_neg (by simp [hh, hw]), if_neg (Nat.not_le.mpr hn), ← ht]
  rfl

theorem afterWait_waiting {n : Nat} {w : Composite} {v : State} (hw : w.waiting = true) : afterWait k b n w v = v := by
  rw [afterWait, if_pos hw]

theorem afterWait_ok {n : Nat} {w d : Composite} {v u : State} (hw : w.waiting = false) (hrow : k.row v b w = .ok (u, d)) :
    afterWait k b n w v = runRows k b n (countRow (setBay u b { bay u b with comp := some d }) b) := by
  rw [afterWait, if_neg (by simp [hw]), hrow]

theorem afterWait_error {n : Nat} {w : Composite} {v : State} {code : Nat} (hw : w.waiting = false)
    (hrow : k.row v b w = .error code) : afterWait k b n w v = failComposite v b w code := by
  rw [afterWait, if_neg (by simp [hw]), hrow]

theorem countRow_comp (u : State) (d : Composite) :
    (bay (countRow (setBay u b { bay u b with comp := some d }) b) b).comp = some d := by
  rw [(countRow_bay _ b).1, bay_setBay, if_pos rfl]

theorem countRow_halting (u : State) (d : Composite) :
    (bay (countRow (setBay u b { bay u b with comp := some d }) b) b).halting = (bay u b).halting := by
  rw [(countRow_bay _ b).2, bay_setBay, if_pos rfl]

end

/-! ### A composite's command -/

section
variable {s : State} {b cls op : Nat} {pre : State → Nat → Nat → Nat} {start : State → Nat → QWord → Except Nat State}
  {k : Works}

/-- With no composite in the bay the command begins with the head word. -/
theorem compositeRow_head (hc : (bay s b).comp = none) (n : Nat) :
    compositeRow s b n cls op pre start k = runRows k b n (runHead s b (isWord cls op) pre start) := by
  rw [compositeRow, hc]

/-- With its own composite in the bay the command does rows of it. -/
theorem compositeRow_rows {c : Composite} (hc : (bay s b).comp = some c) (hcls : c.cls = cls) (hop : c.op = op)
    (hw : c.waiting = false) (n : Nat) : compositeRow s b n cls op pre start k = runRows k b n s := by
  rw [compositeRow, hc]
  dsimp only
  rw [if_neg (by simp [hcls, hop]), if_neg (by simp [hw])]

theorem compositeRow_waits {c : Composite} (hc : (bay s b).comp = some c) (hcls : c.cls = cls) (hop : c.op = op)
    (hh : (bay s b).halting = false) (hw : c.waiting = true) (n : Nat) : compositeRow s b n cls op pre start k = s := by
  rw [compositeRow, hc]
  dsimp only
  rw [if_neg (by simp [hcls, hop]), if_pos (by simp [hw, hh])]

end

/-- A command with its class, OP, refusals, start and rows that runs as a composite's command does. -/
def RunsAsComposite (e : (Nat → Nat → Instr) × Nat × Nat × (State → Nat → Nat → Nat) ×
    (State → Nat → QWord → Except Nat State) × Works) : Prop :=
  (engineOf e.2.1).isSome = true ∧
    ∀ s b n, exec (e.1 b n) s = .next (compositeRow s b n e.2.1 e.2.2.1 e.2.2.2.1 e.2.2.2.2.1 e.2.2.2.2.2)

/-- Settles O27: the nine commands run as composites, and a composite's command by the cases of its row. -/
theorem compositesRunRowByRow : Obligations.CompositesRunRowByRow := by
  intro s b e he
  have hrun : RunsAsComposite e := by
    simp only [List.mem_cons, List.not_mem_nil, or_false] at he
    rcases he with rfl | rfl | rfl | rfl | rfl | rfl | rfl | rfl | rfl <;> exact ⟨rfl, fun _ _ _ => rfl⟩
  clear he
  obtain ⟨instr, cls, op, pre, start, k⟩ := e
  obtain ⟨heng, hexec⟩ := hrun
  dsimp only at heng hexec ⊢
  simp only [hexec]
  refine ⟨fun q u c hnone h hp hs hc hn => ?_, fun q hnone h hp herr => ?_,
    fun c hc hcls hop hh hw hn t w ht v hv => ?_, fun c hc hcls hop hh hw => ?_⟩
  · rw [compositeRow_head hnone, runHead_engine h heng (isWord_of h) hp hs, runRows_unfinished hc hn]
  · rw [compositeRow_head hnone, runHead_refused h (isWord_of h) hp, runRows_none herr]
  · replace hv : v = rowReady t b w := hv
    subst hv
    rw [compositeRow_rows hc hcls hop hw, runRows_row hc hh hw hn ht]
    refine ⟨fun hwait => ?_, fun u d hwait hrow hd => ?_, fun u d hwait hrow hd hu => ?_, fun code hwait hrow => ?_⟩
    · rw [afterWait_waiting hwait]
    · rw [afterWait_ok hwait hrow, runRows_unfinished (countRow_comp u d) hd]
    · rw [afterWait_ok hwait hrow, runRows_finishes (countRow_comp u d) hd ((countRow_halting u d).trans hu)]
    · rw [afterWait_error hwait hrow]
  · rw [compositeRow_waits hc hcls hop hh hw]

end Sys2Proof.Machine

/-! PROOF. The ramp limiter grants within its allowance (R144, R145, R146). -/

namespace Sys2Proof.Machine

/-! ### One turn of grants -/

/-- The ways one waiting press goes: no grant, or a grant that takes one unit of the die's allowance (R145). -/
theorem turnStep_cases (t : Turn) (e : Nat × Nat) :
    ((turnStep t e).a = t.a ∧ (turnStep t e).grants = t.grants) ∨
      (1 ≤ t.a ∧ (turnStep t e).a = t.a - 1 ∧ (turnStep t e).grants = t.grants ++ [e]) := by
  unfold turnStep
  dsimp only
  split_ifs with hended hspent
  · exact .inl ⟨rfl, rfl⟩
  · exact .inl ⟨rfl, rfl⟩
  · exact .inl ⟨rfl, rfl⟩
  · exact .inr ⟨not_lt.mp hspent, rfl, rfl⟩

/-- A turn that began with an allowance has spent one unit of it for each grant, has not gone below 0 and has granted only to
presses of a list. -/
structure Turn.Within (allowance : Rat) (l : List (Nat × Nat)) (t : Turn) : Prop where
  spent : t.a + (t.grants.length : Rat) = allowance
  nonneg : 0 ≤ t.a
  waited : ∀ e ∈ t.grants, e ∈ l

theorem turnStep_within {allowance : Rat} {l : List (Nat × Nat)} {t : Turn} (h : t.Within allowance l) {e : Nat × Nat}
    (he : e ∈ l) : (turnStep t e).Within allowance l := by
  obtain ⟨hspent, hnonneg, hwaited⟩ := h
  rcases turnStep_cases t e with ⟨ha, hg⟩ | ⟨hone, ha, hg⟩
  · exact ⟨by rw [ha, hg, hspent], by rw [ha]; exact hnonneg, by rw [hg]; exact hwaited⟩
  · refine ⟨?_, ?_, fun x hx => ?_⟩
    · rw [ha, hg, List.length_append, List.length_singleton, ← hspent]
      push_cast
      ring
    · rw [ha]
      linarith
    · rw [hg, List.mem_append, List.mem_singleton] at hx
      rcases hx with hx | rfl
      · exact hwaited x hx
      · exact he

/-- A whole turn over a list stays within the allowance it began with. -/
theorem turn_within {l : List (Nat × Nat)} {t : Turn} (ha : 0 ≤ t.a) (hg : t.grants = []) :
    (l.foldl turnStep t).Within t.a l :=
  List.foldlRecOn l turnStep (motive := Turn.Within t.a l) ⟨by simp [hg], ha, by simp [hg]⟩
    fun _ ht _ he => turnStep_within ht he

/-- The turn's order only arranges the presses that wait. -/
theorem mem_of_mem_turnOrder {ptr : Nat} {l : List (Nat × Nat)} {e : Nat × Nat} (h : e ∈ turnOrder ptr l) : e ∈ l := by
  rw [turnOrder, List.mem_append, List.mem_filter, List.mem_filter] at h
  exact h.elim And.left And.left

/-! ### The tick -/

section
variable (s : State)

theorem topUp_nonneg {a : Rat} (ha : 0 ≤ a) (aF : List Rat) : 0 ≤ (topUp s a aF).a := by
  have hcarry : 0 ≤ if a < 8 then a else 8 := by split_ifs <;> [exact ha; norm_num]
  exact add_nonneg hcarry (Rat.mkRat_nonneg (by norm_num) _)

/-- The admissions and the releases of a tick. -/
def admitTurn : Turn := (turnOrder s.ramp.ptr (pressesIn s 1)).foldl turnStep (topUp s s.ramp.aG s.ramp.aF)
def releaseTurn : Turn := (turnOrder s.ramp.rptr (pressesIn s 3)).foldl turnStep (topUp s s.ramp.bG s.ramp.bF)

theorem tickK_aG : (tickK s).ramp.aG = (admitTurn s).a := rfl
theorem tickK_bG : (tickK s).ramp.bG = (releaseTurn s).a := rfl

theorem rampTick_on (h : s.ramp.on = true) : rampTick s = tickK s := by rw [rampTick, if_pos h]

theorem rampTick_idle (h : s.ramp.on = false) (hp : pressesIn s 1 = []) : rampTick s = s := by
  rw [rampTick, if_neg (by simp [h]), if_pos (by simp [hp])]

theorem rampTick_starts (h : s.ramp.on = false) (hp : pressesIn s 1 ≠ []) : rampTick s = tick0 s := by
  rw [rampTick, if_neg (by simp [h]), if_neg (by simpa using hp)]

end

/-- Settles O29: both turns of a tick stay within the topped-up allowances. -/
theorem rampGrantsWithinAllowance : Obligations.RampGrantsWithinAllowance := by
  refine ⟨fun s hon ha hb => ?_, fun s hoff hp => ?_, fun s hoff hp => ?_⟩
  · have hgrant : (admitTurn s).Within _ _ := turn_within (topUp_nonneg s ha s.ramp.aF) rfl
    have hleave : (releaseTurn s).Within _ _ := turn_within (topUp_nonneg s hb s.ramp.bF) rfl
    refine ⟨tickK s, (admitTurn s).grants, (releaseTurn s).grants, congrArg Host.Outcome.next (rampTick_on s hon),
      tickK_granary s, ?_⟩
    rw [tickK_aG, tickK_bG]
    exact ⟨hgrant.spent, hgrant.nonneg, hleave.spent, hleave.nonneg,
      fun e he => mem_of_mem_turnOrder (hgrant.waited e he), fun e he => mem_of_mem_turnOrder (hleave.waited e he)⟩
  · exact congrArg Host.Outcome.next (rampTick_idle s hoff hp)
  · exact ⟨tick0 s, congrArg Host.Outcome.next (rampTick_starts s hoff hp), rfl, rfl, rfl, rfl, rfl, rfl⟩

end Sys2Proof.Machine

/-! PROOF. A waiting CONV resumes at its halo token (R174). -/

namespace Sys2Proof.Machine

/-! ### Resuming at a halo token -/

/-- The counter of a side's halo tokens (R174): WN to the north, WS to the south. -/
def Conv.haloCtr (c : Conv) (side : Nat) : Nat := if side = 0 then c.wn else c.ws

/-- The sides whose token a composite's next row still needs (R174). -/
def Composite.haloSides (k : Composite) : List Nat :=
  (convDesc k.op k.body).needs k.took ((convDesc k.op k.body).toFetch k)

/-- The rows of a composite that waits no longer: its first row takes the token (R174). -/
def resumeRows (s : State) (b n : Nat) (k : Composite) : State :=
  runRows convWorks b (max n 1) (setBay s b { bay s b with comp := some { k with waiting := false } })

section
variable {s : State} {b : Nat} {k : Composite} {side : Nat} (hc : (bay s b).comp = some k) (hw : k.waiting = true)
  (hh : (bay s b).halting = false) (hside : k.haloSides.head? = some side)
include hc hw hh hside

/-- A bay whose composite waits for a side's token looks at that side's counter alone (R174). -/
theorem scarfResume_waiting (n : Nat) : scarfResume s b n =
    if 0 < tok (bay s b) ((convDesc k.op k.body).haloCtr side) then resumeRows s b n k else s := by
  rw [Composite.haloSides] at hside
  rw [scarfResume, hc]
  dsimp only
  rw [if_neg (by simp [hw, hh]), hside]
  simp only [Option.map_some, Option.getD_some, decide_eq_true_eq]
  rfl

theorem scarfResume_token (ht : 0 < tok (bay s b) ((convDesc k.op k.body).haloCtr side)) (n : Nat) :
    scarfResume s b n = resumeRows s b n k := by
  rw [scarfResume_waiting hc hw hh hside, if_pos ht]

theorem scarfResume_noToken (ht : tok (bay s b) ((convDesc k.op k.body).haloCtr side) = 0) (n : Nat) :
    scarfResume s b n = s := by
  rw [scarfResume_waiting hc hw hh hside, if_neg ht.not_gt]

end

/-- Settles O28: the counter of the first side needed decides between `resumeRows` and no change. -/
theorem scarfResumes : Obligations.ScarfResumes := by
  intro s b n k side hc hw hh hside
  exact ⟨fun ht => congrArg Host.Outcome.next (scarfResume_token hc hw hh hside ht n),
    fun ht => congrArg Host.Outcome.next (scarfResume_noToken hc hw hh hside ht n)⟩

end Sys2Proof.Machine

/-! PROOF. The step boundary, held batches, gleaner groups, swaps and the rebuild (R191, R193, R194, R231, R235, R236, R251). -/

namespace Sys2Proof.Machine

/-! ### Step boundaries -/

/-- Nothing is written out where no snapshot's copies run (R437). -/
theorem snapshotsOut_none {s : State} (h : (s.tallyWaits.any fun w => w.kind == 0 && w.phase == 1) = false) :
    snapshotsOut s = s := by
  have hnil : (s.tallyWaits.filter fun w => w.kind == 0 && w.phase == 1 && jobOver s w.job w.descs) = [] := by
    refine List.filter_eq_nil_iff.2 fun w hw hrun => List.any_eq_false.1 h w hw ?_
    exact (Bool.and_eq_true_iff.1 hrun).1
  rw [snapshotsOut, hnil, List.foldl_nil]

section
variable {s : State} {m : Mid} {due : Bool}

theorem boundaryIf_starts (hm : (snapshotsOut s).srv.mid = none) (hb : mayBound (snapshotsOut s) = true) (hd : due = true) :
    boundaryIf s due = boundary (snapshotsOut s) := by
  simp only [boundaryIf, hm, hb, hd, Bool.and_self, if_true]

theorem boundaryIf_idle (hm : (snapshotsOut s).srv.mid = none) (h : mayBound (snapshotsOut s) = false ∨ due = false) :
    boundaryIf s due = snapshotsOut s := by
  have hno : (mayBound (snapshotsOut s) && due) = false := Bool.and_eq_false_iff.2 h
  simp only [boundaryIf, hm, hno, Bool.false_eq_true, if_false]

theorem boundaryIf_ends (hm : (snapshotsOut s).srv.mid = some m)
    (hj : (m.jobs.all fun j => jobOver (snapshotsOut s) j.1 j.2.1) = true) :
    boundaryIf s due = endBoundary (snapshotsOut s) m := by
  simp only [boundaryIf, hm, hj, if_true]

theorem boundaryIf_waits (hm : (snapshotsOut s).srv.mid = some m)
    (hj : (m.jobs.all fun j => jobOver (snapshotsOut s) j.1 j.2.1) = false) :
    boundaryIf s due = snapshotsOut s := by
  simp only [boundaryIf, hm, hj, Bool.false_eq_true, if_false]

end

/-- A boundary's command runs `boundaryIf` with what makes it due: a step's boundary (R231) or an empty one (R235). -/
theorem exec_boundary {s : State} {c : Instr} {due : Bool}
    (hc : c = .stepBoundary ∧ due = (stepEnded s || stepDue s) ∨ c = .emptyBoundary ∧ due = emptyDue s) :
    exec c s = .next (boundaryIf s due) := by
  rcases hc with ⟨rfl, rfl⟩ | ⟨rfl, rfl⟩
  · rfl
  · rfl

/-! ### Held batches -/

section
variable {s : State} {f : Nat} {bt : Batch} {rest : List Batch}

theorem heldBatchPost_fits (hh : (area s f).held = bt :: rest) (hf : batchFits s f bt = true) :
    heldBatchPost f s = postBatch (setArea s f { area s f with held := rest }) f bt := by
  simp only [heldBatchPost, hh, hf, if_true]

theorem heldBatchPost_unfit (hh : (area s f).held = bt :: rest) (hf : batchFits s f bt = false) :
    heldBatchPost f s = s := by
  simp only [heldBatchPost, hh, hf, Bool.false_eq_true, if_false]

theorem heldBatchPost_empty (hh : (area s f).held = []) : heldBatchPost f s = s := by
  simp only [heldBatchPost, hh]

end

/-! ### Gleaner groups -/

section
variable {s : State} {ctr target : Nat}

theorem glnGroup_runs (rows : List GlnRow) (hc : ctr < 16) (hr : s.srv.running = true)
    (ht : target ≤ mget (fun _ => 0) s.unitTokens ctr) (hh : haltedOnErr s pgGln = false) :
    glnGroup ctr target rows s = rows.foldl glnSeq
      { s with unitTokens := mset (fun _ => 0) s.unitTokens ctr (mget (fun _ => 0) s.unitTokens ctr - target) } := by
  rw [glnGroup, if_neg (by simp [hc, hr, ht, hh])]

theorem glnGroup_held (rows : List GlnRow)
    (h : mget (fun _ => 0) s.unitTokens ctr < target ∨ haltedOnErr s pgGln = true) : glnGroup ctr target rows s = s := by
  rw [glnGroup, if_pos]
  rcases h with ht | hh
  · simp [ht]
  · simp [hh]

end

/-! ### Swaps -/

theorem swapEnded_over {s : State} {kind i : Nat} (h : swapOver s (seqOf s i) kind = true) :
    swapEnded kind i s = setSeq s i { seqOf s i with swap := kind + 4 } := if_pos h

theorem swapEnded_waits {s : State} {kind i : Nat} (h : swapOver s (seqOf s i) kind = false) : swapEnded kind i s = s :=
  if_neg (by simp [h])

/-- A page's table entry once the page is in swap: its offset there, and SWAPPED (R193). -/
def Draft.swapEntries (b : Draft) (i : Nat) : List Nat :=
  (b.seq i).pages.foldl (fun t p => t.set p.1 (putFld (putFld (t.getD p.1 0) 28 0 p.2.1) 35 35 1)) (b.tab i)

/-- A swap-out whose descriptors all ended well (R193). -/
theorem Draft.swappedOut_good {b : Draft} {i : Nat} (h : (swapCodes b.s (b.seq i)).all (· == 0) = true) :
    b.swappedOut i = (({ b with
      s := incr b.s K.kvmSwapout (b.seq i).pages.length
      decs := b.decs ++ (b.seq i).pages.map fun p => (i, rcOf b.s (reqPool (b.seq i)) ((b.tab i).getD p.1 0)) } : Draft).setTab i
        (b.swapEntries i)).setSeq i { b.seq i with swap := 2, swapJob := none } := if_pos h

/-- A swap-out with a failed descriptor, of a function that allows no recompute (R193, R195). -/
theorem Draft.swappedOut_failed {b : Draft} {i : Nat} (h : (swapCodes b.s (b.seq i)).all (· == 0) = false)
    (hr : bit (swapCfg b.s (b.seq i).func) 12 = false) :
    b.swappedOut i = b.setSeq i { b.seq i with swap := 0, pages := [], swapJob := none, fail := eKvExhausted } := by
  have hbad : ¬(swapCodes b.s (b.seq i)).all (· == 0) = true := by simp [h]
  have hoff : ¬bit (swapCfg b.s (b.seq i).func) 12 = true := by simp [hr]
  exact (if_neg hbad).trans (if_neg hoff)

/-! ### The rebuild -/

theorem execRebuild_idle {s : State} {a : Access} {pl : Place} {v : Nat} (hr : Reaches s a pl) (hp : pl.page = pgKvm)
    (ho : pl.off = 0x44) (hv : bit v 0 = true) (h0 : rf s K.kvmState 1 0 = 0) (hh : haltedOnErr s pgKvm = false) :
    execRebuild a v s = .next (wf s K.kvmState 1 0 1) := by
  rw [execRebuild, atPlace_reaches hr, if_pos (by simp [hp, ho, hv, h0, hh])]

/-- Whatever is written, a rebuild that runs already and HALT_ON_ERR with an error keep a new one from starting (R43, R218). -/
theorem execRebuild_ignored {s : State} {a : Access} {pl : Place} (hr : Reaches s a pl) (v : Nat)
    (h : rf s K.kvmState 1 0 ≠ 0 ∨ haltedOnErr s pgKvm = true) : execRebuild a v s = .next s := by
  rw [execRebuild, atPlace_reaches hr, if_neg]
  rcases h with h0 | hh
  · simp [h0]
  · simp [hh]

theorem rebuildDone_ends {s : State} (h1 : rf s K.kvmState 1 0 = 1) (hr : s.srv.running = false) (hm : s.srv.mid = none) :
    rebuildDone s = raiseIrq (wf ((List.range 8).foldl rebuildPool s) K.kvmState 1 0 0) pgKvm 16 := by
  rw [rebuildDone, if_neg (by simp [h1, hr, hm])]

/-- The rebuild does not end while a step runs or a boundary waits (R191). -/
theorem rebuildDone_waits {s : State} (h : s.srv.running = true ∨ s.srv.mid.isSome = true) : rebuildDone s = s := by
  rw [rebuildDone, if_pos]
  rcases h with hr | hm
  · simp [hr]
  · simp [hm]

/-- Settles O56: each command by the equation of its case. -/
theorem stepsAndSwap : Obligations.StepsAndSwap := by
  intro s u i f ctr target rows bt rest a pl v m b q c due
  refine ⟨fun hu hc => ?boundary, snapshotsOut_none,
    fun hh hf => congrArg Host.Outcome.next (heldBatchPost_fits hh hf), fun h => ?held,
    fun hc hr ht hh => congrArg Host.Outcome.next (glnGroup_runs rows hc hr ht hh),
    fun h => congrArg Host.Outcome.next (glnGroup_held rows h),
    fun hq => ?swaps, fun hq => ?good, fun hq => ?failed,
    fun hr hp ho hv => ⟨execRebuild_idle hr hp ho hv, execRebuild_ignored hr v⟩,
    fun h1 hr hm => congrArg Host.Outcome.next (rebuildDone_ends h1 hr hm),
    fun h => congrArg Host.Outcome.next (rebuildDone_waits (h.imp_right fun hm => by simp [hm]))⟩
  case boundary =>
    subst hu
    rw [exec_boundary hc]
    exact ⟨fun hm hb hd => congrArg Host.Outcome.next (boundaryIf_starts hm hb hd),
      fun hm h => congrArg Host.Outcome.next (boundaryIf_idle hm h),
      fun hm hj => congrArg Host.Outcome.next (boundaryIf_ends hm hj),
      fun hm hj => congrArg Host.Outcome.next (boundaryIf_waits hm hj)⟩
  case held =>
    rcases h with hh | ⟨hh, hf⟩
    · exact congrArg Host.Outcome.next (heldBatchPost_empty hh)
    · exact congrArg Host.Outcome.next (heldBatchPost_unfit hh hf)
  case swaps =>
    subst hq
    exact ⟨fun h => congrArg Host.Outcome.next (swapEnded_over h),
      fun h => congrArg Host.Outcome.next (swapEnded_waits h),
      fun h => congrArg Host.Outcome.next (swapEnded_over h),
      fun h => congrArg Host.Outcome.next (swapEnded_waits h)⟩
  case good =>
    subst hq
    exact Draft.swappedOut_good
  case failed =>
    subst hq
    exact Draft.swappedOut_failed

end Sys2Proof.Machine

/-! PROOF. The commands of the serving sequencer, and its pause (R224-R230, R235, R238, R248, R252). -/

namespace Sys2Proof.Machine

/-- A ready command record answers with the state its own effect leaves (R302). -/
theorem next_of_ready {s t : State} {src op : Nat} {c : Cmd} {g : State → Cmd → State} (h : Ready s src op c)
    (hg : g (markStarted s c) c = t) :
    (Host.Outcome.next (withCmd s src op g) : Host.Outcome State Fault Refusal) = .next t := by
  rw [withCmd_ready h, hg]

/-! ### ADMIT and FORK -/

/-- The sequence that a request block makes in entry i (R225, R226). -/
def queuedSeq (s : State) (c : Cmd) (bundle a : Nat) (fork : Option (Nat × Nat)) (i : Nat) : Seq :=
  let b := gread s a 96
  { gen := (seqOf s i).gen, st := 1, func := cmdFunc c, bundle := bundle, specN := num b 0x54 1, admitNo := s.srv.nextAdmit
    user := arg c 0x18 4, req := b.take 86, bias := biasList s (num b 0x18 8) (num b 0x4E 2), fork := fork
    target := num b 0x20 4 }

/-- Entry i holds the new sequence, the next one gets the next admission number, and the command returns the handle (R229). -/
def enqueue (s : State) (c : Cmd) (i : Nat) (q : Seq) : State :=
  finish (setSeq { s with srv := { s.srv with nextAdmit := s.srv.nextAdmit + 1 } } i q) c 0 (handleOf i q)

theorem newSeq_free {s : State} {i : Nat} (h : freeEntry s = some i) (c : Cmd) (bundle a : Nat)
    (fork : Option (Nat × Nat)) :
    newSeq s c bundle a fork = enqueue s c i (queuedSeq s c bundle a fork i) := by
  unfold newSeq
  simp only [h]
  rfl

section
variable {s : State} {c : Cmd} {bu : Bundle} {i k : Nat}

theorem admitReq_accepted (hb : bundle? s (cmdFunc c) (arg c 0x1C 1) = some bu) (hn : arg c 0x1C 1 < 16)
    (hr : requestOk s (cmdFunc c) (arg c 0x10 8) bu.info = true) (hp : poisonedIn s (arg c 0x10 8) 96 = false)
    (hi : freeEntry s = some i) :
    admitReq s c = enqueue s c i (queuedSeq s c (arg c 0x1C 1) (arg c 0x10 8) none i) := by
  simp [admitReq, hb, hn.not_ge, hr, hp, newSeq_free hi]

theorem admitReq_badRequest (hb : bundle? s (cmdFunc c) (arg c 0x1C 1) = some bu)
    (hr : requestOk s (cmdFunc c) (arg c 0x10 8) bu.info = false) : admitReq s c = finish s c eSeqParam := by
  simp [admitReq, hb, hr]

/-- FORK at a number of positions above 0 and within the parent's, and below the child's prompt (R187, R226, log entry 106). -/
theorem fork_accepted (hk : named s (cmdFunc c) (arg c 0x1C 4) = some k)
    (hb : bundle? s (cmdFunc c) (seqOf s k).bundle = some bu) (hl : seqLives (seqOf s k) = true)
    (hr : requestOk s (cmdFunc c) (arg c 0x10 8) bu.info = true)
    (hpool : num (gread s (arg c 0x10 8) 96) 0x55 1 = reqPool (seqOf s k)) (h0 : arg c 0x20 4 ≠ 0)
    (hp : poisonedIn s (arg c 0x10 8) 96 = false) (hi : freeEntry s = some i) (hlen : arg c 0x20 4 ≤ (seqOf s k).lenMax)
    (ht : arg c 0x20 4 < num (gread s (arg c 0x10 8) 96) 0x20 4) :
    fork s c = enqueue s c i
      (queuedSeq s c (seqOf s k).bundle (arg c 0x10 8) (some (arg c 0x1C 4, arg c 0x20 4)) i) := by
  simp [fork, hk, hb, hl, hr, hpool, h0, hp, hlen.not_gt, ht.not_ge, newSeq_free hi]

theorem fork_badLength (hk : named s (cmdFunc c) (arg c 0x1C 4) = some k)
    (hb : bundle? s (cmdFunc c) (seqOf s k).bundle = some bu) (hl : seqLives (seqOf s k) = true)
    (h : (seqOf s k).lenMax < arg c 0x20 4 ∨ num (gread s (arg c 0x10 8) 96) 0x20 4 ≤ arg c 0x20 4) :
    fork s c = finish s c eSeqParam := by
  rcases h with hlen | ht
  · simp [fork, hk, hb, hl, hlen]
  · simp [fork, hk, hb, hl, ht]

/-! ### CANCEL and SET_MASK -/

theorem onSeq_unknown (h : named s (cmdFunc c) (arg c 0x10 4) = none) (g : State → Nat → Seq → State) :
    onSeq s c g = finish s c eSeqUnknown := by
  simp only [onSeq, h]

theorem onSeq_named (h : named s (cmdFunc c) (arg c 0x10 4) = some k) (g : State → Nat → Seq → State) :
    onSeq s c g = g s k (seqOf s k) := by
  simp only [onSeq, h]

theorem cancelCmd_lives (h : named s (cmdFunc c) (arg c 0x10 4) = some k) (hl : seqLives (seqOf s k) = true) :
    cancelCmd s c = finish (cancelSeq s k) c 0 := by
  rw [cancelCmd, onSeq_named h, if_pos hl]

theorem cancelCmd_over (h : named s (cmdFunc c) (arg c 0x10 4) = some k) (hl : seqLives (seqOf s k) = false) :
    cancelCmd s c = finish s c eSeqState := by
  rw [cancelCmd, onSeq_named h, if_neg (by simp [hl])]

/-- A mask for the next position is taken, and a sequence that waited for it decodes (R238). -/
theorem setMask_taken {q : Seq} (hw : seqWorks q = true) (hm : reqMasked q = true) (hpos : arg c 0x14 4 = nextPos q)
    (ha : arg c 0x18 8 % 64 = 0) (ho : ownsRange s q.func (arg c 0x18 8) (cdiv (vocabOf s q) 8) = true) :
    setMask s c k q = finish
      (setSeq s k { q with mask := some (nextPos q, arg c 0x18 8), st := if q.st = 4 then 3 else q.st }) c 0 := by
  simp [setMask, hw, hm, hpos, ha, ho]

theorem setMask_badPosition {q : Seq} (hpos : arg c 0x14 4 ≠ nextPos q) : setMask s c k q = finish s c eSeqState := by
  simp [setMask, hpos]

/-! ### TOKEN_AREA -/

/-- Whether a TOKEN_AREA's fields are in their ranges (R248). -/
def AreaFieldsOk (c : Cmd) : Prop :=
  16 ≤ arg c 0x18 1 ∧ arg c 0x18 1 ≤ 26 ∧ arg c 0x19 1 < 16 ∧ arg c 0x10 8 % 4096 = 0

theorem tokenArea_fieldsOk (h : AreaFieldsOk c) :
    tokenArea s c = if seqHeld s (cmdFunc c) then finish s c eSeqState else
      finish (setArea s (cmdFunc c)
        { addr := arg c 0x10 8, size := 2 ^ arg c 0x18 1, ring := arg c 0x19 1, held := (area s (cmdFunc c)).held }) c 0 := by
  obtain ⟨hlo, hhi, hring, ha⟩ := h
  rw [tokenArea, if_neg (by simp [hlo, hhi, hring, ha])]

end

/-! ### Pause -/

/-- A write of SRV BLK_CTRL with PAUSE at the value it is taken for sets the pause to it (R235). -/
theorem pauseWrite_reaches {s : State} {a : Access} {pl : Place} {v : Nat} {on : Bool} (hr : Reaches s a pl)
    (hp : pl.page = pgSrv) (ho : pl.off = 0x10) (hv : bit v 16 = on) :
    pauseWrite a v on s = { s with srv := { s.srv with pause := on } } := by
  rw [pauseWrite, atPlace_reaches hr, if_pos (by simp [hp, ho, hv])]

/-- Settles O55: each ready command by the equation of its case, and a pause by what its write sets. -/
theorem sequenceCommands : Obligations.SequenceCommands := by
  rintro s src _ i k c _ q p bu _ a pl v rfl rfl rfl
  refine ⟨fun hc hb hn hp hi hq => ?admission, fun hc hk hpar hb hl hi hr hpool h0 hp hq => ?fork, fun i' h hu => ?unknown,
    fun hk hpar => ?named, fun hc hlo hhi hring ha => ?area, fun hr hp ho => ?pause⟩
  case admission =>
    subst hq
    exact ⟨fun hr => next_of_ready hc (admitReq_accepted hb hn hr hp hi),
      fun hr => next_of_ready hc (admitReq_badRequest hb hr)⟩
  case fork =>
    subst hpar hq
    exact ⟨fun hlen ht => next_of_ready hc (fork_accepted hk hb hl hr hpool h0 hp hi hlen ht),
      fun h => next_of_ready hc (fork_badLength hk hb hl h)⟩
  case unknown =>
    rcases h with ⟨hc, rfl⟩ | ⟨hc, rfl⟩
    · exact next_of_ready hc (onSeq_unknown hu _)
    · exact next_of_ready hc (onSeq_unknown hu _)
  case named =>
    subst hpar
    exact ⟨fun hc hl => next_of_ready hc (cancelCmd_lives hk hl),
      fun hc hl => next_of_ready hc (cancelCmd_over hk hl),
      fun hc hw hm hpos ha ho => next_of_ready hc ((onSeq_named hk _).trans (setMask_taken hw hm hpos ha ho)),
      fun hc hpos => next_of_ready hc ((onSeq_named hk _).trans (setMask_badPosition hpos))⟩
  case area =>
    have hok : AreaFieldsOk c := ⟨hlo, hhi, hring, ha⟩
    exact ⟨fun hf => next_of_ready hc ((tokenArea_fieldsOk hok).trans (if_neg (by simp [hf]))),
      fun ht => next_of_ready hc ((tokenArea_fieldsOk hok).trans (if_pos ht))⟩
  case pause =>
    exact ⟨fun hv => congrArg Host.Outcome.next (pauseWrite_reaches hr hp ho hv),
      fun hv => congrArg Host.Outcome.next (pauseWrite_reaches hr hp ho hv)⟩

end Sys2Proof.Machine

/-! PROOF. Video stream commands (R266-R272, R280). -/

namespace Sys2Proof.Machine

/-! ### STREAM_OPEN -/

/-- The context that STREAM_OPEN makes of a stream block (R266, R267). -/
def openedCtx (f : Nat) (b : Bytes) : VidCtx :=
  { st := 1, func := f, block := b, slots := List.replicate (num b 7 1) {}, size := (num b 2 2, num b 4 2) }

section
variable {s : State} {c : Cmd}

/-- An acceptable block takes the lowest FREE context, and VID_LIMIT where none is (R266). -/
theorem streamOpen_accepted (ha : arg c 0x10 8 % 64 = 0) (hr : ownsRange s (cmdFunc c) (arg c 0x10 8) 128 = true)
    (hp : poisonedIn s (arg c 0x10 8) 128 = false)
    (hs : bit (num (gread s (arg c 0x10 8) 128) 1 1) 3 = false ∨ shadowSt s ≠ 1 ∨ s.shadow.func ≠ cmdFunc c)
    (hb : streamOk s (cmdFunc c) (gread s (arg c 0x10 8) 128) = true) :
    streamOpen s c = match (List.range 256).find? fun i => (vctx s i).st == 0 with
      | some i => finish (setVctx s i (openedCtx (cmdFunc c) (gread s (arg c 0x10 8) 128))) c 0 i
      | none => finish s c eVidLimit := by
  have hshadow : (bit (num (gread s (arg c 0x10 8) 128) 1 1) 3 && shadowSt s == 1 && s.shadow.func == cmdFunc c) = false := by
    rcases hs with h | h | h
    · simp [h]
    · simp [h]
    · simp [h]
  simp only [streamOpen, ha, hr, hb, hp, hshadow, openedCtx]
  cases (List.range 256).find? fun i => (vctx s i).st == 0
  · rfl
  · rfl

theorem streamOpen_badBlock (hb : streamOk s (cmdFunc c) (gread s (arg c 0x10 8) 128) = false) :
    streamOpen s c = finish s c eVidParam := by
  simp [streamOpen, hb]

/-! ### The context that a command names -/

/-- A command for a FREE context or another function's completes VID_STATE, whatever it does (R266). -/
theorem onStream_foreign {sts : List Nat} {enc : Option Bool} {g : State → Nat → VidCtx → State}
    (h : (vctx s (arg c 0x10 1)).st = 0 ∨ (vctx s (arg c 0x10 1)).func ≠ cmdFunc c) :
    onStream s c sts enc g = finish s c eVidState := by
  rcases h with h | h
  · simp [onStream, h]
  · simp [onStream, h]

/-- A command for a context of its own function, in one of its states and of the kind it asks for, acts on that context
(R266, R271). -/
theorem onStream_own (lo hi : Nat) {enc : Option Bool} {g : State → Nat → VidCtx → State}
    (hf : (vctx s (arg c 0x10 1)).func = cmdFunc c) (h0 : 0 < lo) (hlo : lo ≤ (vctx s (arg c 0x10 1)).st)
    (hhi : (vctx s (arg c 0x10 1)).st ≤ hi) (he : enc = none ∨ enc = some (vidEncode (vctx s (arg c 0x10 1)))) :
    onStream s c (List.range' lo (hi + 1 - lo)) enc g = g s (arg c 0x10 1) (vctx s (arg c 0x10 1)) := by
  have hst : (vctx s (arg c 0x10 1)).st ∈ List.range' lo (hi + 1 - lo) := List.mem_range'_1.2 ⟨hlo, by omega⟩
  have hused : (vctx s (arg c 0x10 1)).st ≠ 0 := by omega
  rcases he with rfl | rfl
  · simp [onStream, hf, hused, hst]
  · simp [onStream, hf, hused, hst]

end

/-! ### What each command does to its context -/

section
variable {s : State} {c : Cmd} {i : Nat} {x : VidCtx}

theorem decSubmit_owned (hr : ownsRange s x.func (arg c 0x18 8) (arg c 0x14 4) = true) :
    decSubmit s c i x = settleVideo s i { wake x with
      subs := x.subs ++ [{ cmd := c.id, addr := arg c 0x18 8, len := arg c 0x14 4, pts := arg c 0x20 8,
                           deadline := arg c 0x28 8, idx := x.count, mark := bit (arg c 0x11 1) 0 }]
      stream := x.stream ++ [gread s (arg c 0x18 8) (arg c 0x14 4)], count := x.count + 1 } := by
  simp only [decSubmit, hr, Bool.not_true, Bool.false_eq_true, if_false]

theorem picRelease_posted (hk : arg c 0x11 1 < vNpic x) (hp : (slotOf x (arg c 0x11 1)).posted = true) :
    picRelease s c i x = finish (settleVideo s i
      (setSlotOf x (arg c 0x11 1) { slotOf x (arg c 0x11 1) with posted := false })) c 0 := by
  simp [picRelease, hk.not_ge, hp]

theorem picRelease_notPosted (hp : (slotOf x (arg c 0x11 1)).posted = false) :
    picRelease s c i x = finish s c eVidState := by
  simp [picRelease, hp]

theorem encFrame_owned (ha : arg c 0x18 8 % 64 = 0) (hr : ownsRange s x.func (arg c 0x18 8) (slotBytes x) = true)
    {key : Bool} (hk : key = (bit (arg c 0x11 1) 0 || x.gop == 0)) :
    encFrame s c i x = settleVideo s i { wake x with
      subs := x.subs ++ [{ cmd := c.id, addr := arg c 0x18 8, len := slotBytes x, pts := arg c 0x20 8,
                           deadline := arg c 0x28 8, mark := key, gmv := arg c 0x30 4,
                           ready := min (arg c 0x12 2) (vn x 4 2), idx := x.count }]
      count := x.count + 1, gop := (if key then 1 else x.gop + 1) % vn x 0x40 2 } := by
  subst hk
  simp only [encFrame, ha, hr, ne_eq, not_true_eq_false, Bool.not_true, Bool.false_eq_true, if_false]

/-- Tap t of a context takes a block, empty for none, and counts from the next picture on (R280). -/
def VidCtx.withTap (x : VidCtx) (t : Nat) (b : Bytes) : VidCtx :=
  { x with taps := x.taps.set t b, tapped := x.tapped.set t 0, since := x.since.set t 0 }

theorem tapSet_off (he : vidEncode x = false) (ht : arg c 0x11 1 < 4) (ha : arg c 0x18 8 = 0) :
    tapSet s c i x = finish (setVctx s i (x.withTap (arg c 0x11 1) [])) c 0 := by
  simp [tapSet, he, ht.not_ge, ha, VidCtx.withTap]

/-- An acceptable tap block names none of the format codes that TAP_SET refuses by themselves (R84, R280). -/
theorem tapOk_format {f : Nat} {b : Bytes} (h : tapOk s f b = true) : num b 0x0D 1 % 16 < 14 := by
  have hc : [0xA, 2, 1].contains (num b 0x0D 1 % 16) = true := by
    simp only [tapOk, Bool.and_eq_true] at h
    tauto
  simp only [List.contains_eq_mem, List.mem_cons, List.not_mem_nil, or_false, decide_eq_true_eq] at hc
  omega

theorem tapSet_block (he : vidEncode x = false) (ht : arg c 0x11 1 < 4) (ha : arg c 0x18 8 ≠ 0)
    (hr : ownsRange s x.func (arg c 0x18 8) 64 = true) (hb : tapOk s x.func (gread s (arg c 0x18 8) 64) = true)
    (hp : poisonedIn s (arg c 0x18 8) 64 = false) :
    tapSet s c i x = finish (setVctx s i (x.withTap (arg c 0x11 1) (gread s (arg c 0x18 8) 64))) c 0 := by
  simp [tapSet, he, ht.not_ge, ha, hr, hb, hp, (tapOk_format hb).not_ge, VidCtx.withTap]

end

/-- Settles O57: a ready command for its function's own context runs the equation of its case. -/
theorem streamCommands : Obligations.StreamCommands := by
  rintro s src f i c s0 b x rfl rfl rfl
  refine ⟨fun hc ha hr hp hs hb => ?opens, fun hc hb => next_of_ready hc (streamOpen_badBlock hb), fun j hj hx => ?foreign,
    fun hi hx hf => ?own⟩
  case opens =>
    have hopen := streamOpen_accepted ha hr hp hs hb
    exact ⟨fun hi => next_of_ready hc (by rw [hopen, hi]; rfl), fun hn => next_of_ready hc (by rw [hopen, hn])⟩
  case foreign =>
    rcases hj with ⟨hc, rfl⟩ | ⟨hc, rfl⟩ | ⟨hc, rfl⟩ | ⟨hc, rfl⟩ | ⟨hc, rfl⟩ | ⟨hc, rfl⟩ | ⟨hc, rfl⟩ | ⟨hc, rfl⟩ <;>
      exact next_of_ready hc (onStream_foreign hx)
  case own =>
    subst hi hx
    have kind {e : Bool} (he : vidEncode (vctx (markStarted s c) (arg c 0x10 1)) = e) :
        some e = none ∨ some e = some (vidEncode (vctx (markStarted s c) (arg c 0x10 1))) := .inr (congrArg some he.symm)
    exact ⟨fun hc hlo hhi he hr => next_of_ready hc
        ((onStream_own 1 3 hf one_pos hlo hhi (kind he)).trans (decSubmit_owned hr)),
      fun hc hlo hhi he hk hp => next_of_ready hc
        ((onStream_own 1 5 hf one_pos hlo hhi (kind he)).trans (picRelease_posted hk hp)),
      fun hc hlo hhi he hp => next_of_ready hc
        ((onStream_own 1 5 hf one_pos hlo hhi (kind he)).trans (picRelease_notPosted hp)),
      fun hc hlo hhi he ha hr key hk => next_of_ready hc
        ((onStream_own 1 3 hf one_pos hlo hhi (kind he)).trans (encFrame_owned ha hr hk)),
      fun hc hlo hhi he => next_of_ready hc (onStream_own 2 4 hf two_pos hlo hhi (kind he)),
      fun hc hlo hhi he ht =>
        ⟨fun ha => next_of_ready hc
          ((onStream_own 1 5 hf one_pos hlo hhi (.inl rfl)).trans (tapSet_off he ht ha)),
        fun ha hr hb hp => next_of_ready hc
          ((onStream_own 1 5 hf one_pos hlo hhi (.inl rfl)).trans (tapSet_block he ht ha hr hb hp))⟩,
      fun hc hst => next_of_ready hc (onStream_own 2 3 hf two_pos (by omega) (by omega) (.inl rfl)),
      fun hc hlo hhi => next_of_ready hc (onStream_own 1 6 hf one_pos hlo hhi (.inl rfl)),
      fun hc hlo hhi he => next_of_ready hc (onStream_own 1 5 hf one_pos hlo hhi (kind he))⟩

end Sys2Proof.Machine

/-! PROOF. Header parsing, the video cores, slices, taps and the closing of a context (R262-R265, R271-R284). -/

namespace Sys2Proof.Machine

/-! ### Header parsing -/

section
variable {s : State} {i k : Nat} {x : VidCtx} {h : UnitHead} {b : VidSub} {p : VidPic}

/-- Firmware parses on in a decode stream with a submission that is not parsed (R264, R271). -/
theorem headerParsed_active (hlo : 2 ≤ (vctx s i).st) (hhi : (vctx s i).st ≤ 4) (he : vidEncode (vctx s i) = false)
    (hh : haltedOnErr s pgVid = false) (hp : parsing (vctx s i) = some b) :
    headerParsed i s = parseStep s i (vctx s i) b
      (Config.parse (vctx s i).block (streamTo (vctx s i) b.idx) b.pos) := by
  rw [headerParsed, if_neg (by simp [hlo.not_gt, hhi.not_gt, he, hh]), hp]

/-- A FREE context, HALT_ON_ERR with an error, and a stream parsed to its end leave nothing to parse (R43, R271). -/
theorem headerParsed_idle (h : (vctx s i).st = 0 ∨ haltedOnErr s pgVid = true ∨ parsing (vctx s i) = none) :
    headerParsed i s = s := by
  rcases h with h | h | h
  · simp [headerParsed, h]
  · simp [headerParsed, h]
  · simp only [headerParsed, h, ite_self]

theorem parseUnit_discarded (hd : h.features.any (discardedFeature (vCodec x)) = true) :
    parseUnit s i x b h = settleVideo s i (parseOn x b) := if_pos hd

theorem refuseHead_stream (hc : vCodec x ≠ 3) : refuseHead s i x b = faultStream s i x eVidUnsupported := if_neg hc

theorem refuseHead_jpeg (hc : vCodec x = 3) :
    refuseHead s i x b = settleVideo (finishId s b.cmd eVidUnsupported) i { x with
      subs := x.subs.filter (·.idx != b.idx), units := x.units.filter (·.sub != b.idx)
      pics := x.pics.filter (·.sub != b.idx) } := if_pos hc

theorem beginPic_tooLarge
    (hs : fitsIn (h.width, h.height) (vMax x) = false ∨ fitsIn (h.width, h.height) (codecMax (vCodec x)) = false) :
    beginPic s i x h b = faultStream s i { x with size := (h.width, h.height) } eVidSize := by
  rw [beginPic, if_pos]
  rcases hs with hs | hs
  · simp [hs]
  · simp [hs]

/-- Where no picture is open, a picture that fits takes the lowest free slot (R272). -/
theorem beginPic_slot (hm : fitsIn (h.width, h.height) (vMax x) = true)
    (hc : fitsIn (h.width, h.height) (codecMax (vCodec x)) = true) (ho : openPic x = none)
    (hk : (List.range (vNpic (applyHead x h))).find? (slotFree (applyHead x h)) = some k) :
    beginPic s i x h b = newPic s i (applyHead x h) h b k := by
  rw [beginPic, if_neg (by simp [hm, hc]), ho]
  dsimp only
  rw [hk]

section
variable (hd : h.features.any (discardedFeature (vCodec x)) = false)
include hd

theorem parseUnit_unsupported (hu : unsupported x h = true) : parseUnit s i x b h = refuseHead s i x b := by
  rw [parseUnit, if_neg (by simp [hd]), if_pos hu]

variable (hu : unsupported x h = false)
include hu

theorem parseUnit_first (hf : h.first = true) : parseUnit s i x b h = beginPic s i x h b := by
  rw [parseUnit, if_neg (by simp [hd]), if_neg (by simp [hu]), if_pos hf]

/-- A further unit of the open picture, which is not skipped (R264, R275). -/
theorem parseUnit_further (hf : h.first = false) (ho : openPic x = some p) (hp : bit p.flags 3 = false) :
    parseUnit s i x b h = settleVideo s i (addUnit x p b h.last) := by
  rw [parseUnit, if_neg (by simp [hd]), if_neg (by simp [hu]), if_neg (by simp [hf]), ho]
  exact if_neg (by simp [hp])

end

end

/-! ### A core chooses -/

/-- Every context has skipped the pictures that are late (R275). -/
def lateSkipped (s : State) : State := s.video.foldl (fun s e => skipLate 64 s e.1) s

/-- The context that a core takes runs on it from now on (R271, R274). -/
def takenBy (s : State) (core : Nat) (x : VidCtx) : VidCtx :=
  { x with onCore := some core, served := s.clock, st := if x.st = 3 then 2 else x.st }

theorem takenBy_st (s : State) (core : Nat) (x : VidCtx) : (takenBy s core x).st ≠ 3 := by
  simp only [takenBy]
  split
  · decide
  · assumption

section
variable {s : State} {core i : Nat}

theorem coreChoose_kept (h : (vcore s core).ctx ≠ none ∨ coreOn s core = false) : coreChoose core s = s := by
  rw [coreChoose, if_pos]
  rcases h with h | h
  · simp [Option.isSome_iff_ne_none.2 h]
  · simp [h]

variable (hcore : core < 6) (hc : (vcore s core).ctx = none) (hon : coreOn s core = true)
include hcore hc hon

theorem coreChoose_nothing (hw : chooseWork (lateSkipped s) core = none) : coreChoose core s = lateSkipped s := by
  rw [coreChoose, if_neg (by simp [hcore.not_ge, hc, hon])]
  dsimp only
  rw [← lateSkipped, hw]

/-- A core takes the context due next, whose frame then is in progress on it (R274). -/
theorem coreChoose_takes (hw : chooseWork (lateSkipped s) core = some i) :
    ∃ t x, coreChoose core s =
      setVctx (setVcore t core { vcore t core with ctx := some i, unfinished := none }) i (takenBy t core x) := by
  rw [coreChoose, if_neg (by simp [hcore.not_ge, hc, hon])]
  dsimp only
  rw [← lateSkipped, hw]
  exact ⟨_, _, rfl⟩

end

/-! ### A decoded unit -/

section
variable {s : State} {core i : Nat} {x : VidCtx} {u : VidUnit} {p : VidPic}

theorem unitDecoded_idle (h : (vcore s core).ctx = none) : unitDecoded core s = s := by
  rw [unitDecoded, h]

theorem unitDecoded_unit (hc : (vcore s core).ctx = some i) (hcore : core < 4) (hu : (vctx s i).units.head? = some u)
    (hp : headPic (vctx s i) = some p) (hlo : 2 ≤ (vctx s i).st) (hhi : (vctx s i).st ≤ 4) :
    unitDecoded core s = decodedUnit s core i (vctx s i) u p := by
  rw [unitDecoded, hc]
  dsimp only
  rw [if_neg hcore.not_ge, hu, hp]
  exact if_neg (by simp [hlo.not_gt, hhi.not_gt])

/-- A decoded unit leaves its stream, and the core is free (R273, R276). -/
theorem decodedUnit_ends (s : State) (core i : Nat) (x : VidCtx) (u : VidUnit) (p : VidPic) :
    ∃ t y n, decodedUnit s core i x u p = settleVideo (freeCore t core n) i y ∧ y.onCore = none ∧
      y.units = x.units.drop 1 :=
  ⟨_, _, _, rfl, rfl, rfl⟩

end

/-! ### An encoded slice -/

section
variable {s : State} {core i j : Nat} {x : VidCtx} {b : VidSub}

theorem sliceOut_idle (h : (vcore s core).ctx = none) : sliceOut core s = s := by
  rw [sliceOut, h]

theorem sliceOut_frame (hc : (vcore s core).ctx = some i) (hcore : 4 ≤ core) (hj : encNext (vctx s i) = some j)
    (hb : (vctx s i).subs[j]? = some b) (hlo : 2 ≤ (vctx s i).st) (hhi : (vctx s i).st ≤ 4) :
    sliceOut core s = codeSlice s core i j (vctx s i) b := by
  rw [sliceOut, hc]
  dsimp only
  rw [if_neg hcore.not_gt, hj, Option.bind_some, hb]
  exact if_neg (by simp [hlo.not_gt, hhi.not_gt])

/-- What the search of a frame's next slice works on (R263, R267, R278). -/
def sliceSearch (s : State) (x : VidCtx) (b : VidSub) : Search :=
  searchOf s (startFrame s x b).2 b (frameType x b) (sliceQp x (frameType x b))

/-- The vectors that the motion search finds for a frame's next slice; a key picture has none (R278, R279). -/
def sliceVecs (s : State) (x : VidCtx) (b : VidSub) : List BlockVec :=
  if frameType x b = 0 then [] else searchSlice (sliceSearch s x b)
    (Config.predBlocks x.block (sliceSearch s x b).src (sliceSearch s x b).qp b.taken (rowsNeeded x b - b.taken))

/-- The bytes of a frame's next slice (R263). -/
def nextSlice (s : State) (x : VidCtx) (b : VidSub) : Bytes :=
  sliceBytes x b (frameType x b) (sliceSearch s x b) (sliceVecs s x b)

/-- A frame's next slice stands in the output ring, its reconstruction in the frame's slot, and its work is counted
(R263, R288). -/
def sliceWritten (s : State) (core : Nat) (x : VidCtx) (b : VidSub) : State :=
  countEncode (writeRecon (writeRing (startFrame s x b).1 (startFrame s x b).2 (nextSlice s x b)) (startFrame s x b).2 b
    (sliceSearch s x b) (sliceVecs s x b)) core ((rowsNeeded x b - b.taken) * vn x 2 2) (nextSlice s x b).length

/-- A stream's context with the vectors of a frame's next slice, before the slice counts (R278). -/
def slicedCtx (s : State) (x : VidCtx) (b : VidSub) : VidCtx :=
  { (startFrame s x b).2 with vecs := (startFrame s x b).2.vecs ++ sliceVecs s x b }

/-- SLICE_OUT is posted for a slice that is written, after a late frame is counted with its last slice (R263, R275). -/
def slicePosted (s : State) (core i : Nat) (x : VidCtx) (b : VidSub) : State :=
  let last := rowsNeeded x b == vn x 4 2
  let s' := sliceWritten s core x b
  vpost (if last && vLive x && b.deadline != 0 && decide (b.deadline < now s) then satIncr s' K.vidLate 1 else s') x 0x39
    (sliceMsg i x b last (nextSlice s x b).length (sliceSearch s x b).qp)

theorem codeSlice_noRoom (h : ringRoom x < (nextSlice s x b).length) :
    codeSlice s core i j x b = settleVideo (freeCore s core (some i)) i
      { x with onCore := none, needs := (nextSlice s x b).length } := if_pos h

/-- A slice for which the output ring has room (R263, R277). -/
theorem codeSlice_room {last : Bool} (hr : (nextSlice s x b).length ≤ ringRoom x)
    (hl : (rowsNeeded x b == vn x 4 2) = last) :
    codeSlice s core i j x b = settleVideo
      (freeCore (if last then finishId (slicePosted s core i x b) b.cmd 0 else slicePosted s core i x b) core
        (if last then none else some i)) i
      (afterSlice (slicedCtx s x b) j b last (nextSlice s x b).length) := by
  subst hl
  exact if_neg hr.not_gt

theorem slicePosted_inner (hl : (rowsNeeded x b == vn x 4 2) = false) :
    slicePosted s core i x b = vpost (sliceWritten s core x b) x 0x39
      (sliceMsg i x b false (nextSlice s x b).length (sliceSearch s x b).qp) := by
  simp [slicePosted, hl]

end

/-! ### Taps -/

/-- Tap t of a running stream has work on a picture without poison, whose rows are final as far as the next output row needs
them (R280, R282). -/
structure TapReady (s : State) (i t : Nat) (p : VidPic) (tj : TapJob) : Prop where
  two_le : 2 ≤ (vctx s i).st
  le_four : (vctx s i).st ≤ 4
  work : tapWork (vctx s i) t = some (p, tj)
  clean : poisonedIn s (slotAddr (vctx s i) p.slot + 64) (slotBytes (vctx s i) - 64) = false
  final : tapNeeds tj.block p tj.row < p.final

section
variable {s : State} {i t : Nat} {p : VidPic} {tj : TapJob}

theorem tapRow_waits (hlo : 2 ≤ (vctx s i).st) (hhi : (vctx s i).st ≤ 4) (hw : tapWork (vctx s i) t = some (p, tj))
    (hf : p.final ≤ tapNeeds tj.block p tj.row) : tapRow i t s = s := by
  simp [tapRow, hlo.not_gt, hhi.not_gt, hw, hf]

variable (h : TapReady s i t p tj)
include h

theorem tapRow_begun (hb : tj.begun = true) : tapRow i t s = tapRowOf s i (vctx s i) p tj := by
  simp [tapRow, h.two_le.not_gt, h.le_four.not_gt, h.work, h.final.not_ge, h.clean, hb]

variable (hb : tj.begun = false)
include hb

/-- A frame's first row takes a free ring slot and an engine (R280, R283). -/
theorem tapRow_begins (hr : (vctx s i).tapped.getD t 0 < gnum s (64 * num tj.block 0x3C 4) 8 + num tj.block 0x0C 1)
    (he : enginesBusy s < 8) (hh : haltedOnErr s pgVid = false) (hc : cropClamped tj.block p = false) :
    tapRow i t s = tapRowOf s i
      { vctx s i with tapped := (vctx s i).tapped.set t ((vctx s i).tapped.getD t 0 + 1) } p
      { tj with begun := true, frame := (vctx s i).tapped.getD t 0 } := by
  simp [tapRow, h.two_le.not_gt, h.le_four.not_gt, h.work, h.final.not_ge, h.clean, hb, hr.not_ge, he.not_ge, hh, hc,
    -List.getD_eq_getElem?_getD]

/-- Where the ring is full, a tap that may drop frames drops this one and marks the picture (R280). -/
theorem tapRow_drops (hr : gnum s (64 * num tj.block 0x3C 4) 8 + num tj.block 0x0C 1 ≤ (vctx s i).tapped.getD t 0)
    (hd : bit (num tj.block 0x3A 1) 0 = true) :
    tapRow i t s = settleVideo (satIncr s K.vidTapDrop 1) i (setPic (vctx s i) (dropJob p t 6)) := by
  simp [tapRow, h.two_le.not_gt, h.le_four.not_gt, h.work, h.final.not_ge, h.clean, hb, hr, hd,
    -List.getD_eq_getElem?_getD]

end

/-! ### A context closes -/

/-- A closing context that has stopped is FREE: its submissions complete VID_STATE, CLOSED is posted, its closes complete
(R271). -/
theorem closed_closable {s : State} {i : Nat} (h : closable s i (vctx s i) = true) :
    closed i s = (vctx s i).closeCmds.foldl (fun s id => finishId s id 0)
      (streamEvent ((vctx s i).subs.foldl (fun s b => finishId s b.cmd eVidState) (setVctx s i {})) i (vctx s i) 2 0) :=
  if_neg (by simp [h])

theorem closed_waits {s : State} {i : Nat} (h : closable s i (vctx s i) = false) : closed i s = s :=
  if_pos (by simp [h])

/-- Settles O58: each command by the equation of its case. -/
theorem videoCores : Obligations.VideoCores := by
  rintro s s' core i j k t x x' h b u p tj q vecs data
  refine ⟨fun hx hlo hhi he hh hp out hout => ?parse,
    fun hi => congrArg Host.Outcome.next (headerParsed_idle hi),
    fun hcore hc hon s1 hs1 => ?choose,
    fun hk => congrArg Host.Outcome.next (coreChoose_kept hk),
    fun hc hcore hx hu hp hlo hhi => ?decoded,
    fun hc => ⟨congrArg Host.Outcome.next (unitDecoded_idle hc), congrArg Host.Outcome.next (sliceOut_idle hc)⟩,
    fun hc hcore hx hj hb hlo hhi hstart hq hvecs hdata => ?slice,
    fun hx hlo hhi hw hp => ?tap,
    fun hx hcl => ?closes,
    fun hcl => congrArg Host.Outcome.next (closed_waits hcl)⟩
  case parse =>
    subst hx
    have hparse : exec (.headerParseDone i) s = .next (parseStep s i (vctx s i) b out) :=
      congrArg Host.Outcome.next (hout ▸ headerParsed_active hlo hhi he hh hp)
    rw [hparse]
    refine ⟨by rintro rfl; rfl, by rintro rfl; rfl, ?_, ?_⟩
    · rintro rfl hd
      exact congrArg Host.Outcome.next (parseUnit_discarded hd)
    · rintro rfl hd
      exact ⟨fun hu hc => congrArg Host.Outcome.next ((parseUnit_unsupported hd hu).trans (refuseHead_stream hc)),
        fun hu hc => congrArg Host.Outcome.next ((parseUnit_unsupported hd hu).trans (refuseHead_jpeg hc)),
        fun hu =>
          ⟨fun hf hs => congrArg Host.Outcome.next ((parseUnit_first hd hu hf).trans (beginPic_tooLarge hs)),
          fun hf hm hc ho hk => congrArg Host.Outcome.next
            ((parseUnit_first hd hu hf).trans (beginPic_slot hm hc ho hk)),
          fun hf ho hp => congrArg Host.Outcome.next (parseUnit_further hd hu hf ho hp)⟩⟩
  case choose =>
    subst hs1
    refine ⟨fun hw => congrArg Host.Outcome.next (coreChoose_nothing hcore hc hon hw), fun hw => ?_⟩
    obtain ⟨t, x, ht⟩ := coreChoose_takes hcore hc hon hw
    exact ⟨t, takenBy t core x, congrArg Host.Outcome.next ht, rfl, rfl, takenBy_st t core x⟩
  case decoded =>
    subst hx
    obtain ⟨t, y, n, ht, hon, hunits⟩ := decodedUnit_ends s core i (vctx s i) u p
    exact ⟨t, y, n, congrArg Host.Outcome.next ((unitDecoded_unit hc hcore hu hp hlo hhi).trans ht), hon, hunits⟩
  case slice =>
    subst hx
    obtain rfl : s' = (startFrame s (vctx s i) b).1 := congrArg Prod.fst hstart
    obtain rfl : x' = (startFrame s (vctx s i) b).2 := congrArg Prod.snd hstart
    subst hq hvecs hdata
    have hslice : exec (.sliceOut core) s = .next (codeSlice s core i j (vctx s i) b) :=
      congrArg Host.Outcome.next (sliceOut_frame hc hcore hj hb hlo hhi)
    rw [hslice]
    refine ⟨fun hr => congrArg Host.Outcome.next (codeSlice_noRoom hr), fun hr hl => ?_,
      fun hr hl => ⟨_, congrArg Host.Outcome.next (codeSlice_room hr hl)⟩⟩
    have hroom := codeSlice_room (core := core) (i := i) (j := j) hr hl
    rw [slicePosted_inner hl] at hroom
    exact congrArg Host.Outcome.next hroom
  case tap =>
    subst hx
    have hready := TapReady.mk (s := s) (i := i) hlo hhi hw hp
    exact ⟨fun hf => congrArg Host.Outcome.next (tapRow_waits hlo hhi hw hf),
      fun hf hb => congrArg Host.Outcome.next (tapRow_begun (hready hf) hb),
      fun hf hb hr he hh hc => congrArg Host.Outcome.next (tapRow_begins (hready hf) hb hr he hh hc),
      fun hf hb hr hd => congrArg Host.Outcome.next (tapRow_drops (hready hf) hb hr hd)⟩
  case closes =>
    subst hx
    exact congrArg Host.Outcome.next (closed_closable hcl)

end Sys2Proof.Machine

/-! PROOF. The life of a function: enabling, draining, killing and function-level reset (R300, R301, R311, R312, R313). -/

namespace Sys2Proof.Machine

section
variable {s : State} {f : Nat} {c : Cmd}

/-! ### FUNC_ENABLE -/

/-- A DISABLED function with acceptable resources begins ENABLING with its FUNC page's version stepped and marked for a
clash (R311, log entries 50 and 58). -/
theorem funcEnable_accepted (hn : namedFunc c = some f) (h0 : funcState s f = 0)
    (hr : resourcesOk (applyResources s f) f = true) :
    funcEnable s c = beginEnable (markClash (bumpVer (applyResources s f) (pgFunc (f - 1))) (pgFunc (f - 1))) f
      (some c.id) := by
  simp [funcEnable, hn, h0, hr]

theorem funcEnable_badState (hn : namedFunc c = some f) (h0 : funcState s f ≠ 0) :
    funcEnable s c = finish s c eFuncBadState := by
  simp [funcEnable, hn, h0]

theorem funcEnable_badResource (hn : namedFunc c = some f) (h0 : funcState s f = 0)
    (hr : resourcesOk (applyResources s f) f = false) : funcEnable s c = finish s c eFuncResource := by
  simp [funcEnable, hn, h0, hr]

/-! ### FUNC_DISABLE -/

/-- A ready FUNC_DISABLE of mode 0 or 1 runs as DRAIN or KILL (R302, R311). -/
theorem disableCmd_ready {src mode : Nat} (hc : Ready s src 0x81 c) (hm : arg c 0x11 1 + 1 = mode) (h2 : mode ≤ 2) :
    disableCmd s src mode = funcDisable mode (markStarted s c) c := by
  have hmode : ¬ 1 < arg c 0x11 1 := by omega
  simp only [disableCmd, hc.1]
  rw [if_pos (by simp [hm]), withCmd_ready hc, if_neg hmode]

/-- The command waits for its function to be DISABLED (R311). -/
def awaitDisabled (s : State) (f : Nat) (c : Cmd) : State :=
  setTenant s f { tenant s f with disableCmds := (tenant s f).disableCmds ++ [c.id] }

theorem funcDisable_drains (hn : namedFunc c = some f) (h2 : funcState s f = 2) :
    funcDisable 1 s c = startDrain (awaitDisabled s f c) f := by
  simp [funcDisable, hn, h2, awaitDisabled]

theorem funcDisable_kills (hn : namedFunc c = some f) (h : funcState s f = 2 ∨ funcState s f = 3) :
    funcDisable 2 s c = startKill (awaitDisabled s f c) f 2 false := by
  rcases h with h | h
  · simp [funcDisable, hn, h, awaitDisabled]
  · simp [funcDisable, hn, h, awaitDisabled]

theorem funcDisable_badState {mode : Nat} (hn : namedFunc c = some f) (h0 : funcState s f = 0) :
    funcDisable mode s c = finish s c eFuncBadState := by
  simp [funcDisable, hn, h0]

/-! ### Function-level reset -/

/-- An FLR of a function that is ENABLED once its rings, commands and unlocks are gone kills it (R311). -/
theorem flr_kills {p : Nat} (hup : portUp s p = true) (h1 : 1 ≤ f) (h8 : f ≤ 8)
    (h2 : funcState (relockFunc (dropCommands (disableRings s f) f true) f) f = 2) :
    flr p f s = startKill (relockFunc (dropCommands (disableRings s f) f true) f) f 3 true := by
  rw [flr, if_neg (by simp [hup, h8.not_gt])]
  simp only [h2]
  rw [if_neg (by omega), if_pos (by simp)]

/-! ### The end of a drain and of a kill -/

theorem drainComplete_kills (h1 : 1 ≤ f) (h3 : funcState s f = 3) (hd : Machine.drained s f = true) :
    drainComplete f s = startKill s f 1 false :=
  if_neg (by simp [Nat.one_le_iff_ne_zero.1 h1, h3, hd])

theorem drainComplete_waits (hd : Machine.drained s f = false) : drainComplete f s = s :=
  if_pos (by simp [hd])

theorem drainTimeout_kills (h1 : 1 ≤ f) (h3 : funcState s f = 3)
    (ht : (tenant s f).drainStart + usCycles (1000 * rf s (K.funcDrainTimeout (f - 1)) 15 0) ≤ s.clock) :
    drainTimeout f s = startKill s f 1 false :=
  if_neg (by simp [Nat.one_le_iff_ne_zero.1 h1, h3, ht])

theorem drainTimeout_waits
    (ht : s.clock < (tenant s f).drainStart + usCycles (1000 * rf s (K.funcDrainTimeout (f - 1)) 15 0)) :
    drainTimeout f s = s :=
  if_pos (by simp [ht])

/-- The ranges that a stopped function scrubs: all its regions, or, where an enable was scrubbing, those begun and the one
under way, which then are what it holds (R311, R313). -/
def scrubAfterKill (s : State) (f : Nat) : Tenant :=
  if (tenant s f).scrub.isEmpty then { tenant s f with scrub := regionsOf s f, scrubbed := 0 }
  else { tenant s f with scrub := (tenant s f).begun ++ (tenant s f).scrub.take 1, scrubbed := 0,
                         held := (tenant s f).begun ++ (tenant s f).scrub.take 1 }

theorem killDone_scrubs (h1 : 1 ≤ f) (h4 : funcState s f = 4) (hs : stopped s f = true) :
    killDone f s = disabled (setTenant (setFuncState s f 5) f (scrubAfterKill s f)) f := by
  rw [killDone, if_neg (by simp [Nat.one_le_iff_ne_zero.1 h1, h4, hs])]
  cases hempty : (tenant s f).scrub.isEmpty
  · simp only [scrubAfterKill, hempty, Bool.false_eq_true, if_false]
  · simp only [scrubAfterKill, hempty, if_true]

end

/-- Settles O30: each command by the equation of its function's state. -/
theorem functionLifecycle : Obligations.FunctionLifecycle := by
  intro s src f port c
  refine ⟨fun hc hn h0 hr => next_of_ready hc (funcEnable_accepted hn h0 hr),
    fun hc hn h0 => next_of_ready hc (funcEnable_badState hn h0),
    fun hc hn h0 hr => next_of_ready hc (funcEnable_badResource hn h0 hr),
    fun hc hm hn h2 => ?drain, fun hc hm hn h => ?kill, fun hc hm hn h0 => ?notEnabled,
    fun hup h1 h8 h2 => congrArg Host.Outcome.next (flr_kills hup h1 h8 h2),
    fun h1 h3 hd => congrArg Host.Outcome.next (drainComplete_kills h1 h3 hd),
    fun _ _ hd => congrArg Host.Outcome.next (drainComplete_waits hd),
    fun h1 h3 ht => congrArg Host.Outcome.next (drainTimeout_kills h1 h3 ht),
    fun _ _ ht => congrArg Host.Outcome.next (drainTimeout_waits ht),
    fun h1 h4 hs => congrArg Host.Outcome.next (killDone_scrubs h1 h4 hs)⟩
  case drain =>
    exact congrArg Host.Outcome.next ((disableCmd_ready hc (by rw [hm]) (by simp)).trans (funcDisable_drains hn h2))
  case kill =>
    exact congrArg Host.Outcome.next ((disableCmd_ready hc (by rw [hm]) le_rfl).trans (funcDisable_kills hn h))
  case notEnabled =>
    exact congrArg Host.Outcome.next ((disableCmd_ready hc (by rw [hm]) le_rfl).trans (funcDisable_badState hn h0))

end Sys2Proof.Machine

/-! PROOF. BAR2 accesses the granary (R291, R292, R294, R295, R418, R487). -/

namespace Sys2Proof.Machine

section
variable {s : State} {p f rid off x : Nat} {w : Bool} {data : Bytes}

/-- What a BAR2 request that is refused leaves: a write nothing, a read its Unsupported Request (R292). -/
def bar2Refused (s : State) (p f off : Nat) (w : Bool) : State := if w then s else emit s (.unsupported p f off)

/-- What a BAR2 request does at a granary address: a write queues its bytes, and a read answers the bytes as the port's own
writes order them, or poisoned data (R26, R294, R487). -/
def bar2At (s : State) (p f off x : Nat) (w : Bool) (data : Bytes) : State :=
  if w then gwrite (countRx s p data.length) (uHost p) x data
  else if poisonedIn s x data.length then emit s (.poisonedData p f off)
  else emit (countTx s p data.length) (.readData p f off (greadOf s (uHost p) x data.length))

/-! ### Requests that do not reach the window -/

theorem bar2_narrow (h8 : f ≤ 8) (hd : data ≠ []) (hn : (port s p).narrow = true) (hup : portUp s p = false) :
    bar2 p f rid off w data s = bar2Refused s p f off w := by
  rw [bar2, if_neg (by simp [hn, h8.not_gt, hd]), if_pos (by simp [hup])]
  rfl

theorem bar2_outside (h8 : f ≤ 8) (hd : data ≠ []) (hup : portUp s p = true)
    (h : serving s = false ∨ vfHere s p f = false ∨ bar2Size s p f < off + data.length) :
    bar2 p f rid off w data s = bar2Refused s p f off w := by
  have hout : (!portUp s p || !serving s || !vfHere s p f || bar2Size s p f < off + data.length) = true := by
    rcases h with h | h | h
    · simp [h]
    · simp [h]
    · simp [h]
  rw [bar2, if_neg (by simp [hup, h8.not_gt, hd]), if_pos hout]
  rfl

/-! ### Requests of a function that the port presents, within its BAR2 -/

/-- A request of data.length bytes that a serving module takes on a port: the link is up, the function is there and its BAR2
holds the range (R291, R292, R294). -/
structure InBar2 (s : State) (p f off : Nat) (data : Bytes) : Prop where
  func : f ≤ 8
  bytes : data ≠ []
  up : portUp s p = true
  serves : serving s = true
  here : vfHere s p f = true
  size : off + data.length ≤ bar2Size s p f

variable (h : InBar2 s p f off data)
include h

/-- The fence filter stands before MF's window and drops and counts what it refuses (R418). -/
theorem bar2_fenced (h0 : f = 0) (hf : fenceRefuses s p rid = true) :
    bar2 p f rid off w data s = bar2Refused (fenceDrop s p rid) p f off w := by
  rw [bar2, if_neg (by simp [h.up, h.func.not_gt, h.bytes]), if_neg (by simp [h.up, h.serves, h.here, h.size.not_gt]),
    if_pos (by simp [h0, hf])]
  rfl

variable (hf : f = 0 → fenceRefuses s p rid = false)
include hf

theorem bar2_badRange (hx : bar2Addr s p f off data.length = none) :
    bar2 p f rid off w data s = bar2Refused (recordErr s (pgPort p) eMemRange f 0) p f off w := by
  rw [bar2, if_neg (by simp [h.up, h.func.not_gt, h.bytes]), if_neg (by simp [h.up, h.serves, h.here, h.size.not_gt]),
    if_neg (by simpa using hf)]
  simp only [hx]
  rfl

/-- A request within the function's window acts at the granary address it names. -/
theorem bar2_address (hx : bar2Addr s p f off data.length = some x) :
    bar2 p f rid off w data s = bar2At s p f off x w data := by
  rw [bar2, if_neg (by simp [h.up, h.func.not_gt, h.bytes]), if_neg (by simp [h.up, h.serves, h.here, h.size.not_gt]),
    if_neg (by simpa using hf)]
  simp only [hx]
  rfl

theorem bar2_writes (hx : bar2Addr s p f off data.length = some x) :
    bar2 p f rid off true data s = gwrite (countRx s p data.length) (uHost p) x data :=
  bar2_address h hf hx

theorem bar2_readsPoison (hx : bar2Addr s p f off data.length = some x) (hp : poisonedIn s x data.length = true) :
    bar2 p f rid off false data s = emit s (.poisonedData p f off) :=
  (bar2_address h hf hx).trans (if_pos hp)

theorem bar2_reads (hx : bar2Addr s p f off data.length = some x) (hp : poisonedIn s x data.length = false) :
    bar2 p f rid off false data s =
      emit (countTx s p data.length) (.readData p f off (greadOf s (uHost p) x data.length)) :=
  (bar2_address h hf hx).trans (if_neg (Bool.eq_false_iff.1 hp))

end

/-- Settles O35: each request by the equation of the check it meets, a refused one for its write and its read. -/
theorem hostMemoryWindow : Obligations.HostMemoryWindow := by
  intro s p f rid off x data h8 hd
  refine ⟨fun hn hup => ⟨congrArg Host.Outcome.next (bar2_narrow h8 hd hn hup),
      congrArg Host.Outcome.next (bar2_narrow h8 hd hn hup)⟩,
    fun hup h => ⟨congrArg Host.Outcome.next (bar2_outside h8 hd hup h),
      congrArg Host.Outcome.next (bar2_outside h8 hd hup h)⟩,
    fun hup hs hv hsize => ?inside⟩
  case inside =>
    have h : InBar2 s p f off data := ⟨h8, hd, hup, hs, hv, hsize⟩
    exact ⟨fun hf hx => ⟨congrArg Host.Outcome.next (bar2_badRange h hf hx),
        congrArg Host.Outcome.next (bar2_badRange h hf hx)⟩,
      fun hf hx => congrArg Host.Outcome.next (bar2_writes h hf hx),
      fun hf hx hp => congrArg Host.Outcome.next (bar2_readsPoison h hf hx hp),
      fun hf hx hp => congrArg Host.Outcome.next (bar2_reads h hf hx hp),
      fun h0 hf => ⟨congrArg Host.Outcome.next (bar2_fenced h h0 hf),
        congrArg Host.Outcome.next (bar2_fenced h h0 hf)⟩⟩

end Sys2Proof.Machine

/-! PROOF. Rings and doorbells (R297, R303, R304, R305, R308). -/

namespace Sys2Proof.Machine

/-! ### A ring's configuration register -/

section
variable {s : State} {f k off v enBit mask : Nat} {ok : Bool} {off? on? : State → State}

theorem ringCfg_badValue (hok : ok = false) :
    ringCfg s f k off v ok enBit mask off? on? = recordErr s (ringPage f) eCmdReserved f off := by
  simp [ringCfg, hok]

theorem ringCfg_enabledChange (hok : ok = true) (hold : bit (rd s k) enBit = true) (hnew : bit v enBit = true)
    (hne : Nat.land (rd s k) mask ≠ Nat.land v mask) :
    ringCfg s f k off v ok enBit mask off? on? = recordErr s (ringPage f) eRingState f off := by
  rw [ringCfg, if_neg (by simp [hok]), if_pos (by simp [hold, hnew]), if_neg hne]

theorem ringCfg_turnsOn (hok : ok = true) (hold : bit (rd s k) enBit = false) (hnew : bit v enBit = true) :
    ringCfg s f k off v ok enBit mask off? on? = on? (wr s k (Nat.land v mask)) := by
  simp [ringCfg, hok, hold, hnew]

theorem ringCfg_turnsOff (hok : ok = true) (hold : bit (rd s k) enBit = true) (hnew : bit v enBit = false) :
    ringCfg s f k off v ok enBit mask off? on? = wr (off? s) k (Nat.land v mask) := by
  simp [ringCfg, hok, hold, hnew]

/-! ### SQ_CFG and EQ_CFG -/

/-- Whether a value of SQ_CFG is in range: 16 to 4,096 entries (R303). -/
def sqCfgOk (v : Nat) : Bool := decide (4 ≤ fld v 3 0) && decide (fld v 3 0 ≤ 12)

/-- SQ_CFG of submission ring n of a function is written (R303). -/
def configureSq (s : State) (f n v : Nat) : State :=
  ringCfg s f (K.sqCfg f n) (0x108 + 16 * n) v (sqCfgOk v) 16 0xF0F
    (fun s => setSqr (setBit s (K.sqCfg f n) 16 false) f n { sqr s f n with stopped := false })
    (fun s => setSqr (setBit (wr s (K.sqHead f n) 0) (K.sqCfg f n) 16 true) f n { lastPort := (sqr s f n).lastPort })

/-- Whether a value of a function's EQ_CFG is in range: 64 to 65,536 entries, a port rule and a vector it has (R303). -/
def eqCfgOk (f v : Nat) : Bool :=
  decide (6 ≤ fld v 4 0) && decide (fld v 4 0 ≤ 16) && fld v 17 16 != 3 && (f == 0 || decide (fld v 15 8 < 64))

/-- EQ_CFG of event ring n of a function is written (R303, R308). -/
def configureEq (s : State) (f n v : Nat) : State :=
  ringCfg s f (K.eqCfg f n) (0x208 + 16 * n) v (eqCfgOk f v) 24 0x3FF1F (fun s => disableEq s f n) (fun s => enableEq s f n)

variable {a : Access} {n : Nat}

theorem sqCfgWrite_ring (h : ringAccess s a = some (f, 0x108 + 16 * n)) (hn : n < 16) :
    sqCfgWrite a v s = configureSq s f n v := by
  have hrow : ¬(0x108 + 16 * n < 0x100 || 0x200 ≤ 0x108 + 16 * n || (0x108 + 16 * n) % 16 ≠ 8) = true := by
    simp only [Bool.or_eq_true, decide_eq_true_eq, not_or]
    omega
  have hring : (0x108 + 16 * n - 0x100) / 16 = n := by omega
  simp only [sqCfgWrite, h]
  rw [if_neg hrow, hring]
  rfl

theorem eqCfgWrite_ring (h : ringAccess s a = some (f, 0x208 + 16 * n)) (hn : n < 16) :
    eqCfgWrite a v s = configureEq s f n v := by
  have hrow : ¬(0x208 + 16 * n < 0x200 || 0x300 ≤ 0x208 + 16 * n || (0x208 + 16 * n) % 16 ≠ 8) = true := by
    simp only [Bool.or_eq_true, decide_eq_true_eq, not_or]
    omega
  have hring : (0x208 + 16 * n - 0x200) / 16 = n := by omega
  simp only [eqCfgWrite, h]
  rw [if_neg hrow, hring]
  rfl

theorem configureSq_badSize (hv : fld v 3 0 < 4 ∨ 12 < fld v 3 0) :
    configureSq s f n v = recordErr s (ringPage f) eCmdReserved f (0x108 + 16 * n) := by
  have hok : sqCfgOk v = false := by
    rcases hv with hv | hv
    · simp [sqCfgOk, hv]
    · simp [sqCfgOk, hv]
  exact ringCfg_badValue hok

end

/-! ### Doorbells -/

section
variable {s : State} {a : Access} {off size v : Nat} {on : Bool} {f : State → State}

theorem ring_runs (hc : doorbellCode s a.func = 0) (hon : on = true) (hv : fld v 15 0 < size) :
    ring s a off size v on f = f s := by
  simp [ring, hc, hon, hv]

theorem ring_off (hc : doorbellCode s a.func = 0) (hon : on = false) :
    ring s a off size v on f = recordErr s (ringPage a.func) eRingState a.func off := by
  simp [ring, hc, hon, eRingState]

theorem ring_outOfRange (hc : doorbellCode s a.func = 0) (hon : on = true) (hv : size ≤ fld v 15 0) :
    ring s a off size v on f = recordErr s (ringPage a.func) eDoorbellBad a.func off := by
  simp [ring, hc, hon, hv, eDoorbellBad]

theorem ring_discarded (hc : doorbellCode s a.func ≠ 0) :
    ring s a off size v on f = recordErr s (ringPage a.func) (doorbellCode s a.func) a.func off := by
  simp [ring, hc]

variable {n : Nat}

/-- A submission doorbell that is not discarded: TAIL and its port, and fetching starts again (R304, R305). -/
def sqRung (a : Access) (n v : Nat) (s : State) : State :=
  setSqr s a.func n { tail := fld v 15 0, lastPort := a.port, stopped := false }

theorem sqDoorbell_rings (h : doorbellAt s a 0x300 0x1000 = some (n, off)) (hn : n < 16) :
    sqDoorbell a v s = ring s a off (sqSize s a.func n) v (sqEnabled s a.func n) (sqRung a n v) := by
  simp only [sqDoorbell, h]
  exact if_neg hn.not_ge

/-- The head of an event ring moves, and what it passed is free (R251, R304). -/
def headMoved (a : Access) (n v : Nat) (s : State) : State :=
  passBatches (setEqr s a.func n { eqr s a.func n with head := fld v 15 0, lastPort := a.port }) a.func n

def armRing (s : State) (f n : Nat) : State := setEqr s f n { eqr s f n with armed := true }

/-- An event-head doorbell that is not discarded (R297, R304, R308). -/
def eqRung (a : Access) (n v : Nat) (s : State) : State :=
  let s := headMoved a n v s
  let s := if bit v 31 then armRing s a.func n else s
  let s := if bit v 31 && unread s a.func n ≠ 0 then ringIrq s a.func n else s
  flushRing s a.func n

theorem eqDoorbell_rings (h : doorbellAt s a 0x340 0x2000 = some (n, off)) (hn : n < 16) :
    eqDoorbell a v s = ring s a off (eqSize s a.func n) v (eqEnabled s a.func n) (eqRung a n v) := by
  simp only [eqDoorbell, h]
  exact if_neg hn.not_ge

theorem eqRung_unarmed (hv : bit v 31 = false) : eqRung a n v s = flushRing (headMoved a n v s) a.func n := by
  simp only [eqRung, hv, Bool.false_and, Bool.false_eq_true, if_false]

theorem eqRung_armed (hv : bit v 31 = true) (hu : unread (armRing (headMoved a n v s) a.func n) a.func n = 0) :
    eqRung a n v s = flushRing (armRing (headMoved a n v s) a.func n) a.func n := by
  simp [eqRung, hv, hu]

/-- ARM on a ring with unread messages interrupts at once and leaves ARMED set (R297, log entry 155). -/
theorem eqRung_armedUnread (hv : bit v 31 = true) (hu : unread (armRing (headMoved a n v s) a.func n) a.func n ≠ 0) :
    eqRung a n v s = flushRing (ringIrq (armRing (headMoved a n v s) a.func n) a.func n) a.func n := by
  simp [eqRung, hv, hu]

end

/-- Settles O40: a configuration write by what it does to its ring, a doorbell by what discards it or by its effect. -/
theorem ringsAndDoorbells : Obligations.RingsAndDoorbells := by
  intro s a f n o v off
  refine ⟨fun h ho hn hlo hhi => ?sqCfg, fun h ho hn hv => ?sqBadSize, fun h ho hn hlo hhi hport hvec => ?eqCfg,
    fun h hn => ?submission, fun h hn hc hon hv s0 hs0 => ?eventHead⟩
  case sqCfg =>
    subst ho
    have hwrite : sqCfgWrite a v s = configureSq s f n v := sqCfgWrite_ring h hn
    have hok : sqCfgOk v = true := by simp [sqCfgOk, hlo, hhi]
    exact ⟨fun hold hnew => congrArg Host.Outcome.next (hwrite.trans (ringCfg_turnsOn hok hold hnew)),
      fun hold hnew hne => congrArg Host.Outcome.next (hwrite.trans (ringCfg_enabledChange hok hold hnew hne))⟩
  case sqBadSize =>
    subst ho
    exact congrArg Host.Outcome.next ((sqCfgWrite_ring h hn).trans (configureSq_badSize hv))
  case eqCfg =>
    subst ho
    have hwrite : eqCfgWrite a v s = configureEq s f n v := eqCfgWrite_ring h hn
    have hok : eqCfgOk f v = true := by simp [eqCfgOk, hlo, hhi, hport, hvec]
    exact ⟨fun hold hnew => congrArg Host.Outcome.next (hwrite.trans (ringCfg_turnsOn hok hold hnew)),
      fun hold hnew => congrArg Host.Outcome.next (hwrite.trans (ringCfg_turnsOff hok hold hnew))⟩
  case submission =>
    have hring := sqDoorbell_rings (v := v) h hn
    exact ⟨fun hc hon hv => congrArg Host.Outcome.next (hring.trans (ring_runs hc hon hv)),
      fun hc hon => congrArg Host.Outcome.next (hring.trans (ring_off hc hon)),
      fun hc hon hv => congrArg Host.Outcome.next (hring.trans (ring_outOfRange hc hon hv)),
      fun hc => congrArg Host.Outcome.next (hring.trans (ring_discarded hc))⟩
  case eventHead =>
    subst hs0
    have hring : eqDoorbell a v s = eqRung a n v s := (eqDoorbell_rings h hn).trans (ring_runs hc hon hv)
    refine ⟨fun hv => congrArg Host.Outcome.next (hring.trans (eqRung_unarmed hv)), fun hv s1 hs1 => ?_⟩
    subst hs1
    exact ⟨fun hu => congrArg Host.Outcome.next (hring.trans (eqRung_armed hv hu)),
      fun hu => congrArg Host.Outcome.next (hring.trans (eqRung_armedUnread hv hu))⟩

end Sys2Proof.Machine

/-! PROOF. Command records are fetched (R301, R302, R303, R305, R426). -/

namespace Sys2Proof.Machine

/-! ### A fetch returns or fails -/

section
variable {s : State} {f n p : Nat} {body : Bytes}

/-- A record fetched through the ring's port is counted there and joins the commands (R305, R314). -/
theorem fetchReturn_takes (hm : mayFetch s f n = true) (hup : portUp s 0 = true ∨ portUp s 1 = true)
    (hp : choosePort s (sqr s f n).lastPort = some p) :
    fetchReturn f n body s = takeCommand (countRx s p 64) f n (sub body 0 64) := by
  rw [fetchReturn, if_pos (by simp [hm, hup]), hp]

theorem fetchReturn_idle (hm : mayFetch s f n = false) : fetchReturn f n body s = s :=
  if_neg (by simp [hm])

theorem fetchFails_stops (hm : mayFetch s f n = true) : fetchFails f n s =
    recordErr (setSqr s f n { sqr s f n with stopped := true }) (ringPage f) eCmdFetch f (0x100 + 16 * n) :=
  if_pos hm

theorem fetchFails_idle (hm : mayFetch s f n = false) : fetchFails f n s = s :=
  if_neg (by simp [hm])

end

/-! ### Commands that complete at fetch -/

section
variable {s : State} {src : Nat} {c : Cmd}

/-- The oldest command of a source that completes at fetch: a refused record, or a NOP (R301, R302). -/
def atFetch (s : State) (src : Nat) : Option Cmd :=
  s.cmds.find? fun c => c.src == src && (fetchCode src c.body != 0 || cmdOp c == 0)

theorem settleFetch_none (h : atFetch s src = none) : ∀ k, settleFetch k s src = s
  | 0 => rfl
  | k + 1 => by rw [atFetch] at h; simp only [settleFetch, h]

theorem settleFetch_refuses (h : atFetch s src = some c) (hc : fetchCode src c.body ≠ 0) (k : Nat) :
    settleFetch (k + 1) s src = settleFetch k (finish s c (fetchCode src c.body)) src := by
  rw [atFetch] at h
  simp only [settleFetch, h]
  exact if_pos hc

theorem settleFetch_nop (h : atFetch s src = some c) (hc : fetchCode src c.body = 0) (hf : fenceHeld s c = false)
    (k : Nat) : settleFetch (k + 1) s src = settleFetch k (finish s c (gateCode s src 0)) src := by
  rw [atFetch] at h
  simp only [settleFetch, h]
  rw [if_neg (by simp [hc]), if_neg (by simp [hf])]

/-- A NOP that its FENCE holds also holds the records behind it (R301). -/
theorem settleFetch_held (h : atFetch s src = some c) (hc : fetchCode src c.body = 0) (hf : fenceHeld s c = true)
    (k : Nat) : settleFetch (k + 1) s src = s := by
  rw [atFetch] at h
  simp only [settleFetch, h]
  rw [if_neg (by simp [hc]), if_pos hf]

/-- A NOP's command settles its source with as much fuel as there are commands. -/
theorem nop_settles (h : atFetch s src = some c) :
    exec (.nop src) s = .next (settleFetch (s.cmds.length - 1 + 1) s src) := by
  have hlen : 0 < s.cmds.length := List.length_pos_of_mem (List.mem_of_find?_eq_some h)
  rw [Nat.sub_add_cancel hlen]
  rfl

end

/-- Settles O41: a fetch by what it returns, and the commands of its ring by the oldest one that completes at fetch. -/
theorem commandRecordsAreFetched : Obligations.CommandRecordsAreFetched := by
  intro s src f n p body c s0
  refine ⟨fun hm hup hp => congrArg Host.Outcome.next (fetchReturn_takes hm hup hp),
    fun head e t hhead he ht hc hs0 => ?takes,
    fun h => congrArg Host.Outcome.next (settleFetch_none h _), fun h => ?settles,
    fun hm => congrArg Host.Outcome.next (fetchFails_stops hm),
    fun hm => ⟨congrArg Host.Outcome.next (fetchReturn_idle hm), congrArg Host.Outcome.next (fetchFails_idle hm)⟩⟩
  case takes =>
    subst hhead he ht hc hs0
    rfl
  case settles =>
    rw [nop_settles h]
    exact ⟨fun hc => congrArg Host.Outcome.next (settleFetch_refuses h hc _),
      fun hc hf => congrArg Host.Outcome.next (settleFetch_nop h hc hf _),
      fun hc hf => congrArg Host.Outcome.next (settleFetch_held h hc hf _)⟩

end Sys2Proof.Machine

/-! PROOF. PCIe links, resets and MSI-X vectors (R292, R293, R297, R310, R314). -/

namespace Sys2Proof.Machine

/-! ### Configuration requests -/

section
variable {s : State} {p : Nat} {fl : Option CfgField} {x : Option Nat}

/-- A link that carries configuration requests is not down. -/
theorem not_linkIsDown (hl : (port s p).up = true ∨ (port s p).narrow = true) :
    ¬(!(port s p).up && !(port s p).narrow) = true := by
  rcases hl with h | h
  · simp [h]
  · simp [h]

theorem configRequest_answered (hl : (port s p).up = true ∨ (port s p).narrow = true)
    (ht : (port s p).since + usCycles 80000 ≤ s.clock) : configRequest p fl x s = cfgAnswer s p fl x := by
  rw [configRequest, if_neg (not_linkIsDown hl), if_pos ht]

/-- Within 80 ms of PERST#'s release a free value decides between the answer and Retry Status (R292, log entry 5). -/
theorem configRequest_early (hl : (port s p).up = true ∨ (port s p).narrow = true)
    (ht : s.clock < (port s p).since + usCycles 80000) :
    configRequest p fl x s =
      if (draw s).1 % 2 = 1 then cfgAnswer (draw s).2 p fl x else emit (draw s).2 (.config p false 0) := by
  rw [configRequest, if_neg (not_linkIsDown hl), if_neg ht.not_ge]

/-! ### Links -/

theorem linkDown_down (hup : (port s p).up = false) (hn : (port s p).narrow = false) : Machine.linkDown p s = s :=
  if_pos (by simp [hup, hn])

/-- IDENT_SEND on a port whose link is up, once the register is written (R310, R314). -/
theorem identSend_sends {a : Access} {pl : Place} {v : Nat} (hr : Reaches s a pl) (hp : pl.page = pgPort p)
    (h2 : p < 2) (ho : pl.off = 0x44) (hv : bit v 0 = true)
    (hl : (port (storeReg s pl.key v) p).up = true ∨ (port (storeReg s pl.key v) p).narrow = true) :
    exec (.identSend a v) s = .next (sendIdentity (storeReg s pl.key v) p) := by
  have htype : pageType (pgPort p) = 7 := by
    rcases Nat.lt_succ_iff_lt_or_eq.1 h2 with h | rfl
    · obtain rfl : p = 0 := by omega
      rfl
    · rfl
  have hport : pgPort p - pgPort 0 = p := Nat.add_sub_cancel_left 6 p
  show execIdentSend a v s = _
  rw [execIdentSend, atPlace_reaches hr, if_neg (by simp [hp, htype, ho])]
  simp only [hp, hport]
  rw [if_pos (by simp [hv, hl])]

end

/-! ### The MSI-X table -/

section
variable {s : State} {p f off v : Nat}

/-- The state with a word written to a function's vector table. -/
def msixStored (s : State) (p f off v : Nat) : State :=
  { s with msixTab := mset msixReset s.msixTab (msixKey p f off) (BitVec.ofNat 32 v) }

/-- Whether a word of a vector table is the control of a vector that is pending and masked no more (R297). -/
def unmasks (s : State) (p f off : Nat) : Bool :=
  off % 16 = 12 && !msixMasked s p f (off / 16) && !(port s p).msixMask.contains f && s.pba.contains (p, f, off / 16)

/-- A word of the vector table of a function that a port presents, on a link that is up (R294, R297). -/
structure InMsixTable (s : State) (p f off : Nat) : Prop where
  up : portUp s p = true
  here : vfHere s p f = true
  func : f ≤ 8
  size : off < if f = 0 then 0x1000 else 0x400
  aligned : off % 4 = 0

variable (h : InMsixTable s p f off)
include h

/-- A write that unmasks a pending vector of a function that is not masked sends it (R297). -/
theorem msixWrite_sends (ho : off % 16 = 12) (hm : msixMasked (msixStored s p f off v) p f (off / 16) = false)
    (hf : (port (msixStored s p f off v) p).msixMask.contains f = false)
    (hp : (msixStored s p f off v).pba.contains (p, f, off / 16) = true) :
    msixWrite p f off v s = emit { msixStored s p f off v with
      pba := (msixStored s p f off v).pba.filter (· != (p, f, off / 16)) } (.msix p f (off / 16)) := by
  have hsends : unmasks (msixStored s p f off v) p f off = true := by simp only [unmasks, ho, hm, hf, hp]; rfl
  obtain ⟨hup, hv, h8, hsize, h4⟩ := h
  rw [msixWrite, if_neg (by simp [hup, hv, h8, hsize, h4])]
  exact if_pos hsends

/-- A write of any other word of an entry is only kept. -/
theorem msixWrite_keeps (ho : off % 16 ≠ 12) : msixWrite p f off v s = msixStored s p f off v := by
  have hkeeps : ¬unmasks (msixStored s p f off v) p f off = true := by simp [unmasks, ho]
  obtain ⟨hup, hv, h8, hsize, h4⟩ := h
  rw [msixWrite, if_neg (by simp [hup, hv, h8, hsize, h4])]
  exact if_neg hkeeps

end

/-- Settles O42: each request and event by the equation of its case. -/
theorem linksAndVectors : Obligations.LinksAndVectors := by
  intro s a pl p f off v fl x
  refine ⟨fun hl => ⟨fun ht => congrArg Host.Outcome.next (configRequest_answered hl ht), fun ht => ?early⟩,
    fun c => ⟨rfl, rfl⟩, rfl, rfl, rfl, fun hup => rfl,
    fun hup hn => congrArg Host.Outcome.next (linkDown_down hup hn),
    fun hr hp h2 ho hv hl => identSend_sends hr hp h2 ho hv hl,
    fun hup hv h8 hsize h4 t ht => ?vectors⟩
  case early =>
    have hearly : exec (.configRequest p fl x) s = .next _ :=
      congrArg Host.Outcome.next (configRequest_early (fl := fl) (x := x) hl ht)
    rw [hearly]
    split
    · exact Or.inl rfl
    · exact Or.inr rfl
  case vectors =>
    subst ht
    have h : InMsixTable s p f off := ⟨hup, hv, h8, hsize, h4⟩
    exact ⟨fun ho hm hf hp => congrArg Host.Outcome.next (msixWrite_sends h ho hm hf hp),
      fun ho => congrArg Host.Outcome.next (msixWrite_keeps h ho)⟩

end Sys2Proof.Machine

/-! PROOF. Heartbeats and the claims they request (R318, R319, R320, R324, R329). -/

namespace Sys2Proof.Machine

/-! ### PCIe heartbeats -/

section
variable {s s0 : State} {a : Access} {pl : Place} {wide : Bool} {k p v claim : Nat}

/-- A write that completes CLAIM_HB of a record is a PCIe heartbeat of that record (R320). -/
theorem hbHi_reaches (hk : k < 2) (hr : Reaches s a pl) (hp : pl.page = pgClaim)
    (ho : (if wide then pl.off else pl.off - 4) = 0x80 + 0x40 * k) : hbHi a wide v s =
      pcieHeartbeat s k a.port (if wide then v % 2 ^ 64 else (host s k).hbLo + 2 ^ 32 * (v % 2 ^ 32)) := by
  have hbase : 0x80 + 0x40 * k = 0x80 ∨ 0x80 + 0x40 * k = 0xC0 := by omega
  have hrec : (0x80 + 0x40 * k - 0x80) / 0x40 = k := by omega
  rw [hbHi, atPlace_reaches hr]
  simp only [ho, hrec]
  exact if_neg (by simpa [hp, or_iff_not_imp_left] using hbase)

/-- The upper word written alone carries the claim whose lower word the record keeps. -/
theorem hbHi_upper (hk : k < 2) (hr : Reaches s a pl) (hp : pl.page = pgClaim) (ho : pl.off = 0x84 + 0x40 * k) :
    hbHi a false v s = pcieHeartbeat s k a.port ((host s k).hbLo + 2 ^ 32 * (v % 2 ^ 32)) :=
  hbHi_reaches hk hr hp (by simp only [Bool.false_eq_true, if_false]; omega)

/-- One 8-byte write carries the whole claim. -/
theorem hbHi_whole (hk : k < 2) (hr : Reaches s a pl) (hp : pl.page = pgClaim) (ho : pl.off = 0x80 + 0x40 * k)
    (hv : v < 2 ^ 64) : hbHi a true v s = pcieHeartbeat s k a.port v := by
  rw [hbHi_reaches hk hr hp (by simpa using ho), if_pos rfl, Nat.mod_eq_of_lt hv]

variable (hs0 : s0 = wiringSeen (setHost s k { host s k with port := p }) k p)
include hs0

/-- Generation 0 requests nothing (R318). -/
theorem pcieHeartbeat_noGeneration (hg : generation claim = 0) : pcieHeartbeat s k p claim = s0 := by
  subst hs0
  exact if_pos hg

/-- A wrong host id is recorded in CLAIM's BLK_ERR (R319). -/
theorem pcieHeartbeat_wrongId (hg : generation claim ≠ 0) (hi : idOk s0 k (claim % 256) = false) :
    pcieHeartbeat s k p claim = recordErr s0 pgClaim eClaimHost 0 (0x84 + 0x40 * k) := by
  subst hs0
  exact (if_neg hg).trans (if_pos (by rw [hi]; rfl))

theorem pcieHeartbeat_valid (hg : generation claim ≠ 0) (hi : idOk s0 k (claim % 256) = true) :
    pcieHeartbeat s k p claim = heartbeat s0 k 0 claim := by
  subst hs0
  exact (if_neg hg).trans (if_neg (by rw [hi]; decide))

end

/-! ### Management heartbeats -/

section
variable {s : State} {k mac : Nat} {f : Bytes}

theorem mgmtHeartbeat_valid (hk : k < 2) (hup : mgmtUp s k = true) (hf : frameOk s k mac 1 f = true)
    (hg : generation (num f 8 8) ≠ 0) (hi : idOk s k (num f 8 8 % 256) = true) :
    mgmtHeartbeat k mac f s = heartbeat (takeFrame s k mac f) k 1 (num f 8 8) := by
  rw [mgmtHeartbeat, if_neg (by simp [hup, Nat.le_of_lt_succ hk]), if_neg (by simp [hf, hg, hi])]

/-- A frame that is not acceptable, has generation 0 or a wrong host id is counted in MGMT_DROP (R318, R319, R328). -/
theorem mgmtHeartbeat_dropped (hk : k < 2) (hup : mgmtUp s k = true)
    (h : frameOk s k mac 1 f = false ∨ generation (num f 8 8) = 0 ∨ idOk s k (num f 8 8 % 256) = false) :
    mgmtHeartbeat k mac f s = dropFrame s k := by
  rw [mgmtHeartbeat, if_neg (by simp [hup, Nat.le_of_lt_succ hk]), if_pos (by simpa [or_assoc] using h)]

end

/-! ### Claim requests -/

section
variable {s : State} {k claim : Nat}

theorem requestClaim_notHigher (h : claim ≤ claimA s) : requestClaim s k claim = s := if_pos h

theorem requestClaim_settled (h : claimA s < claim) (hs : settled s k = true) :
    requestClaim s k claim = acceptClaim s k claim :=
  (if_neg h.not_ge).trans (if_pos hs)

theorem requestClaim_early (h : claimA s < claim) (hs : settled s k = false) :
    requestClaim s k claim = incr s (K.claimEarly k) 1 :=
  (if_neg h.not_ge).trans (if_neg (by simp [hs]))

end

/-- Settles O31: a write of CLAIM_HB is a PCIe heartbeat; then each heartbeat and each request by the equation of its
case. -/
theorem heartbeatRequestsClaim : Obligations.HeartbeatRequestsClaim := by
  intro s a pl k mac v claim f hk
  refine ⟨fun a' pl' hr hp ho hr' hp' ho' hport hclaim hlt => ?whole, fun hr hp ho hclaim s0 hs0 => ?upper,
    fun hup hclaim hf hg hi => ?valid, fun hup hclaim h => ?dropped,
    requestClaim_notHigher, requestClaim_settled, requestClaim_early⟩
  case whole =>
    refine congrArg Host.Outcome.next (?_ : hbHi a' true claim s = hbHi a false v s)
    rw [hbHi_whole hk hr' hp' ho' hlt, hbHi_upper hk hr hp ho, hport, hclaim]
  case upper =>
    have hhb : exec (.hbHi a false v) s = .next (pcieHeartbeat s k a.port claim) :=
      congrArg Host.Outcome.next (hclaim ▸ hbHi_upper hk hr hp ho)
    rw [hhb]
    exact ⟨fun hg => congrArg Host.Outcome.next (pcieHeartbeat_noGeneration hs0 hg),
      fun hg hi => congrArg Host.Outcome.next (pcieHeartbeat_wrongId hs0 hg hi),
      fun hg hi => congrArg Host.Outcome.next (pcieHeartbeat_valid hs0 hg hi)⟩
  case valid =>
    subst hclaim
    exact congrArg Host.Outcome.next (mgmtHeartbeat_valid hk hup hf hg hi)
  case dropped =>
    subst hclaim
    exact congrArg Host.Outcome.next (mgmtHeartbeat_dropped hk hup h)

end Sys2Proof.Machine

/-! PROOF. Silent paths and a silent controller (R322, R323, R325). -/

namespace Sys2Proof.Machine

section
variable {s s1 s2 : State} {k p : Nat}

/-! ### The paths that fall silent -/

/-- With no silent path a record stays as it is. -/
theorem silentRecord_none (h0 : pathSilent s k 0 = false) (h1 : pathSilent s k 1 = false) : silentRecord s k = s := by
  have hlost : (List.range 2).filter (pathSilent s k) = [] := by simp [List.range_succ, h0, h1]
  rw [silentRecord, hlost]
  rfl

/-- The only path of a record that has fallen silent is the one the tick takes down. -/
theorem filter_pathSilent_one (hp : p < 2) (h : pathSilent s k p = true) (ho : pathSilent s k (1 - p) = false) :
    (List.range 2).filter (pathSilent s k) = [p] := by
  rcases Nat.le_one_iff_eq_zero_or_eq_one.1 (Nat.le_of_lt_succ hp) with rfl | rfl
  · simp [List.range_succ, h, ho]
  · simp [List.range_succ, h, ho]

variable (hlost : (List.range 2).filter (pathSilent s k) = [p])
  (hs1 : s1 = showSplit (wr64 (setPathLive s k p false) (reportKey k p) 0))
include hlost hs1

/-- A path that falls silent is taken down first; what is reported depends on the record's other path (R323). -/
theorem silentRecord_one (hs2 : s2 = setHost s1 k { host s1 k with liveSince := none }) : silentRecord s k =
    if pathLive s1 k 0 || pathLive s1 k 1 then claimEvent s1 5 k 0 0 0
    else if claimA s2 ≠ 0 && holder s2 = k then
      claimEvent (raiseIrq (wf s2 K.claimState 1 0 2) pgClaim 17) 3 k eControllerSilent 0 0
    else s2 := by
  subst hs2 hs1
  rw [silentRecord, hlost]
  rfl

/-- PATH_LOST: another path of the record is live (R323). -/
theorem silentRecord_pathLost (hl : (pathLive s1 k 0 || pathLive s1 k 1) = true) :
    silentRecord s k = claimEvent s1 5 k 0 0 0 :=
  (silentRecord_one hlost hs1 rfl).trans (if_pos hl)

/-- SILENT: the record holds the claim and has no live path (R323). -/
theorem silentRecord_holderSilent (hl : (pathLive s1 k 0 || pathLive s1 k 1) = false)
    (hs2 : s2 = setHost s1 k { host s1 k with liveSince := none }) (hA : claimA s2 ≠ 0) (hk : holder s2 = k) :
    silentRecord s k = claimEvent (raiseIrq (wf s2 K.claimState 1 0 2) pgClaim 17) 3 k eControllerSilent 0 0 := by
  rw [silentRecord_one hlost hs1 hs2, if_neg (by simp [hl]), if_pos (by simp [hA, hk])]

end

/-- Settles O32: a tick's outcome for a record by the paths that have fallen silent. -/
theorem livenessOfHosts : Obligations.LivenessOfHosts := fun _ =>
  ⟨rfl, fun hon => congrArg Host.Outcome.next (if_neg hon), fun hoff => congrArg Host.Outcome.next (if_pos hoff),
    fun _ => silentRecord_none,
    fun _ _ _ hp h ho => silentRecord_pathLost (filter_pathSilent_one hp h ho),
    fun _ _ _ _ hp h ho => silentRecord_holderSilent (filter_pathSilent_one hp h ho)⟩

end Sys2Proof.Machine

/-! PROOF. Management requests, RELEARN and link changes (R326, R328, R329, R330). -/

namespace Sys2Proof.Machine

section
variable {s s1 s2 : State} {a : Access} {pl : Place} {k mac v : Nat} {f : Bytes} {c : Cmd}

/-! ### REQUEST frames -/

/-- A kept REQUEST adds its command record, and its checks may complete it at once (R329). -/
theorem mgmtRequest_kept (hk : k < 2) (hup : mgmtUp s k = true) (hf : frameOk s k mac 3 f = true)
    (hs1 : s1 = arrives (takeFrame s k mac f) k 1 none)
    (hc : c = { id := s1.nextId, src := 0x100 + k, body := sub (fBody f) 0 64 })
    (hs2 : s2 = { s1 with cmds := s1.cmds ++ [c], nextId := s1.nextId + 1 }) : mgmtRequest k mac f s =
      if requestCode s2 c.src c.body ≠ 0 then finish s2 c (requestCode s2 c.src c.body) else s2 := by
  subst hs2 hc hs1
  rw [mgmtRequest, if_neg (by simp [hup, Nat.le_of_lt_succ hk]), if_neg (by simp [hf])]

theorem mgmtRequest_dropped (hk : k < 2) (hup : mgmtUp s k = true) (hf : frameOk s k mac 3 f = false) :
    mgmtRequest k mac f s = dropFrame s k := by
  rw [mgmtRequest, if_neg (by simp [hup, Nat.le_of_lt_succ hk]), if_pos (by simp [hf])]

/-! ### MGMT_CTRL -/

variable (hr : Reaches s a pl) (hp : pl.page = pgMgmt) (ho : pl.off = 0x48) (hs1 : s1 = storeReg s pl.key v)
include hr hp ho hs1

theorem relearn_onlyStored (hv : bit v 1 = false) : relearn a v s = s1 := by
  subst hs1
  rw [relearn, atPlace_reaches hr, if_neg (by simp [hp, ho])]
  exact if_pos (by rw [hv]; rfl)

/-- A RELEARN is checked against the claim last written through its port (R326). -/
theorem relearn_checked (hv : bit v 1 = true) : relearn a v s =
    if claimCode s1 (claimKey s1 a.port) ≠ 0 then
      recordErr (refuseAct s1 (claimKey s1 a.port) (claimCode s1 (claimKey s1 a.port)) 0) pgMgmt
        (claimCode s1 (claimKey s1 a.port)) a.func 0x48
    else wf (wf s1 (K.claimHost 0) 8 0 0) (K.claimHost 1) 8 0 0 := by
  subst hs1
  rw [relearn, atPlace_reaches hr, if_neg (by simp [hp, ho])]
  exact if_neg (by rw [hv]; decide)

end

/-! ### Link changes -/

/-- A link change shows in MGMT_LINK, whose count takes a fall of a link that was up (R328). -/
theorem mgmtLinkChange_powered {s : State} {k : Nat} (up pol : Bool) (hk : k < 2) (hon : s.tray.hs ≠ .unpowered) :
    mgmtLinkChange k up pol s = wr s (K.mgmtLink k) (b2n up + 2 * b2n (up && pol) +
      2 ^ 16 * (if mgmtUp s k && !up then (rf s (K.mgmtLink k) 31 16 + 1) % 2 ^ 16 else rf s (K.mgmtLink k) 31 16)) :=
  if_neg (by simp [hon, Nat.le_of_lt_succ hk])

/-- Settles O33: a REQUEST by its frame and its checks, RELEARN by its claim check. -/
theorem managementFrames : Obligations.ManagementFrames := by
  intro s a pl k mac v f up pol c s1 hk
  refine ⟨fun hup hf hs1 hc s2 hs2 => ?kept,
    fun hup hf => congrArg Host.Outcome.next (mgmtRequest_dropped hk hup hf),
    fun hr hp ho hs1 => ⟨fun hv => ?stored, fun hv hcode => ?relearned, fun hv hcode => ?refused⟩,
    fun hon => congrArg Host.Outcome.next (mgmtLinkChange_powered up pol hk hon)⟩
  case kept =>
    have hreq := mgmtRequest_kept hk hup hf hs1 hc hs2
    exact ⟨fun hcode => congrArg Host.Outcome.next (hreq.trans (if_neg (not_not_intro hcode))),
      fun hcode => congrArg Host.Outcome.next (hreq.trans (if_pos hcode))⟩
  case stored => exact congrArg Host.Outcome.next (relearn_onlyStored hr hp ho hs1 hv)
  case relearned =>
    exact congrArg Host.Outcome.next ((relearn_checked hr hp ho hs1 hv).trans (if_neg (not_not_intro hcode)))
  case refused => exact congrArg Host.Outcome.next ((relearn_checked hr hp ho hs1 hv).trans (if_pos hcode))

end Sys2Proof.Machine

/-! PROOF. One step (95_what_each_step_holds.md, 00_scope.md). -/

namespace Sys2Proof.Machine

/-- Settles O1: the queue decides which arm of `step` runs. -/
theorem stepRunsTheFrontCommand : Obligations.StepRunsTheFrontCommand := by
  refine ⟨fun s c rest h => ?front, fun s h => ?idle⟩
  case front => simp only [step, h]
  case idle => simp only [step, h]

end Sys2Proof.Machine

/-! PROOF. The commands that read and acknowledge fault records (R492, R495). -/

namespace Sys2Proof.Machine

section
variable {s : State} {c : Cmd} {r : FaultRec}

/-! ### FAULT_READ -/

theorem faultRead_unaligned (h : arg c 0x14 4 % 16 ≠ 0) : faultRead s c = finish s c eCmdReserved := if_pos h

theorem faultRead_noRecord (h : arg c 0x14 4 % 16 = 0) (hn : namedRecord s (arg c 0x10 4) = none) :
    faultRead s c = finish s c eFaultNone := by
  simp only [faultRead, h, hn, ne_eq, not_true_eq_false, if_false]

/-- An aligned FAULT_READ of a record reads 16 bytes or finds their offset past its end (R495). -/
theorem faultRead_record (h : arg c 0x14 4 % 16 = 0) (hr : namedRecord s (arg c 0x10 4) = some r) :
    faultRead s c = if r.bytes.length ≤ arg c 0x14 4 then finish s c eFaultNone
      else finish s c 0 (num r.bytes (arg c 0x14 4) 8) (num r.bytes (arg c 0x14 4 + 8) 8) := by
  simp only [faultRead, h, hr, ne_eq, not_true_eq_false, if_false]

/-! ### FAULT_ACK -/

theorem faultAck_record (hr : namedRecord s (arg c 0x10 4) = some r) :
    faultAck s c = finish (showUnclean (flagSeq s r.seq 4 true)) c 0 := by
  simp only [faultAck, hr]

theorem faultAck_noRecord (hn : namedRecord s (arg c 0x10 4) = none) : faultAck s c = finish s c eFaultNone := by
  simp only [faultAck, hn]

/-- After an acknowledgement of a SEQ every record with it is acknowledged. -/
theorem flagSeq_acked (s : State) (q flag : Nat) {x : FaultRec} (hx : x ∈ (flagSeq s q flag true).faultLog)
    (hq : x.seq = q) : x.acked = true := by
  obtain ⟨y, -, rfl⟩ := List.mem_map.1 hx
  by_cases hy : y.seq = q
  · simp [hy]
  · rw [if_neg hy] at hq
    exact absurd hq hy

end

/-- Settles O47: each ready command by the equation of its case. -/
theorem faultLogCommands : Obligations.FaultLogCommands := by
  rintro s src c _ r rfl
  exact ⟨fun hc h => next_of_ready hc (faultRead_unaligned h),
    fun hc h hn => next_of_ready hc (faultRead_noRecord h hn),
    fun hc h hr hlt => next_of_ready hc ((faultRead_record h hr).trans (if_neg hlt.not_ge)),
    fun hc h hr hle => next_of_ready hc ((faultRead_record h hr).trans (if_pos hle)),
    fun hc hr => ⟨_, next_of_ready hc (faultAck_record hr), rfl, fun _ => flagSeq_acked _ _ _⟩,
    fun hc hn => next_of_ready hc (faultAck_noRecord hn)⟩

end Sys2Proof.Machine

/-! PROOF. What a full fault log overwrites (R494). -/

namespace Sys2Proof.Machine

section
variable {l before after : List FaultRec} {r x y : FaultRec} {len n : Nat}

/-! ### The record that is overwritten -/

theorem keepRank_acked (h : r.acked = true) : keepRank r = 0 := by simp [keepRank, h]

theorem keepRank_plain (h : r.acked = false) (hk : (r.kind == 1 || r.kind == 2) = false) : keepRank r = 1 := by
  simp [keepRank, h, hk]

theorem keepRank_loss (h : r.acked = false) (hk : (r.kind == 1 || r.kind == 2) = true) : keepRank r = 2 := by
  simp only [keepRank, h, hk, Bool.false_eq_true, if_false, if_true]

theorem one_le_keepRank (h : r.acked = false) : 1 ≤ keepRank r := by
  cases hk : r.kind == 1 || r.kind == 2 with
  | true => exact (keepRank_loss h hk).symm ▸ one_le_two
  | false => exact (keepRank_plain h hk).ge

theorem logVictim_acked (h : l.find? (·.acked) = some r) : logVictim l = some r := by
  simp only [logVictim, h]

theorem logVictim_plain (h : l.find? (·.acked) = none) (hr : l.find? (fun r => !(r.kind == 1 || r.kind == 2)) = some r) :
    logVictim l = some r := by
  simp only [logVictim, h, hr]

theorem logVictim_loss (h : l.find? (·.acked) = none) (hn : l.find? (fun r => !(r.kind == 1 || r.kind == 2)) = none) :
    logVictim l = l.head? := by
  cases l with
  | nil => rfl
  | cons x l => simp only [logVictim, h, hn, List.head?_cons]

/-- The record overwritten is the first of those of least rank. -/
theorem logVictim_least (h : logVictim l = some r) : ∃ before after, l = before ++ r :: after ∧
    (∀ y ∈ before, keepRank r < keepRank y) ∧ ∀ y ∈ after, keepRank r ≤ keepRank y := by
  cases hacked : l.find? (·.acked) with
  | some x =>
    obtain rfl : x = r := Option.some.inj ((logVictim_acked hacked).symm.trans h)
    obtain ⟨hx, before, after, hl, hno⟩ := List.find?_eq_some_iff_append.1 hacked
    rw [keepRank_acked hx]
    exact ⟨before, after, hl, fun y hy => one_le_keepRank (by simpa using hno y hy), fun y _ => Nat.zero_le _⟩
  | none =>
    have hun : ∀ y ∈ l, y.acked = false := fun y hy => by simpa using List.find?_eq_none.1 hacked y hy
    cases hplain : l.find? (fun r => !(r.kind == 1 || r.kind == 2)) with
    | some x =>
      obtain rfl : x = r := Option.some.inj ((logVictim_plain hacked hplain).symm.trans h)
      obtain ⟨hx, before, after, hl, hno⟩ := List.find?_eq_some_iff_append.1 hplain
      rw [keepRank_plain (hun x (by simp [hl])) (by simpa using hx)]
      refine ⟨before, after, hl, fun y hy => ?_, fun y hy => one_le_keepRank (hun y (by simp [hl, hy]))⟩
      exact (keepRank_loss (hun y (by simp [hl, hy])) (by simpa using hno y hy)).symm ▸ one_lt_two
    | none =>
      obtain ⟨after, rfl⟩ := List.head?_eq_some_iff.1 ((logVictim_loss hacked hplain).symm.trans h)
      have hloss : ∀ y ∈ r :: after, keepRank y = 2 := fun y hy =>
        keepRank_loss (hun y hy) (by simpa only [Bool.not_eq_true', Bool.not_eq_false] using List.find?_eq_none.1 hplain y hy)
      exact ⟨[], after, rfl, by simp, fun y hy => by rw [hloss r (by simp), hloss y (by simp [hy])]⟩

theorem logVictim_mem (h : logVictim l = some r) : r ∈ l := by
  obtain ⟨before, after, rfl, -, -⟩ := logVictim_least h
  simp

theorem logVictim_le (h : logVictim l = some r) (hy : y ∈ l) : keepRank r ≤ keepRank y := by
  obtain ⟨before, after, rfl, hbefore, hafter⟩ := logVictim_least h
  rcases List.mem_append.1 hy with hy | hy
  · exact (hbefore y hy).le
  · rcases List.mem_cons.1 hy with rfl | hy
    · exact le_rfl
    · exact hafter y hy

/-- Records before the first copy of the one overwritten rank above it. -/
theorem logVictim_lt (h : logVictim (before ++ r :: after) = some r) (hr : r ∉ before) (hy : y ∈ before) :
    keepRank r < keepRank y := by
  obtain ⟨pre, post, hl, hpre, -⟩ := logVictim_least h
  refine hpre y ?_
  rcases List.append_eq_append_iff.1 hl with ⟨m, rfl, -⟩ | ⟨m, rfl, hm⟩
  · exact List.mem_append_left m hy
  · cases m with
    | nil => simpa using hy
    | cons z m =>
      obtain ⟨rfl, -⟩ := List.cons.inj hm
      exact absurd (by simp) hr

theorem logVictim_none (h : logVictim l = none) : l = [] := by
  cases hacked : l.find? (·.acked) with
  | some x => exact absurd (h.symm.trans (logVictim_acked hacked)) (by simp)
  | none =>
    cases hplain : l.find? (fun r => !(r.kind == 1 || r.kind == 2)) with
    | some x => exact absurd (h.symm.trans (logVictim_plain hacked hplain)) (by simp)
    | none => exact List.head?_eq_none_iff.1 ((logVictim_loss hacked hplain).symm.trans h)

/-! ### The records that are kept -/

theorem logRoom_fits (h : logBytes l + len ≤ logCapacity) : logRoom len n l = l := by
  cases n with
  | zero => rfl
  | succ n => exact if_pos h

/-- Where the record does not fit, one record is overwritten and the rest makes room. -/
theorem logRoom_full (h : ¬logBytes l + len ≤ logCapacity) (hr : logVictim l = some r) :
    logRoom len (n + 1) l = logRoom len n (l.erase r) := by
  have hsum : ¬(l.map fun r => r.bytes.length).sum + len ≤ logCapacity := h
  rw [logRoom, if_neg hsum, hr]

/-- A full log of no records is left as it is. -/
theorem logRoom_none (hr : logVictim l = none) : logRoom len n l = l := by
  cases n with
  | zero => rfl
  | succ n => rw [logRoom, hr]; exact ite_self _

/-- What the full log does, one overwritten record after another: a property of the log and of what is kept holds if it
holds where nothing is overwritten, and of a log once it holds of the log without the record overwritten. -/
theorem logRoom_induction {P : List FaultRec → List FaultRec → Prop} (hkeep : ∀ l, P l l)
    (hdrop : ∀ l r kept, logVictim l = some r → List.Sublist kept (l.erase r) → P (l.erase r) kept → P l kept) (len n : Nat)
    (l : List FaultRec) : P l (logRoom len n l) ∧ List.Sublist (logRoom len n l) l := by
  induction n generalizing l with
  | zero => exact ⟨hkeep l, List.Sublist.refl l⟩
  | succ n ih =>
    by_cases hfit : logBytes l + len ≤ logCapacity
    · rw [logRoom_fits hfit]
      exact ⟨hkeep l, List.Sublist.refl l⟩
    · cases hr : logVictim l with
      | none =>
        rw [logRoom_none hr]
        exact ⟨hkeep l, List.Sublist.refl l⟩
      | some r =>
        rw [logRoom_full hfit hr]
        obtain ⟨hp, hsub⟩ := ih (l.erase r)
        exact ⟨hdrop l r _ hr hsub hp, hsub.trans List.erase_sublist⟩

theorem logRoom_sublist (len n : Nat) (l : List FaultRec) : List.Sublist (logRoom len n l) l :=
  (logRoom_induction (P := fun _ _ => True) (fun _ => trivial) (fun _ _ _ _ _ _ => trivial) len n l).2

/-- A record that is not kept ranks at or below every kept one. -/
theorem logRoom_le (hx : x ∈ l) (hk : x ∉ logRoom len n l) (hy : y ∈ logRoom len n l) : keepRank x ≤ keepRank y := by
  refine (logRoom_induction (P := fun l kept => x ∈ l → x ∉ kept → ∀ y ∈ kept, keepRank x ≤ keepRank y)
    (fun l hx hk => absurd hx hk) (fun l r kept hr hsub ih hx hk y hy => ?_) len n l).1 hx hk y hy
  by_cases hxr : x = r
  · subst hxr
    exact logVictim_le hr (List.mem_of_mem_erase (hsub.subset hy))
  · exact ih ((List.mem_erase_of_ne hxr).2 hx) hk y hy

/-- A record that is not kept ranks below every kept one all copies of which stand before it. -/
theorem logRoom_lt (hl : l = before ++ x :: after) (hk : x ∉ logRoom len n l) (hyb : y ∈ before) (hyx : y ∉ x :: after)
    (hy : y ∈ logRoom len n l) : keepRank x < keepRank y := by
  refine (logRoom_induction (P := fun l kept => ∀ before after, l = before ++ x :: after → x ∉ kept →
    y ∈ before → y ∉ x :: after → y ∈ kept → keepRank x < keepRank y) ?_ ?_ len n l).1 before after hl hk hyb hyx hy
  case refine_1 =>
    rintro _ before after rfl hk
    exact absurd (by simp) hk
  case refine_2 =>
    rintro _ r kept hr hsub ih before after rfl hk hyb hyx hy
    by_cases hrb : r ∈ before
    · rw [List.erase_append_left _ hrb] at ih hsub
      have hyb' : y ∈ before.erase r := by
        rcases List.mem_append.1 (hsub.subset hy) with h | h
        · exact h
        · exact absurd h hyx
      exact ih _ after rfl hk hyb' hyx hy
    · by_cases hxr : x = r
      · subst hxr
        exact logVictim_lt hr hrb hyb
      · rw [List.erase_append_right _ hrb, List.erase_cons_tail (by simpa using hxr)] at ih
        refine ih before (after.erase r) rfl hk hyb (fun h => hyx ?_) hy
        rcases List.mem_cons.1 h with rfl | h
        · exact List.mem_cons_self
        · exact List.mem_cons_of_mem x (List.mem_of_mem_erase h)

/-- With as many records to overwrite as it has, the log makes room for a record that fits in it alone. -/
theorem logRoom_makesRoom (hlen : len ≤ logCapacity) (hn : l.length ≤ n) :
    logBytes (logRoom len n l) + len ≤ logCapacity := by
  induction n generalizing l with
  | zero =>
    have hl : l = [] := List.length_eq_zero_iff.1 (Nat.le_zero.1 hn)
    subst hl
    exact (Nat.zero_add len).symm ▸ hlen
  | succ n ih =>
    by_cases hfit : logBytes l + len ≤ logCapacity
    · rwa [logRoom_fits hfit]
    · cases hr : logVictim l with
      | none =>
        rw [logVictim_none hr] at hfit
        exact absurd ((Nat.zero_add len).symm ▸ hlen) hfit
      | some r =>
        rw [logRoom_full hfit hr]
        refine ih ?_
        have hlt := List.length_erase_of_mem (logVictim_mem hr)
        omega

end

/-- Settles O60: what `logRoom` keeps is a sublist that fits, by the rank of each record it overwrites. -/
theorem fullLogOverwrites : Obligations.FullLogOverwrites := fun s r =>
  ⟨logRoom (sealRecord r s.faultSeq).bytes.length s.faultLog.length s.faultLog, rfl, logRoom_sublist _ _ _, logRoom_fits,
    fun hlen => logRoom_makesRoom hlen le_rfl,
    fun _ _ _ hl hk => ⟨fun _ hyb hyx hy => logRoom_lt hl hk hyb hyx hy,
      fun _ _ hy => logRoom_le (by simp [hl]) hk hy⟩⟩

end Sys2Proof.Machine

/-! PROOF. The input monitor, the end of a quench and the LED lines (R453, R461, R467). -/

namespace Sys2Proof.Machine

section
variable {s : State} {mv line t : Nat}

/-! ### Input above 60 V -/

theorem inputHigh_above (hs : s.tray.hs ≠ .unpowered) (hlo : 60000 < mv) (hhi : mv ≤ 64000) {u : State}
    (hu : u = { s with tray := { s.tray with vin := mv, highFrom := some (s.tray.highFrom.getD s.clock) } }) :
    inputHigh mv s = if s.tray.rails then postEject u 7 2 eInputVoltage else u := by
  subst hu
  exact if_neg (by simp [hs, hlo, hhi])

theorem inputHigh_below (h : mv ≤ 60000) : inputHigh mv s = s := if_pos (by simp [h])

theorem execInputHighTimeout_due (hf : s.tray.highFrom = some t) (hr : s.tray.rails = true) (hs : seated s = true)
    (ht : t + usCycles 1000000 ≤ s.clock) : execInputHighTimeout s = .next (inputQuench s) := by
  simp only [execInputHighTimeout, hf]
  exact if_pos (by simp [hr, hs, ht])

theorem execInputHighTimeout_early (hf : s.tray.highFrom = some t) (ht : s.clock < t + usCycles 1000000) :
    execInputHighTimeout s = .next s := by
  simp only [execInputHighTimeout, hf]
  exact if_neg (by simp [ht])

/-! ### Input above 64 V or below 38 V, and its return -/

theorem execInputFault_outside (hr : s.tray.rails = true) (hs : seated s = true) (h : 64000 < mv ∨ mv < 38000) :
    execInputFault mv s = .next (inputQuench { s with tray := { s.tray with vin := mv } }) := by
  rcases h with h | h
  · exact if_pos (by simp [hr, hs, h])
  · exact if_pos (by simp [hr, hs, h])

theorem execInputFault_within (hlo : 38000 ≤ mv) (hhi : mv ≤ 64000) : execInputFault mv s = .next s :=
  if_neg (by simp [hlo.not_gt, hhi.not_gt])

theorem execInputReturn_within (hd : s.tray.inputFaultDue = true) (hs : s.tray.hs = .standby) (hlo : 40000 ≤ mv)
    (hhi : mv ≤ 60000) : execInputReturn mv s = .next (coldReset { s with tray := { s.tray with vin := mv } }) :=
  if_pos (by simp [hd, hs, hlo, hhi])

/-! ### The end of a quench -/

/-- STANDBY, with the records of the quench committed (R464). -/
def quenchEnd (s : State) : State :=
  let s := s.tray.drafts.foldl (fun s r =>
    let s := if r.kind = 1 then { s with tray := { s.tray with lastUnclean := some s.faultSeq } } else s
    commitRecord s r) s
  setHs { s with tray := { s.tray with drafts := [] } } .standby

theorem quenchDone_quenching (hs : s.tray.hs = .quenching) (input : Bool) :
    quenchDone input s = if input then quenchEnd s else standbyLost (quenchEnd s) := if_neg (not_not_intro hs)

/-! ### LED lines -/

theorem ledLine_fails (hs : s.tray.hs ≠ .unpowered) (hl : line < 2) (hd : s.tray.drivers.getD line none = none) :
    ledLine line s = emit (postEject
      { s with tray := { s.tray with drivers := s.tray.drivers.set line (some s.clock) } } 8 4 eLedLine) (.pin line 0) :=
  if_neg (by rw [hd]; simp [hs, Nat.le_of_lt_succ hl])

theorem ledRetry_off (hd : s.tray.drivers.getD line none = some t) : ledRetry line s =
    if t + usCycles 1000000 ≤ s.clock then
      emit { s with tray := { s.tray with drivers := s.tray.drivers.set line none } } (.pin line 1)
    else s := by
  simp only [ledRetry, hd]

end

/-- Settles O46: each event by the equation of its case. -/
theorem inputMonitorAndLeds : Obligations.InputMonitorAndLeds := by
  intro s mv line t input
  exact ⟨fun hs hlo hhi u hu => congrArg Host.Outcome.next (inputHigh_above hs hlo hhi hu),
    fun h => congrArg Host.Outcome.next (inputHigh_below h),
    execInputHighTimeout_due, execInputHighTimeout_early, execInputFault_outside, execInputFault_within,
    execInputReturn_within,
    fun hs => ⟨quenchEnd s, congrArg Host.Outcome.next (quenchDone_quenching hs input), rfl, rfl⟩,
    fun hs => congrArg Host.Outcome.next (if_pos hs),
    fun hs hl hd => congrArg Host.Outcome.next (ledLine_fails hs hl hd),
    fun hd ht => congrArg Host.Outcome.next ((ledRetry_off hd).trans (if_pos ht)),
    fun hd ht => congrArg Host.Outcome.next ((ledRetry_off hd).trans (if_neg ht.not_ge))⟩

end Sys2Proof.Machine

/-! PROOF. The tray's hot-swap states (R458, R459, R461-R464). -/

namespace Sys2Proof.Machine

section
variable {s : State} {c : Cmd} {cold closed : Bool}

/-! ### The lever -/

/-- The tray once EJECT_REQ is recognised closed or open (R461). -/
def leverMoved (s : State) (closed : Bool) : State :=
  { s with tray := { s.tray with
    eject := closed, openFrom := if closed then s.tray.openFrom else s.clock, wasClosed := s.tray.wasClosed || closed } }

theorem ejectReq_inService (hs : s.tray.hs = .inService) : ejectReq true s = startTrayDrain (leverMoved s true) 0 := by
  rw [ejectReq, if_neg (by simp [hs])]
  simp only [hs]
  rfl

theorem ejectReq_draining (hs : s.tray.hs = .draining) : ejectReq closed s =
    if closed then postEject (leverMoved s true) 1 0 0 (presentDeadline (leverMoved s true))
    else postEject (leverMoved s false) 4 0 0 := by
  rw [ejectReq, if_neg (by simp [hs])]
  cases closed with
  | true => simp only [hs]; rfl
  | false => simp only [hs]; rfl

theorem leverOpen_due (hs : s.tray.hs = .drained) (hc : s.tray.wasClosed = true) (he : s.tray.eject = false)
    (ht : s.tray.openFrom + usCycles 2000000 ≤ s.clock) : leverOpen cold s = beginStart s cold :=
  if_pos (by simp [hs, hc, he, ht])

theorem leverOpen_notDue
    (h : s.tray.wasClosed = false ∨ s.tray.eject = true ∨ s.clock < s.tray.openFrom + usCycles 2000000) :
    leverOpen cold s = s := by
  refine if_neg ?_
  rcases h with hc | he | ht
  · simp [hc]
  · simp [he]
  · simp [ht]

/-! ### Seating and removal -/

theorem prsntMade_standby (hs : s.tray.hs = .standby) (hu : s.tray.lastUnclean = none) (hb : s.tray.booted = true)
    (he : s.tray.eject = false) (hi : s.tray.inputFaultDue = false) :
    prsntMade cold s = beginStart { s with tray := { s.tray with present := true } } cold := by
  simp [prsntMade, hs, hu, hb, he, hi]

theorem prsntBreak_seated (hs : seated s = true) :
    prsntBreak s = startQuench { s with tray := { s.tray with present := false } } 1 eTrayUnclean := if_pos hs

theorem seated_iff : seated s = true ↔ s.tray.hs = .starting ∨ s.tray.hs = .inService ∨ s.tray.hs = .draining := by
  simp [seated]

theorem execPrsntEarlyBreak_powered (hs : s.tray.hs ≠ .unpowered) : execPrsntEarlyBreak s = .next (prsntBreak s) :=
  congrArg Host.Outcome.next (if_neg hs)

theorem prsntBreak_quenching (hs : s.tray.hs = .quenching) : prsntBreak s =
    { s with tray := { s.tray with present := false, inputFaultDue := false, drafts := s.tray.drafts.map orderLost } } := by
  have hno : ¬seated { s with tray := { s.tray with present := false } } = true := by simp [seated_iff, hs]
  exact (if_neg hno).trans (if_pos hs)

/-! ### Commands -/

theorem trayCfg_within (hlo : 1 ≤ arg c 0x10 2) (hhi : arg c 0x10 2 ≤ 600) : trayCfg s c =
    finish { s with tray := { s.tray with timeout := arg c 0x10 2, locate := bit (arg c 0x12 1) 0 } } c 0 :=
  if_neg (by simp [Nat.ne_of_gt hlo, hhi])

theorem trayCfg_outside (h : arg c 0x10 2 < 1 ∨ 600 < arg c 0x10 2) : trayCfg s c = finish s c eCmdReserved := by
  refine if_pos ?_
  rcases h with h | h
  · simp [h]
  · simp [h]

theorem trayResume_draining (hs : s.tray.hs = .draining) : trayResume s c =
    finish (postEject (setSys (setHs s .inService) (if fenceState (setHs s .inService) = 2 then 5 else 3)) 5 3 0) c 0 :=
  if_neg (not_not_intro hs)

/-! ### The end of a drain -/

theorem trayTimeout_due (hs : s.tray.hs = .draining) (ht : s.tray.drainBy ≤ s.clock) : trayTimeout s =
    shutDown ((allLive (writeRecord (postEject s 2 s.tray.drainSrc eDrainTimeout) 8 eDrainTimeout 0)).foldl endFunction
      (writeRecord (postEject s 2 s.tray.drainSrc eDrainTimeout) 8 eDrainTimeout 0)) :=
  if_neg (by simp [hs, ht])

theorem trayTimeout_early (ht : s.clock < s.tray.drainBy) : trayTimeout s = s := if_pos (by simp [ht])

end

/-- Settles O45: each event and each ready command by the equation of its case. -/
theorem trayHotSwap : Obligations.TrayHotSwap := by
  rintro s src c cold _ rfl
  refine ⟨fun hs => ⟨leverMoved s true, congrArg Host.Outcome.next (ejectReq_inService hs), rfl, Bool.or_true _⟩,
    fun hs => ⟨leverMoved s true, congrArg Host.Outcome.next (ejectReq_draining hs), rfl, hs⟩,
    fun hs => ⟨leverMoved s false, congrArg Host.Outcome.next (ejectReq_draining hs), rfl, hs⟩,
    fun hs hc he ht => congrArg Host.Outcome.next (leverOpen_due hs hc he ht),
    fun h => congrArg Host.Outcome.next (leverOpen_notDue h),
    fun hs hu hb he hi => congrArg Host.Outcome.next (prsntMade_standby hs hu hb he hi),
    fun hs => ?removal, fun hs => ?removalInQuench,
    fun hc hlo hhi => next_of_ready hc (trayCfg_within hlo hhi),
    fun hc h => next_of_ready hc (trayCfg_outside h),
    fun hc hs => next_of_ready hc (congrArg (finish · c 0) (if_pos hs)),
    fun hc hs => next_of_ready hc (congrArg (finish · c 0) (if_neg hs)),
    fun hc hs => next_of_ready hc (trayResume_draining hs),
    fun hs hd => congrArg Host.Outcome.next (if_pos (by simp [hs, hd])),
    fun hd => congrArg Host.Outcome.next (if_neg (by simp [hd])),
    fun hs ht => congrArg Host.Outcome.next (trayTimeout_due hs ht),
    fun ht => congrArg Host.Outcome.next (trayTimeout_early ht)⟩
  case removal =>
    have hon : s.tray.hs ≠ .unpowered := by rcases hs with hs | hs | hs <;> simp [hs]
    exact (execPrsntEarlyBreak_powered hon).trans (congrArg Host.Outcome.next (prsntBreak_seated (seated_iff.2 hs)))
  case removalInQuench =>
    exact (execPrsntEarlyBreak_powered (by simp [hs])).trans (congrArg Host.Outcome.next (prsntBreak_quenching hs))

end Sys2Proof.Machine

/-! PROOF. Group power pools (R400-R402). -/

namespace Sys2Proof.Machine

section
variable {s : State} {c : Cmd} {b t w p i n k : Nat}

/-! ### Joining a pool -/

/-- A member of a pool that starts at a boundary, before its share is set (R401). -/
def poolJoined (s : State) (p i n k : Nat) : State :=
  let s := wr s K.pwrPool (p % 2 ^ 16 + 2 ^ 16 * i + 2 ^ 24 * (n - 1))
  let s := wr s K.pwrShare (2 ^ 16 * k)
  let s := setBit (setBit s K.pwrState 4 true) K.pwrState 5 false
  { s with power := { s.power with
    poolTotal := p, poolFirst := true, poolRecs := [], poolMissed := 0, poolRise := none, poolBoundary := some (poolPeriod s)
    poolDone := true, waited := 0, waitFrom := s.power.waitFrom.map fun _ => s.clock } }

/-- A pool's members and total that PWR_POOL accepts (R401, log entry 75). -/
def PoolLegal (s : State) (p i n k : Nat) : Prop := 2 ≤ n ∧ n ≤ 64 ∧ i < n ∧ 250 * n ≤ p ∧ tOwner s k = 0

section
variable (hp : p = arg c 0x10 4) (hi : i = arg c 0x14 1) (hn : n = arg c 0x15 1) (hk : k = arg c 0x16 1) (h0 : p ≠ 0)
include hp hi hn hk h0

theorem pwrPool_legal (h : PoolLegal s p i n k) :
    pwrPool s c = finish (setShare (poolJoined s p i n k) (poolInitial p n i)) c 0 := by
  subst hp hi hn hk
  obtain ⟨hlo, hhi, hlt, htot, hown⟩ := h
  rw [pwrPool, if_neg h0, if_neg (by simp [Nat.lt_of_succ_le hlo, hhi, hlt, htot, hown])]
  rfl

theorem pwrPool_illegal (h : n < 2 ∨ 64 < n ∨ n ≤ i ∨ p < 250 * n ∨ tOwner s k ≠ 0) :
    pwrPool s c = finish s c ePwrRange := by
  subst hp hi hn hk
  rw [pwrPool, if_neg h0, if_pos (by simpa [or_assoc] using h)]

end

/-! ### Rounds -/

/-- A member at a boundary: PWR_CPI shows the share of waiting, and the records of the new round are awaited (R400). -/
def poolBegun (s : State) : State :=
  let s := wr s K.pwrCpi (waitShare s)
  { s with power := { s.power with
    waited := 0, waitFrom := s.power.waitFrom.map fun _ => s.clock, poolFirst := false, poolRecs := []
    poolBoundary := some (poolPeriod s), poolDone := false } }

theorem poolRound_boundary (hin : inPool s = true) (hb : s.power.poolBoundary ≠ some (poolPeriod s)) {u : State}
    (hu : u = poolBegun s) : poolRound s =
      addFirmware (broadcast u (poolCounter u) (toLE 2 (if s.power.poolFirst then 0 else waitShare s)
        ++ toLE 2 (rf u K.pwrBounds 9 0) ++ toLE 2 (min (rf u K.pwrCap 9 0) (rf u K.pwrBounds 25 16))
        ++ toLE 2 (rf u K.pwrShare 9 0) ++ toLE 1 (poolIndex u))) (poolCounter u) 1 := by
  subst hu
  rw [poolRound, if_neg (by simp [hin, hb])]
  rfl

theorem waitShare_lt (s : State) : waitShare s < 2 ^ 32 := (Nat.min_le_left _ _).trans_lt (by decide)

theorem poolBegun_cpi (s : State) : rd (poolBegun s) K.pwrCpi = waitShare s := by
  have h := rd_wr s K.pwrCpi (waitShare s) K.pwrCpi
  rwa [if_pos rfl, Nat.mod_eq_of_lt (waitShare_lt s)] at h

theorem execPoolRecordTimeout_missing (hb : s.power.poolBoundary = some b) (hin : inPool s = true)
    (hd : s.power.poolDone = false) (hr : s.power.poolRecs.length < poolMembers s)
    (ht : 10000000 * b + 2000000 ≤ mtimeNs s) : execPoolRecordTimeout s =
      .next { s with power := { s.power with poolDone := true, poolMissed := s.power.poolMissed + 1 } } := by
  simp only [execPoolRecordTimeout, hb]
  exact if_pos (by simp [hin, hd, hr, ht])

theorem execPoolStale_third (hin : inPool s = true) (h3 : 3 ≤ s.power.poolMissed)
    (hb : bit (rd s K.pwrState) 5 = false) : execPoolStale s =
      .next (postThermal (setBit s K.pwrState 5 true) 13 15 ePoolStale (rf s K.pwrShare 9 0)) :=
  if_pos (by simp [hin, h3, hb])

theorem execPoolStale_early (h : s.power.poolMissed < 3) : execPoolStale s = .next s := if_neg (by simp [h])

theorem execPoolShareRise_rising (h : s.power.poolRise = some (w, t)) : execPoolShareRise s =
    if s.clock < t then .next s else .next (setShare { s with power := { s.power with poolRise := none } } w) := by
  simp only [execPoolShareRise, h]

end

/-- Settles O39: PWR_POOL by whether its operands are legal, a round by what it begins with, and each event by its case. -/
theorem powerPools : Obligations.PowerPools := by
  intro s src b t w c s0 p i n k
  refine ⟨fun hc hs0 hp hi hn hk h0 => ?pool,
    fun hin hb => ⟨poolBegun s, congrArg Host.Outcome.next (poolRound_boundary hin hb rfl), poolBegun_cpi s, rfl, rfl, rfl, rfl⟩,
    execPoolRecordTimeout_missing, execPoolStale_third, execPoolStale_early,
    fun h ht => (execPoolShareRise_rising h).trans (if_neg ht.not_gt),
    fun h ht => (execPoolShareRise_rising h).trans (if_pos ht)⟩
  case pool =>
    subst hs0
    exact ⟨fun hlo hhi hlt htot hown => ⟨_, next_of_ready hc (pwrPool_legal hp hi hn hk h0 ⟨hlo, hhi, hlt, htot, hown⟩),
      rfl, rfl, rfl⟩, fun h => next_of_ready hc (pwrPool_illegal hp hi hn hk h0 h)⟩

end Sys2Proof.Machine

/-! PROOF. Tally adds, fires and stalls (R432-R434, R436). -/

namespace Sys2Proof.Machine

section
variable {s : State} {c : Nat}

theorem execTallyAdd_reaches {a : Access} {pl : Place} {v : Nat} (hr : Reaches s a pl) (hp : pl.page = pgTally)
    (ho : pl.off = 0x6C) : execTallyAdd a v s =
      .next (addTally s (rd s (K.tallySelOf a.func) % 256) a.func (fld v 15 0) 0x6C) := by
  rw [execTallyAdd, atPlace_reaches hr, if_pos (by simp [hp, ho])]

/-! ### Fires -/

theorem execTallyFire_may (hc : c < 256) (hs : serving s = true) (h : mayFire s c = true) :
    execTallyFire c s = .next (fireTally s c) :=
  congrArg Host.Outcome.next (if_pos (by simp [hc, hs, h]))

theorem execTallyFire_mayNot (h : mayFire s c = false) : execTallyFire c s = .next s :=
  congrArg Host.Outcome.next (if_neg (by simp [h]))

theorem mayFire_local (hm : tMode s c = 1) :
    mayFire s c = decide (rd s (K.tallyTarget c) ≤ rd s (K.tallyCount c)) := if_pos hm

theorem mayFire_tree (hm : tMode s c = 2) :
    mayFire s c = if tRoot s c then treeReady s c else s.tallyDown.contains c := by
  rw [mayFire, if_neg (by simp [hm]), if_pos hm]

/-! ### Stalls -/

theorem tallyStall_due (hm : tMode s c = 2) (hms : rf s K.tallyStallMs 15 0 ≠ 0) (h0 : (sinceOf s c).1 ≠ 0)
    (ht : (sinceOf s c).2 = false) (hd : (sinceOf s c).1 + usCycles (1000 * rf s K.tallyStallMs 15 0) ≤ s.clock) :
    tallyStall c s = postFence (raiseIrq (setSince s c ((sinceOf s c).1, true)) pgTally 16) 9 c eTallyStall :=
  if_neg (by simp [hm, hms, h0, ht, hd])

theorem tallyStall_off (hms : rf s K.tallyStallMs 15 0 = 0) : tallyStall c s = s := if_pos (by simp [hms])

end

/-- Settles O37: an add by where it reaches, a fire by the counter's mode, a stall by what it has waited. -/
theorem tallyFires : Obligations.TallyFires := fun _ _ _ _ _ =>
  ⟨execTallyAdd_reaches, execTallyFire_may, execTallyFire_mayNot, mayFire_local,
    fun hm hroot => (mayFire_tree hm).trans (if_neg (by simp [hroot])),
    fun hm hms h0 ht hd => congrArg Host.Outcome.next (tallyStall_due hm hms h0 ht hd),
    fun hms => congrArg Host.Outcome.next (tallyStall_off hms)⟩

end Sys2Proof.Machine

/-! PROOF. Inbound tally messages, SNAPSHOT and GLOBAL_RESET (R418, R434, R435, R437). -/

namespace Sys2Proof.Machine

section
variable {s : State} {p rid off kind : Nat} {b : Bytes} (f : State → Nat → State)

/-! ### What an inbound message meets -/

/-- A message reaches the tally window of a serving module over a link that is up (R435). -/
def TallyArrives (s : State) (p off : Nat) : Prop :=
  portUp s p = true ∧ serving s = true ∧ 0xC00 ≤ off ∧ off < 0x1000

/-- A message that arrived meets the fence filter, then its form, and then acts if it is of the kind. -/
theorem tallyIn_arrives (h : TallyArrives s p off) : tallyIn s p rid off b kind f =
    if fenceRefuses s p rid then fenceDrop s p rid
    else if b.length ≠ 64 || off % 64 ≠ 0 || !msgOk s b then tallyBad s 0 off
    else if num b 0 1 ≠ kind then s
    else f (countRx s p 64) (num b 1 1) := by
  obtain ⟨hup, hs, hlo, hhi⟩ := h
  exact if_neg (by simp [hup, hs, hlo, hhi])

theorem tallyIn_fenced (h : TallyArrives s p off) (hf : fenceRefuses s p rid = true) :
    tallyIn s p rid off b kind f = fenceDrop s p rid := (tallyIn_arrives f h).trans (if_pos hf)

theorem tallyIn_malformed (h : TallyArrives s p off) (hf : fenceRefuses s p rid = false)
    (hb : b.length ≠ 64 ∨ off % 64 ≠ 0 ∨ msgOk s b = false) : tallyIn s p rid off b kind f = tallyBad s 0 off := by
  rw [tallyIn_arrives f h, if_neg (by simp [hf]), if_pos (by simpa [or_assoc] using hb)]

/-- A well-formed message is counted and acts as its kind does. -/
theorem tallyIn_accepted (h : TallyArrives s p off) (hf : fenceRefuses s p rid = false) (hl : b.length = 64)
    (ho : off % 64 = 0) (hm : msgOk s b = true) (hk : num b 0 1 = kind) :
    tallyIn s p rid off b kind f = f (countRx s p 64) (num b 1 1) := by
  rw [tallyIn_arrives f h, if_neg (by simp [hf]), if_neg (by simp [hl, ho, hm]), if_neg (not_not_intro hk)]

end

/-- The four messages all pass through `tallyIn`, each with what its kind does. -/
theorem exec_tallyMessage {i : Instr} {p rid off : Nat} {b : Bytes}
    (hi : i = .up p rid off b ∨ i = .down p rid off b ∨ i = .data p rid off b ∨ i = .mirrorAck p rid off b) :
    ∃ (kind : Nat) (f : State → Nat → State), ∀ s, exec i s = .next (tallyIn s p rid off b kind f) := by
  rcases hi with rfl | rfl | rfl | rfl
  · exact ⟨_, _, fun _ => rfl⟩
  · exact ⟨_, _, fun _ => rfl⟩
  · exact ⟨_, _, fun _ => rfl⟩
  · exact ⟨_, _, fun _ => rfl⟩

/-! ### SNAPSHOT -/

section
variable {s : State} {c : Cmd}

theorem snapshot_waits (hstep : rd64 s K.srvStepLo ≤ arg c 0x20 8) (hf : arg c 0x11 1 ≤ 8) (hw : arg c 0x12 1 < 32) :
    snapshot s c = { s with tallyWaits := s.tallyWaits ++ [
      { kind := 0, ctr := arg c 0x10 1, cmd := c.id, step := arg c 0x20 8, func := arg c 0x11 1, wain := arg c 0x12 1
        dest := arg c 0x18 8 }] } :=
  if_neg (by simp [hstep, hf, hw])

theorem snapshot_passed (hstep : arg c 0x20 8 < rd64 s K.srvStepLo) : snapshot s c = finish s c ePartParam :=
  if_pos (by simp [hstep])

end

/-- Settles O38: a message by what it meets in `tallyIn` and what its kind does, the commands by their cases. -/
theorem tallyMessages : Obligations.TallyMessages := by
  constructor
  case left =>
    intro s p rid off b hup hs hlo hhi
    have h : TallyArrives s p off := ⟨hup, hs, hlo, hhi⟩
    refine ⟨fun hf i hi => ?fenced, fun hf hb i hi => ?malformed, fun hf hl ho hm s0 hs0 => ?accepted⟩
    case fenced =>
      obtain ⟨kind, f, hexec⟩ := exec_tallyMessage hi
      exact (hexec s).trans (congrArg Host.Outcome.next (tallyIn_fenced f h hf))
    case malformed =>
      obtain ⟨kind, f, hexec⟩ := exec_tallyMessage hi
      exact (hexec s).trans (congrArg Host.Outcome.next (tallyIn_malformed f h hf hb))
    case accepted =>
      subst hs0
      have hin : ∀ {kind : Nat} (f : State → Nat → State), num b 0 1 = kind →
          tallyIn s p rid off b kind f = f (countRx s p 64) (num b 1 1) := fun f hk => tallyIn_accepted f h hf hl ho hm hk
      refine ⟨fun hk hc => congrArg Host.Outcome.next ((hin _ hk).trans ?_),
        fun hk hroot hd => congrArg Host.Outcome.next ((hin _ hk).trans ?_),
        fun hk hd => congrArg Host.Outcome.next ((hin _ hk).trans ?_),
        fun hk hd hroot => congrArg Host.Outcome.next ((hin _ hk).trans ?_),
        fun hk => congrArg Host.Outcome.next (hin _ hk)⟩
      · exact if_neg hc.not_ge
      · exact if_neg (by rw [hroot, hd]; decide)
      · exact if_pos (by simpa using hd)
      · exact if_neg (by rw [hroot, hd]; decide)
  case right =>
    rintro s src c _ rfl
    exact ⟨fun hc hstep hf hw => next_of_ready hc (snapshot_waits hstep hf hw),
      fun hc hstep => next_of_ready hc (snapshot_passed hstep), fun hc => next_of_ready hc rfl⟩

end Sys2Proof.Machine

/-! PROOF. Shadows join and follow the mirror ring (R425, R426, R429, R435). -/

namespace Sys2Proof.Machine

section
variable {s : State} {src : Nat} {c : Cmd}

/-! ### SHADOW_ELDER, SHADOW_JOIN and SHADOW_END -/

theorem shadowOk_peerBad (s : State) (f : Nat) (elder : Bool) : shadowOk s f false elder = false := by
  simp [shadowOk]

theorem execShadowElder_accepted {serial : Nat} (hc : Ready s src 0xB3 c)
    (hok : shadowOk (markStarted s c) (arg c 0x10 1) true true = true) : execShadowElder src (some serial) s =
      .next (finish (beginShadow (markStarted s c) 1
        { func := arg c 0x10 1, host := arg c 0x18 8, ring := arg c 0x20 8, serial := serial }) c 0) :=
  next_of_ready hc (if_neg (by simp [hok]))

theorem execShadowElder_peerBad (hc : Ready s src 0xB3 c) :
    execShadowElder src none s = .next (finish (markStarted s c) c eShadowParam) :=
  next_of_ready hc (if_pos (by simp [shadowOk_peerBad]))

theorem execShadowJoin_accepted (hc : Ready s src 0xB4 c)
    (hok : shadowOk (markStarted s c) (arg c 0x10 1) true false = true)
    (ha : allocatable (arg c 0x20 8) mirrorSize = true) (h64 : arg c 0x20 8 % 64 = 0) : execShadowJoin src true s =
      .next (finish (beginShadow (markStarted s c) 2
        { func := arg c 0x10 1, elderFunc := arg c 0x11 1, serial := arg c 0x18 8, ring := arg c 0x20 8
          heard := (markStarted s c).clock }) c 0) :=
  next_of_ready hc (if_neg (by simp [hok, ha, h64]))

theorem execShadowJoin_peerBad (hc : Ready s src 0xB4 c) :
    execShadowJoin src false s = .next (finish (markStarted s c) c eShadowParam) :=
  next_of_ready hc (if_pos (by simp [shadowOk_peerBad]))

theorem execShadowEnd_accepted (hc : Ready s src 0xB5 c) (hst : [1, 2, 3].contains (shadowSt (markStarted s c)) = true)
    (hf : (markStarted s c).shadow.func = arg c 0x10 1) (he : (markStarted s c).shadow.endCmd = none) :
    execShadowEnd src s = .next { markStarted s c with
      shadow := { (markStarted s c).shadow with ending := true, endCmd := some c.id } } :=
  next_of_ready hc (if_neg (by rw [hst, hf, he]; simp))

/-! ### The mirror ring -/

/-- The header of the next record of the ring is one that a following shadow applies (R426). -/
def RecordFits (s : State) (h : Bytes) : Prop :=
  1 ≤ num h 0 1 ∧ num h 0 1 ≤ 4 ∧ s.shadow.lastRec ≤ num h 0x10 8 ∧ num h 4 4 + 32 ≤ mirrorSize

theorem shadowApply_fits {h : Bytes} (hh : h = ringRead s (s.shadow.consumed % mirrorSize) 32)
    (hst : shadowSt s = 2 ∨ shadowSt s = 3) (hj : s.joinWait = false) (hfits : RecordFits s h) :
    shadowApply s = applyRecord { s with shadow := { s.shadow with
        consumed := s.shadow.consumed + 64 * cdiv (32 + num h 4 4) 64, lastRec := num h 0x10 8, heard := s.clock } }
      (num h 0 1) (num h 8 8) (ringRead s (s.shadow.consumed % mirrorSize + 32) (num h 4 4)) := by
  subst hh
  obtain ⟨hlo, hhi, hlast, hlen⟩ := hfits
  have hfollows : (shadowSt s = 2 || shadowSt s = 3) = true := by simpa using hst
  exact if_neg (by rw [hfollows]; simp [hj, Nat.ne_of_gt hlo, hhi, hlast, hlen])

theorem execMirrorAckTimer_follows (hst : shadowSt s = 2 ∨ shadowSt s = 3) (hf : fenceState s = 0) :
    execMirrorAckTimer s = .next
      (emit s (.peer s.shadow.serial (tallyMsg s 4 0 0 0 (s.shadow.consumed % mirrorSize / 64) []))) :=
  congrArg Host.Outcome.next (if_pos (by simp [hst, hf]))

theorem execShadowLost_due (hst : shadowSt s = 2 ∨ shadowSt s = 3)
    (ht : s.shadow.heard + usCycles 1000000 ≤ s.clock) :
    execShadowLost s = .next (tellElder (Machine.shadowLost s) 8 eShadowLost 0 0 0 0) :=
  congrArg Host.Outcome.next (if_pos (by simp [hst, ht]))

theorem execShadowLost_early (ht : s.clock < s.shadow.heard + usCycles 1000000) : execShadowLost s = .next s :=
  congrArg Host.Outcome.next (if_neg (by simp [ht]))

end

/-- Settles O36: each ready command and each event by the equation of its case. -/
theorem shadowJoining : Obligations.ShadowJoining := by
  constructor
  case left =>
    rintro s src c _ rfl
    exact ⟨fun _ => execShadowElder_accepted, execShadowElder_peerBad, execShadowJoin_accepted, execShadowJoin_peerBad,
      execShadowEnd_accepted⟩
  case right =>
    intro s h
    exact ⟨fun hh hst hj hlo hhi hlast hlen =>
        congrArg Host.Outcome.next (shadowApply_fits hh hst hj ⟨hlo, hhi, hlast, hlen⟩),
      execMirrorAckTimer_follows, execShadowLost_due, execShadowLost_early⟩

end Sys2Proof.Machine

/-! PROOF. Partitions and fence certificates (R417-R419, R421-R423, R439). -/

namespace Sys2Proof.Machine

section
variable {s : State} {c : Cmd} {b : Bytes}

theorem wiringPlan_host (h : arg c 0x12 1 ≤ 1 ∨ arg c 0x12 1 = 0xFF) : wiringPlan s c =
    finish (wiringCheck (let t := wf s K.wiringState 7 0 (arg c 0x10 1 + 64 + 128 * arg c 0x11 1)
      { t with wiring := { t.wiring with plan := arg c 0x12 1 } })) c 0 := by
  refine if_neg ?_
  rcases h with h | h
  · simp [h]
  · simp [h]

/-! ### PART_SETUP -/

/-- The partition of a set-up record is installed, with an empty fence table (R417). -/
def partInstalled (s : State) (b : Bytes) : State :=
  let s := clearFenceTable (setFence s 0 (num b 3 1) (num b 2 1) (num b 0 2) 0 (recordKeys b))
  { s with flash := { s.flash with restartJoin := bit (num b 4 1) 0 }, joinWait := bit (num b 4 1) 0 }

section
variable (ha : allocatable (arg c 0x10 8) 0x350 = true)
include ha

theorem partSetup_poisoned (hp : poisonedIn s (arg c 0x10 8) 0x350 = true) : partSetup s c = finish s c ePoison := by
  rw [partSetup, if_neg (by simp [ha]), if_pos hp]

theorem partSetup_read (hp : poisonedIn s (arg c 0x10 8) 0x350 = false) (hb : b = gread s (arg c 0x10 8) 0x350) :
    partSetup s c =
      if !partRecordOk b then finish s c ePartParam
      else if fenceState s = 1 || (partOf s != 0 && fenceState s = 0) || (fenceState s = 2 && num b 0 2 = partOf s) then
        finish s c ePartState
      else
        let t := postFence (unfence (raiseIrq (partInstalled s b) pgFence 16)) 4 0 0
        finish (if fenceState s = 2 then postFence t 2 0 0 else t) c 0 := by
  rw [hb, partSetup, if_neg (by simp [ha]), if_neg (by simp [hp])]
  rfl

theorem partSetup_badRecord (hp : poisonedIn s (arg c 0x10 8) 0x350 = false)
    (hb : partRecordOk (gread s (arg c 0x10 8) 0x350) = false) : partSetup s c = finish s c ePartParam :=
  (partSetup_read ha hp rfl).trans (if_pos (by simp [hb]))

theorem partSetup_installs (hp : poisonedIn s (arg c 0x10 8) 0x350 = false) (hb : b = gread s (arg c 0x10 8) 0x350)
    (hok : partRecordOk b = true) (hf : fenceState s = 0) (hpart : partOf s = 0) :
    partSetup s c = finish (postFence (unfence (raiseIrq (partInstalled s b) pgFence 16)) 4 0 0) c 0 := by
  rw [partSetup_read ha hp hb, if_neg (by simp [hok]), if_neg (by simp [hf, hpart])]
  exact congrArg (finish · c 0) (if_neg (by simp [hf]))

end

/-! ### PART_LEAVE -/

/-- The module in no partition (R419). -/
def partErased (s : State) : State :=
  let s := resetTallies (clearFenceTable (setFence s 0 0 0 0 0 []))
  { s with flash := { s.flash with restartJoin := false }, joinWait := false }

theorem partLeave_free (hf : fenceState s = 0) (ht : (List.range 256).any (fun t => tMode s t == 2) = false)
    (hs : [1, 2, 3].contains (shadowSt s) = false) :
    partLeave s c = finish (postFence (unfence (raiseIrq (partErased s) pgFence 16)) 5 0 0) c 0 := by
  rw [partLeave, if_neg (by rw [hf, ht, hs]; decide)]
  exact congrArg (finish · c 0) (if_neg (by rw [hf]; decide))

theorem partLeave_fencing (hf : fenceState s = 1) : partLeave s c = finish s c ePartState := if_pos (by simp [hf])

/-! ### Certificates -/

theorem fenceCert_read {n : Nat} (ha : allocatable (arg c 0x10 8) 0x40 = true)
    (hn : n = 0x40 + 112 * min 8 (num (gread s (arg c 0x10 8) 0x40) 5 1)) (han : allocatable (arg c 0x10 8) n = true) :
    fenceCert s c = if poisonedIn s (arg c 0x10 8) n then finish s c ePoison
      else { s with certs := s.certs ++ [{ cert := gread s (arg c 0x10 8) n, cmd := c.id }] } := by
  subst hn
  exact if_neg (by simp [ha, han])

/-- A certificate whose command still waits is refused with its code, or fences or unfences (R421). -/
theorem certChecked_waits {t : State} {j : CertJob} {rest : List CertJob} (hs : s.certs = j :: rest)
    (ht : t = { s with certs := rest }) (hj : s.cmds.any (·.id == j.cmd) = true) : certChecked s =
      if certCode t j.cert ≠ 0 then finishId (postFence t 3 0 (certCode t j.cert)) j.cmd (certCode t j.cert)
      else if num j.cert 4 1 = 1 then startFencing t j.cmd
      else doUnfence t j.cmd := by
  subst ht
  simp only [certChecked, hs]
  exact if_neg (by simp [hj])

/-! ### FENCED -/

theorem fencedNow_done {t : State} {cmd : Nat} (hc : s.fencing = some cmd) (hf : fenceState s = 1)
    (hd : fencedDone s = true) (ht : t = setSys (wf { s with fencing := none } K.fenceState 1 0 2) 5) :
    fencedNow s = finishId (postFence (raiseIrq
      { t with flash := { t.flash with fenceState := 2, fenceSeq := rd t K.fenceSeq } } pgFence 16) 1 0 0) cmd 0 := by
  subst ht
  simp only [fencedNow, hc]
  exact if_neg (by simp [hf, hd])

theorem fencedNow_waits (h : s.fencing = none ∨ fencedDone s = false) : fencedNow s = s := by
  cases hc : s.fencing with
  | none => simp only [fencedNow, hc]
  | some cmd =>
    have hd : fencedDone s = false := h.resolve_left (by simp [hc])
    simp only [fencedNow, hc]
    exact if_pos (by simp [hd])

end

/-- Settles O34: each ready command by the equation of its case, then the certificate's check and the end of fencing. -/
theorem partitionsAndFencing : Obligations.PartitionsAndFencing := by
  constructor
  case left =>
    rintro s src c _ b rfl
    exact ⟨fun hc h => next_of_ready hc (wiringPlan_host h),
      fun hc ha hp hb hok hfree => ⟨_, next_of_ready hc (partSetup_installs ha hp hb hok hfree.1 hfree.2),
        rfl, rfl, rfl, rfl, rfl⟩,
      fun hc ha hp => next_of_ready hc (partSetup_poisoned ha hp),
      fun hc ha hp hb => next_of_ready hc (partSetup_badRecord ha hp hb),
      fun hc hf ht hs => ⟨_, next_of_ready hc (partLeave_free hf ht hs), rfl, rfl, rfl, rfl, rfl⟩,
      fun hc hf => next_of_ready hc (partLeave_fencing hf)⟩
  case right =>
    intro s src c s0 j rest cmd
    refine ⟨fun hc hs0 ha n hn han => ?read, fun hs hs0 hj => ?checked,
      fun hc hf hd hs0 => congrArg Host.Outcome.next (fencedNow_done hc hf hd hs0),
      fun h => congrArg Host.Outcome.next (fencedNow_waits h)⟩
    case read =>
      subst hs0
      exact ⟨fun hp => next_of_ready hc ((fenceCert_read ha hn han).trans (if_neg (by simp [hp]))),
        fun hp => next_of_ready hc ((fenceCert_read ha hn han).trans (if_pos hp))⟩
    case checked =>
      have hcert := certChecked_waits hs hs0 hj
      exact ⟨fun h => congrArg Host.Outcome.next (hcert.trans (if_pos h)),
        fun h h1 => congrArg Host.Outcome.next (hcert.trans ((if_neg (not_not_intro h)).trans (if_pos h1))),
        fun h h2 => congrArg Host.Outcome.next (hcert.trans ((if_neg (not_not_intro h)).trans (if_neg (by simp [h2]))))⟩

end Sys2Proof.Machine

/-! PROOF. The stages of start-up (R360, R470-R474). -/

namespace Sys2Proof.Machine

section
variable {s : State} {p link pins links : Nat} {eeprom : Bytes} {cold bad : Bool}

/-! ### Standby and the reeve's boot -/

/-- What the reeve's boot leaves before the start goes on (R470). -/
def reeveBooted (s : State) (pins : Nat) (eeprom : Bytes) (links : Nat) : State :=
  let s := showUnclean (readSlot (loadCal s) pins eeprom)
  let s := mgmtLinkChange 1 (bit links 1) (bit links 3) (mgmtLinkChange 0 (bit links 0) (bit links 2) s)
  { s with tray := { s.tray with booted := true } }

theorem reeveBootDone_standby (hs : s.tray.hs = .standby) (hb : s.tray.booted = false) {u : State}
    (hu : u = reeveBooted s pins eeprom links) : reeveBootDone pins eeprom links cold s =
      if u.tray.coldStart && u.tray.present then (if u.tray.eject then toDrained u else beginStart u cold) else u := by
  subst hu
  exact if_neg (by simp [hs, hb])

/-! ### Pre-heat and rails -/

theorem execPreheatFail_due (hst : inStage s 1 = true) (ht : s.tray.stageFrom + usCycles 300000000 ≤ s.clock) :
    execPreheatFail s = .next (startFault s 6 ePreheatFail 1) :=
  congrArg Host.Outcome.next (if_pos (by simp [hst, ht]))

theorem execPreheatFail_otherStage (hst : inStage s 1 = false) : execPreheatFail s = .next s :=
  congrArg Host.Outcome.next (if_neg (by simp [hst]))

/-- The die with its rails up and its clocks started (R470). -/
def railsUp (s : State) : State := startClocks { s with tray := { s.tray with rails := true } }

theorem railsDone_inStage (hst : inStage s 2 = true) :
    railsDone s = nextStage (railsUp s) fun s => beginBoot (chooseImage s) := if_neg (by simp [hst])

theorem railsDone_otherStage (hst : inStage s 2 = false) : railsDone s = s := if_pos (by simp [hst])

/-- A run of updates that each keep a part of the state keeps it. -/
theorem foldl_keeps {α β : Type} {f : State → α → State} {v : State → β} (h : ∀ s x, v (f s x) = v s) (l : List α)
    (s : State) : v (l.foldl f s) = v s := by
  induction l generalizing s with
  | nil => rfl
  | cons x l ih => rw [List.foldl_cons, ih, h]

@[simp] theorem startClocks_tray (s : State) : (startClocks s).tray = s.tray := by
  rw [startClocks, foldl_keeps (v := State.tray), wr_tray]
  exact fun s f => by rw [setFctl_tray, setBit_tray, showClock, wr_tray]

theorem railsUp_rails (s : State) : (railsUp s).tray.rails = true := by rw [railsUp, startClocks_tray]

/-! ### Boot -/

theorem bootDone_notBooting (h : booting s = false ∨ bootable s = false) : bootDone bad s = s := by
  refine if_pos ?_
  rcases h with h | h
  · simp [h]
  · simp [h]

/-- Service firmware runs: its version, the trial and what was measured are shown (R470). -/
def bootShown (s : State) : State :=
  let s := wr s K.calStartBoot (msSince s s.tray.bootFrom)
  let s := setBit (wr s K.sysFwver (rd s (if s.tray.image = 0 then K.secVerA else K.secVerB))) K.sysState 8 (s.tray.image == 1)
  let s := setBit s K.secState 2 s.tray.trial
  { s with sec := { s.sec with measured := (fuses s, svnOf s s.tray.image, rf s K.secState 0 0) } }

theorem bootShown_tray (s : State) : (bootShown s).tray = s.tray := by
  simp only [bootShown, setBit_tray, wr_tray]

section
variable (hb : booting s = true) (hok : bootable s = true)
include hb hok

theorem bootDone_untrained : bootDone false s = startFault s 6 eHbmTrain 3 :=
  (if_neg (by simp [hb, hok])).trans (if_pos rfl)

theorem bootDone_trained : bootDone true s =
    nextStage (bootShown s) fun s => if s.tray.warmBoot then beginLinks s else setSys (beginStage s 4) 1 :=
  (if_neg (by simp [hb, hok])).trans (if_neg (by decide))

end

/-- An image that fails verification in BOOT is abandoned (R360). -/
theorem bootTimeout_bad (hst : inStage s 3 = true) : bootTimeout true s =
    if s.tray.abandoned then setCause (startFault s 5 eSecImage s.tray.image) 5
    else
      let v := setBit (setBit (setCause (startClocks (dieReset (writeRecord s 5 eSecImage s.tray.image) true)) 5)
        K.secState 1 false) K.secState 2 false
      beginBoot { v with tray := { v.tray with image := 1 - v.tray.image, trial := false, abandoned := true } } := by
  have hst' : s.tray.hs = .starting ∧ s.tray.stage = 3 := by simpa [inStage] using hst
  exact if_neg (by simp [hst'.1, hst'.2])

/-! ### BIST -/

/-- The bays that failed BIST are disabled, and counted for each field and in all (R470). -/
def bistShown (s : State) (bad : List Nat) : State :=
  let s := { s with bays := (bad.mergeSort).map fun b => (b, { off := true }) }
  let s := fieldList.foldl (fun s f => wf s (K.fieldState f) 15 8 ((bad.filter (fieldOf · == f)).length)) s
  let s := setBit (wr s K.calBistBays bad.length) K.sysState 9 (decide (bad ≠ []))
  wr s K.calStartBist (msSince s s.tray.stageFrom)

theorem bistShown_bays (s : State) (bad : List Nat) :
    (bistShown s bad).bays = (bad.mergeSort).map fun b => (b, { off := true }) := by
  simp only [bistShown, wr_bays, setBit_bays]
  rw [foldl_keeps (v := State.bays)]
  exact fun _ _ => wf_bays ..

theorem bistDone_inStage {bays n : List Nat} {fails : Bool} (hst : inStage s 4 = true)
    (hn : n = (bays.filter (decide <| · < nBays)).dedup)
    (hf : fails = fieldList.any (fun f => decide (8 < (n.filter (fieldOf · == f)).length))) : bistDone bays s =
      if decide (36 < n.length) || fails then startFault (bistShown s n) 6 eBistFail 4
      else nextStage (bistShown s n) beginLinks := by
  subst hf hn
  exact if_neg (by simp [hst])

/-! ### Links -/

theorem linksDone_starting (hs : s.tray.hs = .starting) (h5 : s.tray.stage = 5) : linksDone s = nextStage s ready :=
  if_pos (by simp [hs, h5])

theorem dlUp_trains (hp : p < 2) (hr : (port s p).released = true) (hl : linksBegun s = true)
    (hrails : s.tray.rails = true) (hup : portUp s p = false) : dlUp p link s =
      if portUp (linkUp s p link) p then tellInputFault (wiringCheck (linksDone (linkUp s p link)))
      else linkUp s p link :=
  if_neg (by simp [Nat.le_of_lt_succ hp, hr, hl, hrails, hup])

/-! ### The retry -/

theorem execStartRetry_fault {t : Nat} (hf : s.tray.faultFrom = some t) : execStartRetry s =
    if s.tray.hs = .fault && s.tray.faults = 1 && decide (t + usCycles 10000000 ≤ s.clock) then .next (coldReset s)
    else .next s := by
  simp only [execStartRetry, hf]

end

/-- Settles O43: each stage's end and failure by the equation of its case. -/
theorem startUpStages : Obligations.StartUpStages := by
  intro s pins p link eeprom links cold bad bays t
  refine ⟨fun hs hb => ⟨reeveBooted s pins eeprom links, rfl, ?booted⟩,
    fun hs => ⟨_, congrArg Host.Outcome.next (if_pos hs), rfl⟩, rfl,
    fun hst => congrArg Host.Outcome.next (if_pos hst), execPreheatFail_due,
    fun hst => ⟨congrArg Host.Outcome.next (if_neg (by simp [hst])), execPreheatFail_otherStage hst⟩,
    fun hst => ⟨railsUp s, congrArg Host.Outcome.next (railsDone_inStage hst), railsUp_rails s⟩,
    fun hst => congrArg Host.Outcome.next (if_pos hst),
    fun hst => ⟨congrArg Host.Outcome.next (railsDone_otherStage hst), congrArg Host.Outcome.next (if_neg (by simp [hst]))⟩,
    fun hb hok => congrArg Host.Outcome.next (bootDone_untrained hb hok),
    fun hb hok => ⟨bootShown s, congrArg Host.Outcome.next (bootDone_trained hb hok), bootShown_tray s⟩,
    fun h => congrArg Host.Outcome.next (bootDone_notBooting h),
    fun hst ha => congrArg Host.Outcome.next ((bootTimeout_bad hst).trans (if_pos ha)),
    fun hst ha => congrArg Host.Outcome.next ((bootTimeout_bad hst).trans (if_neg (by simp [ha]))),
    fun hst => congrArg Host.Outcome.next (if_pos (by simp [hst])),
    fun n fails hn hf hst => ⟨bistShown s n, bistShown_bays s n, ?bist⟩,
    fun hs h5 ht => congrArg Host.Outcome.next ((if_pos ht).trans (linksDone_starting hs h5)),
    fun ht => congrArg Host.Outcome.next (if_neg ht.not_ge),
    fun hp hr hl hrails hup => ?trains,
    fun hf hs h1 ht => (execStartRetry_fault hf).trans (if_pos (by simp [hs, h1, ht])),
    fun hf h1 => (execStartRetry_fault hf).trans (if_neg (by simp [h1]))⟩
  case booted =>
    have hboot := reeveBootDone_standby (cold := cold) hs hb (rfl : reeveBooted s pins eeprom links = _)
    refine ⟨fun hc hp he => congrArg Host.Outcome.next (hboot.trans ?_),
      fun hc hp he => congrArg Host.Outcome.next (hboot.trans ?_), fun h => congrArg Host.Outcome.next (hboot.trans ?_)⟩
    · exact (if_pos (by simp [hc, hp])).trans (if_neg (by simp [he]))
    · exact (if_pos (by simp [hc, hp])).trans (if_pos he)
    · rcases h with h | h
      · exact if_neg (by simp [h])
      · exact if_neg (by simp [h])
  case bist =>
    have hbist := bistDone_inStage hst hn hf
    refine ⟨fun h => congrArg Host.Outcome.next (hbist.trans (if_pos (by simpa using h))),
      fun hlen h => congrArg Host.Outcome.next (hbist.trans (if_neg (by simp [hlen, h])))⟩
  case trains =>
    have htrain := dlUp_trains (link := link) hp hr hl hrails hup
    exact ⟨fun h => congrArg Host.Outcome.next (htrain.trans (if_pos h)),
      fun h => congrArg Host.Outcome.next (htrain.trans (if_neg (by simp [h])))⟩

end Sys2Proof.Machine

/-! PROOF. Module resets, calibration saves, thermal shutdown and restart (R405, R475, R477, R478, R482). -/

namespace Sys2Proof.Machine

section
variable {s : State} {src l t level cause : Nat} {c : Cmd}

/-! ### MODULE_RESET -/

/-- A ready MODULE_RESET acts through the level's own command; a level above 1 through that of level 0 (R478). -/
theorem moduleReset_ready (hc : Ready s src 0x9C c) (hl : arg c 0x10 1 = level ∨ level = 0 ∧ 1 < arg c 0x10 1) :
    moduleReset s src level =
      if 1 < arg c 0x10 1 then finish (markStarted s c) c eCmdReserved
      else
        let v := finish (markStarted s c) c 0
        { v with tray := { v.tray with reset := some (arg c 0x10 1, v.clock) } } := by
  rw [moduleReset, hc.1]
  exact (if_pos (by simpa using hl)).trans (withCmd_ready hc _)

theorem resetStart_early (hr : s.tray.reset = some (l, t)) (ht : s.clock < t + usCycles 10000) : resetStart s = s := by
  simp only [resetStart, hr]
  exact if_pos (by simp [ht])

theorem resetStart_due (hr : s.tray.reset = some (l, t)) (ht : t + usCycles 10000 ≤ s.clock)
    (hcal : l = 1 → s.flash.calSaving = false) : resetStart s =
      if l = 1 then coldReset { s with tray := { s.tray with reset := none } }
      else { s with tray := { s.tray with reset := none, warm := some 2 } } := by
  simp only [resetStart, hr]
  exact if_neg (by simpa [ht] using hcal)

/-! ### The die warm reset -/

/-- The module at the start of a die warm reset (R477). -/
def warmReady (s : State) (cause : Nat) : State :=
  let s := setCause (startClocks (dieReset (linkDown 1 (linkDown 0 s)) true)) cause
  { s with tray := { s.tray with hs := .inService, warm := none, warmBoot := true, readyFrom := s.clock, reset := none } }

theorem warmReset_powered (hw : s.tray.warm = some cause) (hr : s.tray.rails = true)
    (hs : s.tray.hs = .inService ∨ s.tray.hs = .draining) (links : List Nat) {u : State} (hu : u = warmReady s cause) :
    warmReset links s = if (chooseImage u).tray.trial then beginBoot (chooseImage u)
      else (List.range 2).foldl (fun s p => dlUp p (links.getD p 0) s) (beginLinks (chooseImage u)) := by
  subst hu
  simp only [warmReset, hw]
  exact if_neg (by simpa [hr, or_iff_not_imp_left] using hs)

/-! ### Calibration saves -/

/-- Flash holds the user set, and SAVING shows whether another change waits (R482). -/
def calSaved (s : State) : State :=
  let seq := match newestCal s.flash.cal with
    | some r => r.1 + 1
    | none => 0
  let keep := match newestCal s.flash.cal with
    | some r => [r]
    | none => []
  let s := { s with flash := { s.flash with
    cal := keep ++ [(seq, userSet s)], calSaving := s.flash.calAgain, calAgain := false } }
  setBit (setBit s K.calState 1 false) K.calState 0 s.flash.calSaving

theorem calSaveDone_saving (h : s.flash.calSaving = true) :
    calSaveDone s = wf (calSaved s) K.calState 31 16 (rf (calSaved s) K.calState 31 16 + 1) := if_neg (by simp [h])

/-! ### Thermal shutdown and restart -/

theorem thermalShutdown_cause (hc : thermalCause s = some (l, t)) (hr : s.tray.rails = true) : thermalShutdown s =
    let u := toFault (writeRecord (postThermal s 14 l eThermalShutdown t) 4 eThermalShutdown (l + 2 ^ 16 * t))
    { u with power := { u.power with shutAt := if 3 ≤ (recentRestarts u).length then none else some u.clock } } := by
  simp only [thermalShutdown, hc]
  exact if_neg (by simp [hr])

theorem thermalShutdown_none (hc : thermalCause s = none) : thermalShutdown s = s := by simp only [thermalShutdown, hc]

theorem thermalRestart_due {temps : List Int} (ht : s.power.shutAt = some t) (hs : s.tray.hs = .fault)
    (h60 : t + usCycles 60000000 ≤ s.clock) (hcool : temps.all (fun x => decide (x ≤ 1120)) = true)
    (h3 : (recentRestarts s).length < 3) : thermalRestart temps s =
      coldReset (let u := saveOp s; { u with power := { u.power with
        restarts := recentRestarts s ++ [opNow s], shutAt := none } }) := by
  simp only [thermalRestart, ht]
  exact if_neg (by rw [hcool]; simp [hs, h60, h3])

end

/-- Settles O44: MODULE_RESET by its level, and each event by the equation of its case. -/
theorem moduleResets : Obligations.ModuleResets := by
  intro s src l t cause c links temps
  refine ⟨fun hc h0 => ⟨markStarted s c, congrArg Host.Outcome.next ?warm, rfl⟩,
    fun hc h1 => congrArg Host.Outcome.next ?cold, fun hc hl => congrArg Host.Outcome.next ?reserved,
    fun hr ht hl hcal => congrArg Host.Outcome.next ((resetStart_due hr ht fun _ => hcal).trans (if_pos hl)),
    fun hr ht hl => congrArg Host.Outcome.next ?startWarm,
    fun hr ht => congrArg Host.Outcome.next (resetStart_early hr ht),
    fun hw hr hs => ⟨warmReady s cause, warmReset_powered hw hr hs links rfl, rfl, rfl, rfl, rfl⟩,
    fun h => ⟨calSaved s, congrArg Host.Outcome.next (calSaveDone_saving h), rfl, rfl⟩,
    fun h => congrArg Host.Outcome.next (if_pos (by simp [h])),
    fun hc hr => congrArg Host.Outcome.next (thermalShutdown_cause hc hr),
    fun hc => congrArg Host.Outcome.next (thermalShutdown_none hc),
    fun ht hs h60 hcool h3 => congrArg Host.Outcome.next (thermalRestart_due ht hs h60 hcool h3),
    fun hs ht => congrArg Host.Outcome.next (if_pos (by simp [hs, ht])),
    fun ht => congrArg Host.Outcome.next (if_neg (by simp [ht]))⟩
  case warm =>
    have hr := moduleReset_ready hc (.inl h0)
    rw [h0] at hr
    exact hr
  case cold =>
    have hr := moduleReset_ready hc (.inl h1)
    rw [h1] at hr
    exact hr
  case reserved => exact (moduleReset_ready hc (.inr ⟨rfl, hl⟩)).trans (if_pos hl)
  case startWarm =>
    subst hl
    exact resetStart_due hr ht (by simp)

end Sys2Proof.Machine

/-! PROOF. The power cap, the loops, the estimator and the learner (R382-R389, R394, R395, R412). -/

namespace Sys2Proof.Machine

section
variable {s : State} {c : Cmd} {t : Nat}

/-! ### PWR_SET_CAP -/

/-- The cap in force and as staged (R382). -/
def capSet (s : State) (cap : Nat) : State :=
  let s := wf s K.pwrCap 9 0 cap
  wrStaged s K.pwrCap (putFld (rdStaged s K.pwrCap) 9 0 cap)

theorem capSet_cap (s : State) (cap : Nat) : rf (capSet s cap) K.pwrCap 9 0 = cap % 1024 :=
  rf_wf s K.pwrCap 9 0 cap (by decide) (by decide)

theorem execPwrSetCap_within {src cap : Nat} (hc : Ready s src 0x90 c) (hcap : cap = arg c 0x10 2)
    (hlo : rf (markStarted s c) K.pwrBounds 9 0 ≤ cap) (hhi : cap ≤ rf (markStarted s c) K.pwrBounds 25 16) :
    execPwrSetCap src s = .next (finish (judgeLag (retarget (bumpVer (capSet (markStarted s c) cap) pgPwr))) c 0) := by
  subst hcap
  exact next_of_ready hc (if_neg (by simp [hlo, hhi]))

theorem execPwrSetCap_outside {src cap : Nat} (hc : Ready s src 0x90 c) (hcap : cap = arg c 0x10 2)
    (h : cap < rf (markStarted s c) K.pwrBounds 9 0 ∨ rf (markStarted s c) K.pwrBounds 25 16 < cap) :
    execPwrSetCap src s = .next (finish (markStarted s c) c ePwrRange) := by
  subst hcap
  exact next_of_ready hc (if_pos (by simpa using h))

/-! ### The fast loop -/

/-- With no brake in its first ticks the fast loop raises gates above the inner target, lowers them with room, and holds
otherwise (R386). -/
theorem fastLoop_noBrake {u : State} {raw add : Nat} (hu : u = judgeLag (noteEst s (corrected s raw)))
    (hb : u.power.brake ≠ 1) : fastLoop raw add s =
      if controlled u > u.power.ti then raiseGates u else if controlled u + add ≤ u.power.ti then lowerGates u else u := by
  subst hu
  exact if_neg hb

/-! ### CAP_LAG -/

/-- CAP_LAG has ended (R389). -/
def lagEnded (s : State) : State :=
  let s := setBit (countLag s) K.pwrState 1 false
  { s with power := { s.power with lagOk := none } }

theorem execCapMet_due (hl : capLag s = true) (ht : s.power.lagOk = some t) (hd : t + usCycles 100 ≤ s.clock) :
    execCapMet s = .next (postThermal (lagEnded s) 4 15 0 (measW (setBit (countLag s) K.pwrState 1 false))) := by
  simp only [execCapMet, hl, ht]
  exact if_pos hd

theorem execCapMet_noLag (hl : capLag s = false) : execCapMet s = .next s := by
  simp only [execCapMet, hl]

/-! ### Measurements -/

/-- A reading of the converter as it is shown, before it is judged (R383, R385). -/
def sampleRead (s : State) (vin : Nat) (ma : Int) (code : Nat) : State :=
  let s := wr (noteCode s code) K.pwrVin (vin % 2 ^ 16 + 2 ^ 16 * unsgn 16 ma)
  { s with tray := { s.tray with vin := 10 * vin, highFrom := if vin ≤ 6000 then none else s.tray.highFrom } }

/-- SENSOR_FAULT has begun: no plausible sample counts, and the loop goes back to the target (R385). -/
def sensorFailed (u : State) : State :=
  let u := setBit { u with power := { u.power with plausible := 0 } } K.pwrState 3 true
  if braking u then u else setInner u (10 * target u)

section
variable {u : State} {m : Rat} {vin code : Nat} {ma : Int} {atEnd : Bool} (hm : m = measured (noteCode s code) vin ma)
  (hu : u = sampleRead s vin ma code)
include hm hu

theorem powerSample_plausible (hp : implausible u vin ma m atEnd = false) : powerSample vin ma code atEnd s =
    if sensorFault (takeSample u m) then
      { takeSample u m with power := { (takeSample u m).power with plausible := (takeSample u m).power.plausible + 1 } }
    else outerLoop (takeSample u m) m := by
  subst hm hu
  exact if_neg (Bool.eq_false_iff.1 hp)

theorem powerSample_implausible (hp : implausible u vin ma m atEnd = true) (hf : sensorFault u = false) :
    powerSample vin ma code atEnd s =
      postThermal (raiseIrq (sensorFailed u) pgPwr 18) 9 15 eSensorFault (measW (sensorFailed u)) := by
  subst hm hu
  exact (if_pos hp).trans (if_neg (Bool.eq_false_iff.1 hf))

end

theorem sensorFailed_plausible (u : State) : (sensorFailed u).power.plausible = 0 := by
  dsimp only [sensorFailed]
  split_ifs
  · rfl
  · rfl

theorem execSensorOk_early (h : s.power.plausible < 10000) : execSensorOk s = .next s := if_neg (by simp [h])

/-! ### The estimator -/

theorem estimateWindow_differs {m e : Rat} (hm : m = meanOf s.power.winM s.power.winMN)
    (he : e = meanOf s.power.winE s.power.winEN) (h : 3 * max m e < 20 * (max m e - min m e)) :
    estimateWindow s = { s with power := { s.power with
      differ := s.power.differ + 1, agree := 0, winM := 0, winMN := 0, winE := 0, winEN := 0 } } := by
  subst hm he
  have hw : windowDiffers (meanOf s.power.winM s.power.winMN) (meanOf s.power.winE s.power.winEN) = true := decide_eq_true h
  simp only [estimateWindow, hw, if_true]

theorem estimateWindow_agrees {m e : Rat} (hm : m = meanOf s.power.winM s.power.winMN)
    (he : e = meanOf s.power.winE s.power.winEN) (h : 20 * (max m e - min m e) ≤ 3 * max m e) :
    estimateWindow s = { s with power := { s.power with
      agree := s.power.agree + 1, differ := 0, winM := 0, winMN := 0, winE := 0, winEN := 0 } } := by
  subst hm he
  have hw : windowDiffers (meanOf s.power.winM s.power.winMN) (meanOf s.power.winE s.power.winEN) = false :=
    decide_eq_false h.not_gt
  simp only [estimateWindow, hw, Bool.false_eq_true, if_false]

theorem execMismatchOn_early (h : s.power.differ < 10) : execMismatchOn s = .next s := if_neg (by simp [h])

theorem execMismatchOff_early (h : s.power.agree < 100) : execMismatchOff s = .next s := if_neg (by simp [h])

/-! ### The learner -/

@[simp] theorem newPeriod_estN (s : State) (f : Nat) : (newPeriod s f).power.estN = s.power.estN := rfl

@[simp] theorem learn_estN (s : State) (f : Nat) (o : FieldObs) : (learn s f o).power.estN = s.power.estN := by
  unfold learn
  split_ifs
  · rfl
  · rfl

@[simp] theorem noteObs_estN (s : State) (f : Nat) (o : FieldObs) : (noteObs s f o).power.estN = s.power.estN :=
  learn_estN s f o

/-- A period ends: its mean estimate is shown and the sums begin again (R383, R394). -/
def periodShown (s : State) : State :=
  let p := s.power
  let s := if p.estN = 0 then s else wf s K.pwrEst 15 0 (fieldOfRat 16 (p.estSum / p.estN))
  { s with power := { s.power with estSum := 0, estN := 0, periodFrom := s.clock } }

/-- The state a period is allocated from: the fields' counts begin again and what they showed is noted (R394). -/
def periodNoted (s : State) (obs : List FieldObs) : State :=
  ((List.range obs.length).zip obs).foldl (fun s o => noteObs s o.1 o.2) (fieldList.foldl newPeriod (periodShown s))

theorem learnerPeriod_eq (pfix dg dv : Nat) (fields : List Nat) (s : State) :
    learnerPeriod pfix dg dv fields s =
      allocate (periodNoted s (fieldList.map fun f => observe s f (fields.getD f 0))) pfix dg dv
        (fieldList.map fun f => observe s f (fields.getD f 0)) := rfl

theorem periodNoted_estN (s : State) (obs : List FieldObs) : (periodNoted s obs).power.estN = 0 := by
  have hobs := foldl_keeps (v := fun s => s.power.estN) (f := fun s (o : Nat × FieldObs) => noteObs s o.1 o.2)
    (fun s o => noteObs_estN s o.1 o.2)
  exact (hobs _ _).trans (foldl_keeps (v := fun s => s.power.estN) newPeriod_estN fieldList (periodShown s))

theorem periodShown_granary (s : State) : granary (periodShown s) = granary s := by
  dsimp only [periodShown, granary]
  split_ifs
  · rfl
  · rfl

theorem periodNoted_granary (s : State) (obs : List FieldObs) : granary (periodNoted s obs) = granary s :=
  (foldl_granary (g := fun s (o : Nat × FieldObs) => noteObs s o.1 o.2) fun s o => noteObs_granary s o.1 o.2).trans
    ((foldl_granary newPeriod_granary).trans (periodShown_granary s))

theorem learn_steady {f : Nat} {o : FieldObs} (hs : o.steady = true) (hd : o.dominant = true)
    (hf : bit (rd s K.pwrLearnCtrl) 0 = false) : learn s f o = { s with power := { s.power with
      learned := mset (fun _ => none) s.power.learned (learnKey o.phase f (fcur s f))
        (some (learnW s o.phase f (fcur s f) + (o.power - learnW s o.phase f (fcur s f)) / 8)) } } :=
  if_pos (by simp [hs, hd, hf])

/-- A write of PWR_LEARN_CTRL is stored, and RESET empties the learned table (R395, R412). -/
theorem execLearnReset_reaches {a : Access} {pl : Place} {v : Nat} (hr : Reaches s a pl) (hk : pl.key = K.pwrLearnCtrl) :
    execLearnReset a v s = .next (if bit v 1 then
      { storeReg s pl.key v with power := { (storeReg s pl.key v).power with learned := [] } } else storeReg s pl.key v) := by
  rw [execLearnReset, atPlace_reaches hr, if_pos hk]

end

/-- Settles O48: each command, loop and event by the equation of its case. -/
theorem powerControlLoops : Obligations.PowerControlLoops := by
  intro s src raw add vin code cap _ dg dv t ma atEnd fields a pl v c s0
  refine ⟨fun hc hs0 hcap => ?cap, fun hs0 => ?fastLoop,
    fun hl ht hd => ⟨lagEnded s, execCapMet_due hl ht hd, rfl⟩, execCapMet_noLag, fun u m hm hu => ?sample,
    fun hf h => if_pos (by simp [hf, h]), execSensorOk_early,
    fun m e hm he => ⟨fun h => congrArg Host.Outcome.next (estimateWindow_differs hm he h),
      fun h => congrArg Host.Outcome.next (estimateWindow_agrees hm he h)⟩,
    fun hf h => if_pos (by simp [hf, h]), execMismatchOn_early, fun hf h => if_pos (by simp [hf, h]), execMismatchOff_early,
    ⟨_, congrArg Host.Outcome.next (learnerPeriod_eq ..), periodNoted_estN .., periodNoted_granary ..⟩,
    fun _ _ => learn_steady,
    fun hr hk hv => ⟨storeReg s pl.key v, (execLearnReset_reaches hr hk).trans (congrArg Host.Outcome.next (if_pos hv)), rfl⟩,
    fun hr hk hv => (execLearnReset_reaches hr hk).trans (congrArg Host.Outcome.next (if_neg (by simp [hv])))⟩
  case cap =>
    subst hs0
    exact ⟨fun hlo hhi => ⟨_, execPwrSetCap_within hc hcap hlo hhi, capSet_cap _ _⟩, execPwrSetCap_outside hc hcap⟩
  case fastLoop =>
    have hloop := fun hb => fastLoop_noBrake (add := add) hs0 hb
    refine ⟨fun hb => ?_, fun hb h => congrArg Host.Outcome.next ((hloop hb).trans (if_pos h)),
      fun hb hadd h => congrArg Host.Outcome.next ((hloop hb).trans ((if_neg h.not_gt).trans (if_pos hadd))),
      fun hb h hadd => congrArg Host.Outcome.next ((hloop hb).trans ((if_neg h.not_gt).trans (if_neg hadd.not_ge)))⟩
    subst hs0
    exact congrArg Host.Outcome.next (if_pos hb)
  case sample =>
    exact ⟨fun hp hf => congrArg Host.Outcome.next ((powerSample_plausible hm hu hp).trans (if_neg (by simp [hf]))),
      fun hp hf => ⟨sensorFailed u, congrArg Host.Outcome.next (powerSample_implausible hm hu hp hf), sensorFailed_plausible u⟩⟩

end Sys2Proof.Machine

/-! PROOF. Junction, HBM, coolant and leak samples (R403, R404, R406, R407, R413). -/

namespace Sys2Proof.Machine

section
variable {s : State} {f j t : Nat} {tin : Int}

/-! ### Junction throttling -/

/-- One millisecond of a throttled field whose junction is at 100 C or more (R403). -/
theorem throttleField_hot (hj : (fctl s f).jceil = some j) (h : 1600 ≤ sgn 16 (rf s (K.thmTj f) 15 0)) :
    throttleField s f = enforceCeil (setFctl s f { fctl s f with jceil := some (max 16 (j - 4)), coolMs := 0 }) f := by
  simp only [throttleField, hj]
  exact if_pos h

/-- The tenth millisecond of a throttled field at or below 97 C (R403). -/
theorem throttleField_cool (hj : (fctl s f).jceil = some j) (h : sgn 16 (rf s (K.thmTj f) 15 0) ≤ 1552)
    (h9 : (fctl s f).coolMs = 9) : throttleField s f =
      endThrottle (setFctl s f { fctl s f with jceil := some (min 80 (j + 1)), coolMs := 0 }) f
        (sgn 16 (rf s (K.thmTj f) 15 0)) := by
  have hcold : ¬(1600 : Int) ≤ sgn 16 (rf s (K.thmTj f) 15 0) := by omega
  simp only [throttleField, hj]
  exact (if_neg hcold).trans ((if_pos h).trans (if_neg (by simp [h9])))

theorem throttleField_none (hj : (fctl s f).jceil = none) : throttleField s f = s := by
  simp only [throttleField, hj]

/-! ### Coolant -/

theorem coolantCeiling_hot (h : 720 < tin) :
    coolantCeiling tin = some (max 250 ((900 : Rat) - 25 * (tin - 720 : Int) / 16).floor.toNat) := if_neg h.not_ge

theorem execFlowLow_due (hf : s.power.flowLowFrom = some t) (ht : t + usCycles 1000000 ≤ s.clock)
    (hp : s.power.flowPosted = false) : execFlowLow s =
      .next (postThermal { s with power := { s.power with flowPosted := true } } 11 12 eFlowLow (rf s K.thmCoolIn 15 0)) := by
  simp only [execFlowLow, hf]
  exact if_pos (by simp [ht, hp])

theorem execFlowLow_posted (hp : s.power.flowPosted = true) : execFlowLow s = .next s := by
  cases hf : s.power.flowLowFrom with
  | none => simp only [execFlowLow, hf]
  | some t =>
    simp only [execFlowLow, hf]
    exact if_neg (by simp [hp])

/-! ### Leaks -/

/-- What a leak sample leaves: WET and LEAD as given, and the count of wet samples (R407). -/
def leakShown (s : State) (v wet : Nat) : State := { wf s K.thmLeak 1 0 v with power := { s.power with wet := wet } }

theorem leakShown_field (s : State) {v : Nat} (wet : Nat) (hv : v < 4) : rf (leakShown s v wet) K.thmLeak 1 0 = v :=
  (rf_wf s K.thmLeak 1 0 v (by decide) (by decide)).trans (Nat.mod_eq_of_lt hv)

theorem b2n_lt_four (b : Bool) : b2n b < 4 := by cases b <;> decide

theorem execLeakSample_lead (wet : Bool) (hl : bit (rd s K.thmLeak) 1 = false) :
    execLeakSample wet true s = .next (postThermal (leakShown s 2 0) 12 14 eLeakSensor 0) :=
  (if_pos rfl).trans (congrArg Host.Outcome.next (if_neg (by simp [hl])))

/-- A write of THM_LEAK_CLR ends a leak whose sensor is dry (R407, R413). -/
theorem execThmLeakClr_reaches {a : Access} {pl : Place} (hr : Reaches s a pl) (v : Nat) : execThmLeakClr a v s =
    .next (if pl.key = K.thmLeakClr && bit v 0 && !bit (rd s K.thmLeak) 0 then retarget (setBit s K.thmLeak 2 false) else s) := by
  rw [execThmLeakClr, atPlace_reaches hr]

end

/-- Settles O50: each sample and event by the equation of its case. -/
theorem thermalSampling : Obligations.ThermalSampling := by
  intro s raw tin tout fin fout wet t v a pl
  refine ⟨rfl, rfl, fun _ _ => throttleField_hot, fun _ _ => throttleField_cool, fun _ => throttleField_none, rfl, ⟨_, rfl⟩,
    coolantCeiling_hot, fun h => if_pos h, fun hf ht hp => ⟨_, execFlowLow_due hf ht hp, rfl⟩, execFlowLow_posted,
    ⟨leakShown s (b2n wet) (if wet then s.power.wet + 1 else 0), rfl, leakShown_field s _ (b2n_lt_four wet), rfl⟩,
    fun hl => ⟨leakShown s 2 0, execLeakSample_lead wet hl, leakShown_field s 0 (by decide), rfl⟩,
    fun h3 hl => if_pos (by simp [h3, hl]), fun h3 => if_neg (by simp [h3]),
    fun hr hk hv hdry => (execThmLeakClr_reaches hr v).trans (congrArg Host.Outcome.next (if_pos (by simp [hk, hv, hdry]))),
    fun hr hwet => (execThmLeakClr_reaches hr v).trans (congrArg Host.Outcome.next (if_neg (by simp [hwet])))⟩

end Sys2Proof.Machine

/-! PROOF. Firmware updates, device sets, the management key and debug unlock (R358, R359, R361, R362, R369-R371, R376). -/

namespace Sys2Proof.Machine

section
variable {s s0 : State} {src : Nat} {c : Cmd} {i : Instr} {id a n k : Nat} {key r : Bytes}

/-! ### Update commands -/

theorem updating_free (h : s.sec.fwWrite = none) (f : State → State) : updating s c f = f s := if_neg (by simp [h])

theorem updating_busy (h : s.sec.fwWrite ≠ none) (f : State → State) : updating s c f = finish s c eSecBusy :=
  if_pos (Option.isSome_iff_ne_none.2 h)

/-- Each of the three update commands is busy while an image is written (R361). -/
theorem exec_update_busy (hi : Ready s src 0xA0 c ∧ i = .fwWrite src ∨ Ready s src 0xA1 c ∧ i = .fwActivate src
      ∨ Ready s src 0xA2 c ∧ i = .fwSvnCommit src) (hw : (markStarted s c).sec.fwWrite ≠ none) :
    exec i s = .next (finish (markStarted s c) c eSecBusy) := by
  rcases hi with ⟨hc, rfl⟩ | ⟨hc, rfl⟩ | ⟨hc, rfl⟩
  · exact next_of_ready hc (updating_busy hw _)
  · exact next_of_ready hc (updating_busy hw _)
  · exact next_of_ready hc (updating_busy hw _)

/-- FW_WRITE of the slot that the running image is not in (R361). -/
theorem execFwWrite_starts (hs0 : s0 = markStarted s c) (hc : Ready s src 0xA0 c) (hw : s0.sec.fwWrite = none)
    (ha : allocatable (arg c 0x10 8) (arg c 0x18 8) = true) (hi : s0.tray.image ≠ inactive s0) : execFwWrite src s = .next
      (setImageOk { s0 with sec := { s0.sec with fwWrite := some (c.id, arg c 0x10 8, arg c 0x18 8) } } (inactive s0) false) := by
  subst hs0
  exact next_of_ready hc ((updating_free hw _).trans ((if_neg (by simp [ha])).trans (if_neg hi)))

/-! ### The end of a write -/

section
variable {u : State} {h : Image} (hw : s.sec.fwWrite = some (id, a, n)) (hu : u = { s with sec := { s.sec with fwWrite := none } })
  (hh : h = Config.image (gread s a n))
include hw hu hh

theorem fwWriteDone_bad (hbad : imageOk s h = false ∨ poisonedIn s a n = true) :
    fwWriteDone s = finishId u id eSecImage := by
  subst hu hh
  simp only [fwWriteDone, hw]
  refine if_pos ?_
  rcases hbad with hbad | hbad
  · simp [hbad]
  · simp [hbad]

theorem fwWriteDone_good (hok : imageOk s h = true) (hp : poisonedIn s a n = false) {t : State}
    (ht : t = { u with flash := { u.flash with images := s.flash.images.set (inactive s) (Config.sha384 (gread s a n)) } }) :
    fwWriteDone s = finishId (setImageOk (setImageVer (setSvn t (inactive s) (h.svn % 128)) (inactive s) (h.ver % 2 ^ 32))
      (inactive s) true) id 0 := by
  subst ht hu hh
  simp only [fwWriteDone, hw]
  exact if_neg (by simp [hok, hp])

end

theorem fwWriteDone_none (hw : s.sec.fwWrite = none) : fwWriteDone s = s := by simp only [fwWriteDone, hw]

/-! ### FW_ACTIVATE and FW_SVN_COMMIT -/

theorem execFwActivate_ready (hs0 : s0 = markStarted s c) (hc : Ready s src 0xA1 c) (hw : s0.sec.fwWrite = none) :
    execFwActivate src s = .next (if !bit (rd s0 K.secState) (3 + inactive s0) then finish s0 c eSecImage
      else finish (setBit s0 K.secState 1 true) c 0) := by
  subst hs0
  exact next_of_ready hc (updating_free hw _)

theorem execFwSvnCommit_ready (hs0 : s0 = markStarted s c) (hc : Ready s src 0xA2 c) (hw : s0.sec.fwWrite = none) :
    execFwSvnCommit src s = .next (svnCommit s0 c) := by
  subst hs0
  exact next_of_ready hc (updating_free hw _)

section
variable {f : Nat} (hf : f = max (fuses s) (svnOf s s.tray.image))
include hf

/-- After a committed boot the fuses follow the running image, where the other one is not left behind (R362). -/
theorem svnCommit_both (ht : bit (rd s K.secState) 2 = false) (hle : f ≤ svnOf s (1 - s.tray.image)) :
    svnCommit s c = finish (wf s K.secSvn 6 0 f) c 0 f := by
  subst hf
  have hno : decide (svnOf s (1 - s.tray.image) < max (fuses s) (svnOf s s.tray.image)) = false := decide_eq_false hle.not_gt
  rw [svnCommit, if_neg (by rw [ht, hno]; simp)]
  exact congrArg (finish · c 0 _) (if_neg (Bool.eq_false_iff.1 hno))

theorem svnCommit_refused
    (h : bit (rd s K.secState) 2 = true ∨ svnOf s (1 - s.tray.image) < f ∧ arg c 0x10 1 % 2 = 0) :
    svnCommit s c = finish s c eSecRollback := by
  subst hf
  refine if_pos ?_
  rcases h with h | ⟨hlt, heven⟩
  · simp [h]
  · simp [hlt, heven]

end

/-! ### Device sets and the management key -/

/-- An install record that can be read, is of the right kind and is authentic hands over its SET_ID and key (R370). -/
theorem install_authentic (mgmt : Bool) (f : State → Nat → Bytes → State) (ha : allocatable (arg c 0x10 8) 192 = true)
    (hp : poisonedIn s (arg c 0x10 8) 192 = false) (hr : r = gread s (arg c 0x10 8) 192) (h1 : num r 0x71 3 = 0)
    (h2 : num r 0xB0 16 = 0) (hk : unwrapRecord s r = some key) (hm : (num r 0 8 == 0) = mgmt) :
    install s c mgmt f = f s (num r 0 8) key := by
  rw [install, if_neg (by simp [ha]), if_neg (by simp [hp]), ← hr]
  dsimp only
  rw [if_neg (by simp [h1, h2, hm]), hk]

theorem execSetInstall_stored (hs0 : s0 = markStarted s c) (hc : Ready s src 0xA3 c) (hst : setStore s0 (num r 0 8) = some k)
    (hin : ∀ f, install s0 c false f = f s0 (num r 0 8) key) :
    execSetInstall src s = .next (finish (putSet s0 k (some (num r 0 8, key))) c 0) := by
  subst hs0
  refine next_of_ready hc ((hin _).trans ?_)
  simp only [hst]

/-- The management key in flash, and in use unless a debug unlock has locked the keys (R371, R376). -/
def mgmtKeyKept (s : State) (key : Bytes) : State :=
  let s := { s with flash := { s.flash with mgmtKey := key } }
  if s.keysLocked then s else setBit { s with mgmtKey := key } K.secMgmt 0 true

theorem mgmtKeyKept_flash (s : State) (key : Bytes) : (mgmtKeyKept s key).flash.mgmtKey = key := by
  dsimp only [mgmtKeyKept]
  split_ifs
  · rfl
  · rfl

theorem execMgmtKeyInstall_kept (hs0 : s0 = markStarted s c) (hc : Ready s src 0xA5 c)
    (hin : ∀ f, install s0 c true f = f s0 (num r 0 8) key) :
    execMgmtKeyInstall src s = .next (finish (mgmtKeyKept s0 key) c 0) := by
  subst hs0
  exact next_of_ready hc (hin _)

theorem execSetRemove_held (hs0 : s0 = markStarted s c) (hc : Ready s src 0xA4 c)
    (hk : ((List.range 16).find? fun n => (s0.flash.sets.getD n none).map (·.1) == some (arg c 0x10 8)) = some k) :
    execSetRemove src s = .next (finish (putSet s0 k none) c 0) := by
  subst hs0
  refine next_of_ready hc ?_
  simp only [hk]

/-! ### DEBUG_UNLOCK -/

theorem debugUnlock_badToken (ha : allocatable (arg c 0x10 8) 137 = true)
    (ht : tokenOk s (gread s (arg c 0x10 8) 137) = false) : debugUnlock s c = finish (freshNonce s) c eSecDebug :=
  (if_neg (by simp [ha])).trans (if_pos (by simp [ht]))

/-- A fresh nonce, and the scopes of the token wait to open (R376). -/
def unlockNoted (s : State) (c : Cmd) (scopes : Nat) : State :=
  let s := freshNonce s
  { s with sec := { s.sec with unlocks := s.sec.unlocks ++ [(c.id, scopes)] } }

theorem debugUnlock_goodToken (ha : allocatable (arg c 0x10 8) 137 = true)
    (ht : tokenOk s (gread s (arg c 0x10 8) 137) = true) (hp : poisonedIn s (arg c 0x10 8) 137 = false) :
    debugUnlock s c = openScopes (((List.range 8).map (· + 1)).foldl
      (fun s f => if bit (rd s (K.funcState (f - 1))) 8 then killNow s f else s)
      (unlockNoted s c (num (gread s (arg c 0x10 8) 137) 40 1 % 8))) :=
  (if_neg (by simp [ha])).trans (if_neg (by simp [ht, hp]))

end

/-- Settles O52: each ready command by the equation of its case, a write's end by whether the image verifies. -/
theorem firmwareAndDeviceKeys : Obligations.FirmwareAndDeviceKeys := by
  intro s src c s0 id ad n k key r hs0
  refine ⟨execFwWrite_starts hs0, fun i hi hw => ?busy, fun hw u hu h hh => ?written,
    fun hw => congrArg Host.Outcome.next (fwWriteDone_none hw), fun hc hw => ?activate, fun hc hw f hf => ?commit,
    fun ha hp hr h1 h2 hk => ?install, execSetRemove_held hs0, fun hc ha t ht => ?unlock⟩
  case busy =>
    subst hs0
    exact exec_update_busy hi hw
  case written =>
    exact ⟨fun hbad => congrArg Host.Outcome.next (fwWriteDone_bad hw hu hh hbad),
      fun hok hp => ⟨_, congrArg Host.Outcome.next (fwWriteDone_good hw hu hh hok hp rfl), rfl⟩⟩
  case activate =>
    have hact := execFwActivate_ready hs0 hc hw
    exact ⟨fun h => hact.trans (congrArg Host.Outcome.next (if_neg (by simp [h]))),
      fun h => hact.trans (congrArg Host.Outcome.next (if_pos (by simp [h])))⟩
  case commit =>
    have hcommit := execFwSvnCommit_ready hs0 hc hw
    exact ⟨fun ht hle => hcommit.trans (congrArg Host.Outcome.next (svnCommit_both hf ht hle)),
      fun h => hcommit.trans (congrArg Host.Outcome.next (svnCommit_refused hf h))⟩
  case install =>
    have hin := fun mgmt hm f => install_authentic mgmt f ha hp hr h1 h2 hk hm
    exact ⟨fun hc h0 hst => execSetInstall_stored hs0 hc hst (hin false (by simp [h0])),
      fun hc h0 => ⟨_, execMgmtKeyInstall_kept hs0 hc (hin true (by simp [h0])), mgmtKeyKept_flash s0 key⟩⟩
  case unlock =>
    rw [hs0] at ht ⊢
    rw [ht]
    exact ⟨fun hbad => next_of_ready hc (debugUnlock_badToken ha hbad),
      fun hok hp => ⟨_, next_of_ready hc (debugUnlock_goodToken ha hok hp), rfl⟩⟩

end Sys2Proof.Machine

/-! PROOF. Bundle loads and unloads, jobs and the end of a scrub (R313, R372-R375, R377). -/

namespace Sys2Proof.Machine

section
variable {s : State} {c : Cmd} {h body : Bytes} {k : Option Bytes} {code f n : Nat} {b : Bundle} {e : JobEntry}
  {j : LoadJob}

/-! ### BUNDLE_LOAD -/

theorem execBundleLoad_turn {src : Nat} (h : loadTurn s src = true) :
    execBundleLoad src s = .next (withCmd s src 0x20 bundleLoad) := congrArg Host.Outcome.next (if_pos h)

section
variable (hn : arg c 0x10 1 < 16) (hd : arg c 0x28 8 % 4096 = 0) (ha : allocatable (arg c 0x18 8) 512 = true)
  (hh : h = gread s (arg c 0x18 8) 512)
include hn hd ha hh

theorem bundleLoad_accepted (hok : loadCheck s (cmdFunc c) c h = .ok k) : bundleLoad s c =
    { s with sec := { s.sec with load := some {
      cmd := c.id, func := cmdFunc c, num := arg c 0x10 1, src := arg c 0x18 8, dest := arg c 0x28 8, header := h, key := k } } } := by
  rw [hh] at hok
  rw [bundleLoad, if_neg (by simp [hn, hd]), hh]
  simp only [ha, if_true, hok]

theorem bundleLoad_refused (hbad : loadCheck s (cmdFunc c) c h = .error code) :
    bundleLoad s c = refuseLoad s (cmdFunc c) c.id (arg c 0x28 8) (num h 0x10 8) code := by
  rw [hh] at hbad
  rw [bundleLoad, if_neg (by simp [hn, hd]), hh]
  simp only [ha, if_true, hbad]

end

/-- The body of a load is at its destination, and its bundle LOADED (R374). -/
def bundleStored (s : State) (j : LoadJob) (body : Bytes) : State :=
  let b : Bundle :=
    { dest := j.dest, len := num j.header 0x10 8, digest := Config.sha384 j.header, info := Config.bundleInfo j.header body }
  let s := poke s j.dest body
  { s with sec := { s.sec with bundles := minsert (bundleKey j.func j.num) b s.sec.bundles } }

section
variable {t : State} (hl : s.sec.load = some j) (hj : s.cmds.any (·.id == j.cmd) = true)
  (ht : t = { s with sec := { s.sec with load := none } }) (hp : poisonedIn t j.src (imageLen j.header) = false)
include hl hj ht hp

theorem bundleLoaded_verified (hbody : bundleBody t j = some body) :
    bundleLoaded s = finishId (bundleStored t j body) j.cmd 0 (num j.header 0x10 8) := by
  subst ht
  simp only [bundleLoaded, hl]
  rw [if_neg (by simp [hj]), if_neg (Bool.eq_false_iff.1 hp), hbody]
  rfl

theorem bundleLoaded_unverified (hbody : bundleBody t j = none) :
    bundleLoaded s = refuseLoad t j.func j.cmd j.dest (num j.header 0x10 8) eAuthFail := by
  subst ht
  simp only [bundleLoaded, hl]
  rw [if_neg (by simp [hj]), if_neg (Bool.eq_false_iff.1 hp), hbody]

end

theorem bundleLoaded_none (hl : s.sec.load = none) : bundleLoaded s = s := by simp only [bundleLoaded, hl]

/-! ### BUNDLE_UNLOAD -/

theorem bundleUnload_busy (hb : bundle? s (cmdFunc c) (arg c 0x10 1) = some b)
    (hbusy : bundleBusy s c (cmdFunc c) (arg c 0x10 1) = true) : bundleUnload s c = finish s c eSecBusy := by
  simp only [bundleUnload, hb, hbusy, if_true]

theorem bundleUnload_scrubs (hb : bundle? s (cmdFunc c) (arg c 0x10 1) = some b)
    (hbusy : bundleBusy s c (cmdFunc c) (arg c 0x10 1) = false) (hl : b.len ≠ 0) :
    bundleUnload s c = { s with sec := { s.sec with
      bundles := mdel (bundleKey (cmdFunc c) (arg c 0x10 1)) s.sec.bundles
      scrubs := s.sec.scrubs ++ [(b.dest, b.len, some c.id)] } } := by
  simp only [bundleUnload, hb, hbusy, hl, Bool.false_eq_true, if_false]

/-! ### JOB_RUN -/

/-- The arguments are put where the programs of the entry read them, the programs start, and the job is noted (R373). -/
def jobStarted (s : State) (c : Cmd) (e : JobEntry) : State :=
  let s := e.programs.foldl startJobBay
    (e.patches.foldl (fun s p => poke s p.2 (toLE 8 (gnum s (arg c 0x18 8 + 8 * p.1) 8))) s)
  { s with sec := { s.sec with jobs := s.sec.jobs ++
    [{ func := cmdFunc c, num := arg c 0x10 1, cmd := c.id, bays := e.programs.map (·.1), start := now s }] } }

/-- The entry that a JOB_RUN names in its function's bundle. -/
def jobEntry (s : State) (c : Cmd) : Option JobEntry :=
  (bundle? s (cmdFunc c) (arg c 0x10 1)).bind fun b => b.info.entries[arg c 0x12 2]?

theorem jobRun_noEntry (he : jobEntry s c = none) (hn : arg c 0x10 1 < 16) : jobRun s c = finish s c eSecBundle := by
  unfold jobEntry at he
  simp only [jobRun, he]
  exact congrArg (finish s c) (if_neg hn.not_ge)

theorem jobRun_starts (he : jobEntry s c = some e) (ho : ownsRange s (cmdFunc c) (arg c 0x18 8) (8 * e.args) = true)
    (hp : poisonedIn s (arg c 0x18 8) (8 * e.args) = false)
    (hown : ((e.programs.map (·.1)).any fun b => !(decide (b < nBays) && (bay s b).owner == cmdFunc c)) = false)
    (hoff : ((e.programs.map (·.1)).any fun b => (bay s b).off) = false)
    (hrun : ((e.programs.map (·.1)).any fun b => (bay s b).st == .running) = false) :
    jobRun s c = jobsCheck (jobStarted s c e) := by
  unfold jobEntry at he
  simp only [jobRun, he]
  rw [if_neg (by simp [ho]), if_neg (Bool.eq_false_iff.1 hp), if_neg (Bool.eq_false_iff.1 hown),
    if_neg (Bool.eq_false_iff.1 hoff), if_neg (Bool.eq_false_iff.1 hrun)]
  rfl

/-! ### The end of a scrub -/

section
variable {a m id bad owner : Nat}

theorem scrubDone_orphan {rest : List (Nat × Nat)} (h : s.orphans = (a, m) :: rest) :
    scrubDone 9 bad s = releaseHeldPages (scrubWith { s with orphans := rest } a m bad) := by
  simp [scrubDone, h]

theorem scrubDone_bundle {rest : List (Nat × Nat × Option Nat)} (h : s.sec.scrubs = (a, m, some id) :: rest) :
    scrubDone 10 bad s =
      releaseHeldPages (finishId (scrubWith { s with sec := { s.sec with scrubs := rest } } a m bad) id 0) := by
  simp [scrubDone, h]

theorem scrubDone_tenant (hlo : 1 ≤ owner) (hhi : owner ≤ 8) (h : (tenant s owner).scrub ≠ []) :
    scrubDone owner 0 s = releaseHeldPages (tenantScrubbed s owner) := by
  obtain ⟨r, rest, hr⟩ := List.exists_cons_of_ne_nil h
  simp [scrubDone, hlo, hhi, hr]

end

end

/-- Settles O53: loads, unloads and jobs by the equation of their case, the end of a scrub by its owner. -/
theorem bundlesAndJobs : Obligations.BundlesAndJobs := by
  rintro s src owner bad _ _ c _ h k code b e j body rfl rfl rfl
  refine ⟨fun hc hturn hn hd ha hh => ?load, fun hturn => congrArg Host.Outcome.next (if_neg (by simp [hturn])),
    fun hl hj t ht hp => ?loaded, fun hl => congrArg Host.Outcome.next (bundleLoaded_none hl),
    fun hc hb hbusy => next_of_ready hc (bundleUnload_busy hb hbusy),
    fun hc hb hbusy hl => next_of_ready hc (bundleUnload_scrubs hb hbusy hl),
    fun hc he ho hp hown hoff hrun => ⟨_, next_of_ready hc (jobRun_starts he ho hp hown hoff hrun), rfl⟩,
    fun hc he hn => next_of_ready hc (jobRun_noEntry he hn),
    fun _ _ _ ho => congrArg Host.Outcome.next (scrubDone_orphan ho),
    fun _ _ _ _ hs => congrArg Host.Outcome.next (scrubDone_bundle hs),
    fun hlo hhi hs => congrArg Host.Outcome.next (scrubDone_tenant hlo hhi hs)⟩
  case load =>
    exact ⟨fun hok => (execBundleLoad_turn hturn).trans (next_of_ready hc (bundleLoad_accepted hn hd ha hh hok)),
      fun hbad => (execBundleLoad_turn hturn).trans (next_of_ready hc (bundleLoad_refused hn hd ha hh hbad))⟩
  case loaded =>
    exact ⟨fun hbody => ⟨_, congrArg Host.Outcome.next (bundleLoaded_verified hl hj ht hp hbody), rfl, rfl⟩,
      fun hbody => congrArg Host.Outcome.next (bundleLoaded_unverified hl hj ht hp hbody)⟩

end Sys2Proof.Machine

/-! PROOF. The SPDM responder of a port's mailbox and the tenant key slots (R363-R367). -/

namespace Sys2Proof.Machine

section
variable {s : State} {p sess slot off len index usage op g : Nat} {nonce share leaf sig mac key : Bytes} {wm : Bool}
  {x : Session}

/-! ### The connection -/

/-- A request that the mailbox of a port answers whatever the connection (R363). -/
theorem execGetVersion_mailbox (hm : mailbox s p = true) :
    execGetVersion p s = .next (spdm (setStage (endSessions s fun x => x.port == p) p 1) p 0 0x04 (toLE 1 0x13)) :=
  congrArg Host.Outcome.next (if_neg (by simp [hm]))

theorem execGetCapabilities_mailbox (hm : mailbox s p = true) : execGetCapabilities p s =
    .next (if spdmStage s p = 0 then spdmError s p 0 errUnexpected else spdm (setStage s p 2) p 0 0x61 (toLE 1 0x13)) :=
  congrArg Host.Outcome.next (if_neg (by simp [hm]))

theorem execNegotiateAlgorithms_offered (hm : mailbox s p = true) (h2 : 2 ≤ spdmStage s p) :
    execNegotiateAlgorithms p true s = .next (spdm (setStage s p 3) p 0 0x63 (toLE 1 0x13)) :=
  congrArg Host.Outcome.next ((if_neg (by simp [hm])).trans ((if_neg h2.not_gt).trans (if_neg (by decide))))

theorem negotiated_early (hm : mailbox s p = true) (h3 : spdmStage s p < 3) (f : State → State) :
    negotiated s p sess f = spdmError s p sess errUnexpected := (if_neg (by simp [hm])).trans (if_pos h3)

theorem negotiated_connected (hm : mailbox s p = true) (h3 : 3 ≤ spdmStage s p) (f : State → State) :
    negotiated s p sess f = f s := (if_neg (by simp [hm])).trans (if_neg h3.not_gt)

section
variable (hm : mailbox s p = true) (h3 : 3 ≤ spdmStage s p)
include hm h3

theorem inSession_outside (f : State → State) : inSession s p 0 true f = f s := negotiated_connected hm h3 _

theorem inSession_established (h0 : sess ≠ 0) (hx : session? s p sess = some x) (he : x.established = true)
    (outside : Bool) (f : State → State) : inSession s p sess outside f = f s := by
  rw [inSession, negotiated_connected hm h3, if_neg h0, hx]
  exact if_pos he

/-- A request that may come in an established session or outside every one. -/
theorem inSession_allowed (h : sess = 0 ∨ session? s p sess = some x ∧ x.established = true) (f : State → State) :
    inSession s p sess true f = f s := by
  by_cases h0 : sess = 0
  · subst h0
    exact inSession_outside hm h3 f
  · obtain ⟨hx, he⟩ := h.resolve_left h0
    exact inSession_established hm h3 h0 hx he true f

/-! ### Certificates, challenge and measurements -/

theorem execGetCertificate_part (h : sess = 0 ∨ session? s p sess = some x ∧ x.established = true) (hslot : slot ≤ 1)
    (hoff : off < (chain s slot).length) : execGetCertificate p sess slot off len s =
      .next (spdm s p sess 0x02 (toLE 1 slot ++ toLE 2 (((chain s slot).drop off).take len).length
        ++ toLE 2 ((chain s slot).length - off - (((chain s slot).drop off).take len).length)
        ++ ((chain s slot).drop off).take len)) :=
  congrArg Host.Outcome.next ((inSession_allowed hm h3 h _).trans (if_neg (by simp [hslot, hoff])))

theorem execGetCertificate_noSlot (h : sess = 0 ∨ session? s p sess = some x ∧ x.established = true) (hslot : 1 < slot) :
    execGetCertificate p sess slot off len s = .next (spdmError s p sess errInvalid) :=
  congrArg Host.Outcome.next ((inSession_allowed hm h3 h _).trans (if_pos (by simp [hslot])))

theorem execGetMeasurements_one (h : sess = 0 ∨ session? s p sess = some x ∧ x.established = true) (hlo : 1 ≤ index)
    (hhi : index ≤ 5) : execGetMeasurements p sess index false nonce s =
      .next (spdm s p sess 0x60 (toLE 1 1 ++ (toLE 1 index ++ measurement s index))) := by
  have h0 : index ≠ 0 := Nat.ne_of_gt hlo
  have hFF : index ≠ 0xFF := by omega
  have hbody := inSession_allowed hm h3 h
  rw [execGetMeasurements, hbody, if_neg (by simp [hhi])]
  simp only [h0, hFF, if_false, Bool.false_eq_true, List.length_singleton, List.flatMap_singleton]

theorem execChallenge_signed (hslot : slot ≤ 1) : execChallenge p slot nonce s =
    .next (spdm (nonce32 s).2 p 0 0x03 (signed slot (sub nonce 0 32 ++ toLE 1 slot
      ++ Config.sha384 (chain (nonce32 s).2 slot) ++ (nonce32 s).1 ++ bootDigest (nonce32 s).2))) :=
  congrArg Host.Outcome.next ((inSession_outside hm h3 _).trans (if_neg hslot.not_gt))

/-! ### Sessions -/

section
variable (hslot : slot ≤ 1) (hshare : Config.onCurve share = true)
include hslot hshare

/-- A good KEY_EXCHANGE with room for its session draws an ephemeral key and a nonce and opens the session (R363). -/
theorem execKeyExchange_opens (hp : (s.sec.sessions.filter (·.port == p)).length < 4) (hall : s.sec.sessions.length < 8)
    {d v : State} {k : Nat} {n body : Bytes} (hk : (k, d) = draw { s with nextId := s.nextId + 1 }) (hn : (n, v) = nonce32 d)
    (hbody : body = signed slot (toLE 4 (s.nextId + 1) ++ toLE 1 (b2n wm) ++ Config.ephemeral k ++ n)) :
    execKeyExchange p slot wm share s = .next (spdmPlain { v with sec := { v.sec with sessions := v.sec.sessions ++
      [handshakeKeys { id := s.nextId + 1, port := p, wantsMutual := wm, transcript := toLE 1 slot ++ share ++ body }
        (Config.ephemeralDh k share)] } } p (s.nextId + 1) 0x64 body) := by
  subst hbody
  rw [execKeyExchange, inSession_outside hm h3, if_neg (by simp [hslot, hshare]), if_neg (by simp [hp, hall])]
  simp only [← hk, ← hn]

theorem execKeyExchange_busy (h : 4 ≤ (s.sec.sessions.filter (·.port == p)).length ∨ 8 ≤ s.sec.sessions.length) :
    execKeyExchange p slot wm share s = .next (spdmError s p 0 errBusy) := by
  rw [execKeyExchange, inSession_outside hm h3, if_neg (by simp [hslot, hshare]), if_pos (by simpa using h)]

end

/-- FINISH of a session that is not established: proven it becomes established, otherwise it ends (R363, R366). -/
theorem execFinish_handshake (hx : session? s p sess = some x) (he : x.established = false) :
    execFinish p sess leaf sig mac s = .next (if finishOk x leaf sig mac then
      setSession (spdm s p sess 0x65 []) (dataKeys { x with
        established := true, func := if x.wantsMutual then tenantOf s leaf else none, transcript := x.transcript ++ sig ++ mac })
      else spdmError (endSessions s (·.id == sess)) p sess errInvalid) := by
  rw [execFinish, negotiated_connected hm h3, hx]
  dsimp only
  rw [if_neg (Bool.eq_false_iff.1 he)]
  cases finishOk x leaf sig mac with
  | true => rfl
  | false => rfl

section
variable (h0 : sess ≠ 0) (hx : session? s p sess = some x) (he : x.established = true)
include h0 hx he

theorem execKeyUpdate_updates (hlo : 1 ≤ op) (hhi : op ≤ 3) :
    execKeyUpdate p sess op s = .next (spdm (setSession s (updatedKeys x op)) p sess 0x69 (toLE 1 op)) := by
  rw [execKeyUpdate, inSession_established hm h3 h0 hx he, if_neg (by simp [Nat.ne_of_gt hlo, hhi]), hx]

/-! ### Key slots -/

theorem keyRequest_unbound (hf : x.func = none) (f : State → Nat → State) :
    keyRequest s p sess f = spdm s p sess 0x7E (toLE 2 eSecSession) := by
  rw [keyRequest, inSession_established hm h3 h0 hx he, hx]
  simp only [Option.bind_some, hf]

theorem keyRequest_bound (hf : x.func = some g) (hg : funcState s g ≠ 0) (f : State → Nat → State) :
    keyRequest s p sess f = f s g := by
  rw [keyRequest, inSession_established hm h3 h0 hx he, hx]
  simp only [Option.bind_some, hf]
  exact if_neg hg

end

end

end

/-- Settles O54: each request by the equation of its case. -/
theorem spdmMailbox : Obligations.SpdmMailbox := by
  intro s p sess slot off len index usage op nonce share leaf sig mac key wm x g hm
  refine ⟨execGetVersion_mailbox hm,
    fun h => (execGetCapabilities_mailbox hm).trans (congrArg Host.Outcome.next (if_neg h)),
    fun h => (execGetCapabilities_mailbox hm).trans (congrArg Host.Outcome.next (if_pos h)),
    execNegotiateAlgorithms_offered hm, fun h3 => congrArg Host.Outcome.next (negotiated_early hm h3 _),
    fun h3 h => ?identity, fun h3 hslot => execChallenge_signed hm h3 hslot, fun h3 hslot hshare => ?exchange,
    fun h3 hx he => ?finish, fun h3 h0 hx he => ⟨execKeyUpdate_updates hm h3 h0 hx he, ?heartbeat, ?ends, fun hf hg => ?slots,
      fun hf => congrArg Host.Outcome.next (keyRequest_unbound hm h3 h0 hx he hf _)⟩⟩
  case identity =>
    exact ⟨congrArg Host.Outcome.next (inSession_allowed hm h3 h _), execGetCertificate_part hm h3 h,
      execGetCertificate_noSlot hm h3 h, execGetMeasurements_one hm h3 h⟩
  case exchange =>
    exact ⟨fun hp hall d v k n body hk hn hbody => execKeyExchange_opens hm h3 hslot hshare hp hall hk hn hbody,
      execKeyExchange_busy hm h3 hslot hshare⟩
  case finish =>
    have hfin := execFinish_handshake (leaf := leaf) (sig := sig) (mac := mac) hm h3 hx he
    exact ⟨fun hok => hfin.trans (congrArg Host.Outcome.next (if_pos hok)),
      fun hbad => hfin.trans (congrArg Host.Outcome.next (if_neg (Bool.eq_false_iff.1 hbad)))⟩
  case heartbeat => exact congrArg Host.Outcome.next (inSession_established hm h3 h0 hx he false _)
  case ends => exact congrArg Host.Outcome.next (inSession_established hm h3 h0 hx he false _)
  case slots =>
    have hreq := keyRequest_bound hm h3 h0 hx he hf hg
    exact ⟨fun hslot husage => congrArg Host.Outcome.next ((hreq _).trans (if_neg (by simp [hslot, husage]))),
      fun hslot => congrArg Host.Outcome.next ((hreq _).trans (if_neg hslot.not_ge)),
      congrArg Host.Outcome.next (hreq _)⟩

end Sys2Proof.Machine

/-! PROOF. Wain channels: their page's commands, and a chain from its post to its start (R335-R340, R343, R348, R350). -/

namespace Sys2Proof.Machine

section
variable {s s0 t u : State} {a : Access} {pl : Place} {c v w off func : Nat} {ch : Chain} {d : RunDesc} {data : Bytes}
  {ok : Bool}

/-! ### The page of a channel -/

theorem pageType_pgWain : ∀ {c : Nat}, c < 32 → pageType (pgWain c) = 0x11 := by decide

theorem wainOf_pgWain (c : Nat) : wainOf (pgWain c) = c := Nat.add_sub_cancel_left ..

/-- The chain that a post names by its low and high word (R337, R356). -/
def postedChain (s : State) (c hi port : Nat) : Chain :=
  { addr := 64 * (rd s (K.wainPostLo c) / 64) + 2 ^ 32 * hi, gran := bit (rd s (K.wainPostLo c)) 0, port := port }

section
variable (hc : c < 32) (hr : Reaches s a pl) (hp : pl.page = pgWain c)
include hc hr hp

theorem execWainPost_wide (hs0 : s0 = storeReg s (K.wainPostLo c) (w % 2 ^ 32)) (ho : pl.off = 0x48)
    (hf : fenceState s0 = 0) :
    execWainPost a true w s = .next (postChain s0 c a.func (postedChain s0 c (w / 2 ^ 32) a.port) 0x4C) := by
  subst hs0
  rw [execWainPost, atPlace_reaches hr]
  simp only [hp, ho, pageType_pgWain hc, wainOf_pgWain, BEq.rfl, Bool.and_self, Bool.true_or, decide_true, if_true]
  exact congrArg Host.Outcome.next (if_neg (not_not_intro hf))

/-- A write of the high word posts with the low word as stored, unless the module is fenced (R337, log entry 44). -/
theorem execWainPost_high (ho : pl.off = 0x4C) : execWainPost a false v s =
    .next (if fenceState s ≠ 0 then recordErr s pl.page eFenced a.func 0x4C
      else postChain s c a.func (postedChain s c (v % 2 ^ 32) a.port) 0x4C) := by
  rw [execWainPost, atPlace_reaches hr]
  simp only [hp, ho, pageType_pgWain hc, wainOf_pgWain, BEq.rfl, Bool.and_false, Bool.or_true, decide_true, Bool.and_self,
    Bool.false_eq_true, if_true, if_false]
  rfl

theorem execAbort_reaches (ho : pl.off = 0x50) (hv : bit v 0 = true) :
    execAbort a v s = .next (abortWain s c eWainAborted) := by
  rw [execAbort, atPlace_reaches hr, if_pos (by simp [hp, ho, hv, pageType_pgWain hc]), hp, wainOf_pgWain]

theorem execResume_reaches (ho : pl.off = 0x50) (h1 : bit v 1 = true) (h0 : bit v 0 = false) : execResume a v s =
    .next (if wainSt s c = 2 then startChain (setWainSt s c 1) c else recordErr s pl.page eWainState a.func 0x50) := by
  rw [execResume, atPlace_reaches hr, if_pos (by simp [hp, ho, h1, h0, pageType_pgWain hc]), hp, wainOf_pgWain]

theorem execWainCqHead_waiting (ho : pl.off = 0x70) (hd : (wain (storeReg s pl.key v) c).desc = some d)
    (hq : d.waitCq = true) (hst : wainSt (storeReg s pl.key v) c = 1) :
    execWainCqHead a v s = .next (startDesc (storeReg s pl.key v) c d) := by
  rw [execWainCqHead, atPlace_reaches hr, if_pos (by simp [hp, ho, pageType_pgWain hc]), hp, wainOf_pgWain]
  simp only [hd, hq, hst, decide_true, Bool.and_self, if_true]

theorem execWainCqHead_noDesc (ho : pl.off = 0x70) (hd : (wain (storeReg s pl.key v) c).desc = none) :
    execWainCqHead a v s = .next (storeReg s pl.key v) := by
  rw [execWainCqHead, atPlace_reaches hr, if_pos (by simp [hp, ho, pageType_pgWain hc]), hp, wainOf_pgWain]
  simp only [hd]

end

/-! ### Posts -/

theorem postChain_aborting (h : wainSt s c = 3) : postChain s c func ch off = recordErr s (pgWain c) eWainState func off :=
  if_pos h

theorem postChain_full (h : wainSt s c ≠ 3) (hfull : 64 ≤ (wain s c).posts.length) :
    postChain s c func ch off = recordErr s (pgWain c) eWainPostFull func off :=
  (if_neg h).trans (if_pos hfull)

/-! ### Descriptor fetches -/

theorem execDescriptorFetchReturn_channel (hc : c < 32) :
    execDescriptorFetchReturn c ok data s = .next (descFetched c ok data s) := congrArg Host.Outcome.next (if_pos hc)

theorem descFetched_noChain (h : (wain s c).next = none) : descFetched c ok data s = s := by
  simp only [descFetched, h]

theorem descFetched_writing (h : writing s (uWain c) = true) : descFetched c ok data s = s := by
  cases hn : (wain s c).next with
  | none => exact descFetched_noChain hn
  | some ch =>
    simp only [descFetched, hn]
    exact if_pos (by simp [h])

/-- A descriptor as its fetch leaves it: with a code it has failed. -/
def checkedDesc (d : RunDesc) (code : Nat) : RunDesc := if code ≠ 0 then { d with failed := some (code, 0) } else d

theorem checkedDesc_failed {code : Nat} (h : code ≠ 0) : checkedDesc d code = { d with failed := some (code, 0) } := if_pos h

theorem checkedDesc_good : checkedDesc d 0 = d := if_neg (by decide)

/-- What is done through a port that may be missing, in the two forms in which the model and the obligation say it. -/
theorem match_eq_getD_map (t : State) (through : Nat → State) (o : Option Nat) :
    (match o with | some p => through p | none => t) = (o.map through).getD t := by
  cases o with
  | none => rfl
  | some p => rfl

/-- A host's chain is to be fetched by the channel, which is active and holds no descriptor and no write (R337, R343). -/
structure FetchesHost (s : State) (c : Nat) (ch : Chain) : Prop where
  next : (wain s c).next = some ch
  active : wainSt s c = 1
  free : (wain s c).desc = none
  quiet : writing s (uWain c) = false
  host : ch.firmware = false

section
variable (hf : FetchesHost s c ch) (ht : t = wr64 (setWain s c { wain s c with next := none }) (K.wainCurLo c) ch.addr)
include hf ht

/-- A descriptor in host memory is read through a port, if one is up (R340, R344). -/
theorem descFetched_fromHost (hg : ch.gran = false)
    (hd : d = { addr := ch.addr, gran := false, body := sub data 0 64, port := ch.port, firmware := false
                rest := ch.descs.drop 1, job := ch.job })
    (hu : u = ((choosePort t ch.port).map fun p => hostIn t c p ch.addr 64).getD t) : descFetched c ok data s =
      startDesc u c (checkedDesc d (if ok then descCode t c (sub data 0 64) false else eWainHostErr)) := by
  obtain ⟨hnext, hst, hdesc, hw, hfw⟩ := hf
  have hcode : ∀ fails good : Nat, (if (!ok) = true then fails else good) = if ok = true then good else fails := by
    cases ok with
    | true => exact fun _ _ => rfl
    | false => exact fun _ _ => rfl
  rw [hu, hd]
  simp only [descFetched, hnext]
  rw [if_neg (by simp [hst, hdesc, hw])]
  simp only [hfw, hg, Bool.false_eq_true, if_false, ← ht, checkedDesc, hcode]
  exact congrArg (startDesc · c _) (match_eq_getD_map t (fun p => hostIn t c p ch.addr 64) (choosePort t ch.port))

/-- A descriptor in the granary is read unless its range is refused or holds poison (R340, R487). -/
theorem descFetched_fromGranary (hg : ch.gran = true)
    (hd : d = { addr := ch.addr, gran := true, body := greadOf s (uWain c) ch.addr 64, port := ch.port, firmware := false
                rest := ch.descs.drop 1, job := ch.job }) : descFetched c ok data s =
      startDesc t c (checkedDesc d (if rangeCode t c ch.addr 64 false ≠ 0 then rangeCode t c ch.addr 64 false
        else if poisonedIn t ch.addr 64 then ePoison else descCode t c d.body false)) := by
  obtain ⟨hnext, hst, hdesc, hw, hfw⟩ := hf
  rw [hd]
  simp only [descFetched, hnext]
  rw [if_neg (by simp [hst, hdesc, hw])]
  simp only [hfw, hg, Bool.false_eq_true, if_false, if_true, ← ht, checkedDesc]

end

/-! ### Starts and failures -/

/-- Without a free completion entry a descriptor, failed or not, waits (R348). -/
theorem startDesc_cqFull (hfw : d.firmware = false) (hq : cqFull s c = true) :
    startDesc s c d = wf (setWain s c { wain s c with desc := some { d with waitCq := true } }) (K.wainState c) 3 3 1 :=
  if_pos (by simp [hfw, hq])

theorem startDesc_failed {f : Nat × Nat} (hd : d.failed = some f) (hq : cqFull s c = false) :
    startDesc s c d = failDesc s c d f.1 f.2 := by
  rw [startDesc, if_neg (by simp [hq])]
  simp only [hd]

theorem drainFunnel_empty (h : d.funnel = []) : drainFunnel s c d = s := by
  rw [drainFunnel, h]
  exact ite_self _

/-- A descriptor with an empty funnel that fails waits for its writes (R345, R347). -/
theorem failDesc_emptyFunnel {code detail : Nat} {e : RunDesc} (hd : d.funnel = []) (hst : wainSt s c ≠ 3)
    (he : e = { d with failed := some (code, detail), waitCq := false }) : failDesc s c d code detail =
      if writing s (uWain c) then setWain s c { wain s c with desc := some e } else endFailed s c e code detail := by
  subst he
  rw [failDesc, if_neg hst, drainFunnel_empty hd, ← hd]

end

/-! ### The funnel -/

section
variable (l : List Host.Cell) (r : Nat × Nat) (a : Nat) (bs : Bytes)

/-- The first byte that the funnel lets go: of the line of a, once the bytes before a are held, or of the next line (R342). -/
def funnelLo : Nat :=
  if (heldRange l (max r.1 (64 * (a / 64))) (a - max r.1 (64 * (a / 64)))).isSome then max r.1 (64 * (a / 64))
  else 64 * (a / 64) + 64

/-- The end of what the funnel lets go of bytes that end at e (R342). -/
def funnelHi (e : Nat) : Nat :=
  if (heldRange l e (min r.2 (64 * cdiv e 64) - e)).isSome then min r.2 (64 * cdiv e 64) else 64 * (e / 64)

theorem funnelStep_fst : (funnelStep l r a bs).1 = funnelLo l r a := rfl

theorem funnelLo_aligned : funnelLo l r a % 64 = 0 ∨ funnelLo l r a = r.1 := by
  unfold funnelLo
  split_ifs
  · omega
  · omega

theorem funnelHi_aligned (e : Nat) : funnelHi l r e % 64 = 0 ∨ funnelHi l r e = r.2 := by
  unfold funnelHi
  split_ifs
  · omega
  · omega

variable {l}

theorem heldRange_length {n : Nat} {held : Bytes} (h : heldRange l a n = some held) : held.length = n := by
  simp only [heldRange] at h
  split_ifs at h with hlen
  obtain rfl := Option.some.inj h
  exact hlen

variable {r a bs}

/-- What the funnel lets go of bytes within the destination run lies between `funnelLo` and `funnelHi`. -/
theorem funnelStep_length (hlo : r.1 ≤ a) (hhi : a + bs.length ≤ r.2) :
    (funnelStep l r a bs).2.1.length = funnelHi l r (a + bs.length) - funnelLo l r a := by
  have hline : a + bs.length ≤ 64 * cdiv (a + bs.length) 64 := by unfold cdiv; omega
  unfold funnelStep funnelLo funnelHi
  dsimp only
  rw [List.length_take, List.length_drop, List.length_append, List.length_append]
  cases hlow : heldRange l (max r.1 (64 * (a / 64))) (a - max r.1 (64 * (a / 64))) with
  | none => cases hhigh : heldRange l (a + bs.length) (min r.2 (64 * cdiv (a + bs.length) 64) - (a + bs.length)) with
    | none =>
      simp only [Option.isSome_none, Option.getD_none, Bool.false_eq_true, if_false, List.length_nil]
      omega
    | some high =>
      have hlen := heldRange_length _ hhigh
      simp only [Option.isSome_none, Option.isSome_some, Option.getD_none, Option.getD_some, Bool.false_eq_true, if_false,
        if_true, List.length_nil]
      omega
  | some low =>
    have hlen := heldRange_length _ hlow
    cases hhigh : heldRange l (a + bs.length) (min r.2 (64 * cdiv (a + bs.length) 64) - (a + bs.length)) with
    | none =>
      simp only [Option.isSome_none, Option.isSome_some, Option.getD_none, Option.getD_some, Bool.false_eq_true, if_false,
        if_true, List.length_nil]
      omega
    | some high =>
      have hlen' := heldRange_length _ hhigh
      simp only [Option.isSome_some, Option.getD_some, if_true]
      omega

/-- The funnel lets whole lines go, but for the ends of the destination run (R342). -/
theorem funnelStep_wholeLines (hlo : r.1 ≤ a) (hhi : a + bs.length ≤ r.2) : (funnelStep l r a bs).2.1 = [] ∨
    (((funnelStep l r a bs).1 % 64 = 0 ∨ (funnelStep l r a bs).1 = r.1) ∧
      (((funnelStep l r a bs).1 + (funnelStep l r a bs).2.1.length) % 64 = 0 ∨
        (funnelStep l r a bs).1 + (funnelStep l r a bs).2.1.length = r.2)) := by
  have hlen := funnelStep_length (l := l) hlo hhi
  rcases Nat.le_total (funnelHi l r (a + bs.length)) (funnelLo l r a) with hle | hle
  · exact .inl (List.length_eq_zero_iff.1 (hlen.trans (Nat.sub_eq_zero_of_le hle)))
  · refine .inr ⟨funnelLo_aligned l r a, ?_⟩
    rw [hlen, funnelStep_fst, Nat.add_sub_cancel' hle]
    exact funnelHi_aligned l r _

end

/-! ### Units of a running descriptor -/

section
variable {s t : State} {c i : Nat} {idx data : Bytes} {ok : Bool} {d : RunDesc}

theorem execBurstDone_channel (hc : c < 32) : execBurstDone c i idx data s = .next (burstDone c i idx data s) :=
  congrArg Host.Outcome.next (if_pos hc)

/-- A descriptor of an active channel runs: it has not failed and waits for nothing. -/
structure Runs (s : State) (c : Nat) (d : RunDesc) : Prop where
  desc : (wain s c).desc = some d
  started : d.waitCq = false
  good : d.failed = none
  active : wainSt s c = 1

/-- A unit of a running descriptor that is not done moves by the kind of the descriptor (R341, R343, R352). -/
theorem burstDone_moves (hrun : Runs s c d) (hb : d.bursts.contains i = false) (hi : i < units d.body) :
    burstDone c i idx data s =
      if dIndexed d.body then moveElement s c d i idx data
      else if dCrypt d.body then (if i = d.bursts.length then moveFrame s c d i data else s)
      else copyUnit s c d i (dSrc d.body + (unitAt d.body i).1) (dDst d.body + (unitAt d.body i).1) (unitAt d.body i).2 data := by
  obtain ⟨hd, hq, hf, hst⟩ := hrun
  simp only [burstDone, hd]
  exact if_neg (by rw [hb]; simp [hq, hf, hst, hi])

theorem burstDone_failed {f : Nat × Nat} (hd : (wain s c).desc = some d) (hf : d.failed = some f) :
    burstDone c i idx data s = s := by
  simp only [burstDone, hd]
  exact if_pos (by simp [hf])

theorem burstDone_noDesc (hd : (wain s c).desc = none) : burstDone c i idx data s = s := by simp only [burstDone, hd]

theorem execWainHostErr_runs (hrun : Runs s c d) : execWainHostErr c i s = .next (failDesc s c d eWainHostErr i) := by
  obtain ⟨hd, hq, hf, hst⟩ := hrun
  simp only [execWainHostErr, hd]
  exact if_neg (by simp [hq, hf, hst])

theorem execWainHostErr_failed {f : Nat × Nat} (hd : (wain s c).desc = some d) (hf : d.failed = some f) :
    execWainHostErr c i s = .next s := by
  simp only [execWainHostErr, hd]
  exact if_pos (by simp [hf])

theorem execWainHostErr_noDesc (hd : (wain s c).desc = none) : execWainHostErr c i s = .next s := by
  simp only [execWainHostErr, hd]

/-! ### The end of a descriptor -/

theorem execDescriptorComplete_runs (hrun : Runs s c d) (hw : writing s (uWain c) = false) :
    execDescriptorComplete c ok s = .next (if allMoved d then readBack s c d ok else s) := by
  obtain ⟨hd, hq, hf, hst⟩ := hrun
  simp only [execDescriptorComplete, hd]
  rw [if_neg (by simp [hq, hst, hw])]
  simp only [hf]

theorem execDescriptorComplete_writing (hw : writing s (uWain c) = true) : execDescriptorComplete c ok s = .next s := by
  cases hd : (wain s c).desc with
  | none => simp only [execDescriptorComplete, hd]
  | some d =>
    simp only [execDescriptorComplete, hd]
    exact if_pos (by simp [hw])

theorem execDescriptorComplete_failed {f : Nat × Nat} (hd : (wain s c).desc = some d) (hq : d.waitCq = false)
    (hf : d.failed = some f) (hst : wainSt s c = 1) (hw : writing s (uWain c) = false) :
    execDescriptorComplete c ok s = .next (endFailed s c d f.1 f.2) := by
  simp only [execDescriptorComplete, hd]
  rw [if_neg (by simp [hq, hst, hw])]
  simp only [hf]

theorem execDescriptorComplete_noDesc (hd : (wain s c).desc = none) : execDescriptorComplete c ok s = .next s := by
  simp only [execDescriptorComplete, hd]

theorem readBack_none (h : dDurable d.body = true → dDstGrn d.body = true) : readBack s c d ok = succeed s c d := by
  refine if_neg ?_
  cases hdur : dDurable d.body with
  | false => simp
  | true => simp [h hdur]

/-- A DURABLE descriptor to host memory ends by its last write's read-back (R347). -/
theorem readBack_durable (hdur : dDurable d.body = true) (hg : dDstGrn d.body = false) : readBack s c d ok =
    if ok then succeed (hostIn s c d.port (lastWritten d) 4) c d
    else failDesc s c d eWainHostErr
      (if dCrypt d.body then frameBurst d.body 0 (lastWritten d + 3 - dDst d.body) else units d.body - 1) :=
  if_pos (by simp [hdur, hg])

/-! ### The end of an abort -/

theorem execAbortDone_channel (hc : c < 32) : execAbortDone c s = .next (abortDone c s) :=
  congrArg Host.Outcome.next (if_pos hc)

/-- The codes of a copy's descriptors that an abort ends before they ran (R351, R355). -/
def abortEnded (x : Wain) : List (Nat × Nat) :=
  (x.next.toList ++ x.posts).flatMap fun h => h.descs.map fun _ => (h.job, x.abortCode)

/-- The channel IDLE with an empty queue, as an abort leaves it (R350, R351). -/
def abortedWain (t : State) (c : Nat) (ended : List (Nat × Nat)) : State :=
  startChain (wf (showPosted (setWainSt (setWain { t with fwDone := t.fwDone ++ ended } c { phase := (wain t c).phase }) c 0) c)
    (K.wainState c) 3 3 0) c

/-- An abort whose writes are acknowledged, on a channel that keeps its owner and is not to be reset (R351). -/
structure AbortEnds (s : State) (c : Nat) : Prop where
  aborting : wainSt s c = 3
  quiet : writing s (uWain c) = false
  owner : (wain s c).newOwner = none
  keep : (wain s c).resetAfter = false

section
variable (h : AbortEnds s c) {ended : List (Nat × Nat)} (he : ended = abortEnded (wain s c))
include h he

theorem abortDone_noDesc (hd : (wain s c).desc = none) (ht : t = raiseIrq s (pgWain c) 18) :
    abortDone c s = abortedWain t c ended := by
  obtain ⟨hst, hw, hown, hkeep⟩ := h
  subst ht he
  rw [abortDone, if_neg (by simp [hst, hw])]
  simp only [hd, hown, hkeep, List.nil_append, Bool.false_eq_true, if_false, ← List.flatMap_append]
  rfl

/-- The record and message of the descriptor that was aborted precede the interrupt (R349, R351). -/
theorem abortDone_desc (hd : (wain s c).desc = some d) (hq : d.waitCq = false) (hfw : d.firmware = false)
    (ht : t = raiseIrq (wainMsg (wainRecord s c d (wain s c).abortCode (residue d) 0) c d 3 (wain s c).abortCode (residue d) 0)
      (pgWain c) 18) : abortDone c s = abortedWain t c ended := by
  obtain ⟨hst, hw, hown, hkeep⟩ := h
  subst ht he
  rw [abortDone, if_neg (by simp [hst, hw])]
  simp only [hd, hq, hfw, hown, hkeep, List.nil_append, Bool.false_eq_true, if_false, ← List.flatMap_append]
  rfl

end

theorem abortDone_notAborting (h : wainSt s c ≠ 3) : abortDone c s = s := if_pos (by simp [h])

end

/-- Settles O51: each command of the page and each event of a channel by the equation of its case, the funnel by where what
it lets go begins and ends. -/
theorem wainChannels : Obligations.WainChannels := by
  intro s a pl c v i data idx ok ch d hc
  refine ⟨fun hr hp => ?page, fun _ _ => postChain_aborting, fun _ _ => postChain_full,
    fun hnext hst hdesc hw hfw t ht => ?fetched,
    fun hw => (execDescriptorFetchReturn_channel hc).trans (congrArg Host.Outcome.next (descFetched_writing hw)),
    fun f hf => ⟨startDesc_cqFull, startDesc_failed hf⟩, fun code detail e hd hst he => ?failed,
    fun _ _ _ _ => funnelStep_wholeLines,
    fun hnext => (execDescriptorFetchReturn_channel hc).trans (congrArg Host.Outcome.next (descFetched_noChain hnext)),
    fun hd hq hf hst => ?running, fun f hd hq hf => ?hasFailed, fun hd => ?noDesc,
    fun hst hw hown hkeep t ended he => ?aborted,
    fun hst => (execAbortDone_channel hc).trans (congrArg Host.Outcome.next (abortDone_notAborting hst))⟩
  case page =>
    refine ⟨fun s0 w hs0 => execWainPost_wide hc hr hp hs0,
      fun ho hf => (execWainPost_high hc hr hp ho).trans (congrArg Host.Outcome.next (if_neg (not_not_intro hf))),
      fun ho hf => (execWainPost_high hc hr hp ho).trans (congrArg Host.Outcome.next (if_pos hf)),
      execAbort_reaches hc hr hp,
      fun ho h1 h0 hst => (execResume_reaches hc hr hp ho h1 h0).trans (congrArg Host.Outcome.next (if_pos hst)),
      fun ho h1 h0 hst => (execResume_reaches hc hr hp ho h1 h0).trans (congrArg Host.Outcome.next (if_neg hst)),
      execWainCqHead_waiting hc hr hp, execWainCqHead_noDesc hc hr hp⟩
  case fetched =>
    have hf : FetchesHost s c ch := ⟨hnext, hst, hdesc, hw, hfw⟩
    refine ⟨fun hg hd u hu => ?_, fun hg hd => ?_⟩
    · have hfetch := fun ok => (execDescriptorFetchReturn_channel hc).trans
        (congrArg Host.Outcome.next (descFetched_fromHost (ok := ok) hf ht hg hd hu))
      refine ⟨fun hcode => (hfetch true).trans ?_, fun hcode => (hfetch true).trans ?_, (hfetch false).trans ?_⟩
      · rw [if_pos rfl, hcode, checkedDesc_good]
      · rw [if_pos rfl, checkedDesc_failed hcode]
      · rw [if_neg (by decide), checkedDesc_failed (by decide)]
    · have hfetch := (execDescriptorFetchReturn_channel (ok := ok) hc).trans
        (congrArg Host.Outcome.next (descFetched_fromGranary (data := data) hf ht hg hd))
      refine ⟨fun hrange => hfetch.trans ?_, fun hrange hp => hfetch.trans ?_, fun hrange hp hcode => hfetch.trans ?_,
        fun hrange hp hcode => hfetch.trans ?_⟩
      · rw [if_pos hrange, checkedDesc_failed hrange]
      · rw [if_neg (not_not_intro hrange), if_pos hp, checkedDesc_failed (by decide)]
      · rw [if_neg (not_not_intro hrange), if_neg (Bool.eq_false_iff.1 hp), checkedDesc_failed hcode]
      · rw [if_neg (not_not_intro hrange), if_neg (Bool.eq_false_iff.1 hp), hcode, checkedDesc_good]
  case failed =>
    have hfail := failDesc_emptyFunnel hd hst he
    exact ⟨fun hw => hfail.trans (if_pos hw), fun hw => hfail.trans (if_neg (Bool.eq_false_iff.1 hw))⟩
  case running =>
    have hrun : Runs s c d := ⟨hd, hq, hf, hst⟩
    have hmove := fun hb hi => (execBurstDone_channel (i := i) (idx := idx) (data := data) hc).trans
      (congrArg Host.Outcome.next (burstDone_moves hrun hb hi))
    have hend := fun ok hw => execDescriptorComplete_runs (ok := ok) hrun hw
    refine ⟨fun hb hi hx hcr => (hmove hb hi).trans ?_, fun hb hi hx => (hmove hb hi).trans ?_,
      fun hb hi hx hcr hlen => (hmove hb hi).trans ?_, execWainHostErr_runs hrun,
      fun hall hw hdur => (hend ok hw).trans ?_,
      fun hall hw hdur hg => ⟨(hend true hw).trans ?_, (hend false hw).trans ?_⟩, fun h => ?waits⟩
    · rw [if_neg (Bool.eq_false_iff.1 hx), if_neg (Bool.eq_false_iff.1 hcr)]
    · rw [if_pos hx]
    · rw [if_neg (Bool.eq_false_iff.1 hx), if_pos hcr, if_pos hlen]
    · rw [if_pos hall, readBack_none hdur]
    · rw [if_pos hall, readBack_durable hdur hg, if_pos rfl]
    · rw [if_pos hall, readBack_durable hdur hg, if_neg (by decide)]
    case waits =>
      cases hw : writing s (uWain c) with
      | true => exact execDescriptorComplete_writing hw
      | false =>
        have hmoved : allMoved d = false := h.resolve_right (by simp [hw])
        exact (hend ok hw).trans (congrArg Host.Outcome.next (if_neg (Bool.eq_false_iff.1 hmoved)))
  case hasFailed =>
    exact ⟨(execBurstDone_channel hc).trans (congrArg Host.Outcome.next (burstDone_failed hd hf)),
      execWainHostErr_failed hd hf, execDescriptorComplete_failed hd hq hf, execDescriptorComplete_writing⟩
  case noDesc =>
    exact ⟨(execBurstDone_channel hc).trans (congrArg Host.Outcome.next (burstDone_noDesc hd)),
      execWainHostErr_noDesc hd, execDescriptorComplete_noDesc hd⟩
  case aborted =>
    have habort : AbortEnds s c := ⟨hst, hw, hown, hkeep⟩
    exact ⟨fun hd ht => (execAbortDone_channel hc).trans (congrArg Host.Outcome.next (abortDone_noDesc habort he hd ht)),
      fun hd hq hfw ht =>
        (execAbortDone_channel hc).trans (congrArg Host.Outcome.next (abortDone_desc habort he hd hq hfw ht))⟩

end Sys2Proof.Machine
